-- ==== Sys2Proof/Word.lean ====
section
/-! DEFINITION. The word types of the PX9680 and their plainest arithmetic (spec/00_scope.md R4, spec/06_eoren_model.md R176).
Bit vectors hold what the manual adds, shifts, masks or shows software as a word; indexes are `Fin`, counts are `Nat`. -/

namespace Sys2Proof

abbrev Byte := BitVec 8
abbrev W16 := BitVec 16
abbrev W24 := BitVec 24
abbrev W32 := BitVec 32
abbrev W40 := BitVec 40
abbrev W48 := BitVec 48
abbrev W64 := BitVec 64

/-- A string of bytes, first byte first. -/
abbrev Bytes := List Byte

/-- Wythe 0 or 1 (R10's chapter). -/
abbrev WytheIx := Fin 2
/-- Course 0–5 of a wythe. -/
abbrev CourseIx := Fin 6
/-- Core 0–7 of a course. -/
abbrev CoreIx := Fin 8
/-- Context 0–7 of a core. -/
abbrev CtxIx := Fin 8
/-- Task control block 0–63 of a core (R225). -/
abbrev TcbIx := Fin 64
/-- Port 0–23 Ethernet, 24 the host port (R69). -/
abbrev PortIx := Fin 25
/-- Ethernet port 0–23. -/
abbrev EthIx := Fin 24
/-- Ordering domain 0–4,095 (R15). -/
abbrev DomainIx := Fin 4096
/-- Galley pool 0–7 (R252). -/
abbrev PoolIx := Fin 8

/-- Bits [hi : lo] of a natural number (R4). -/
def bitsOf (v hi lo : Nat) : Nat := (v / 2 ^ lo) % 2 ^ (hi + 1 - lo)

/-- Bit `i` of a natural number. -/
def bitOf (v i : Nat) : Bool := (v / 2 ^ i) % 2 == 1

/-- 1 for true, 0 for false. -/
def b2n (b : Bool) : Nat := if b then 1 else 0

/-- `v` placed at bit `lo`. -/
def at' (v lo : Nat) : Nat := v * 2 ^ lo

end Sys2Proof
end

