-- ==== Sys2Proof/Syntax.lean ====
section
/-! DEFINITION. The commands of the PX9680: one constructor of `Instr` per row of spec/opcode_table.json, with the operands
the row's rule needs. What an operand says is what the outside decides (which port, which bytes arrive, what a sensor
reads); everything else is read from the state. -/

namespace Sys2Proof

/-- A core by wythe, course and core. -/
structure CoreId where
  w : WytheIx
  c : CourseIx
  k : CoreIx
  deriving DecidableEq, Repr

/-- A hardware context (R176: CTX). -/
structure CtxId where
  w : WytheIx
  c : CourseIx
  k : CoreIx
  x : CtxIx
  deriving DecidableEq, Repr

/-- What the memory's check bits report for a read (R138, R309, R439). -/
inductive EccReport where
  | good
  | corrected
  | uncorrectable
  deriving DecidableEq, Repr

/-- Reports for the reads of a coprocessor command: of SRC, of AUX, and of the bank words that DST covers in part (R309). -/
structure CommandEcc where
  src : EccReport := .good
  aux : EccReport := .good
  dst : EccReport := .good
  deriving DecidableEq, Repr

/-- One issue of an Eoren instruction: the context, the number of cycles of its core that pass without an issue of this core since
the core's last one (log 9), and what the check bits report for the bank words its fetch and its data access read (R309). -/
structure Issue where
  id : CtxId
  gap : Nat
  fetchEcc : EccReport := .good
  dataEcc : EccReport := .good
  /-- the second of a pair: it issues in the cycle of the instruction that its context issued before it (R155) -/
  pair : Bool := false
  /-- the other contexts of the core whose next instruction is whole in the fetch buffer and waits for nothing in that cycle (R149):
  the cycle is granted among them and this one (R151) -/
  ready : BitVec 8 := 0
  deriving DecidableEq, Repr

/-- Who accesses a register: one latch of R9 per kind. -/
inductive Agent where
  /-- host access through Plinth -/
  | host
  /-- JTAG DBG_ACCESS -/
  | jtag
  /-- a Mason context through its device window -/
  | mason (x : CtxId)
  deriving DecidableEq, Repr

/-- Who asks the Quoin (R317). -/
inductive Asker where
  | host
  | datestone
  | dma
  | mason (x : CtxId)
  deriving DecidableEq, Repr

/-- The 6-bit register numbers of R180; `reserved` stands for a number not listed. -/
inductive Reg where
  | d (n : Fin 16)
  | a (n : Fin 8)
  | x (n : Fin 4)
  | mlo
  | mhi
  | sr
  | pcx
  | ctx
  | tnow (i : Fin 4)
  | tcmp (i : Fin 4)
  | polyl
  | polyh
  | evwl
  | evwh
  | spcx
  | ssr
  | sa0
  | sd0
  | reserved (n : BitVec 6)
  deriving DecidableEq, Repr

/-- Addressing modes of R185. -/
inductive Mode where
  | disp (d : BitVec 10)
  | postInc
  | preDec
  | step (t : BitVec 10)
  | modulo (k : BitVec 4)
  | bitrev (k : BitVec 4)
  | index (m : Fin 16)
  | reserved
  deriving DecidableEq, Repr

/-- A memory operand: base register and mode; `long` chooses the two-parcel form (R195, R196). -/
structure MemOp where
  an : Fin 8
  mode : Mode
  long : Bool
  deriving DecidableEq, Repr

/-- Forms of the two-operand and three-operand arithmetic (R204, R210). -/
inductive AluForm where
  /-- S-RR on D registers -/
  | short (d s : Fin 16)
  /-- L-RRR width .W -/
  | w (d s1 s2 : Fin 16)
  /-- L-RRR width .L: pairs, named by the field -/
  | l (d s1 s2 : Fin 16)
  /-- L-RRR width .X -/
  | x (d s1 s2 : Fin 4)
  deriving DecidableEq, Repr

/-- ADD also has A-register forms (R210: S-RR 0x12/1 and 0x12/3). -/
inductive AddForm where
  | alu (f : AluForm)
  | aa (n m : Fin 8)
  | ad (n : Fin 8) (m : Fin 16)
  deriving DecidableEq, Repr

/-- SUB also has an A-register form (R210: S-RR 0x12/2). -/
inductive SubForm where
  | alu (f : AluForm)
  | aa (n m : Fin 8)
  deriving DecidableEq, Repr

/-- Forms of MOV (R204 S-RR 0x00/0, R210 S-RR 0x12/0, /4 and /5). -/
inductive MovForm where
  | dd (d s : Fin 16)
  | aa (n m : Fin 8)
  | ad (n : Fin 8) (m : Fin 16)
  | da (d : Fin 16) (n : Fin 8)
  deriving DecidableEq, Repr

/-- MOVI: S-RI 0x03 or L-RI 0x10 (R204). -/
inductive MoviForm where
  | short (d : Fin 16) (imm : BitVec 7)
  | long (r : Reg) (imm : W16)
  deriving DecidableEq, Repr

/-- ADDI: S-RI 0x04, L-RI 0x12, or ADD An,#s7 S-RI 0x13 (R204, R210). -/
inductive AddiForm where
  | short (d : Fin 16) (imm : BitVec 7)
  | shortA (n : Fin 8) (imm : BitVec 7)
  | long (r : Reg) (imm : W16)
  deriving DecidableEq, Repr

/-- CMPI: S-RI 0x05 or L-RI 0x13 (R204). -/
inductive CmpiForm where
  | short (d : Fin 16) (imm : BitVec 7)
  | long (r : Reg) (imm : W16)
  deriving DecidableEq, Repr

/-- Shifts: S-RR 0x01 or L-RRR 0x00 FN 8–10 at each width; the count register of the long form is a D register (R206). -/
inductive ShiftForm where
  | short (d s : Fin 16)
  | w (d s1 c : Fin 16)
  | l (d s1 c : Fin 16)
  | x (d s1 : Fin 4) (c : Fin 16)
  deriving DecidableEq, Repr

/-- Control transfer of Bcc: short or long displacement (R195, R196). -/
inductive BranchDisp where
  | short (d : BitVec 7)
  | long (d : BitVec 18)
  deriving DecidableEq, Repr

/-- Options of a TLOOK (R217): which table and tag. -/
inductive LookTable where
  | trie4
  | trie6
  | learn
  | index
  deriving DecidableEq, Repr

/-- VERD kinds (R224). -/
inductive VerdKind where
  | forward
  | drop
  | multi
  | hold
  deriving DecidableEq, Repr

/-- Which timer compare a TIMER_COMPARE_FIRE names: a context's, or a SAVED task's (R220, R243). -/
inductive TimerOf where
  | context (x : CtxId)
  | saved (k : CoreId) (t : TcbIx)
  deriving DecidableEq, Repr

/-- What a march finds at its end (R314, R315); the memory's faults are the outside's. -/
structure MarchFinding where
  /-- failing words found -/
  failWords : Nat
  /-- first failing or LOST word: memory number [31:29] and byte address [28:0] -/
  failAddr : W32
  /-- what the failures need repaired: a memory macro's number, and whether a column or a row of it -/
  repairs : List (Nat × Bool)
  /-- a PRESERVING march found a word it cannot restore -/
  lost : Bool
  deriving DecidableEq, Repr

/-- What a Proof measures (R493, R495, R496, R503). -/
structure ProofFinding where
  /-- failed blocks, bits of R504 -/
  failed : W32
  /-- failed quads 0–11 -/
  quads : BitVec 12
  /-- a march repaired a macro -/
  repaired : Bool
  /-- duration in µs -/
  duration : W32
  /-- hottest course sensor at the end, 0.25 °C -/
  temperature : W16
  deriving DecidableEq, Repr

/-- What a start meets outside the device (R481): the results no register gives. -/
structure StartInput where
  /-- Datestone firmware copies A and B as read from boot flash (R386) -/
  fwA : Bytes
  fwB : Bytes
  /-- the retention SRAM and Keep store checks pass -/
  retentionIntact : Bool
  /-- the tie trains in step 1 (R520) -/
  tieTrains : Bool
  /-- hottest course sensor at step 3, 0.25 °C -/
  temperature : W16
  /-- the Proof preconditions hold within 20 ms (R498) -/
  inRange : Bool
  /-- what start-up Proof finds -/
  proof : ProofFinding
  /-- DRAM training: the widest windows of lanes 0 and 1, in steps, of channels 0–3 of wythe 0 and then of wythe 1; whether every test
  at the kept delays passes (R430, R431) -/
  eyes : List (Nat × Nat)
  keptDelaysPass : Bool
  /-- centres found by a full sweep, as the DELAY words of the same channels -/
  centres : List W32
  /-- µs from RESET_N release to mode entry (R490) -/
  micros : W32
  deriving DecidableEq, Repr

/-- One unit of a DRAM request (R436): at most 32 bytes inside one unit, and what the check bits report when a part of a unit is
written (R438, R439). -/
structure DramUnit where
  write : Bool
  addr : Nat
  len : Nat
  ecc : EccReport := .good
  deriving DecidableEq, Repr

/-- The commands of the block: the 305 rows of spec/opcode_table.json in the table's order. -/
inductive Instr where
  -- the frame path
  | frameArrival (w : WytheIx) (p : EthIx) (data : Bytes)
  | bufferAllocation (w : WytheIx) (p : PortIx)
  | frameEnd (w : WytheIx) (p : EthIx) (codeError : Bool)
  | compositorIntake (w : WytheIx) (p : PortIx)
  | spreadingEnd (w : WytheIx) (p : PortIx) (parity corrected : Byte)
  | recirculation (w : WytheIx) (p : PortIx)
  | slugRelease (w : WytheIx) (p : PortIx)
  | takerSelection (w : WytheIx) (c : CourseIx)
  | slugDelivery (x : CtxId)
  | verdictArrival (w : WytheIx) (i : Nat)
  | descriptorRelease (w : WytheIx) (d : DomainIx)
  | skip (w : WytheIx) (d : DomainIx)
  | tieCopyArrival (w : WytheIx)
  | tieCopyComplete (w : WytheIx)
  | pressAdmission (w : WytheIx) (fromTie : Bool)
  | frameStart (w : WytheIx) (p : EthIx)
  | transmissionEnd (w : WytheIx) (p : EthIx) (ecc : EccReport)
  | refillTick (w : WytheIx)
  | gateEvent (w : WytheIx) (p : EthIx)
  | gateListChange (w : WytheIx) (p : EthIx)
  -- the forme
  | openSession (number : W16)
  | pendingSessionOpen
  | abandon
  | stFieldWrite (addr : Nat) (value : W32) (be : BitVec 4)
  | registerWrite (a : Agent) (addr : Nat) (value : W32) (be : BitVec 4)
  | clampClear (a : Agent)
  | lockGo
  | lockupValidationEnd
  | courseImageLoad (w : WytheIx) (c : CourseIx)
  | drainLimitExpiry
  | sweepStart (w : WytheIx)
  | sweepEnd (w : WytheIx)
  | persistEnd (flashError : Bool)
  | trieRootCopyEnd (w : WytheIx)
  | poolRelayBuild (w : WytheIx) (dram : Bool)
  | poolOpen (w : WytheIx) (dram : Bool)
  -- the tables
  | read (w : WytheIx) (t : Fin 16) (tag : Byte) (quiet : Bool)
  | write (w : WytheIx) (t : Fin 16) (tag : Byte) (quiet : Bool)
  | insert (w : WytheIx) (t : Fin 16) (tag : Byte) (quiet : Bool)
  | delete (w : WytheIx) (t : Fin 16) (tag : Byte) (quiet : Bool)
  | search (w : WytheIx) (t : Fin 16) (tag : Byte) (quiet : Bool)
  | nextCmd (w : WytheIx) (t : Fin 16) (tag : Byte) (quiet : Bool)
  | commandExecution (w : WytheIx) (t : Fin 16) (ecc : EccReport)
  | respNext (w : WytheIx) (t : Fin 16)
  | tlookResult (x : CtxId) (tag : Fin 4) (ecc : EccReport) (after : Nat)
  | learnRequestService (w : WytheIx) (ecc : EccReport)
  | epochChange (w : WytheIx)
  | agerVisit (w : WytheIx) (ecc : EccReport)
  -- the Chase
  | create (a : Agent) (k : CoreId) (t : TcbIx)
  | kill (a : Agent) (k : CoreId) (t : TcbIx)
  | setPrio (a : Agent) (k : CoreId) (t : TcbIx)
  | post (a : Agent) (k : CoreId) (t : TcbIx)
  | postApply (w : WytheIx) (i : Nat)
  | waitSatisfied (k : CoreId) (t : TcbIx)
  | taskLoad (k : CoreId)
  | taskExchange (k : CoreId)
  | swapEnd (x : CtxId)
  | bindWrite (a : Agent) (k : CoreId) (n : Fin 16) (value : W32)
  | timerCompareFire (t : TimerOf)
  | quiescence (w : WytheIx) (c : CourseIx)
  | recoveryEnd (a : Agent) (k : CoreId)
  | recoveryAck (a : Agent) (k : CoreId)
  | channelForcedClose (w : WytheIx) (c : CourseIx) (ch : Fin 64)
  | loadWindowEnd (k : CoreId)
  -- the Galley
  | alloc (a : Agent) (w : WytheIx) (u : Fin 256)
  | allocExact (a : Agent) (w : WytheIx) (u : Fin 256)
  | free (a : Agent) (w : WytheIx) (value : W32)
  | refAdd (a : Agent) (w : WytheIx) (value : W32)
  | poolRefillEnd (w : WytheIx) (p : PoolIx) (ecc : EccReport)
  | poolSpillEnd (w : WytheIx) (p : PoolIx)
  | movePost (a : Agent) (w : WytheIx) (value : W32)
  | moveStart (w : WytheIx) (ecc : EccReport)
  | moveEnd (w : WytheIx) (ecc dst : EccReport)
  | moveStatus (a : Agent) (w : WytheIx)
  -- coprocessors
  | claim (a : Agent) (w : WytheIx) (c : CourseIx) (u : Fin 4) (f : Fin 30)
  | coprocRelease (a : Agent) (w : WytheIx) (c : CourseIx) (u : Fin 4)
  | commit (w : WytheIx) (c : CourseIx) (place : Fin 16)
  | coprocCompletion (w : WytheIx) (c : CourseIx) (place : Fin 16) (ecc : CommandEcc)
  -- banks, march, Quoin
  | bankPowerWrite (a : Agent) (w : WytheIx) (c : CourseIx) (value : W32)
  | bankTransitionEnd (w : WytheIx) (c : CourseIx) (b : Fin 16)
  | marchCmd (a : Agent) (w : WytheIx) (value : W32)
  | marchEnd (w : WytheIx) (e : Fin 7) (found : MarchFinding)
  | acquire (a : Asker) (w : WytheIx) (value : W32)
  | quoinRelease (a : Asker) (w : WytheIx) (value : W32)
  -- Press unblock
  | filterUnblock (a : Agent) (w : WytheIx) (f : BitVec 12)
  | markRedClear (a : Agent) (w : WytheIx) (m : BitVec 12)
  -- the Datestone
  | recordAppend (w : WytheIx)
  | sealReq (a : Agent) (w : WytheIx)
  | sealAttachment (w : WytheIx)
  | exportBase (a : Agent) (w : WytheIx) (slot : BitVec 12)
  | exportAck (a : Agent) (w : WytheIx) (slot : BitVec 12)
  | witnessSnapRound (w : WytheIx)
  | challengeRead (a : Agent)
  | commission (w : WytheIx)
  | enterService (w : WytheIx)
  | retire (w : WytheIx)
  | addImageKey (w : WytheIx)
  | revokeImageKey (w : WytheIx)
  | setTamper (w : WytheIx)
  | leave (a : Agent)
  | serviceExpiry (w : WytheIx)
  | tamperAssert (w : WytheIx) (source : Fin 8) (reading : W16)
  | tamperClear (w : WytheIx) (source : Fin 8) (reading : W16)
  | tamperReopen (a : Agent) (w : WytheIx) (mask : Byte)
  -- ports and time
  | linkUp (w : WytheIx) (p : EthIx) (partnerSpeed : BitVec 2)
  | linkDown (w : WytheIx) (p : EthIx) (localFault remoteFault : Bool)
  | bwWindowEnd (w : WytheIx) (p : EthIx)
  | timeSet (a : Agent) (w : WytheIx)
  | stepTime (a : Agent) (w : WytheIx)
  | slew (a : Agent) (w : WytheIx)
  | slewEnd (w : WytheIx)
  | followStep
  | srcLost (w : WytheIx)
  | ptpclkReturn (w : WytheIx)
  | ppsIn
  | ppsOut
  | txtsInfoRead (a : Agent) (w : WytheIx) (p : EthIx)
  -- DRAM
  | mr4Poll (w : WytheIx) (codes : List (BitVec 5))
  | refresh (w : WytheIx) (ch : Fin 4)
  | retrainPeriod (w : WytheIx) (ch : Fin 4) (lane : Fin 2) (window : Nat) (readDelay writeDelay : Byte)
  | retrainDrift (w : WytheIx) (ch : Fin 4) (lane : Fin 2) (window : Nat) (readDelay writeDelay : Byte) (temperature : W16)
  | dramRequest (w : WytheIx) (u : DramUnit)
  | dramCfgWrite (a : Agent) (w : WytheIx) (value : W32)
  -- Plinth
  | sendTailDoorbell (q : Fin 64) (value : W16)
  | receiveTailDoorbell (q : Fin 64) (value : W16)
  | firmwareDoorbell (w : WytheIx) (d : Fin 64)
  | sendDescriptor (q : Fin 64) (dmaError : Bool)
  | receiveDescriptor (q : Fin 64) (dmaError : Bool)
  | hello
  | getInfo
  | imageStage (dmaError : Bool)
  | ledgerDma (dmaError : Bool)
  | slotRead (dmaError : Bool)
  | linkReset
  -- page headers
  | eventClear (a : Agent) (addr : Nat) (mask : W32)
  | evForce (a : Agent) (addr : Nat) (mask : W32)
  | counterLoRead (a : Agent) (addr : Nat)
  | overflowClear (a : Agent) (addr : Nat)
  | rcRead (a : Agent) (addr : Nat)
  | freezeCounters (a : Agent) (addr : Nat) (on : Bool)
  | disable (a : Agent) (addr : Nat)
  | abort (a : Agent) (addr : Nat)
  | compositorDisable (a : Agent) (w : WytheIx)
  | compositorAbort (a : Agent) (w : WytheIx)
  | caseEngineDisable (a : Agent) (w : WytheIx)
  | caseEngineAbort (a : Agent) (w : WytheIx)
  | tableDisable (a : Agent) (w : WytheIx) (t : Fin 3)
  | tableAbort (a : Agent) (w : WytheIx) (t : Fin 3)
  | coreDisable (a : Agent) (k : CoreId)
  | coreAbort (a : Agent) (k : CoreId)
  | coreEnable (a : Agent) (k : CoreId)
  | galleyDisable (a : Agent) (w : WytheIx)
  | galleyAbort (a : Agent) (w : WytheIx)
  | collatorDisable (a : Agent) (w : WytheIx)
  | collatorAbort (a : Agent) (w : WytheIx)
  | coprocDisable (a : Agent) (w : WytheIx) (c : CourseIx)
  | coprocAbort (a : Agent) (w : WytheIx) (c : CourseIx)
  | marchDisable (a : Agent) (w : WytheIx)
  | marchAbort (a : Agent) (w : WytheIx)
  | quoinDisable (a : Agent) (w : WytheIx)
  | quoinAbort (a : Agent) (w : WytheIx)
  | pressDisable (a : Agent) (w : WytheIx)
  | pressAbort (a : Agent) (w : WytheIx)
  | pressPortDisable (a : Agent) (w : WytheIx) (p : EthIx)
  | pressPortAbort (a : Agent) (w : WytheIx) (p : EthIx)
  | portDisable (a : Agent) (w : WytheIx) (p : EthIx)
  | portAbort (a : Agent) (w : WytheIx) (p : EthIx)
  | qpDisable (a : Agent) (q : Fin 64)
  | qpAbort (a : Agent) (q : Fin 64)
  -- modes, reset and start-up
  | requestProof (a : Agent)
  | requestSetting (a : Agent)
  | requestRun (a : Agent)
  | requestPlumb (a : Agent)
  | requestDormant (a : Agent)
  | requestOff (a : Agent)
  | requestHalf (a : Agent)
  | requestBrace (a : Agent)
  | outputsClosed (w : WytheIx)
  | wake (cause : BitVec 4) (index : BitVec 6) (tieTrains : Bool)
  | resetN
  | resetCmd (a : Agent) (value : W32)
  | supply
  | powerOn
  | startUp (i : StartInput)
  | shutdnReq
  | shutdownStart (a : Agent)
  | gpioEdge (g : Fin 16) (rising : Bool)
  | proofEnd (found : ProofFinding)
  | outOfRange (duration : W32) (temperature : W16)
  | pwrfail
  | braceImageWritten
  | powerReturn
  -- the tie
  | regionSkew (regionA regionB : Byte) (temperature : Bool) (diffs : List Nat)
  | tieRetrain (w : WytheIx)
  | tieLost (w : WytheIx)
  | isolate (a : Agent) (w : WytheIx)
  | rejoin (a : Agent) (w : WytheIx)
  | rejoinAttempt (w : WytheIx)
  | linked
  -- debug and JTAG
  | halt (a : Agent)
  | resume (a : Agent)
  | step (a : Agent) (takeInt : Bool)
  | readReg (a : Agent) (r : Reg)
  | writeReg (a : Agent) (r : Reg)
  | readMem (a : Agent)
  | writeMem (a : Agent)
  | bkptOn (a : Agent)
  | bkptOff (a : Agent)
  | extest
  | idcode
  | samplePreload
  | clampJtag
  | highz
  | jtagProof (bit : Bool)
  | dbgAccess (write : Bool) (offset : BitVec 12) (data : W32)
  | bypass
  | trstN
  -- performance counters
  | pmcClear (a : Agent) (k : CoreId) (mask : Byte)
  | pmcOvfClear (a : Agent) (k : CoreId) (mask : Byte)
  | sampleTaken (k : CoreId) (n : Fin 8)
  | sample0Read (a : Agent) (k : CoreId)
  -- interrupts
  | intSoft (a : Agent) (k : CoreId) (mask : BitVec 4)
  | interruptEntry (k : CoreId) (gap : Nat) (ready : BitVec 8)
  -- Eoren instructions
  | mov (i : Issue) (f : MovForm)
  | add (i : Issue) (f : AddForm)
  | sub (i : Issue) (f : SubForm)
  | and (i : Issue) (f : AluForm)
  | or (i : Issue) (f : AluForm)
  | xor (i : Issue) (f : AluForm)
  | cmp (i : Issue) (f : AluForm)
  | tst (i : Issue) (d s : Fin 16)
  | neg (i : Issue) (d s : Fin 16)
  | not (i : Issue) (d s : Fin 16)
  | adc (i : Issue) (f : AluForm)
  | sbc (i : Issue) (f : AluForm)
  | movi (i : Issue) (f : MoviForm)
  | addi (i : Issue) (f : AddiForm)
  | cmpi (i : Issue) (f : CmpiForm)
  | andi (i : Issue) (r : Reg) (imm : W16)
  | ori (i : Issue) (r : Reg) (imm : W16)
  | xori (i : Issue) (r : Reg) (imm : W16)
  | lsl (i : Issue) (f : ShiftForm)
  | lsr (i : Issue) (f : ShiftForm)
  | asr (i : Issue) (f : ShiftForm)
  | lsli (i : Issue) (d : Fin 16) (n : BitVec 7)
  | lsri (i : Issue) (d : Fin 16) (n : BitVec 7)
  | asri (i : Issue) (d : Fin 16) (n : BitVec 7)
  | bfx (i : Issue) (d s : Fin 16) (pair : Bool) (p : Fin 32) (w : Fin 16)
  | bfi (i : Issue) (d s : Fin 16) (pair : Bool) (p : Fin 32) (w : Fin 16)
  | sat (i : Issue) (d : Fin 16) (s : Fin 4)
  | crcs (i : Issue) (d s : Fin 16)
  | crcb (i : Issue) (d s : Fin 16)
  | par (i : Issue) (d s : Fin 16)
  | parw (i : Issue) (d s : Fin 16)
  | brev (i : Issue) (d s : Fin 16)
  | brev8 (i : Issue) (d s : Fin 16)
  | mul (i : Issue) (long : Bool) (s1 s2 : Fin 16)
  | muls (i : Issue) (long : Bool) (s1 s2 : Fin 16)
  | mac (i : Issue) (x : Fin 4) (s1 s2 : Fin 16)
  | movh (i : Issue) (n : Fin 8) (imm : Byte)
  | movr (i : Issue) (dst src : Reg) (p : Bool)
  | lea (i : Issue) (n : Fin 8) (m : MemOp)
  | ldB (i : Issue) (r : Reg) (m : MemOp)
  | ld (i : Issue) (r : Reg) (m : MemOp)
  | ldL (i : Issue) (r : Reg) (m : MemOp)
  | stB (i : Issue) (r : Reg) (m : MemOp)
  | st (i : Issue) (r : Reg) (m : MemOp)
  | stL (i : Issue) (r : Reg) (m : MemOp)
  | bcc (i : Issue) (cc : BitVec 4) (d : BranchDisp)
  | jmp (i : Issue) (target : BitVec 22)
  | call (i : Issue) (target : BitVec 22)
  | jmpr (i : Issue) (n : Fin 8)
  | callr (i : Issue) (n : Fin 8)
  | ret (i : Issue)
  | reti (i : Issue)
  | nop (i : Issue)
  | isync (i : Issue)
  | icinv (i : Issue)
  | icinvMem (i : Issue) (m : MemOp)
  | tdisarm (i : Issue)
  | bkpt (i : Issue)
  | ctxset (i : Issue) (c : CtxIx) (r : Reg) (src : Reg)
  | ctxget (i : Issue) (dst : Reg) (c : CtxIx) (r : Reg)
  | ctxgo (i : Issue) (c : CtxIx)
  | ctxstop (i : Issue) (c : CtxIx)
  | tlook (i : Issue) (d : Fin 16) (tag : Fin 4) (t : LookTable) (learn refresh : Bool) (n : Fin 8)
  | evpost (i : Issue) (t : Fin 16) (f : Fin 32)
  | evwait (i : Issue) (d : Fin 16) (all : Bool)
  | evpoll (i : Issue) (d : Fin 16) (all : Bool)
  | chopen (i : Issue) (ch : Fin 64)
  | chput (i : Issue) (d : Fin 16) (ch : Fin 64)
  | chclose (i : Issue) (ch : Fin 64)
  | chget (i : Issue) (d : Fin 16) (ch : Fin 64) (n : Fin 8) (block : Bool)
  | cpcmd (i : Issue) (d : Fin 16) (u : Fin 4) (n : Fin 8)
  | cpstat (i : Issue) (d t : Fin 16)
  | cpsave (i : Issue) (u : Fin 4) (n : Fin 8)
  | cprest (i : Issue) (u : Fin 4) (n : Fin 8)
  | verd (i : Issue) (k : VerdKind) (n : Fin 8)
  -- rows the table lists last
  | tieRetrainEnd (w : WytheIx)
  | flitRetry (w : WytheIx)
  | sequenceExchange
  | windowLoadResponse (x : CtxId) (i : Nat) (after : Nat) (ecc : EccReport)
  | mainRailsFall
  | vkeepLoss
  | perstNRelease
  deriving DecidableEq, Repr

end Sys2Proof
end

