-- ==== Sys2Proof/Machine/Crypto.lean ====
section
/-! DEFINITION. Byte strings and the published functions the manual names: SHA-256 (FIPS 180-4), HMAC (FIPS 198-1), AES (FIPS 197),
GCM (SP 800-38D), CMAC (SP 800-38B), ECDSA over P-256 (FIPS 186-5), the CRCs and the Toeplitz hash (R94, R296, R378). -/

namespace Sys2Proof.Machine

/-! Byte strings. -/

/-- The number a big-endian byte string spells. -/
def be (l : Bytes) : Nat := l.foldl (fun a b => a * 256 + b.toNat) 0
/-- The number a little-endian byte string spells. -/
def le (l : Bytes) : Nat := l.foldr (fun b a => a * 256 + b.toNat) 0
/-- `v` in `n` bytes, little-endian. -/
def toLe : Nat → Nat → Bytes
  | 0, _ => []
  | n + 1, v => BitVec.ofNat 8 v :: toLe n (v / 256)
/-- `v` in `n` bytes, big-endian. -/
def toBe (n v : Nat) : Bytes := (toLe n v).reverse
/-- `n` bytes of `l` from `off`; bytes beyond the end read 0. -/
def slice (l : Bytes) (off n : Nat) : Bytes :=
  let t := (l.drop off).take n
  t ++ List.replicate (n - t.length) 0
/-- The big-endian number in `n` bytes of `l` from `off`. -/
def beAt (l : Bytes) (off n : Nat) : Nat := be (slice l off n)
/-- `l` with the bytes `v` at `off`. -/
def patch (l : Bytes) (off : Nat) (v : Bytes) : Bytes := slice l 0 off ++ v ++ l.drop (off + v.length)
/-- Cut a byte string into pieces of `n` bytes, the last one possibly shorter; `fuel` bounds their number. -/
def chunksF (n : Nat) : Nat → Bytes → List Bytes
  | 0, _ => []
  | k + 1, l => if l.isEmpty then [] else l.take n :: chunksF n k (l.drop n)
def chunks (n : Nat) (l : Bytes) : List Bytes := chunksF n l.length l
def xorBytes (a b : Bytes) : Bytes := List.zipWith (· ^^^ ·) a b
/-- `l` padded with zeros to `n` bytes. -/
def padTo (n : Nat) (l : Bytes) : Bytes := l ++ List.replicate (n - l.length) 0
/-- Words of a byte string, byte 0 the top byte of the first (R390's register layout). -/
def beWords (l : Bytes) : List W32 := (chunks 4 l).map (fun c => BitVec.ofNat 32 (be (padTo 4 c)))
/-- Bytes of words, the top byte first. -/
def wordBytes (l : List W32) : Bytes := l.flatMap (fun w => toBe 4 w.toNat)

/-! SHA-256. -/

def shaK : List W32 :=
  beWords (toBe 128 0x428a2f9871374491b5c0fbcfe9b5dba53956c25b59f111f1923f82a4ab1c5ed5d807aa9812835b01243185be550c7dc372be5d7480deb1fe9bdc06a7c19bf174e49b69c1efbe47860fc19dc6240ca1cc2de92c6f4a7484aa5cb0a9dc76f988da983e5152a831c66db00327c8bf597fc7c6e00bf3d5a7914706ca635114292967) ++
  beWords (toBe 128 0x27b70a852e1b21384d2c6dfc53380d13650a7354766a0abb81c2c92e92722c85a2bfe8a1a81a664bc24b8b70c76c51a3d192e819d6990624f40e3585106aa07019a4c1161e376c082748774c34b0bcb5391c0cb34ed8aa4a5b9cca4f682e6ff3748f82ee78a5636f84c878148cc7020890befffaa4506cebbef9a3f7c67178f2)
def shaH0 : List W32 := beWords (toBe 32 0x6a09e667bb67ae853c6ef372a54ff53a510e527f9b05688c1f83d9ab5be0cd19)

/-- Extend a reversed message schedule by `n` words. -/
def shaExtend : Nat → List W32 → List W32
  | 0, r => r
  | n + 1, r =>
    let w := fun i => r.getD i 0
    let s0 := (w 14).rotateRight 7 ^^^ (w 14).rotateRight 18 ^^^ (w 14 >>> 3)
    let s1 := (w 1).rotateRight 17 ^^^ (w 1).rotateRight 19 ^^^ (w 1 >>> 10)
    shaExtend n ((s1 + w 6 + s0 + w 15) :: r)

def shaRound (h : List W32) (kw : W32 × W32) : List W32 :=
  match h with
  | [a, b, c, d, e, f, g, i] =>
    let t1 := i + (e.rotateRight 6 ^^^ e.rotateRight 11 ^^^ e.rotateRight 25) + ((e &&& f) ^^^ (~~~e &&& g)) + kw.1 + kw.2
    let t2 := (a.rotateRight 2 ^^^ a.rotateRight 13 ^^^ a.rotateRight 22) + ((a &&& b) ^^^ (a &&& c) ^^^ (b &&& c))
    [t1 + t2, a, b, c, d + t1, e, f, g]
  | _ => h

/-- The compression function on one 64-byte block. -/
def shaBlock (h : List W32) (block : Bytes) : List W32 :=
  List.zipWith (· + ·) h ((List.zip shaK (shaExtend 48 (beWords block).reverse).reverse).foldl shaRound h)

/-- The final padding of a message of `n` bytes. -/
def shaPad (n : Nat) : Bytes := 0x80 :: (List.replicate ((119 - n % 64) % 64) 0 ++ toBe 8 (8 * n))

/-- Continue a hash from chaining value `h` over whole blocks. -/
def shaBlocks (h : List W32) (l : Bytes) : List W32 := (chunks 64 l).foldl shaBlock h

/-- SHA-256 (FIPS 180-4). -/
def sha256 (m : Bytes) : Bytes := wordBytes (shaBlocks shaH0 (m ++ shaPad m.length))

/-- The inner and outer chaining values of HMAC for a key of up to 64 bytes (FIPS 198-1). -/
def hmacInner (key : Bytes) : List W32 := shaBlocks shaH0 ((padTo 64 key).map (· ^^^ 0x36))
def hmacOuter (key : Bytes) : List W32 := shaBlocks shaH0 ((padTo 64 key).map (· ^^^ 0x5C))

/-! AES. -/

def aesSboxNat : Nat :=
  0x637c777bf26b6fc53001672bfed7ab76ca82c97dfa5947f0add4a2af9ca472c0b7fd9326363ff7cc34a5e5f171d8311504c723c31896059a071280e2eb27b27509832c1a1b6e5aa0523bd6b329e32f8453d100ed20fcb15b6acbbe394a4c58cfd0efaafb434d338545f9027f503c9fa851a3408f929d38f5bcb6da2110fff3d2cd0c13ec5f974417c4a77e3d645d197360814fdc222a908846eeb814de5e0bdbe0323a0a4906245cc2d3ac629195e479e7c8376d8dd54ea96c56f4ea657aae08ba78252e1ca6b4c6e8dd741f4bbd8b8a703eb5664803f60e613557b986c11d9ee1f8981169d98e949b1e87e9ce5528df8ca1890dbfe6426841992d0fb054bb16

def sbox (b : Byte) : Byte := BitVec.ofNat 8 (aesSboxNat / 2 ^ (8 * (255 - b.toNat)))
/-- Multiply by x in GF(2^8). -/
def xtime (b : Byte) : Byte := (b <<< 1) ^^^ (if b.msb then 0x1B else 0)

/-- Extend a reversed key schedule, words of 4 bytes, by `n` words; `i` is the number of the next. -/
def aesExpand (nk : Nat) : Nat → Nat → Byte → List Bytes → List Bytes
  | 0, _, _, r => r
  | n + 1, i, rcon, r =>
    let t := r.headD []
    let back := r.getD (nk - 1) []
    if i % nk = 0 then
      let u := (t.drop 1 ++ t.take 1).map sbox
      aesExpand nk n (i + 1) (xtime rcon) (xorBytes back (xorBytes u [rcon, 0, 0, 0]) :: r)
    else if nk = 8 ∧ i % 8 = 4 then aesExpand nk n (i + 1) rcon (xorBytes back (t.map sbox) :: r)
    else aesExpand nk n (i + 1) rcon (xorBytes back t :: r)

/-- Round keys of 16 bytes for a 16- or 32-byte key. -/
def aesKeys (key : Bytes) : List Bytes :=
  let nk := key.length / 4
  chunks 16 (aesExpand nk (4 * (nk + 7) - nk) nk 1 (chunks 4 key).reverse).reverse.flatten

def aesShiftRows (s : Bytes) : Bytes := (List.range 16).map (fun i => s.getD ((i + 4 * (i % 4)) % 16) 0)
def aesMixCol (c : Bytes) : Bytes :=
  match c with
  | [a, b, d, e] =>
    let t := a ^^^ b ^^^ d ^^^ e
    [a ^^^ t ^^^ xtime (a ^^^ b), b ^^^ t ^^^ xtime (b ^^^ d), d ^^^ t ^^^ xtime (d ^^^ e), e ^^^ t ^^^ xtime (e ^^^ a)]
  | _ => c
def aesMix (s : Bytes) : Bytes := (chunks 4 s).flatMap aesMixCol
def aesRounds : List Bytes → Bytes → Bytes
  | [], s => s
  | [k], s => xorBytes (aesShiftRows (s.map sbox)) k
  | k :: ks, s => aesRounds ks (xorBytes (aesMix (aesShiftRows (s.map sbox))) k)
/-- AES encryption of one block (FIPS 197). -/
def aesEnc (key block : Bytes) : Bytes :=
  match aesKeys key with
  | [] => block
  | k :: ks => aesRounds ks (xorBytes block k)

/-- Product in GF(2^128) as GCM orders bits: `z` gathers, `v` runs, bit 127 of `x` first. -/
def ghashMulF (x : Nat) : Nat → Nat → Nat → Nat
  | 0, _, z => z
  | n + 1, v, z =>
    ghashMulF x n ((v / 2) ^^^ (if v % 2 = 1 then 0xE1000000000000000000000000000000 else 0))
      (if bitOf x n then z ^^^ v else z)
def ghashMul (x y : Nat) : Nat := ghashMulF x 128 y 0
def ghash (h : Nat) (l : Bytes) : Nat := (chunks 16 l).foldl (fun y c => ghashMul (y ^^^ be (padTo 16 c)) h) 0
def pad16 (l : Bytes) : Bytes := l ++ List.replicate ((16 - l.length % 16) % 16) 0
/-- Counter mode from counter `n` after the 12-byte IV. -/
def gctr (key iv : Bytes) (n : Nat) (l : Bytes) : Bytes :=
  ((chunks 16 l).zipIdx).flatMap (fun e => xorBytes e.1 (aesEnc key (iv ++ toBe 4 (n + e.2))))
/-- The GCM tag of ciphertext `c` with AAD `a` (SP 800-38D). -/
def gcmTag (key iv a c : Bytes) : Bytes :=
  let h := be (aesEnc key (List.replicate 16 0))
  xorBytes (toBe 16 (ghash h (pad16 a ++ pad16 c ++ toBe 8 (8 * a.length) ++ toBe 8 (8 * c.length)))) (aesEnc key (iv ++ toBe 4 1))
def gcmEnc (key iv a p : Bytes) : Bytes :=
  let c := gctr key iv 2 p
  c ++ gcmTag key iv a c
def gcmDec (key iv a ct : Bytes) : Option Bytes :=
  let c := ct.take (ct.length - 16)
  if gcmTag key iv a c = ct.drop (ct.length - 16) then some (gctr key iv 2 c) else none

/-- Doubling for the CMAC subkeys. -/
def cmacDbl (v : Nat) : Nat := ((2 * v) % 2 ^ 128) ^^^ (if bitOf v 127 then 0x87 else 0)
/-- CMAC (SP 800-38B). -/
def cmac (key m : Bytes) : Bytes :=
  let l := be (aesEnc key (List.replicate 16 0))
  let full := m.length % 16 = 0 ∧ m.length ≠ 0
  let nlast := if full then 16 else m.length % 16
  let head := m.take (m.length - nlast)
  let tail := m.drop (m.length - nlast)
  let last := if full then xorBytes tail (toBe 16 (cmacDbl l))
    else xorBytes (padTo 16 (tail ++ [0x80])) (toBe 16 (cmacDbl (cmacDbl l)))
  aesEnc key (xorBytes last ((chunks 16 head).foldl (fun c b => aesEnc key (xorBytes c b)) (List.replicate 16 0)))

/-! CRCs. -/

/-- One reflected CRC bit step. -/
def crcBit (poly c : Nat) : Nat := (c / 2) ^^^ (if c % 2 = 1 then poly else 0)
def crcByte (poly c : Nat) (b : Byte) : Nat :=
  let f := crcBit poly
  f (f (f (f (f (f (f (f (c ^^^ b.toNat))))))))
/-- A running reflected CRC over bytes. -/
def crcRun (poly c : Nat) (l : Bytes) : Nat := l.foldl (crcByte poly) c
/-- CRC-32 (0x04C1_1DB7 reflected). -/
def polyCrc32 : Nat := 0xEDB88320
/-- CRC-32C (0x1EDC_6F41 reflected). -/
def polyCrc32c : Nat := 0x82F63B78
def crc32 (l : Bytes) : Nat := crcRun polyCrc32 0xFFFFFFFF l ^^^ 0xFFFFFFFF
def crc32c (l : Bytes) : Nat := crcRun polyCrc32c 0xFFFFFFFF l ^^^ 0xFFFFFFFF

/-- The ones' complement sum of big-endian 16-bit words from `a`, an odd final byte padded with zero. -/
def onesAdd (a b : Nat) : Nat := let t := a + b; t % 0x10000 + t / 0x10000
def onesSum (a : Nat) (l : Bytes) : Nat := (chunks 2 l).foldl (fun x c => onesAdd x (be (padTo 2 c))) a

/-- The Toeplitz hash: for each set bit of the input, most significant bit of byte 0 first, the 32 key bits from that place. -/
def toeplitzF (key : Nat) (keyBits : Nat) : Nat → List Byte → Nat → Nat
  | _, [], h => h
  | pos, b :: bs, h =>
    let one := fun (h i : Nat) => if bitOf b.toNat (7 - i) then h ^^^ ((key / 2 ^ (keyBits - 32 - (pos + i))) % 2 ^ 32) else h
    toeplitzF key keyBits (pos + 8) bs ((List.range 8).foldl one h)

/-! P-256. -/

def p256P : Nat := 0xFFFFFFFF00000001000000000000000000000000FFFFFFFFFFFFFFFFFFFFFFFF
def p256N : Nat := 0xFFFFFFFF00000000FFFFFFFFFFFFFFFFBCE6FAADA7179E84F3B9CAC2FC632551
def p256B : Nat := 0x5AC635D8AA3A93E7B3EBBD55769886BC651D06B0CC53B0F63BCE3C3E27D2604B
def p256G : Nat × Nat := (0x6B17D1F2E12C4247F8BCE6E563A440F277037D812DEB33A0F4A13945D898C296,
  0x4FE342E2FE1A7F9B8EE7EB4A7C0F9E162BCE33576B315ECECBB6406837BF51F5)

/-- `b ^ e mod m`, for exponents below 2 ^ fuel. -/
def powMod (m : Nat) : Nat → Nat → Nat → Nat
  | 0, _, _ => 1
  | k + 1, b, e => let r := powMod m k (b * b % m) (e / 2); if e % 2 = 1 then r * b % m else r
def invMod (m a : Nat) : Nat := powMod m 256 (a % m) (m - 2)

/-- A point of the curve; none is the point at infinity. -/
abbrev EcPoint := Option (Nat × Nat)
def ecSub (a b : Nat) : Nat := (a + p256P - b) % p256P
def ecAdd : EcPoint → EcPoint → EcPoint
  | none, q => q
  | p, none => p
  | some (x1, y1), some (x2, y2) =>
    if x1 = x2 ∧ (y1 + y2) % p256P = 0 then none
    else
      let l := if x1 = x2 then (3 * x1 * x1 + (p256P - 3)) * invMod p256P (2 * y1) % p256P
        else ecSub y2 y1 * invMod p256P (ecSub x2 x1) % p256P
      let x3 := ecSub (ecSub (l * l % p256P) x1) x2
      some (x3, ecSub (l * ecSub x1 x3 % p256P) y1)
/-- Scalar multiple, for scalars below 2 ^ fuel. -/
def ecMul : Nat → Nat → EcPoint → EcPoint
  | 0, _, _ => none
  | k + 1, e, p => let r := ecMul k (e / 2) (ecAdd p p); if e % 2 = 1 then ecAdd r p else r
def ecOnCurve (x y : Nat) : Bool :=
  decide (x < p256P) && decide (y < p256P) && (y * y % p256P == (x * x * x + (p256P - 3) * x + p256B) % p256P)
/-- The uncompressed form 0x04 ‖ X ‖ Y. -/
def ecBytes : EcPoint → Bytes
  | none => List.replicate 65 0
  | some (x, y) => 4 :: (toBe 32 x ++ toBe 32 y)
/-- The public key of a private key. -/
def ecPub (d : Nat) : Bytes := ecBytes (ecMul 256 d (some p256G))

/-- ECDSA P-256 over the SHA-256 of `msg` (R378): does `sig` = r ‖ s verify against the 65-byte public key? -/
def ecdsaVerify (pub msg sig : Bytes) : Bool :=
  let x := beAt pub 1 32
  let y := beAt pub 33 32
  let r := beAt sig 0 32
  let s := beAt sig 32 32
  if pub.headD 0 ≠ 4 ∨ !ecOnCurve x y ∨ r = 0 ∨ p256N ≤ r ∨ s = 0 ∨ p256N ≤ s then false
  else
    let z := be (sha256 msg)
    let w := invMod p256N s
    match ecAdd (ecMul 256 (z * w % p256N) (some p256G)) (ecMul 256 (r * w % p256N) (some (x, y))) with
    | none => false
    | some (x1, _) => x1 % p256N == r

/-- An ECDSA P-256 signature r ‖ s over the SHA-256 of `msg`, by private key `d` and nonce `k`. -/
def ecdsaSign (d k : Nat) (msg : Bytes) : Bytes :=
  let z := be (sha256 msg)
  match ecMul 256 k (some p256G) with
  | none => List.replicate 64 0
  | some (x, _) =>
    let r := x % p256N
    toBe 32 r ++ toBe 32 (invMod p256N k * (z + r * d) % p256N)

end Sys2Proof.Machine
end

