-- ==== Sys2Proof/Config.lean ====
section
/-! DEFINITION. What one device fixes and the manual does not state: fuses and free values (log 4, log 5).
Every constant here is opaque: nothing in Lean can evaluate it, so a claim that holds, holds whatever it is. -/

namespace Sys2Proof.Config

/-- UNVERIFIED, safe: the 128-bit device identifier in fuses, 16 bytes, UID0 byte 0 the top byte (R376, R394; log 4). -/
opaque uid : BitVec 128
/-- UNVERIFIED, safe: the value fuses give a register whose Reset column reads "fuse" (R7), by BAR0 offset (log 4). -/
opaque fuseReg : Nat → W32
/-- UNVERIFIED, safe: SHA-256 of the Aullily root public key held in fuses, 32 bytes (R383; log 4). -/
opaque rootKeyHash : BitVec 256
/-- UNVERIFIED, safe: repairs that fuses hold of a wythe's memory macro, of columns or of rows (R314; log 4). -/
opaque fuseRepairs : (wythe macro_ : Nat) → (column : Bool) → Nat
/-- UNVERIFIED, safe: the block revision [31:28] and the manufacturer [11:1] of the JTAG IDCODE (R541; log 4). -/
opaque idcodeRevision : BitVec 4
opaque idcodeManufacturer : BitVec 11

/-- UNVERIFIED, safe: the free values of the model (log 5). `freeValue n` is the n-th value that the manual leaves
open; the step takes the n it reads from the plain counter `State.free` and advances the counter. -/
opaque freeValue : Nat → W64
/-- UNVERIFIED, safe: what byte `off` of buffer `b` of pool `p` holds while its owner has not written it (R257; log 2).
`n` is the allocation the owner holds it by. -/
opaque freeByte : (n p b off : Nat) → Byte
/-- UNVERIFIED, safe: a 256-bit random number of a Datestone's generator (R383, R389; log 5). -/
opaque freeRandom : Nat → BitVec 256

end Sys2Proof.Config
end

