-- ==== Sys2Proof/Machine/RegMap.lean ====
section
/-! DEFINITION. The register pages (R28, R446, R448, R453, R454): where each page lies, and for every register that holds a
value of its own its access code, reset value and the legal range of each of its fields (R5–R8). Registers that are views of a
unit's state or whose write is an action have no row here; Bus.lean gives them their meaning. -/

namespace Sys2Proof.Machine

/-- Base of a wythe's region in BAR0 (R28, R454). -/
def wyBase (w : WytheIx) : Nat := 0x800000 * (w.val + 1)

def pgPlinth : Nat := 0
def pgMbox : Nat := 0x1000
def pgForme : Nat := 0x2000
def pgMode : Nat := 0x3000
def pgProof : Nat := 0x4000
def pgSystem : Nat := 0x5000
def pgDebug : Nat := 0x6000
def pgQp (q : Nat) : Nat := 0x8000 + 0x1000 * q
def pgComp (w : WytheIx) : Nat := wyBase w
def pgGraph (w : WytheIx) (i : Nat) : Nat := wyBase w + 0x1000 + 0x1000 * i
def pgTrans (w : WytheIx) : Nat := wyBase w + 0x3000
def pgKeys (w : WytheIx) : Nat := wyBase w + 0x4000
def pgInd (w : WytheIx) (i : Nat) : Nat := wyBase w + 0x8000 + 0x1000 * i
def pgTrie (w : WytheIx) : Nat := wyBase w + 0x10000
def pgLearn (w : WytheIx) : Nat := wyBase w + 0x11000
def pgIndex (w : WytheIx) : Nat := wyBase w + 0x12000
def pgGalley (w : WytheIx) : Nat := wyBase w + 0x14000
def pgColl (w : WytheIx) : Nat := wyBase w + 0x15000
def pgDomains (w : WytheIx) : Nat := wyBase w + 0x16000
def pgMarch (w : WytheIx) : Nat := wyBase w + 0x18000
def pgQuoin (w : WytheIx) : Nat := wyBase w + 0x19000
def pgDram (w : WytheIx) : Nat := wyBase w + 0x1A000
def pgTime (w : WytheIx) : Nat := wyBase w + 0x1B000
def pgTie (w : WytheIx) : Nat := wyBase w + 0x1C000
def pgBanks (w : WytheIx) (c : Nat) : Nat := wyBase w + 0x20000 + 0x1000 * c
def pgCoproc (w : WytheIx) (c : Nat) : Nat := wyBase w + 0x28000 + 0x1000 * c
/-- Instance of CORE, CHASE and PERF: 8 × course + core (R454). -/
def pgCore (w : WytheIx) (i : Nat) : Nat := wyBase w + 0x30000 + 0x1000 * i
def pgChase (w : WytheIx) (i : Nat) : Nat := wyBase w + 0x60000 + 0x1000 * i
def pgPerf (w : WytheIx) (i : Nat) : Nat := wyBase w + 0x90000 + 0x1000 * i
def pgPort (w : WytheIx) (p : Nat) : Nat := wyBase w + 0xC0000 + 0x1000 * p
def pgPress (w : WytheIx) (p : Nat) : Nat := wyBase w + 0xE0000 + 0x1000 * p
def pgPressMain (w : WytheIx) : Nat := wyBase w + 0xF8000
def pgGcl (w : WytheIx) (i : Nat) : Nat := wyBase w + 0x100000 + 0x1000 * i
def pgFilters (w : WytheIx) (i : Nat) : Nat := wyBase w + 0x130000 + 0x1000 * i
def pgMeters (w : WytheIx) (i : Nat) : Nat := wyBase w + 0x140000 + 0x1000 * i
def pgDate (w : WytheIx) : Nat := wyBase w + 0x160000
def pgLedger (w : WytheIx) : Nat := wyBase w + 0x161000
def pgWitness (w : WytheIx) : Nat := wyBase w + 0x162000
def pgWDrops (w : WytheIx) (i : Nat) : Nat := wyBase w + 0x164000 + 0x1000 * i
def pgWStreams (w : WytheIx) (i : Nat) : Nat := wyBase w + 0x168000 + 0x1000 * i

/-- One row of a page index: base in its region, block type, instances. -/
structure PageRow where
  base : Nat
  type : Nat
  count : Nat
  deriving DecidableEq, Repr

/-- The device-global pages (R453). -/
def globalPages : List PageRow :=
  [⟨0, 0x01, 1⟩, ⟨0x1000, 0x02, 1⟩, ⟨0x2000, 0x03, 1⟩, ⟨0x3000, 0x04, 1⟩, ⟨0x4000, 0x05, 1⟩, ⟨0x5000, 0x06, 1⟩,
   ⟨0x6000, 0x07, 1⟩, ⟨0x8000, 0x08, 64⟩]

/-- A wythe's pages (R454). -/
def wythePages : List PageRow :=
  [⟨0, 0x10, 1⟩, ⟨0x1000, 0x11, 2⟩, ⟨0x3000, 0x12, 1⟩, ⟨0x4000, 0x13, 1⟩, ⟨0x8000, 0x14, 8⟩, ⟨0x10000, 0x18, 1⟩,
   ⟨0x11000, 0x19, 1⟩, ⟨0x12000, 0x1A, 1⟩, ⟨0x14000, 0x1C, 1⟩, ⟨0x15000, 0x1D, 1⟩, ⟨0x16000, 0x1E, 1⟩,
   ⟨0x18000, 0x20, 1⟩, ⟨0x19000, 0x21, 1⟩, ⟨0x1A000, 0x22, 1⟩, ⟨0x1B000, 0x23, 1⟩, ⟨0x1C000, 0x24, 1⟩,
   ⟨0x20000, 0x28, 6⟩, ⟨0x28000, 0x29, 6⟩, ⟨0x30000, 0x30, 48⟩, ⟨0x60000, 0x31, 48⟩, ⟨0x90000, 0x32, 48⟩,
   ⟨0xC0000, 0x38, 25⟩, ⟨0xE0000, 0x40, 24⟩, ⟨0xF8000, 0x41, 1⟩, ⟨0x100000, 0x42, 48⟩, ⟨0x130000, 0x43, 16⟩,
   ⟨0x140000, 0x44, 32⟩, ⟨0x160000, 0x48, 1⟩, ⟨0x161000, 0x49, 1⟩, ⟨0x162000, 0x4A, 1⟩, ⟨0x164000, 0x4B, 2⟩,
   ⟨0x168000, 0x4C, 8⟩]

/-- A page: its region (0 global, 1 wythe 0, 2 wythe 1), block type and instance. -/
structure PageId where
  region : Nat
  type : Nat
  inst : Nat
  deriving DecidableEq, Repr

def findPage (region o : Nat) : List PageRow → Option PageId
  | [] => none
  | r :: rs => if r.base ≤ o ∧ o < r.base + 0x1000 * r.count then some ⟨region, r.type, (o - r.base) / 0x1000⟩
               else findPage region o rs

/-- The page a BAR0 offset lies in; none for a reserved offset (R28, R453, R454). -/
def pageOf (a : Nat) : Option PageId :=
  if a < 0x800000 then findPage 0 a globalPages
  else if a < 0x1000000 then findPage 1 (a - 0x800000) wythePages
  else if a < 0x1800000 then findPage 2 (a - 0x1000000) wythePages
  else none

/-- A field of a register: bits [hi:lo] and its legal range. -/
structure Fld where
  hi : Nat
  lo : Nat
  min : Nat
  max : Nat
  deriving DecidableEq, Repr

/-- A field every value of which is legal. -/
def fl (hi lo : Nat) : Fld := ⟨hi, lo, 0, 2 ^ (hi + 1 - lo) - 1⟩
/-- A field clamped to [min, max] (R8). -/
def fc (hi lo min max : Nat) : Fld := ⟨hi, lo, min, max⟩

/-- Where the value of a register comes from and who keeps it. `rw` is volatile, `kept` is restored from the Keep store at
start-up (R59), `st` has staged, active and previous copies (R31), `stKept` is ST and kept. -/
inductive Acc where
  | rw
  | kept
  | st
  | stKept
  deriving DecidableEq, Repr

/-- `n` registers of one layout, `stride` bytes apart, from page offset `off`. -/
structure RegDesc where
  off : Nat
  n : Nat
  stride : Nat
  acc : Acc
  reset : Nat
  flds : List Fld
  deriving DecidableEq, Repr

def rg (off : Nat) (acc : Acc) (reset : Nat) (flds : List Fld) : RegDesc := ⟨off, 1, 4, acc, reset, flds⟩
def rgs (off n stride : Nat) (acc : Acc) (reset : Nat) (flds : List Fld) : RegDesc := ⟨off, n, stride, acc, reset, flds⟩
/-- The whole word. -/
def word : List Fld := [fl 31 0]

/-- R63, R64, R67: FORME. SLOT_A_BASE to SLOT_SIZE reset from fuses (`regReset`). -/
def formeRegs : List RegDesc :=
  [rg 0x108 .rw 0 [fl 16 16, fl 15 0], rgs 0x110 8 4 .rw 0 word, rg 0x144 .rw 0x186A0 [fc 31 0 1000 1000000],
   rgs 0x14C 3 4 .rw 0 word]

/-- R97, R98: COMPOSITOR. -/
def compRegs : List RegDesc :=
  [rgs 0x100 25 4 .st 0 [fl 16 16, fl 14 12, fl 10 8, fl 5 0],
   rgs 0x180 8 4 .st 0 [fl 31 30, fl 29 29, fl 28 28, fl 23 16, fl 15 0],
   rgs 0x1A0 8 4 .st 0 [fl 18 0], rgs 0x1C0 8 16 .st 0 [fl 31 25, fl 23 0], rgs 0x1C4 8 16 .st 0 [fl 29 24, fl 15 0],
   rgs 0x1C8 8 16 .st 0 word, rgs 0x1CC 8 16 .st 0 word, rgs 0x240 8 4 .st 0 [fl 0 0], rgs 0x260 10 4 .st 0 word]

/-- R99: COMPOSITOR_GRAPH. -/
def graphRegs : List RegDesc :=
  [rgs 0x100 32 64 .st 0 [fl 31 31, fc 30 27 0 9, fl 22 22, fl 21 16, fl 15 12, fl 11 8, fl 7 7, fc 4 0 16 31],
   rgs 0x104 32 64 .st 0 [fc 31 30 0 1, fl 29 20, fc 19 16 1 8, fl 14 12, fl 7 0],
   rgs 0x108 32 64 .st 0 [fl 31 22, fc 20 16 1 16, fl 15 8, fc 3 0 0 8]] ++
  (List.range 8).map (fun m => rgs (0x110 + 4 * m) 32 64 .st 0 [fl 31 27, fl 25 16, fc 5 0 0 32])

/-- R100: COMPOSITOR_TRANS. -/
def transRegs : List RegDesc :=
  [rgs 0x100 256 8 .st 0 [fl 31 16, fl 15 0], rgs 0x104 256 8 .st 0 [fl 31 31, fl 5 0]]

/-- R100: KEYSEG of the Case slots and of the hash profiles. -/
def keysegFlds : List Fld := [fl 31 30, fl 29 24, fl 20 16, fc 5 0 0 32]
def keysRegs : List RegDesc :=
  (List.range 8).map (fun n => rgs (0x100 + 0x40 * n) 10 4 .st 0 keysegFlds) ++
  (List.range 8).map (fun p => rgs (0x300 + 0x20 * p) 8 4 .st 0 keysegFlds)

/-- R100: COMPOSITOR_IND. -/
def indRegs : List RegDesc := [rgs 0x100 512 4 .st 0 [fc 30 28 0 5, fl 27 16, fc 14 12 0 5, fl 11 0]]

/-- R140: TRIE. -/
def trieRegs : List RegDesc := [rgs 0x100 2 4 .st 0 [fl 31 31, fl 19 0]]

/-- R141, R142: LEARN. -/
def learnRegs : List RegDesc :=
  [rg 0x100 .rw 0x960100C8 [fc 31 24 1 255, fl 16 16, fc 15 0 3 65535], rg 0x108 .rw 3 [fc 1 0 1 3],
   rgs 0x180 25 4 .rw 0x40000 [fc 18 0 0 0x40000]]

/-- R173, R174: CORE. COURSE_CFG exists on core 0 of each course only (`regDesc`). -/
def coreRegs : List RegDesc :=
  [rg 0x104 .stKept 0xFE [fl 7 1], rg 0x108 .stKept 0 word, rg 0x10C .stKept 0 word, rg 0x114 .rw 0 [fl 15 0],
   rg 0x11C .rw 0 [fl 15 4], rg 0x124 .stKept 0xE [fl 3 3, fl 2 2, fl 1 1, fl 0 0]]

/-- R250, R251: CHASE. -/
def chaseRegs : List RegDesc :=
  [rg 0x108 .rw 0 word, rg 0x10C .rw 0 [fl 15 12, fl 11 11, fl 10 10, fc 9 7 1 7], rg 0x110 .rw 0 [fl 5 0],
   rg 0x128 .rw 0x14 [fc 4 0 10 24], rgs 0x180 16 4 .rw 0 [fl 31 31, fl 30 28, fl 25 20, fl 13 8, fc 4 0 0 29],
   rg 0x1C0 .rw 0xF4240 word, rg 0x1C8 .rw 0 [fl 15 0], rgs 0x1D0 2 4 .st 0 word, rg 0x1D8 .rw 0 [fl 5 0]]

/-- R278, R279: GALLEY. -/
def galleyRegs : List RegDesc :=
  ([2, 4, 8, 0x10, 0x20, 0x40, 0x98, 0x100].zipIdx).map (fun e => rg (0x100 + 4 * e.2) .st (0x80000000 + e.1)
    [fl 31 31, fl 30 30, fl 23 12, fc 8 0 1 256]) ++
  ([0x8000, 0x4000, 0x2000, 0x1000, 0x800, 0x400, 0x180, 0x80].zipIdx).map (fun e => rg (0x120 + 4 * e.2) .st e.1
    [fc 23 0 0 0xFFFFFE]) ++
  [rg 0x164 .st 0 [fl 16 0], rg 0x168 .st 0 [fc 17 0 0 131072],
   rgs 0x170 25 4 .st 0x00FF1600 [fl 23 16, fl 13 12, fc 11 6 2 32]]

/-- R280: COLLATOR. HOLD_LIMIT 1–9 is clamped to 10 (`clampSpecial`). -/
def collRegs : List RegDesc := [rgs 0x110 16 4 .st 0x1F4 [fl 23 0], rg 0x150 .rw 0 [fl 11 0]]
/-- R282: COLLATOR_DOMAINS. -/
def domainRegs : List RegDesc := [rgs 0x100 512 4 .st 0 word]
/-- R332: MARCH. -/
def marchRegs : List RegDesc := [rg 0x104 .rw 0 [fl 7 0]]
/-- R334, R335: QUOIN. -/
def quoinRegs : List RegDesc :=
  [rg 0x110 .rw 0 [fl 10 0], rgs 0x200 32 4 .st 0x1FF [fl 31 31, fl 30 25, fl 8 0]]
/-- R331: BANKS. -/
def banksRegs : List RegDesc := [rg 0x100 .kept 0 ((List.range 16).map fun b => fc (2 * b + 1) (2 * b) 0 2)]

/-- R361, R362: PRESS. -/
def pressRegs : List RegDesc :=
  [rg 0x100 .st 0xFF [fl 31 31, fl 30 30, fl 7 0], rg 0x104 .st 0 [fl 19 0], rg 0x108 .st 0 word,
   rg 0x10C .st 1 [fc 10 0 1 1024], rg 0x110 .st 0 [fl 31 3], rg 0x114 .st 0 word] ++
  (List.range 8).map (fun n => rg (0x120 + 4 * n) .st (n * 0x10000000 + 0x18) [fl 30 28, fc 11 0 1 4095]) ++
  [rgs 0x140 8 4 .st 0x04000200 [fc 31 16 1 65535, fc 15 0 1 65535],
   rgs 0x180 8 4 .st 0 [fl 31 31, fl 30 30, fl 29 29, fc 24 0 1 16777216],
   rgs 0x1A0 8 4 .st 0 [fl 31 31, fl 30 30, fl 29 29, fc 24 0 0 16777216],
   rgs 0x1C0 1 4 .st 0 [fl 31 31, fl 30 30, fl 29 29, fc 24 0 1 16777216],
   rgs 0x200 17 4 .st 0 word]

/-- R364: PRESS_MAIN. -/
def pressMainRegs : List RegDesc := [rg 0x10C .rw 0 [fl 11 0], rgs 0x180 32 4 .st 0x400 [fc 15 0 1 65535]]
/-- R363: PRESS_GCL. -/
def gclRegs : List RegDesc := [rgs 0x100 512 4 .st 0 [fl 31 24, fl 23 0]]
/-- R365: PRESS_FILTERS. -/
def filterRegs : List RegDesc :=
  [rgs 0x100 256 8 .st 0 [fl 31 31, fl 30 30, fl 29 27, fl 26 26, fl 25 12, fl 11 0],
   rgs 0x104 256 8 .st 0 [fl 31 31, fl 30 30, fc 28 24 0 23, fl 22 20]]
/-- R365: PRESS_METERS. -/
def meterRegs : List RegDesc :=
  [rgs 0x100 128 16 .st 0 word, rgs 0x104 128 16 .st 0 word,
   rgs 0x108 128 16 .st 0 [fl 31 31, fl 30 30, fl 29 29, fl 28 28, fc 24 0 0 16777216],
   rgs 0x10C 128 16 .st 0 [fc 24 0 0 16777216]]
/-- R397: WITNESS. -/
def witnessRegs : List RegDesc := [rg 0x600 .st 0 [fl 24 0], rg 0x604 .st 0x3C [fc 11 0 1 3600]]
/-- R398: the stream map words of WITNESS_STREAMS. -/
def wstreamRegs : List RegDesc := [rgs 0x100 128 4 .st 0 [fl 31 31, fl 11 0]]
/-- R421, R422: PORT. -/
def portRegs : List RegDesc :=
  [rg 0x100 .stKept 0x5F2 [fc 27 24 0 8, fc 23 22 0 2, fl 21 20, fc 14 0 1518 16387], rg 0x104 .st 0 [fl 31 16, fl 15 0],
   rg 0x10C .rw 0x3E8 [fc 19 0 1 1000000]]
/-- R423, R424: TIME. FOLLOW resets to 1 on wythe 1 (`regReset`). SRC is kept (`keptFld`). -/
def timeRegs : List RegDesc :=
  [rg 0x100 .rw 0x64 [fl 31 31, fl 30 30, fl 29 29, fc 8 0 1 500], rg 0x118 .rw 0 [fc 29 0 0 999999999], rg 0x11C .rw 0 word,
   rg 0x120 .rw 0 [fl 15 0], rg 0x124 .rw 0 word, rg 0x128 .rw 0 word, rg 0x134 .rw 0x3E8 word, rg 0x138 .rw 0 word]
/-- R443, R444: DRAM. -/
def dramRegs : List RegDesc :=
  [rg 0x100 .kept 0x00320104 [fl 27 24, fl 21 20, fc 17 16 0 2, fl 8 8, fc 3 0 0 8], rg 0x108 .kept 16 [fc 7 0 1 255],
   rg 0x10C .kept 0xFFFFFFFF word, rg 0x110 .kept 0 word,
   rg 0x114 .kept 0xC0080064 [fl 31 31, fl 30 30, fc 21 16 2 30, fc 13 0 10 10000]]
/-- R470: PLINTH. -/
def plinthRegs : List RegDesc := [rg 0x104 .rw 0 [fl 0 0], rg 0x108 .kept 3 [fc 1 0 1 3]]
/-- R471: PLINTH_QP. -/
def qpRegs : List RegDesc :=
  [rg 0x100 .rw 0 [fl 31 12], rg 0x104 .rw 0 word, rg 0x108 .rw 0 [fl 31 12], rg 0x10C .rw 0 word, rg 0x110 .rw 0 [fl 31 2],
   rg 0x114 .rw 0 word, rg 0x118 .rw 0x0404 [fc 11 8 0 8, fc 3 0 0 8]]
/-- R472: PLINTH_MBOX. -/
def mboxRegs : List RegDesc := [rgs 0x200 64 4 .rw 0 word]
/-- R488, R489: MODE. -/
def modeRegs : List RegDesc :=
  [rg 0x104 .rw 2 [fl 2 0], rg 0x114 .kept 0x80000000 [fl 31 31, fl 15 0], rg 0x118 .kept 0 [fl 23 0], rg 0x11C .kept 0 [fl 23 0]]
/-- R490: SYSTEM. -/
def systemRegs : List RegDesc :=
  [rg 0x110 .kept 0 [fl 7 7, fl 3 0], rg 0x120 .rw 0 [fl 15 0], rg 0x124 .rw 0 [fl 15 0], rg 0x12C .rw 0 word]
/-- R514, R515: PROOF. -/
def proofRegs : List RegDesc :=
  [rg 0x100 .rw 7 [fl 2 0], rg 0x108 .kept 0x280000A8 [fc 31 24 1 80, fc 15 0 1 8760], rg 0x110 .st 0 [fl 2 0]]
/-- R530, R531: TIE. -/
def tieRegs : List RegDesc := [rg 0x104 .kept 0x800A03E8 [fl 31 31, fc 25 16 1 1000, fc 15 0 1 65535]]
/-- R544, R545: PERF. -/
def perfRegs : List RegDesc :=
  [rgs 0x100 8 4 .rw 0 [fl 31 31, fl 30 30, fl 29 29, fl 23 16, fl 7 0], rgs 0x120 8 4 .rw 0 [fc 31 0 1 0xFFFFFFFF]]
/-- R546, R547: DEBUG. -/
def debugRegs : List RegDesc :=
  [rg 0x100 .rw 0 [fl 16 16, fc 14 12 0 5, fl 10 8, fl 6 4, fc 1 0 0 2], rg 0x108 .rw 0 [fl 23 0], rg 0x10C .rw 0 word]
/-- R396: LEDGER. -/
def ledgerRegs : List RegDesc := [rg 0x10C .rw 0 [fl 11 0], rg 0x114 .kept 0 [fl 11 0]]

/-- The stored registers of a page type. -/
def pageRegs (type : Nat) : List RegDesc :=
  match type with
  | 0x01 => plinthRegs | 0x02 => mboxRegs | 0x03 => formeRegs | 0x04 => modeRegs | 0x05 => proofRegs | 0x06 => systemRegs
  | 0x07 => debugRegs | 0x08 => qpRegs | 0x10 => compRegs | 0x11 => graphRegs | 0x12 => transRegs | 0x13 => keysRegs
  | 0x14 => indRegs | 0x18 => trieRegs | 0x19 => learnRegs | 0x1C => galleyRegs | 0x1D => collRegs | 0x1E => domainRegs
  | 0x20 => marchRegs | 0x21 => quoinRegs | 0x22 => dramRegs | 0x23 => timeRegs | 0x24 => tieRegs | 0x28 => banksRegs
  | 0x30 => coreRegs | 0x31 => chaseRegs | 0x32 => perfRegs | 0x38 => portRegs | 0x40 => pressRegs | 0x41 => pressMainRegs
  | 0x42 => gclRegs | 0x43 => filterRegs | 0x44 => meterRegs | 0x49 => ledgerRegs | 0x4A => witnessRegs | 0x4C => wstreamRegs
  | _ => []

/-- Registers that exist on one instance only: core 0 of a course (R173, R250), wythe 0 (R423);
PORT instance 24 has counters alone (R421's chapter). -/
def instanceHas (pg : PageId) (o : Nat) : Bool :=
  if pg.type = 0x30 ∧ o = 0x124 then pg.inst % 8 = 0
  else if pg.type = 0x31 ∧ (o = 0x1C0 ∨ o = 0x1C8 ∨ o = 0x1D0 ∨ o = 0x1D4 ∨ o = 0x1D8) then pg.inst % 8 = 0
  else if pg.type = 0x23 ∧ o = 0x138 then pg.region = 1
  else if pg.type = 0x38 then pg.inst < 24
  else true

def findDesc (o : Nat) : List RegDesc → Option RegDesc
  | [] => none
  | d :: ds => if d.off ≤ o ∧ (o - d.off) % d.stride = 0 ∧ (o - d.off) / d.stride < d.n then some d else findDesc o ds

/-- The stored register at a BAR0 offset, if there is one. -/
def regDesc (a : Nat) : Option RegDesc :=
  match pageOf a with
  | none => none
  | some pg => if instanceHas pg (a % 0x1000) then findDesc (a % 0x1000) (pageRegs pg.type) else none

/-- The reset value of a stored register (R7): CTRL resets to 1 (R448), fuse registers to what the fuses hold,
TIME_CFG.FOLLOW to 1 on wythe 1 (R424). Every other offset reads 0. -/
def regReset (a : Nat) : W32 :=
  if a % 0x1000 = 0x008 then 1
  else if a = pgForme + 0x14C ∨ a = pgForme + 0x150 ∨ a = pgForme + 0x154 then Config.fuseReg a
  else if a = pgTime 1 + 0x100 then 0x80000064
  else if a % 0x1000 < 0x100 then 0
  else match regDesc a with
    | none => 0
    | some d => BitVec.ofNat 32 d.reset

end Sys2Proof.Machine
end

