-- ==== Sys2Proof/Machine/StDev.lean ====
section
/-! DEFINITION. State of the Datestones, ports and time, tie, Plinth, modes, Proof and Brace (chapters 13, 14, 16–19). Times that
no register shows are nanoseconds of `State.now` (log 7). -/

namespace Sys2Proof.Machine

/-- What the device has put on its lines (log 10). -/
inductive Output where
  /-- a frame transmitted on a port, FCS included; `good` false for an inverted FCS (R358) or an invalid one -/
  | tx (w : WytheIx) (p : Nat) (data : Bytes) (good : Bool)
  /-- an MSI-X message (R455, R459, R463) -/
  | msix (vector : Nat)
  /-- bytes Plinth wrote to host memory (R456, R458, R465) -/
  | dma (addr : Nat) (data : Bytes)
  /-- a pulse of PPS_OUT rose (R417) -/
  | pps
  deriving DecidableEq, Repr

/-- Drop causes (R369). -/
inductive Cause where
  | fcsError | noForme | ingressFull | noBuffer | compositorAbort | courseClosed | verdictDrop | lateVerdict
  | badDescriptor | refLimit | collatorAbort | formeDrain | tieLost | tieNoBuffer | formeUnknown | portMode
  | pressDisabled | portDown | blocked | oversize | streamGate | red | storeFull | queueFull | yellow | badFcs
  | badFcsCut | pressAbort | tamperClosed
  deriving DecidableEq, Repr

/-- One latch of R9: the LO register that loaded it and the upper bits held. -/
structure Latch where
  lo : Nat
  upper : Nat
  deriving DecidableEq, Repr

/-- Lifecycle states (R372, R387). -/
inductive LifeCycle where
  | blank
  | commissioned
  | service
  | retired
  deriving DecidableEq, Repr

/-- A request waiting in the Datestone's intake queue (R374, R375). -/
inductive Intake where
  /-- a record; `off` the event fell in OFF (R390); `missed` the requests it stands for -/
  | record (type subject time : Nat) (payload : Bytes) (off : Bool) (missed : Nat)
  /-- a seal with its reason (R377) -/
  | seal (reason : Nat) (missed : Nat)
  deriving DecidableEq, Repr

/-- A missed bit of R375: source group of R374, type, latest request and how many it stands for. -/
structure Missed where
  source : Nat
  type : Nat
  latest : Intake
  count : Nat
  deriving DecidableEq, Repr

/-- A seal whose attachment is being signed (R377): the SEAL record's number, head[n], first reserved ring slot, and its reason. -/
structure Sealing where
  seq : Nat
  head : Bytes
  slot : Nat
  reason : Nat
  deriving DecidableEq, Repr

/-- An image-key slot (R383). -/
structure ImageKey where
  key : Bytes
  meteredOk : Bool
  revoked : Bool
  deriving DecidableEq, Repr

/-- One Datestone's region of the Brace store (R379, R509, R510). -/
structure BraceStore where
  /-- head and SEQUENCE of the latest seal stored -/
  sealHead : Bytes := []
  sealSeq : Nat := 0
  /-- the SEQUENCE ceiling stored -/
  ceiling : Nat := 0
  /-- the witness counters stored, by BAR0 offset of their LO -/
  image : SMap (BitVec 49) := []
  /-- a completed Brace is shown: the completion marker was written after the image -/
  marker : Bool := false
  deriving DecidableEq, Repr

/-- A challenge drawn for a token (R389). -/
structure Challenge where
  bytes : Bytes := []
  valid : Bool := false
  drawnAt : Nat := 0
  deriving DecidableEq, Repr

/-- A Datestone (chapter 13). -/
structure Datestone where
  /-- the core runs firmware it accepted (R385) -/
  started : Bool := false
  fwRejected : Bool := false
  fwVersion : W32 := 0
  fwCopyB : Bool := false
  fwARejected : Bool := false
  /-- the highest version accepted since commissioning (R386) -/
  fwFloor : W32 := 0
  /-- the Aullily root public key that the firmware carries (R383) -/
  rootKey : Bytes := []
  lc : LifeCycle := .blank
  boot : W16 := 0
  restored : Bool := false
  /-- `now` at the last start, for LOCAL_TIME -/
  startedAt : Nat := 0
  /-- `now` at which the always-on seconds counted 0 (R505) -/
  aonZero : Nat := 0
  intake : List Intake := []
  missed : List Missed := []
  sealing : Option Sealing := none
  /-- ring slots written, 64 bytes each (R380) -/
  ring : SMap Bytes := []
  /-- slots in use, counted back from the newest; the newest slot -/
  used : Nat := 0
  newest : Nat := 0
  /-- slots written since EXPORT_ACK's slot, at most 4,096 -/
  unacked : Nat := 0
  nextSeq : Nat := 0
  head : Bytes := []
  /-- first SEQUENCE not yet covered by a seal -/
  sealFirst : Nat := 0
  sealHead : Bytes := []
  sealSeq : Nat := 0
  clampCount : Nat := 0
  clampPage : Nat := 0
  clampReg : Nat := 0
  /-- witness counters at the previous snapshot round, by BAR0 offset -/
  prevSnap : SMap (BitVec 49) := []
  snapAt : Nat := 0
  window : List Bytes := []
  pubkey : Bytes := []
  privkey : Nat := 0
  authkey : Bytes := []
  imageKeys : SMap ImageKey := []
  challenge : Challenge := {}
  token : SMap Byte := []
  tokenGo : Bool := false
  tokenStatus : Nat := 0
  /-- `now` at which SERVICE expires; its token's digest -/
  serviceEnd : Nat := 0
  tamperCfg : Byte := 0
  tamperActive : Byte := 0
  tamperLatched : Byte := 0
  /-- TAMPER events latched in OFF (R390) -/
  offEvents : List Intake := []
  /-- for each port closed by R391, the sources that closed it -/
  closedBy : SMap Byte := []
  brace : BraceStore := {}
  deriving DecidableEq, Repr

/-- The time of day of a wythe (R410–R417). -/
structure Clock where
  /-- seconds × 10^9 + nanoseconds -/
  ns : Nat := 0
  /-- fraction of a nanosecond in units of 2^-44 -/
  frac : Nat := 0
  valid : Bool := false
  /-- slew left to apply, ns, and cycles since the last ns of it was applied -/
  slewing : Bool := false
  slewLeft : Int := 0
  slewCycles : Nat := 0
  srcActive : Bool := false
  ppsCap : Nat := 0
  /-- `now` until which PPS_OUT is high -/
  ppsUntil : Nat := 0
  deriving DecidableEq, Repr

/-- One direction of a bandwidth window (R409). -/
structure BwDir where
  bytes : Nat := 0
  frames : Nat := 0
  bytesLast : W32 := 0
  framesLast : W32 := 0
  bytesMin : W32 := 0xFFFFFFFF
  bytesMax : W32 := 0
  framesMin : W32 := 0xFFFFFFFF
  framesMax : W32 := 0
  /-- the value's tracking restarts at the next complete window -/
  skipBytesMin : Bool := false
  skipBytesMax : Bool := false
  skipFramesMin : Bool := false
  skipFramesMax : Bool := false
  deriving DecidableEq, Repr

/-- A transmit timestamp (R420). -/
structure TxStamp where
  time : Nat
  msgType : Nat
  domain : Nat
  seqId : Nat
  deriving DecidableEq, Repr

/-- A port's MAC and link (R399–R409, R420). -/
structure PortSt where
  up : Bool := false
  localFault : Bool := false
  remoteFault : Bool := false
  fecLock : Bool := false
  anDone : Bool := false
  speedMismatch : Bool := false
  rxBw : BwDir := {}
  txBw : BwDir := {}
  /-- the window under way started when the wythe's clock (or `now` while it is not valid) showed this -/
  bwStart : Nat := 0
  /-- the window under way was cut short and is discarded -/
  bwCut : Bool := false
  txts : List TxStamp := []
  txtsOverflow : Bool := false
  txtsTime : Nat := 0
  deriving DecidableEq, Repr

/-- State of one end of the tie (R519, R527, R531). -/
inductive TieState where
  | down
  | training
  | up
  | held
  | linked
  deriving DecidableEq, Repr

/-- Why the tie was lost (R521). -/
inductive TieCause where
  | none
  | tieLost
  | regionSkew
  | hostIsolate
  deriving DecidableEq, Repr

/-- Mode codes (R473). -/
inductive DevMode where
  | off
  | proof
  | setting
  | run
  | plumb
  | half
  | brace
  | dormant
  deriving DecidableEq, Repr

/-- A mode change in progress (R476, R477, R484, R486). -/
inductive Change where
  | none
  /-- outputs closing since a time, on the way to SETTING, DORMANT, or PROOF for a shut-down -/
  | closing (target : DevMode) (since : Nat)
  deriving DecidableEq, Repr

/-- How far an orderly shut-down is (R486). -/
inductive Shutdown where
  | idle
  | closing
  | sealing
  | proving
  /-- the PROOF record to be kept has not been appended yet -/
  | keeping
  | done
  deriving DecidableEq, Repr

/-- The mode and system unit (chapter 17). -/
structure Modes where
  change : Change := .none
  requestWaiting : Bool := false
  /-- a shut-down was asked for while the device could not start it: DORMANT, a mode change or a Proof under way (R486) -/
  shutdownDue : Bool := false
  /-- the start has not run since the latest reset (R481) -/
  startDue : Bool := true
  last : DevMode := .setting
  /-- LAST as the Keep store holds it (R59) -/
  keepLast : DevMode := .setting
  /-- mode a DORMANT device came from -/
  dormantFrom : DevMode := .setting
  shutdown : Shutdown := .idle
  abandoned : Bool := false
  wakeCause : Nat := 0
  wakeIndex : Nat := 0
  resetCause : Nat := 0
  resetSeen : Nat := 0
  startTime : W32 := 0
  startCold : Bool := false
  startAuto : Bool := false
  gpioIn : W16 := 0
  ackHigh : Bool := false
  shutdnReq : Bool := false
  pwrfailN : Bool := true
  railsUp : Bool := true
  vkeep : Bool := true
  keepValid : Bool := true
  /-- causes present for the next start, bit k−1 for code k -/
  causes : Nat := 2
  /-- last CURRENT.W1 reported over the tie -/
  w1Last : DevMode := .off
  deriving DecidableEq, Repr

/-- Who ran the Proof (R499). -/
inductive Occasion where
  | start
  | request
  | shutdown
  deriving DecidableEq, Repr

/-- Proof and Brace (chapter 18). -/
structure Proof where
  running : Bool := false
  occasion : Occasion := .start
  /-- parts of the Proof running or last run: LOGIC bit 0, ANALOGUE bit 1, MARCH bit 2 -/
  parts : Nat := 0
  result : Nat := 0
  failedMask : W32 := 0
  quadFail : BitVec 12 := 0
  freshFresh : Bool := false
  freshNoRecord : Bool := false
  freshAged : Bool := false
  freshTemp : Bool := false
  ageHours : Nat := 0
  /-- the kept record: 64 bytes, seconds, signature 64 bytes; empty when none -/
  record : Bytes := []
  recordAon : Nat := 0
  recordSig : Bytes := []
  /-- the PROOF record on its way to the primary's ledger is to be kept (R505) -/
  keepDue : Bool := false
  bracing : Bool := false
  braceDone : Bool := false
  powerReturned : Bool := false
  imageDone : Bool := false
  braceStart : Nat := 0
  braceMicros : W16 := 0
  braces : Nat := 0
  deriving DecidableEq, Repr

/-- One ring of a queue pair (R456). -/
structure Ring where
  head : W16 := 0
  tail : W16 := 0
  deriving DecidableEq, Repr

/-- A queue pair's rings (R456, R461). -/
structure QueuePair where
  tx : Ring := {}
  rx : Ring := {}
  /-- the frame of a fetched send descriptor that waits for a buffer, FCS included (R457) -/
  waiting : Option Bytes := none
  deriving DecidableEq, Repr

/-- Plinth (chapter 16). -/
structure Plinth where
  linkUp : Bool := false
  rate : Nat := 0
  width : Nat := 0
  /-- version chosen by HELLO -/
  version : Option Nat := none
  /-- a request is being served: REQ as it stood at its start; a further one waits (R463) -/
  req : Option Bytes := none
  again : Bool := false
  /-- response words -/
  resp : SMap W32 := []
  qps : SMap QueuePair := []
  deriving DecidableEq, Repr

end Sys2Proof.Machine
end

