-- ==== Sys2Proof/Machine/StFrame.lean ====
section
/-! DEFINITION. State of the frame path: ingress FIFOs, Compositor, Collator, Galley, Press and the tie's copies
(chapters 01, 03, 09, 12, 14, 19). -/

namespace Sys2Proof.Machine

/-- A frame received on a port (R12, R257, R404, R405). It stays listed until its slug is released or discarded. -/
structure RxFrame where
  /-- number of the frame on its wythe, in order of arrival -/
  id : Nat
  port : Nat
  /-- destination address through FCS, as the line carries it (log 8) -/
  data : Bytes
  /-- ingress gPTP time (R419) -/
  stamp : Nat
  /-- handle word of its buffer -/
  handle : Option Nat
  /-- reception error known from the bytes (R404): 0 none, 1 FCS, 2 runt, 3 longer than MAX_FRAME -/
  err : Nat
  /-- the MAC has reported the end (R70) -/
  ended : Bool
  /-- it is discarded whole, with the cause to count at its end, if that is not counted already -/
  refused : Bool
  cause : Option Cause
  /-- the Compositor has taken it in -/
  taken : Bool
  /-- its slug has been released early (R71) -/
  released : Bool
  /-- `now` at the MAC's report of its end (R70) -/
  endAt : Nat := 0
  deriving DecidableEq, Repr

/-- Where a frame stands in the Compositor (R70, R92). -/
inductive CompStage where
  /-- in the parser and table pipeline; the pass starts at this slot once parsed -/
  | pipeline
  /-- waiting for an intake cycle to start a new pass -/
  | recirculating
  /-- its finished slug waits in the hold area -/
  | held
  deriving DecidableEq, Repr

/-- A frame in the Compositor with the metadata built so far (R76, R79, R83, R91). -/
structure CompEntry where
  frame : Nat
  port : Nat
  forme : W16
  stage : CompStage
  /-- the frame has been parsed -/
  parsed : Bool
  /-- slot at which the next pass starts; 8 or more means none -/
  nextSlot : Nat
  scratch : Bytes
  /-- valid field-vector slots -/
  fields : SMap W32
  except_ : W16
  offsets : Bytes
  proto : W32
  lastNode : W16
  hitmap : W16
  recirculations : Nat
  tablesRun : Nat
  stream : W16
  hint : Byte
  user : List W32
  profile : Option Nat
  pin : Option Nat
  hash : W32
  /-- a BAD_LENGTH check of R565 waits for the frame's length: the packet's end -/
  needEnd : List Nat
  /-- `now` at which it came to the hold area (R70) -/
  heldAt : Nat := 0
  deriving DecidableEq, Repr

/-- A verdict as VERD hands it (R17, R224): a descriptor of 32 bytes, or 32 + 4 + 4 × count bytes for MULTI. -/
inductive Verdict where
  | forward (d : Bytes)
  | drop
  | multi (d : Bytes)
  | hold
  deriving DecidableEq, Repr

/-- State of a sequence slot that is not free (R266). -/
inductive SlotState where
  | pending
  | ready (v : Verdict)
  | discarded
  | orphan
  deriving DecidableEq, Repr

/-- A sequence slot in use (R266). -/
structure SeqSlot where
  state : SlotState
  domain : Nat
  seq : W16
  forme : W16
  port : Nat
  handle : W32
  /-- which taking of the slot this is, so that a verdict for an earlier one is stale (R273) -/
  serial : Nat
  /-- the ingress frame, when its slug was released early and its end is awaited -/
  frame : Option Nat
  deriving DecidableEq, Repr

/-- A verdict on its way to the Collator (R267). -/
structure VerdMsg where
  slot : Option (Nat × Nat)
  verdict : Verdict
  handle : W32
  deriving DecidableEq, Repr

/-- A slug in a dispatch queue or window (R79) with its hidden slot number (R267). -/
structure SlugRec where
  bytes : Bytes
  slot : Nat
  serial : Nat
  deriving DecidableEq, Repr

/-- A segment of a descriptor (R268). -/
structure Seg where
  handle : Nat
  off : Nat
  len : Nat
  deriving DecidableEq, Repr

/-- Colour of a copy (R342). -/
inductive Colour where
  | green
  | yellow
  | red
  deriving DecidableEq, Repr

/-- A descriptor copy for one target (R21, R268, R338, R356). -/
structure Copy where
  /-- the frame it counts for in flight (R275): serial on its wythe -/
  group : Nat
  hostq : Bool
  /-- egress port 0–23 or host queue 0–31 -/
  port : Nat
  cls : Nat
  stream : W16
  segs : List Seg
  forme : W16
  ingressW : WytheIx
  ingressPort : Nat
  slugHandle : W32
  /-- the ingress frame it waits for or follows, when early (R356) -/
  early : Option Nat
  /-- L is not known yet: an early copy admitted as a cut-through candidate (R357) -/
  cut : Bool
  len : Nat
  /-- bytes it counts in its queue -/
  queued : Nat
  yellow : Bool
  started : Bool
  deriving DecidableEq, Repr

/-- A copy crossing the tie with its targets on the egress wythe (R21, R517); it enters `rxq` at its arrival, its flits sent. -/
structure TieCopy where
  group : Nat
  /-- targets on the egress wythe: host queue?, port, class, stream -/
  targets : List (Bool × Nat × Nat × W16)
  segs : List Seg
  data : Bytes
  forme : W16
  ingressW : WytheIx
  ingressPort : Nat
  flits : Nat
  slugHandle : W32
  /-- the ingress frame whose end it waits for, when its descriptor is early (R356) -/
  early : Option Nat
  /-- buffer the egress Galley gave it -/
  handle : Nat
  /-- serial of its frame on the egress wythe once it is counted there (R275) -/
  egressGroup : Nat
  deriving DecidableEq, Repr

/-- A frame counted in flight (R275): its forme and the copies (or the slot, or the tie copy) still out. -/
structure Flight where
  forme : W16
  left : Nat
  deriving DecidableEq, Repr

/-- A pool (R252–R256). Layout fields are those in force. -/
structure Pool where
  /-- laid out and open -/
  open_ : Bool := false
  retiring : Bool := false
  /-- buffer size in bytes, buffers, backing -/
  size : Nat := 0
  count : Nat := 0
  dram : Bool := false
  /-- handles in the cache and in the ring, oldest first; `fresh` is the first handle never yet in either -/
  cache : List Nat := []
  ring : List Nat := []
  fresh : Nat := 0
  refilling : Bool := false
  spilling : Bool := false
  refs : SMap Nat := []
  /-- buffers whose handles of the old layout became invalid (R256), until they are allocated again -/
  stale : List Nat := []
  /-- number of each buffer's latest allocation, for its unwritten bytes (log 2) -/
  allocNo : SMap Nat := []
  /-- `now` + 1 of the latest grant, and the handles free when that cycle began (R261) -/
  granted : Nat := 0
  startFree : Nat := 0
  deriving DecidableEq, Repr, Inhabited

/-- How far the re-lay of a backing is (R256). -/
inductive Relay where
  | none
  /-- step 2, since this `now`; `now` at the end of the limit is since + drain limit -/
  | draining (since : Nat)
  /-- step 3, with the settings of the pools it began with, POOL_SIZE0–7 and POOL_COUNT0–7; `again` a further re-lay begins at the
  opening -/
  | building (again : Bool) (cfg : List W32)
  deriving DecidableEq, Repr

/-- Who asks the Galley for a move (R263, R264): a context by its number, or the host. -/
abbrev MoveOwner := Option Nat

/-- A queued or started move (R263, R264). -/
structure Move where
  owner : MoveOwner
  /-- course whose banks hold the block, the block's byte offset there; none when the address lies outside the banks -/
  course : Nat
  block : Option Nat
  /-- the 16 bytes of the block, read when the move started -/
  desc : Option Bytes
  /-- reading the block met an uncorrectable error (R309) -/
  bad : Bool := false
  deriving DecidableEq, Repr

/-- The Galley of a wythe. -/
structure Galley where
  pools : SMap Pool := []
  relayMem : Relay := .none
  relayDram : Relay := .none
  /-- bytes of buffers their owners have written, by pool, buffer and offset (`bufKey`) -/
  buf : SMap Byte := []
  nextAlloc : Nat := 0
  /-- allocations of Galley memory up to this one hold 0 where nothing has written since a DESTRUCTIVE march (R310) -/
  wipedAt : Nat := 0
  moves : List Move := []
  /-- stores to MOVE_POST held until a move of their core, or of the host, ends (R263) -/
  heldMoves : List Move := []
  /-- latest move status of each context, 0 the host, 1 + number a context (R264) -/
  moveStatus : SMap Nat := []
  /-- reads of MOVE_STATUS that wait at the register, the oldest first (R264) -/
  statusWaits : List Agent := []
  deriving DecidableEq, Repr

/-- The Collator of a wythe. -/
structure Collator where
  slots : SMap SeqSlot := []
  nextSerial : Nat := 0
  /-- next sequence number of each domain -/
  nextSeq : SMap W16 := []
  /-- slots of each domain that have not had their turn, head first -/
  order : SMap (List Nat) := []
  /-- `now` at which the head of a domain became the head -/
  headSince : SMap Nat := []
  verdicts : List VerdMsg := []
  /-- domain whose cross-wythe release is held for room in the tie's queue (R518) -/
  held : Option Nat := none
  flights : SMap Flight := []
  /-- most slots in use since SLOTS_MAX was read -/
  slotsMax : Nat := 0
  deriving DecidableEq, Repr

/-- The Compositor of a wythe. -/
structure Compositor where
  entries : List CompEntry := []
  /-- ports last served by the rotations of intake and release (R69, R70) -/
  lastIn : Nat := 24
  lastOut : Nat := 24
  deriving DecidableEq, Repr

/-- A frame in transmission on a port (R347, R356, R358). -/
structure Sending where
  copy : Copy
  /-- its frame's FCS failed while it was being sent (R358) -/
  cutBad : Bool
  /-- its debit waits for its length (R347) -/
  debtDue : Bool
  /-- egress timestamp (R419) -/
  stamp : Nat
  deriving DecidableEq, Repr

/-- A shaper's level (R348): units of 1/65,536 byte, and the remainder carried in units of 10^-9 of one. -/
structure Shaper where
  level : Int := 0
  rem : Nat := 0
  deriving DecidableEq, Repr

/-- A meter's buckets and remainders (R342, R348), and MARK_RED. -/
structure Meter where
  tc : Nat := 0
  te : Nat := 0
  tcRem : Nat := 0
  teRem : Nat := 0
  markRed : Bool := false
  deriving DecidableEq, Repr

/-- A port's gate control list (R352, R354). -/
structure Gate where
  running : Bool := false
  base : Nat := 0
  /-- cycle time in ns -/
  cycle : Nat := 0
  /-- GATES and interval in ns -/
  entries : List (Nat × Nat) := []
  /-- a list waiting for its base time: base, cycle, entries -/
  pending : Option (Nat × Nat × List (Nat × Nat)) := none
  states : Byte := 0xFF
  entry : Nat := 0
  deriving DecidableEq, Repr

/-- The Press of a wythe. -/
structure Press where
  /-- copies waiting for admission: released by the Collator, or complete from the tie (R337) -/
  arrivals : List Copy := []
  tieArrivals : List Copy := []
  /-- early copies waiting before admission for their frame's end (R356) -/
  early : List Copy := []
  /-- the descriptor store in admission order, with copies being transmitted (R338) -/
  store : List Copy := []
  sending : SMap Sending := []
  /-- early copies a MAC without a link has discarded, whose debits wait for their frames' lengths (R347, R407) -/
  debts : List Copy := []
  deficit : SMap Int := []
  ptr : SMap Nat := []
  shapers : SMap Shaper := []
  /-- shapers and meters due for reset at the next tick (R343, R351): for a shaper its old configuration word and rate -/
  shaperDue : SMap (W32 × W32) := []
  meterDue : SMap Bool := []
  meters : SMap Meter := []
  /-- blocked filters (R340) -/
  blocked : SMap Bool := []
  /-- SEL counters of each filter, 4 × filter + index (R364) -/
  sel : SMap (BitVec 49) := []
  gates : SMap Gate := []
  storeFullSeen : Bool := false
  /-- `now` of the latest refill tick -/
  lastTick : Nat := 0
  deriving DecidableEq, Repr

/-- One end of the tie (chapter 19). -/
structure Tie where
  state : TieState := .down
  /-- the tie has been lost and the rejoin has not completed (R521, R528) -/
  split : Bool := false
  cause : TieCause := .none
  /-- `now` at which the split, the retraining and the latest attempt began -/
  splitSince : Nat := 0
  retraining : Bool := false
  retrainSince : Nat := 0
  lastAttempt : Nat := 0
  /-- REJOIN was written after HOST_ISOLATE (R526) -/
  rejoinAsked : Bool := false
  /-- copies queued for the other wythe, in release order (R517) -/
  txq : List TieCopy := []
  /-- copies this end is receiving -/
  rxq : List TieCopy := []
  /-- the other Datestone's SEQUENCE last received (R525) -/
  otherSeq : Nat := 0
  skewInfo : W32 := 0
  /-- `now` at which the next sample could show the latest reported skew gone (R27, R526) -/
  skewUntil : Nat := 0
  deriving DecidableEq, Repr

end Sys2Proof.Machine
end

