-- ==== Sys2Proof/Machine/StTables.lean ====
section
/-! DEFINITION. State of the lookup tables and their command windows (chapter 04, and the Case stores of chapter 03). -/

namespace Sys2Proof.Machine

/-- A valid entry of the exact store (R85), at its byte address there: its control byte's SLOT, BORN and DYING, its width, key and
action record. -/
structure ExactEntry where
  slot : Nat
  wide : Bool
  key : Nat
  born : Bool
  dying : Bool
  act : Bytes
  deriving DecidableEq, Repr

/-- A valid entry of the ternary array (R86). -/
structure TernEntry where
  value : BitVec 320
  mask : BitVec 320
  born : Bool
  dying : Bool
  deriving DecidableEq, Repr

/-- A prefix of the trie and the roots that reach it (R37, R104–R108). -/
structure Prefix where
  v6 : Bool
  /-- the address, left-aligned in 64 bits, zero beyond `len` -/
  addr : W64
  len : Nat
  hop : BitVec 20
  root0 : Bool
  root1 : Bool
  deriving DecidableEq, Repr

/-- A valid entry of the learn table (R110). -/
structure LearnEntry where
  born : Bool
  dying : Bool
  static : Bool
  age : Byte
  kindKey : W64
  port : Byte
  flags : Byte
  data : W32
  deriving DecidableEq, Repr

/-- A queued learn request (R114, R115). -/
structure LearnReq where
  kindKey : W64
  port : Byte
  flags : Byte
  data : W32
  forme : W16
  deriving DecidableEq, Repr

/-- A valid entry of the index table (R121). -/
structure IndexEntry where
  dying : Bool
  bytes : Bytes
  deriving DecidableEq, Repr

/-- When a command was accepted: outside a session, while an OPEN was pending, or in a session (R33). -/
inductive CmdKind where
  | plain
  | pending
  | session
  deriving DecidableEq, Repr

/-- A command waiting in a window, with the words captured at acceptance (R125, R126). -/
structure WinCmd where
  op : Nat
  tag : Byte
  quiet : Bool
  keys : List W32
  datas : List W32
  kind : CmdKind
  deriving DecidableEq, Repr

/-- A response not yet read (R124, R131). -/
structure WinResp where
  op : Nat
  tag : Byte
  code : Nat
  keys : List W32
  datas : List W32
  deriving DecidableEq, Repr

/-- A command window (R124–R127). -/
structure Window where
  keys : SMap W32 := []
  datas : SMap W32 := []
  fifo : List WinCmd := []
  resps : List WinResp := []
  rejected : Bool := false
  deriving DecidableEq, Repr

/-- The tables of a wythe. -/
structure Tables where
  /-- the exact store: its valid entries by byte address (R85), and its other bytes in units of 16, action records of ternary entries
  among them (R86) -/
  exact : SMap ExactEntry := []
  acts : SMap Bytes := []
  ternary : SMap TernEntry := []
  /-- every prefix a root reaches, in the order of NEXT (R129) -/
  trie : List Prefix := []
  /-- the active root is root 1 (R37) -/
  root1 : Bool := false
  /-- the root copy of R109 is under way -/
  copying : Bool := false
  /-- learn entries by position 4 × bucket + way (R129) -/
  learn : SMap LearnEntry := []
  learnQ : List LearnReq := []
  epoch : Byte := 0
  /-- `now` at which the current epoch began, and its length in 10 ms units -/
  epochStart : Nat := 0
  epochPeriod : Nat := 200
  /-- next bucket of the ager's pass; passes still owed (R120) -/
  pass : Option Nat := none
  passesOwed : Nat := 0
  index : SMap IndexEntry := []
  overlay : SMap Bytes := []
  windows : SMap Window := []
  deriving DecidableEq, Repr, Inhabited

end Sys2Proof.Machine
end

