-- ==== Sys2Proof/Machine/StMason.lean ====
section
/-! DEFINITION. State of the Mason cores, contexts, tasks, courses, coprocessors, banks, march engines and the Quoin
(chapters 05–08, 10, 11, 20). Cycles are those of a core's own counter (log 9). -/

namespace Sys2Proof.Machine

/-- Context states (R145). -/
inductive CtxState where
  | stopped
  | running
  | waiting
  | halted
  | faulted
  | swapping
  | entry
  deriving DecidableEq, Repr

/-- A product on its way to MHI:MLO or an X register (R157). -/
inductive ProductTo where
  | pair
  | acc (x : Fin 4)
  deriving DecidableEq, Repr

structure Product where
  dest : ProductTo
  /-- what is written when it lands: the product, or the X register's new value (R157, R198) -/
  value : W40
  /-- the first cycle at which a DC reads it -/
  lands : Nat
  deriving DecidableEq, Repr

/-- A TLOOK whose result has not arrived (R134). -/
structure PendingLook where
  tag : Fin 4
  dest : Fin 16
  table : LookTable
  /-- the key block's words: key, DATA, FLAGS and PORT (R132) -/
  key : W64
  data : W32
  flags : Byte
  port : Byte
  learn : Bool
  refresh : Bool
  forme : W16
  /-- cycle in which the TLOOK issued -/
  issued : Nat
  deriving DecidableEq, Repr

/-- Where a window or far-bank load writes (R160). -/
structure PendingLoad where
  reg : Reg
  /-- data address, and bytes accessed -/
  addr : Nat
  size : Nat
  /-- address of the load -/
  pc : W24
  /-- what it read when it issued (R193); none for a read that waits at its register (R264) -/
  value : Option Nat
  /-- cycle in which it issued -/
  issued : Nat
  deriving DecidableEq, Repr

/-- A hardware context (R145, R176, R188). -/
structure Ctx where
  a : Vector W24 8 := Vector.replicate 8 0
  d : Vector W16 16 := Vector.replicate 16 0
  x : Vector W40 4 := Vector.replicate 4 0
  mlo : W16 := 0
  mhi : W16 := 0
  /-- IE, FC, N, Z, C and V of SR; the other bits report live state (R182) -/
  sr : W16 := 0
  pcx : W24 := 0
  /-- TNOW1–TNOW3 as latched (R184) -/
  tnow : W48 := 0
  tcmp : W64 := 0
  /-- holding copy of TCMP1–TCMP3 (R184) -/
  tcmpHold : W48 := 0
  armed : Bool := false
  poly : W32 := 0
  evw : W32 := 0
  evAll : Bool := false
  /-- destination of the EVWAIT under way -/
  waitDest : Option (Fin 16) := none
  slug : Option SlugRec := none
  /-- cycle in which a VERD for that slug retires: from it on the window is empty (R242) -/
  slugEnds : Option Nat := none
  /-- TLOOK result areas, window offsets 0xC0–0x13F (R134) -/
  areas : SMap Byte := []
  state : CtxState := .stopped
  /-- task it holds -/
  task : Option TcbIx := none
  products : List Product := []
  looks : List PendingLook := []
  loads : List PendingLoad := []
  bkpt : Bool := false
  /-- a STEP is under way: the context halts after its next instruction, or when the wait it was halted in is met (R538) -/
  stepping : Bool := false
  /-- a HALT waits for the end of a swap or of an interrupt entry (R537) -/
  haltDue : Bool := false
  /-- CTXSTOP waits for the loads and TLOOKs issued: the context issues no more, and is STOPPED when the last has arrived (R147) -/
  stopDue : Bool := false
  deriving DecidableEq, Repr

/-- States of a task (R227). -/
inductive TaskState where
  | free
  | ready
  | running
  | waiting
  | saved
  | halted
  | faulted
  | moving
  deriving DecidableEq, Repr, Inhabited

/-- A task control block (R225–R227, R248). The register image is live while the task is not resident. -/
structure Tcb where
  state : TaskState := .free
  a : Vector W24 8 := Vector.replicate 8 0
  d : Vector W16 16 := Vector.replicate 16 0
  pcx : W24 := 0
  /-- FC and N, Z, C, V in their SR places -/
  sr : W16 := 0
  mlo : W16 := 0
  mhi : W16 := 0
  flags : W32 := 0
  evw : W32 := 0
  evAll : Bool := false
  waitDest : Option (Fin 16) := none
  prio : BitVec 4 := 0
  taker : Bool := false
  pin : Bool := false
  pinCtx : CtxIx := 0
  tcmp : W64 := 0
  armed : Bool := false
  poly : W32 := 0
  /-- context, when resident or MOVING -/
  ctx : CtxIx := 0
  /-- order of becoming READY, of starting to wait -/
  since : Nat := 0
  /-- cycle from which its waiting time runs; none when it does not wait to issue -/
  waitFrom : Option Nat := none
  waitLast : W32 := 0
  waitMax : W32 := 0
  waitSum : BitVec 49 := 0
  deriving DecidableEq, Repr, Inhabited

/-- A swap, or a slug's way into a window, under way on a core (R237, R241): what is saved, what is loaded into which context, and
the slug that comes with it. A resident taker is neither saved nor loaded. -/
structure Swap where
  ctx : CtxIx
  save : Option TcbIx
  load : Option TcbIx
  slug : Option SlugRec
  deriving DecidableEq, Repr

/-- A sampled event whose instruction has not been named (R534, R535): counter, context of the event, count, TNOW [31:0], the issue
opportunities that its context has had since, and whether the next one names it. -/
structure SampleDue where
  counter : Nat
  ctx : Option CtxIx
  count : Nat
  tnow : W32
  slots : Nat := 0
  chosen : Bool := false
  deriving DecidableEq, Repr

/-- A Mason image held for a core (R465, R466): the bytes, and its SHA-256. -/
structure MImage where
  bytes : Bytes
  deriving DecidableEq, Repr

/-- The classes of instructions that pair (R155). -/
inductive PairClass where
  | address
  | data
  deriving DecidableEq, Repr

/-- The latest instruction a core issued, where the next one of its context may issue with it (R155). -/
structure PairHalf where
  ctx : CtxIx
  cls : PairClass
  /-- registers it writes -/
  writes : List Reg
  cycle : Nat
  deriving DecidableEq, Repr

/-- When a context may issue next: not before `next` (R156, R160, R166, R167), and an instruction that reads a register of `results` not
before its cycle (R150); an entry with `true` binds uses as an address alone. What it issues up to cycle `squash` follows a branch or an
instruction that faulted, and is killed (R156, R170, R293). -/
structure Timing where
  next : Nat := 0
  results : List (Reg × Bool × Nat) := []
  squash : Nat := 0
  deriving DecidableEq, Repr

/-- A store in a core's store queue (R150, R193): its context, with the SR that names a far course, data address, size and value. -/
structure QStore where
  ctx : CtxIx
  sr : W16
  addr : Nat
  size : Nat
  value : Nat
  deriving DecidableEq, Repr

/-- A core (R144–R174). -/
structure Core where
  spcx : W24 := 0
  ssr : W16 := 0
  sa0 : W24 := 0
  sd0 : W16 := 0
  /-- pending sources (R161) -/
  intPend : W16 := 0
  /-- step of the entry under way, 0 none; its winner so far -/
  entryStep : Nat := 0
  entrySource : Nat := 0
  entryTook : Bool := false
  lastEntry : W32 := 0
  /-- sources of the entries whose handlers have not executed RETI, from E1 on, the innermost first (R153, R163, R170) -/
  handlers : List Nat := []
  /-- sources that could be taken at the latest slot 0 passed (R164) -/
  sampled : Nat := 0
  /-- stopped by DOUBLE or by CORE ABORT until ENABLE is set again (R171, R249) -/
  dead : Bool := false
  /-- a CORE ABORT has been written since: ENABLE restarts the core (R171, R172) -/
  aborted : Bool := false
  data : SMap Byte := []
  inst : SMap Byte := []
  /-- as a course's `undef`, for the two scratchpads -/
  undef : Nat := 0
  /-- lines of the course banks held in the instruction cache, newest first; branch target buffer: address and target by index -/
  icache : List Nat := []
  btb : SMap (Nat × Nat) := []
  /-- cycle in which the core last issued (log 9) -/
  cycle : Nat := 0
  /-- context last granted at each priority (R151) -/
  grants : SMap Nat := []
  /-- what the contexts wait for (R150) -/
  timing : SMap Timing := []
  /-- stores behind a MOVE_POST that waits for a place, the oldest first (R150, R263) -/
  storeQ : List QStore := []
  /-- after a change of mode into or out of PLUMB: the plumb attribute until the next turn boundary, and the cycle of the change
  (R175) -/
  plumbWas : Option (Bool × Nat) := none
  /-- the instruction issued in that cycle, where a second may pair with it -/
  last : Option PairHalf := none
  loadStart : Nat := 0
  loadIssues : Nat := 0
  load : W32 := 0
  taskStatus : Nat := 0
  readyMax : SMap Nat := []
  swaps : List Swap := []
  /-- the image loaded, the image of the forme in force, and the image held for the next lock-up (R38, R47, R465) -/
  image : Option MImage := none
  locked : Option MImage := none
  staged : Option MImage := none
  /-- sampling countdowns and events sampled (R534), the buffer's entries of four words (R536), words latched by SAMPLE0 -/
  countdown : SMap Nat := []
  due : List SampleDue := []
  samples : List (List W32) := []
  sampleLatch : List W32 := []
  deriving DecidableEq, Repr

/-- Context 0 is between E1 of an entry and its handler's RETI (R153). -/
def Core.inHandler (k : Core) : Bool := !k.handlers.isEmpty
/-- It is between E1 of a FAULT entry and that entry's RETI (R170). -/
def Core.inFault (k : Core) : Bool := k.handlers.contains 15

/-- Who holds a channel (R222, R251). -/
structure ChOwner where
  core : CoreIx
  master : Bool
  id : Nat
  deriving DecidableEq, Repr

/-- A delivered message of a channel (R221, R245). -/
structure ChMsg where
  words : List W16
  aborted : Bool
  deriving DecidableEq, Repr

/-- A channel (R221–R223, R244, R245). -/
structure Chan where
  msgs : List ChMsg := []
  owner : Option ChOwner := none
  words : List W16 := []
  /-- `now` of the owner's last progress; since when its CHPUT has waited for a free place (R244) -/
  progress : Nat := 0
  stalled : Option Nat := none
  deriving DecidableEq, Repr

/-- Power state of a bank (R302, R307). -/
inductive BankState where
  | on
  | retention
  | off
  /-- in transition to ON, RETENTION or OFF -/
  | changing (next : Fin 3)
  deriving DecidableEq, Repr

/-- Who holds or asks for a unit, a move, a lock: a task, a master context, or a single master (R284, R317). -/
inductive Holder where
  | task (c : CourseIx) (k : CoreIx) (t : TcbIx)
  | master (c : CourseIx) (k : CoreIx) (x : CtxIx)
  | host
  | datestone
  | dma
  deriving DecidableEq, Repr

/-- How far a coprocessor command is (R287–R293). -/
inductive PlaceState where
  | queued
  | committed
  | done
  deriving DecidableEq, Repr

/-- A place of a course's command queue (R287). -/
structure Place where
  owner : Holder
  core : CoreIx
  unit : Nat
  block : Bytes
  /-- what reading the block found: 0 nothing wrong, 2 not in the own banks or not aligned, 3 a retained bank, 7 an uncorrectable error
  (R289, R308, R309) -/
  found : Nat
  /-- its task has been killed (R294) -/
  dead : Bool
  /-- order of issue in the course -/
  order : Nat
  state : PlaceState
  status : Nat
  /-- it was cancelled before COMMIT, by CTRL.ABORT where true; at COMMIT it completes (R292, R299) -/
  cancelled : Option Bool := none
  deriving DecidableEq, Repr

/-- A coprocessor unit's claim and state (R283–R286, R294–R298). -/
structure CpUnit where
  holder : Option Holder := none
  /-- the holder's grant carries ABANDONED (R286) -/
  abandoned : Bool := false
  /-- a release waits for the holder's outstanding commands (R285); true when it is an abandonment (R286) -/
  releasing : Option Bool := none
  /-- queued claims, and the flag each posts at its grant -/
  waiters : List (Holder × Nat) := []
  /-- state bytes of the unit, empty when cleared -/
  state : Bytes := []
  deriving DecidableEq, Repr

/-- A course. -/
structure Course where
  dq : List SlugRec := []
  dqMax : Nat := 0
  /-- the core that received the latest slug (R240) -/
  lastCore : CoreIx := 0
  /-- core last served by CHGET (R223) -/
  channels : SMap Chan := []
  recovery : Bool := false
  /-- the quiescence detector's count, in half-cycles (R246) -/
  quiet : Nat := 0
  /-- held in reset by a Proof failure (R501), or not yet given an image after reset -/
  held : Bool := false
  /-- an image or plan change waits for the old tasks' verdicts (R47, R175) -/
  pausing : Bool := false
  imageDue : Bool := false
  banks : SMap Byte := []
  /-- not 0: the banks' unlisted bytes are free values of this number, after an aborted DESTRUCTIVE march (R329; log 5) -/
  undef : Nat := 0
  bankState : SMap BankState := []
  places : SMap Place := []
  gens : SMap Nat := []
  nextOrder : Nat := 0
  units : SMap CpUnit := []
  deriving DecidableEq, Repr

/-- A posted event flag not yet applied (R231). -/
structure Post where
  core : Nat
  tcb : TcbIx
  mask : W32
  deriving DecidableEq, Repr

/-- A request waiting at the Quoin (R319). -/
structure QWait where
  holder : Holder
  object : Nat
  /-- flag posted at the grant -/
  flag : Nat
  /-- it has been counted as waiting for a holding record (R319) -/
  short : Bool := false
  deriving DecidableEq, Repr

/-- Units one master holds of an object (R316, R318). -/
structure QHold where
  holder : Holder
  object : Nat
  units : Nat
  deriving DecidableEq, Repr

/-- The Quoin (R316–R325). -/
structure Quoin where
  holds : List QHold := []
  waits : List QWait := []
  abandoned : SMap Bool := []
  latest : SMap Holder := []
  /-- latest request and its result, by master -/
  results : List (Holder × W32) := []
  deriving DecidableEq, Repr

/-- A march engine (R310–R315). -/
structure March where
  running : Bool := false
  preserving : Bool := false
  target : W32 := 0
  hold : Nat := 0
  status : W32 := 0
  failAddr : W32 := 0
  deriving DecidableEq, Repr

/-- The debug page and TAP (R537–R542). -/
structure Debug where
  status : W32 := 0
  /-- JTAG instruction register: IDCODE after a reset of the TAP (PRESUMED, IEEE 1149.1; log 13); data of the last DBG_ACCESS read -/
  ir : BitVec 5 := 1
  jtagData : W32 := 0
  deriving DecidableEq, Repr

end Sys2Proof.Machine
end

