-- ==== Sys2Proof/Machine/StTop.lean ====
section
/-! DEFINITION. State of the forme unit and of the DRAM controller halves (chapters 02 and 15), and one wythe as a whole. -/

namespace Sys2Proof.Machine

/-- A boot flash slot (R57): its bytes, none of them where it is erased, and the kept settings its kept-settings block holds (R59), whose form the
manual does not give (log 20). -/
structure FlashSlot where
  bytes : Bytes := []
  keep : SMap W32 := []
  last : DevMode := .setting
  deriving DecidableEq, Repr

/-- A persist under way (R56). -/
structure Persist where
  /-- slot B, and its base address as the persist began -/
  slotB : Bool
  base : Nat
  number : W16
  image : Bytes
  lockCount : W32
  /-- the kept settings as they stood -/
  keep : SMap W32
  last : DevMode
  deriving DecidableEq, Repr

/-- A staging session (R33). -/
inductive Session where
  | none
  | pending (number : W16)
  | open_ (number : W16)
  deriving DecidableEq, Repr

/-- The forme unit of the device (chapter 02). -/
structure FormeUnit where
  session : Session := .none
  restored : Bool := false
  journal : Bytes := []
  /-- a lock-up is being validated: its number and PERSIST bit -/
  locking : Option (W16 × Bool) := none
  /-- the switch has fallen and LOCK_GO waits for the FORME_LOCK records (R43) -/
  ledgerWait : Bool := false
  /-- result code of the latest lock-up -/
  lockResult : Nat := 0
  lockCount : W32 := 0
  /-- gPTP time of the latest switch cycle -/
  switchTime : Nat := 0
  persist : Option Persist := none
  persistStatus : W32 := 0
  /-- what stands in boot flash, by byte address of its first byte (R56, R57, R63); the rest is erased -/
  flash : SMap FlashSlot := []
  /-- wythes whose sweep of the latest lock-up has not ended (R49) -/
  sweepOn : List WytheIx := []
  /-- courses 0–11 whose latest Mason image was refused (R42, R384) -/
  refusedImages : SMap Bool := []
  deriving DecidableEq, Repr

/-- A unit of a DRAM request in a queue (R436, R437): its number in the order of acceptance, whether it is a read-modify-write, and
the bytes of the unit it covers, all of them in a read-modify-write (R438). -/
structure DramOp where
  no : Nat
  unit : Nat
  rmw : Bool
  lo : Nat
  len : Nat
  deriving DecidableEq, Repr

/-- A DRAM channel (R428–R441). -/
structure DramCh where
  trained : Bool := false
  failed : Bool := false
  selfRefresh : Bool := false
  readQ : List DramOp := []
  writeQ : List DramOp := []
  /-- the write queue is being drained -/
  draining : Bool := false
  accepted : Nat := 0
  /-- MR4 code last read; refreshes at twice the rate; more is asked for -/
  mr4 : Nat := 0
  twice : Bool := false
  hot : Bool := false
  /-- when the next refresh falls due at 2× (1,950 ns later at 1×), `now` of the latest one issued, and one a pause has postponed (R435) -/
  nextRefresh : Nat := 0
  refreshed : Nat := 0
  postponed : Bool := false
  /-- until when its retraining pause runs (R433), and its latest service slot in PLUMB (R440) -/
  pauseEnd : Nat := 0
  slotEnd : Nat := 0
  /-- DELAYc and the widest windows of lanes 0 and 1 -/
  delay : W32 := 0
  eye0 : Nat := 0
  eye1 : Nat := 0
  /-- PHY temperature at the latest training, 0.25 °C; `now` of the latest retraining by time; the lane its next pause is for -/
  trainTemp : W16 := 0
  lastRetrain : Nat := 0
  nextLane : Nat := 0
  deriving DecidableEq, Repr

/-- A DRAM controller half (chapter 15). -/
structure Dram where
  /-- DRAM_CFG in force since the start (R425, R426), and whether the memory is available (R432) -/
  active : W32 := 0
  available : Bool := false
  /-- every lane's kept delays passed at the start (R431) -/
  restored : Bool := false
  channels : SMap DramCh := []
  lastPoll : Nat := 0
  deriving DecidableEq, Repr

/-- How far a wythe's sweep of the previous forme is (R49). -/
inductive Sweep where
  | idle
  /-- a previous forme is live and its frames are in flight -/
  | draining
  | sweeping
  deriving DecidableEq, Repr

/-- One wythe. -/
structure Wythe where
  mode : DevMode := .proof
  /-- mode HALF returns to (R522) -/
  returnMode : DevMode := .setting
  outputsClosed : Bool := true
  /-- forme register; the previous forme while it is live (R13, R30, R34) -/
  forme : W16 := 0
  previous : Option W16 := none
  sweep : Sweep := .idle
  /-- `now` of the latest switch cycle, for DRAIN_LIMIT, and whether the limit has been applied -/
  switchAt : Nat := 0
  drained : Bool := false
  clock : Clock := {}
  ports : SMap PortSt := []
  rx : List RxFrame := []
  nextFrame : Nat := 0
  comp : Compositor := {}
  coll : Collator := {}
  galley : Galley := {}
  press : Press := {}
  tie : Tie := {}
  tables : Tables := {}
  courses : SMap Course := []
  cores : SMap Core := []
  ctxs : SMap Ctx := []
  tcbs : SMap Tcb := []
  posts : List Post := []
  quoin : Quoin := {}
  marches : SMap March := []
  /-- `now` at which each course's CONFLICT counters were last brought up to date (R306; log 5) -/
  conflictAt : List Nat := List.replicate 6 0
  /-- soft repairs held in the Keep store: macro, and whether a column or a row of it (R314) -/
  repairs : List (Nat × Bool) := []
  ds : Datestone := {}
  dram : Dram := {}
  deriving DecidableEq, Repr

end Sys2Proof.Machine
end

