-- ==== Sys2Proof/Machine/State.lean ====
section
/-! DEFINITION. The state of the whole device as plain data, its accessors by wythe, what stops it, and the state after reset. -/

namespace Sys2Proof.Machine

/-- The device. Registers are listed by BAR0 offset (R28); an unlisted register reads its reset value (`regReset`). -/
structure State where
  /-- commands waiting, first in, first out -/
  pending : List Instr := []
  /-- the free values drawn so far (log 5); the model's own -/
  free : Nat := 0
  /-- ns since the rails came up (log 7); the model's own -/
  now : Nat := 0
  /-- what the device has put on its lines, newest first (log 10); the model's own -/
  out : List Output := []
  /-- the word the latest register read returned (log 10); the model's own -/
  readData : W32 := 0
  /-- stored registers other than ST ones: RW, W1C, kept, CTRL, EV_RAW, EV_EN, CLAMP_NOTE, FORME_TAG, FAULT_INFO -/
  regs : SMap W32 := []
  /-- the three copies of every ST register (R31) -/
  staged : SMap W32 := []
  active : SMap W32 := []
  previous : SMap W32 := []
  /-- counters by the BAR0 offset of their LO, bit 48 OVERFLOW (R9) -/
  counters : SMap (BitVec 49) := []
  /-- counter latches, by reader and page (R9; `latchKey`) -/
  latches : SMap Latch := []
  /-- settings in the Keep store, by BAR0 offset (R59); an unlisted one holds its documented default -/
  keep : SMap W32 := []
  forme : FormeUnit := {}
  modes : Modes := {}
  proof : Proof := {}
  plinth : Plinth := {}
  dbgUnit : Debug := {}
  w0 : Wythe := {}
  w1 : Wythe := {}
  deriving DecidableEq, Repr

/-- The device never stops with a fault: every event of the manual has an effect (log 6). -/
inductive Fault where
  deriving DecidableEq, Repr

/-- Why a command has no meaning in the model. -/
inductive Refusal where
  /-- raised by an arm of `exec` whose command is not modelled; safe: no next state is claimed -/
  | notModelled (mnemonic : String)
  deriving DecidableEq, Repr

/-- What a command answers. -/
abbrev Res := Host.Outcome State Fault Refusal

namespace State

/-- A wythe. -/
def wy (s : State) (w : WytheIx) : Wythe := if w = 0 then s.w0 else s.w1

/-- Replace a wythe. -/
def setWy (s : State) (w : WytheIx) (v : Wythe) : State := if w = 0 then { s with w0 := v } else { s with w1 := v }

/-- Change a wythe. -/
def updWy (s : State) (w : WytheIx) (f : Wythe → Wythe) : State := s.setWy w (f (s.wy w))

/-- The device right after reset (R7, R480): every stored register at its Reset value, MODE.CURRENT 0x0000_0101 (R488), the
VKEEP domain at the values of log 3, no forme, no frame, no task; start-up (START_UP) has not run yet. -/
def reset : State := {}

end State
end Sys2Proof.Machine
end

