-- ==== Sys2Proof/Machine/Regs.lean ====
section
/-! DEFINITION. The common means of the register pages (R5–R9, R31, R53, R448–R450, R455): stored words, their clamps, the three
copies of ST registers, counters and their latches, events, and what the device puts on its lines. -/

namespace Sys2Proof.Machine

/-- Bits [hi:lo] of a register word. -/
def fld (v : W32) (hi lo : Nat) : Nat := bitsOf v.toNat hi lo
/-- Bit `i` of a register word. -/
def flag (v : W32) (i : Nat) : Bool := bitOf v.toNat i
def w32 (n : Nat) : W32 := BitVec.ofNat 32 n
/-- Replace bits [hi:lo]. -/
def setFld (v : W32) (hi lo n : Nat) : W32 :=
  w32 (v.toNat - at' (fld v hi lo) lo + at' (n % 2 ^ (hi + 1 - lo)) lo)
/-- The two's complement number of a bit string of width `w`. -/
def signed (w n : Nat) : Int := if 2 ^ (w - 1) ≤ n then (n : Int) - 2 ^ w else n

namespace State

/-- A stored register's word, by BAR0 offset. -/
def rd (s : State) (a : Nat) : W32 := sget regReset s.regs a
def wr (s : State) (a : Nat) (v : W32) : State := { s with regs := sput regReset s.regs a v }

/-- The three copies of an ST register (R31). -/
def stStaged (s : State) (a : Nat) : W32 := sget regReset s.staged a
def stActive (s : State) (a : Nat) : W32 := sget regReset s.active a
def stPrevious (s : State) (a : Nat) : W32 := sget regReset s.previous a

/-- The ST register a frame stamped `forme` is governed by on wythe `w` (R13, R31, R44): the previous copy while the frame carries
the previous forme's number, the active copy otherwise. -/
def stOf (s : State) (w : WytheIx) (forme : W16) (a : Nat) : W32 :=
  if (s.wy w).previous = some forme then s.stPrevious a else s.stActive a

/-- Put a word on the device's lines (log 10). -/
def emit (s : State) (o : Output) : State := { s with out := o :: s.out }

/-- The word a register read returned (log 10). -/
def answer (s : State) (v : W32) : State := { s with readData := v }

/-- Draw the next free value (log 5). -/
def draw (s : State) : W64 × State := (Config.freeValue s.free, { s with free := s.free + 1 })

/-- Page base of an offset. -/
def pageBase (a : Nat) : Nat := a - a % 0x1000

/-- A page's CTRL.ENABLE, CTRL.FREEZE_COUNTERS (R449). -/
def enabled (s : State) (page : Nat) : Bool := flag (s.rd (page + 8)) 0
def frozen (s : State) (page : Nat) : Bool := flag (s.rd (page + 8)) 2

/-- Pages of a Datestone: their counters are never frozen and their CTRL has no effect (R367, R393). -/
def datestonePage (a : Nat) : Bool :=
  match pageOf a with
  | none => false
  | some pg => decide (0x48 ≤ pg.type)

/-- A counter: bits [47:0] its value, bit 48 OVERFLOW (R9). -/
def ctr (s : State) (a : Nat) : BitVec 49 := sget (fun _ => 0) s.counters a
def ctrVal (s : State) (a : Nat) : Nat := (s.ctr a).toNat % 2 ^ 48
def setCtr (s : State) (a : Nat) (v : BitVec 49) : State := { s with counters := sput (fun _ => 0) s.counters a v }

/-- A counter after `n` more events: it wraps at 2^48 and sets OVERFLOW, which is sticky (R9). -/
def ctrAdd (v : BitVec 49) (n : Nat) : BitVec 49 :=
  let t := v.toNat % 2 ^ 48 + n
  BitVec.ofNat 49 (t % 2 ^ 48 + (if 2 ^ 48 ≤ t ∨ v.msb then 2 ^ 48 else 0))

/-- Count `n` in the counter at BAR0 offset `a`, unless its page's counters are frozen (R449). -/
def count (s : State) (a n : Nat) : State :=
  if s.frozen (pageBase a) && !datestonePage a then s else s.setCtr a (ctrAdd (s.ctr a) n)

/-- Raise events of a page. Each time EV_PEND gains a bit, MSI-X vector 64 is sent (R448, R455). -/
def raise (s : State) (page : Nat) (bits : W32) : State :=
  let raw := s.rd (page + 0x10)
  let s' := s.wr (page + 0x10) (raw ||| bits)
  if bits &&& ~~~raw &&& s.rd (page + 0x14) = 0 then s' else s'.emit (.msix 64)

/-- Raise event bit `i` of a page. -/
def raiseBit (s : State) (page i : Nat) : State := s.raise page (w32 (2 ^ i))

end State

/-- Event bits a page of this type has; the others are reserved (R6). -/
def eventBits (type : Nat) : Nat :=
  match type with
  | 0x02 | 0x06 | 0x08 => 1
  | 0x04 | 0x22 | 0x24 => 0xF
  | 0x05 | 0x07 | 0x18 | 0x19 | 0x1A | 0x1C | 0x20 | 0x29 | 0x30 | 0x31 | 0x32 | 0x38 | 0x40 => 3
  | 0x1D | 0x21 | 0x23 | 0x28 | 0x41 | 0x48 | 0x49 => 7
  | _ => 0

/-- Pages whose CTRL holds no ENABLE or ABORT that acts: the universal rule's exceptions that ignore both (R249, R393, and the
chapters of PLINTH, MODE, PROOF, SYSTEM, DEBUG, TIE and PERF). -/
def ctrlIgnored (type : Nat) : Bool :=
  [0x01, 0x04, 0x05, 0x06, 0x07, 0x24, 0x31, 0x32].contains type || decide (0x48 ≤ type)

/-! Clamping (R8, R52, R53). -/

/-- A field's value clamped to the nearest legal one. -/
def clampFld (f : Fld) (v : Nat) : Nat := min (max v f.min) f.max

/-- A word as the register holds it: reserved bits 0, every field clamped by its own range. -/
def clampWord (flds : List Fld) (v : Nat) : Nat :=
  flds.foldl (fun acc f => acc + at' (clampFld f (bitsOf v f.hi f.lo)) f.lo) 0

/-- How many fields of a word are clamped: each is one clamp (R53). -/
def clampsIn (flds : List Fld) (v : Nat) : Nat :=
  (flds.filter (fun f => clampFld f (bitsOf v f.hi f.lo) != bitsOf v f.hi f.lo)).length

/-- Merge a write by its byte enables: enabled bytes from the value, the others from `old` (R447). -/
def mergeBytes (old v : W32) (en : BitVec 4) : W32 :=
  let m : W32 := (if en.getLsbD 0 then 0xFF else 0) ||| (if en.getLsbD 1 then 0xFF00 else 0) |||
    (if en.getLsbD 2 then 0xFF0000 else 0) ||| (if en.getLsbD 3 then 0xFF000000 else 0)
  (old &&& ~~~m) ||| (v &&& m)

/-! Counter reads (R9). -/

/-- Number of a context: 64 × course + 8 × core + context; with its wythe, 384 more for wythe 1. -/
def ctxNo (x : CtxId) : Nat := 384 * x.w.val + 64 * x.c.val + 8 * x.k.val + x.x.val
/-- Each reader has a latch per page. -/
def readerNo : Agent → Nat
  | .host => 0
  | .jtag => 1
  | .mason x => 2 + ctxNo x
def latchKey (r : Agent) (a : Nat) : Nat := readerNo r * 0x2000 + a / 0x1000

namespace State

/-- Load a reader's latch on a page: the LO register read and the upper bits held. -/
def latch (s : State) (r : Agent) (lo upper : Nat) : State :=
  { s with latches := sins s.latches (latchKey r lo) ⟨lo, upper⟩ }

/-- The upper bits a HI read returns: the latched ones when the latch was loaded from this LO, else the current ones. -/
def latchedUpper (s : State) (r : Agent) (lo current : Nat) : Nat :=
  match sfind s.latches (latchKey r lo) with
  | some l => if l.lo = lo then l.upper else current
  | none => current

end State
end Sys2Proof.Machine
end

