-- ==== Sys2Proof/Machine/Ops.lean ====
section
/-! DEFINITION. Operations that every chapter shares: access to the parts of a wythe, time, drops by cause, requests to the
Datestones, Chase posts and core interrupts. -/

namespace Sys2Proof

/-- Index of a core on its wythe: 8 × course + core (R454). -/
def Machine.coreIx (c : CourseIx) (k : CoreIx) : Nat := 8 * c.val + k.val
def CoreId.ix (k : CoreId) : Nat := Machine.coreIx k.c k.k
/-- Index of a context on its wythe. -/
def CtxId.ix (x : CtxId) : Nat := 8 * Machine.coreIx x.c x.k + x.x.val
def CtxId.core (x : CtxId) : CoreId := ⟨x.w, x.c, x.k⟩

end Sys2Proof

namespace Sys2Proof.Machine

/-- What key `k` of a structured map holds, `d` when it lists none. -/
def kget {α : Type} (d : α) (m : SMap α) (k : Nat) : α := (sfind m k).getD d
/-- Change what key `k` holds. -/
def kupd {α : Type} (d : α) (m : SMap α) (k : Nat) (f : α → α) : SMap α := sins m k (f (kget d m k))
/-- Remove key `k`. -/
def kdel {α : Type} (m : SMap α) (k : Nat) : SMap α := m.filter (fun e => e.1 != k)

/-- Index of a task on its wythe. -/
def tcbIx (core : Nat) (t : TcbIx) : Nat := 64 * core + t.val

/-- Every wythe. -/
def wythes : List WytheIx := [0, 1]

namespace State

def core (s : State) (w : WytheIx) (i : Nat) : Core := kget {} (s.wy w).cores i
def updCore (s : State) (w : WytheIx) (i : Nat) (f : Core → Core) : State :=
  s.updWy w (fun y => { y with cores := kupd {} y.cores i f })
def ctx (s : State) (x : CtxId) : Ctx := kget {} (s.wy x.w).ctxs x.ix
def updCtx (s : State) (x : CtxId) (f : Ctx → Ctx) : State :=
  s.updWy x.w (fun y => { y with ctxs := kupd {} y.ctxs x.ix f })
def tcb (s : State) (w : WytheIx) (i : Nat) : Tcb := kget {} (s.wy w).tcbs i
def updTcb (s : State) (w : WytheIx) (i : Nat) (f : Tcb → Tcb) : State :=
  s.updWy w (fun y => { y with tcbs := kupd {} y.tcbs i f })
def course (s : State) (w : WytheIx) (c : Nat) : Course := kget {} (s.wy w).courses c
def updCourse (s : State) (w : WytheIx) (c : Nat) (f : Course → Course) : State :=
  s.updWy w (fun y => { y with courses := kupd {} y.courses c f })
def port (s : State) (w : WytheIx) (p : Nat) : PortSt := kget {} (s.wy w).ports p
def updPort (s : State) (w : WytheIx) (p : Nat) (f : PortSt → PortSt) : State :=
  s.updWy w (fun y => { y with ports := kupd {} y.ports p f })
def ds (s : State) (w : WytheIx) : Datestone := (s.wy w).ds
def updDs (s : State) (w : WytheIx) (f : Datestone → Datestone) : State := s.updWy w (fun y => { y with ds := f y.ds })
def updComp (s : State) (w : WytheIx) (f : Compositor → Compositor) : State := s.updWy w (fun y => { y with comp := f y.comp })
def updColl (s : State) (w : WytheIx) (f : Collator → Collator) : State := s.updWy w (fun y => { y with coll := f y.coll })
def updGalley (s : State) (w : WytheIx) (f : Galley → Galley) : State := s.updWy w (fun y => { y with galley := f y.galley })
def updPress (s : State) (w : WytheIx) (f : Press → Press) : State := s.updWy w (fun y => { y with press := f y.press })
def updTie (s : State) (w : WytheIx) (f : Tie → Tie) : State := s.updWy w (fun y => { y with tie := f y.tie })
def updTables (s : State) (w : WytheIx) (f : Tables → Tables) : State := s.updWy w (fun y => { y with tables := f y.tables })
def updQuoin (s : State) (w : WytheIx) (f : Quoin → Quoin) : State := s.updWy w (fun y => { y with quoin := f y.quoin })

/-- Do `f` for each element. -/
def each {α : Type} (s : State) (l : List α) (f : State → α → State) : State := l.foldl f s
/-- Do `f` if `b`. -/
def onlyIf (s : State) (b : Bool) (f : State → State) : State := if b then f s else s

/-! Time (R410, R418). -/

/-- A wythe's gPTP time: seconds × 10^9 + ns, 64 bits. -/
def gptp (s : State) (w : WytheIx) : Nat := (s.wy w).clock.ns % 2 ^ 64
/-- The forme number a wythe holds as active (R30). -/
def formeNo (s : State) (w : WytheIx) : W16 := (s.wy w).forme

/-! The tie (R521, R527). -/

/-- The tie is lost for control traffic: split and not yet linked. -/
def tieLost (s : State) (w : WytheIx) : Bool :=
  (s.wy w).tie.split && ((s.wy w).tie.state == .down || (s.wy w).tie.state == .training)
/-- Wythe `w` is split: copies and queue pairs stay stopped until the rejoin completes (R523, R527). -/
def split (s : State) (w : WytheIx) : Bool := (s.wy w).tie.split
/-- Nothing passes between the wythes: an end that has lost the tie neither sends nor takes anything over it (R521, R523). -/
def tieCut (s : State) : Bool := s.tieLost 0 || s.tieLost 1
/-- The wythes that a lock-up or a host table write reaches (R524, R527). -/
def joined (s : State) : List WytheIx := if s.tieCut then [0] else [0, 1]

/-- Does an access by `a` reach wythe `w`'s pages? Firmware reaches its own wythe's only (R187); while the tie is lost the host
does not reach wythe 1 (R28, R523); JTAG reaches the DEBUG page alone (R541). -/
def reach (s : State) (a : Agent) (w : WytheIx) : Bool :=
  match a with
  | .mason x => x.w == w
  | .host => w == 0 || !s.tieCut
  | .jtag => false
/-- Does it reach the device-global pages? From wythe 1 they lie over the tie (R190). -/
def reachGlobal (s : State) (a : Agent) : Bool :=
  match a with
  | .mason x => x.w == 0 || !s.tieCut
  | .host => true
  | .jtag => false
/-- A write through a wythe's page has its effect when it reaches the page, and none otherwise. -/
def viaPage (s : State) (a : Agent) (w : WytheIx) (f : State → State) : State := if s.reach a w then f s else s
/-- A write through a device-global page. -/
def viaGlobal (s : State) (a : Agent) (f : State → State) : State := if s.reachGlobal a then f s else s

end State

/-! Drop causes (R369). -/

/-- Cause codes of R369. -/
def Cause.code : Cause → Nat
  | .fcsError => 0x00 | .noForme => 0x01 | .ingressFull => 0x02 | .noBuffer => 0x03 | .compositorAbort => 0x04
  | .courseClosed => 0x05 | .verdictDrop => 0x06 | .lateVerdict => 0x07 | .badDescriptor => 0x08 | .refLimit => 0x09
  | .collatorAbort => 0x0A | .formeDrain => 0x0B | .tieLost => 0x0C | .tieNoBuffer => 0x0D | .formeUnknown => 0x0E
  | .portMode => 0x0F | .pressDisabled => 0x10 | .portDown => 0x11 | .blocked => 0x12 | .oversize => 0x13
  | .streamGate => 0x14 | .red => 0x15 | .storeFull => 0x16 | .queueFull => 0x17 | .yellow => 0x18 | .badFcs => 0x19
  | .badFcsCut => 0x1A | .pressAbort => 0x1B | .tamperClosed => 0x1C

/-! Witness counters (R397, R398), by port, cause and stream slot. -/

def witRx (w : WytheIx) (p : Nat) : Nat := pgWitness w + 0x100 + 0x28 * p
def witTx (w : WytheIx) (p : Nat) : Nat := pgWitness w + 0x110 + 0x28 * p
def witForgiven (w : WytheIx) (p : Nat) : Nat := pgWitness w + 0x120 + 0x28 * p
def witSkips (w : WytheIx) : Nat := pgWitness w + 0x500
def witDrop (w : WytheIx) (p c : Nat) : Nat := pgWDrops w (p / 13) + 0x100 + 0x100 * (p % 13) + 8 * c
def witStream (w : WytheIx) (k : Nat) : Nat := pgWStreams w (k / 128) + 0x300 + 0x18 * (k % 128)
/-- Every witness counter of a wythe (R368). -/
def witAll (w : WytheIx) : List Nat :=
  (List.range 25).flatMap (fun p => [witRx w p, witRx w p + 8, witTx w p, witTx w p + 8] ++
    (if p < 24 then [witForgiven w p] else []) ++ (List.range 29).map (witDrop w p)) ++
  (List.range 1024).flatMap (fun k => [witStream w k, witStream w k + 8, witStream w k + 16]) ++ [witSkips w]

namespace State

/-- Count a frame or copy dropped on a port: the ordinary counter of its PORT page and the witness counter (R368, R421). -/
def drop (s : State) (w : WytheIx) (p : Nat) (c : Cause) : State :=
  (s.count (pgPort w p + 0x400 + 8 * c.code) 1).count (witDrop w p c.code) 1

/-! Requests to a Datestone (R373–R375). -/

/-- The source of a request, in the order of R374: a record's by its type, a seal's by its reason (R377); a periodic seal is the
Datestone's own. -/
def intakeSource (type : Nat) : Intake → Nat
  | .record _ _ _ _ _ _ =>
    (match type with
    | 0x05 => 1 | 0x04 => 2 | 0x07 | 0x08 => 3 | 0x01 => 4 | 0x02 => 5 | 0x0E => 7 | 0x03 => 8 | _ => 9)
  | .seal reason _ =>
    (match reason with
    | 0 => 0 | 1 => 4 | 2 => 1 | 4 => 3 | _ => 9)

/-- Enter a request; a full queue of 256 sets the missed bit of its source and type (R375). -/
def enterIntake (s : State) (w : WytheIx) (type : Nat) (r : Intake) : State :=
  if (s.ds w).intake.length < 256 then s.updDs w (fun d => { d with intake := d.intake ++ [r] })
  else
    let src := intakeSource type r
    let hit := fun (m : Missed) => m.source == src && m.type == type
    let again := fun (l : List Missed) =>
      if l.any hit then l.map (fun m => if hit m then { m with latest := r, count := m.count + 1 } else m)
      else l ++ [⟨src, type, r, 1⟩]
    let s' := s.updDs w (fun d => { d with missed := again d.missed })
    s'.count (pgDate w + 0x50) 1

/-- Ledgers that take requests: in BLANK and, after the retiring, in RETIRED none does (R375, R387). -/
def ledgering (s : State) (w : WytheIx) : Bool := (s.ds w).lc == .commissioned || (s.ds w).lc == .service

/-- Ask wythe `w`'s Datestone for a record of an event that falls now. -/
def record (s : State) (w : WytheIx) (type subject : Nat) (payload : Bytes) : State :=
  if s.ledgering w then s.enterIntake w type (.record type subject (s.gptp w) payload false 0) else s

/-- A Datestone has refused its firmware: the device stays in SETTING (R385). -/
def fwHeld (s : State) : Bool := wythes.any (fun w => (s.ds w).fwRejected)

/-- Ask for a seal (R377): 0 PERIODIC, 1 LOCKUP, 2 BRACE, 3 REQUEST, 4 LIFECYCLE. -/
def sealReq (s : State) (w : WytheIx) (reason : Nat) : State :=
  if s.ledgering w then s.enterIntake w 0x10 (.seal reason 0) else s

/-! Chase posts and core interrupts (R161, R231–R234). -/

/-- Post flags to a task of core index `i`: applied by POST_APPLY (R231). -/
def postFlags (s : State) (w : WytheIx) (i : Nat) (t : TcbIx) (mask : W32) : State :=
  s.updWy w (fun y => { y with posts := y.posts ++ [⟨i, t, mask⟩] })

/-- INDEX as a binding of this kind holds it: notices and GPIOs run to 15 (R251). -/
def bindIndex (b : W32) : Nat := fld b 25 20

/-- Post every binding of core `i` that names this source (R234). -/
def postBindingsOf (s : State) (w : WytheIx) (i kind index : Nat) : State :=
  s.each (List.range 16) (fun s n =>
    let b := s.rd (pgChase w i + 0x180 + 4 * n)
    s.onlyIf (flag b 31 && fld b 30 28 == kind && bindIndex b == index)
      (fun s => s.postFlags w i (Fin.ofNat 64 (fld b 13 8)) (w32 (2 ^ fld b 4 0))))

/-- Post the bindings of every core of the wythe: doorbells, notices, GPIOs. -/
def postBindings (s : State) (w : WytheIx) (kind index : Nat) : State :=
  s.each (List.range 48) (fun s i => s.postBindingsOf w i kind index)

/-- Post the bindings of a course's cores: its channels (R233). -/
def postCourseBindings (s : State) (w : WytheIx) (c kind index : Nat) : State :=
  s.each (List.range 8) (fun s k => s.postBindingsOf w (8 * c + k) kind index)

/-- Make interrupt source `src` pending at context 0 of core `i` (R161). -/
def interrupt (s : State) (w : WytheIx) (i src : Nat) : State :=
  s.updCore w i (fun c => { c with intPend := c.intPend ||| BitVec.ofNat 16 (2 ^ src) })

/-- Make `src` pending at every core of the wythe whose INT_EN enables it (R392, R462). -/
def interruptEnabled (s : State) (w : WytheIx) (src : Nat) : State :=
  s.each (List.range 48) (fun s i => s.onlyIf (flag (s.rd (pgCore w i + 0x114)) src) (fun s => s.interrupt w i src))

/-- A Datestone notice (R392). -/
def notice (s : State) (w : WytheIx) (code : Nat) : State := (s.postBindings w 3 code).interruptEnabled w 12

/-! Plans and the plumb attribute (R159, R174, R175). -/

/-- A CORE page's plan register in force: a lock-up's value applies from the course's resume (R175). -/
def coreCfg (s : State) (w : WytheIx) (i off : Nat) : W32 :=
  if (s.course w (i / 8)).pausing then s.stPrevious (pgCore w i + off) else s.stActive (pgCore w i + off)
/-- The plumb attribute of a course, by the device's mode and its COURSE_CFG (R159, R174). -/
def plumbSet (s : State) (w : WytheIx) (c : Nat) : Bool := (s.wy w).mode == .plumb || flag (s.coreCfg w (8 * c) 0x124) 0
/-- Core `i` is plumb in its cycle `t`: a change of mode applies from the first turn boundary (R175). -/
def plumbAt (s : State) (w : WytheIx) (i t : Nat) : Bool :=
  match (s.core w i).plumbWas with
  | some (was, c0) => if t / 8 ≤ c0 / 8 then was else s.plumbSet w (i / 8)
  | none => s.plumbSet w (i / 8)
/-- Core `i` is plumb in its present cycle. -/
def plumb (s : State) (w : WytheIx) (i : Nat) : Bool := s.plumbAt w i (s.core w i).cycle

/-! Clamps (R53, R54). -/

/-- METERED_PORTS bit of a port under the forme in force (R370). -/
def meteredPort (s : State) (w : WytheIx) (p : Nat) : Bool := flag (s.stActive (pgWitness w + 0x600)) p

/-- The lowest valid stream slot that maps to `stream` (R370), by a given view of the map words. -/
def streamSlot (view : Nat → W32) (w : WytheIx) (stream : Nat) : Option Nat :=
  (List.range 1024).find? (fun k =>
    let m := view (pgWStreams w (k / 128) + 0x100 + 4 * (k % 128))
    flag m 31 && fld m 11 0 == stream)

/-- A page that holds a field of a metered port, shaper, meter or stream, by a view of the ST registers (R54, chapter 12): the pages of
a port, those of its Press, the filters of a stream, and the pages that hold a PORT_CFG or METERED_PORTS bit for every port. -/
def meteredBy (view : Nat → W32) (pg : PageId) : Bool :=
  if pg.region = 0 then false
  else
    let w : WytheIx := if pg.region = 1 then 0 else 1
    let port := fun (p : Nat) => flag (view (pgWitness w + 0x600)) p
    match pg.type with
    | 0x10 => (List.range 25).any port
    | 0x1C => (List.range 25).any port
    | 0x4A => (List.range 25).any port
    | 0x38 => port pg.inst
    | 0x40 => port pg.inst || (List.range 17).any (fun n => flag (view (pgPress w pg.inst + 0x180 + 4 * n)) 29)
    | 0x42 => port (pg.inst / 2)
    | 0x43 => (List.range 256).any (fun n =>
        flag (view (pgFilters w pg.inst + 0x100 + 8 * n)) 31 && (streamSlot view w (256 * pg.inst + n)).isSome)
    | 0x44 => (List.range 128).any (fun n => flag (view (pgMeters w pg.inst + 0x108 + 16 * n)) 28)
    | _ => false
/-- A metered page: under the forme in force, or under the one being staged (DEDUCED; log 16). -/
def meteredPage (s : State) (a : Nat) : Bool :=
  match pageOf a with
  | none => false
  | some pg => meteredBy s.stActive pg || meteredBy s.stStaged pg

/-- Note `n` clamps of the register at `a`: CLAMP_NOTE of its page, and the Datestone's count on metered pages. -/
def noteClamp (s : State) (a n : Nat) : State :=
  if n = 0 then s
  else
    let pg := pageBase a
    let s1 := s.wr (pg + 0x28) (w32 (at' (min 0xFFFF (fld (s.rd (pg + 0x28)) 31 16 + n)) 16 + a % 0x1000))
    if s1.meteredPage a then
      s1.updDs (if a < 0x1000000 then 0 else 1) (fun d => { d with clampCount := d.clampCount + n, clampPage := pg, clampReg := a % 0x1000 })
    else s1

/-- Mode of a wythe as a code (R473). -/
def modeCode : DevMode → Nat
  | .off => 0 | .proof => 1 | .setting => 2 | .run => 3 | .plumb => 4 | .half => 5 | .brace => 6 | .dormant => 7

end State
end Sys2Proof.Machine
end

