-- ==== Sys2Proof/Machine/Banks.lean ====
section
/-! DEFINITION. The course banks: their bytes, power states and the effect of an access to a bank that is not ON (R302–R309). -/

namespace Sys2Proof.Machine

/-- How a bank meets an access (R308). -/
inductive BankView where
  | on
  | retained
  | off
  deriving DecidableEq, Repr

/-- What an unlisted byte reads as: 0 (log 1), or a free value after an aborted DESTRUCTIVE march (R329). `tag` tells the memory. -/
def undefByte (undef tag off : Nat) : Byte := if undef = 0 then 0 else Config.freeByte undef tag 0 off

namespace State

/-- A course's march engine runs a DESTRUCTIVE march: its memories are treated as retained (R312). -/
def marching (s : State) (w : WytheIx) (e : Nat) : Bool :=
  let m := kget {} (s.wy w).marches e
  m.running && !m.preserving

/-- The block engine runs a DESTRUCTIVE march over block memory `t` of R311, or over all of them (R312). -/
def marchingBlock (s : State) (w : WytheIx) (t : Nat) : Bool :=
  let m := kget {} (s.wy w).marches 6
  m.running && !m.preserving && (m.target.toNat == t || m.target.toNat == 0x1F)

/-- How bank `b` of a course meets an access. -/
def bankView (s : State) (w : WytheIx) (c b : Nat) : BankView :=
  if s.marching w c then .retained
  else match kget .on (s.course w c).bankState b with
    | .on => .on
    | .off => .off
    | _ => .retained

/-- A byte of a course's banks, by bank offset (R302). -/
def bankByte (s : State) (w : WytheIx) (c off : Nat) : Byte :=
  sget (undefByte (s.course w c).undef (16 + c)) (s.course w c).banks off
def setBankByte (s : State) (w : WytheIx) (c off : Nat) (v : Byte) : State :=
  s.updCourse w c (fun k => { k with banks := sput (undefByte k.undef (16 + c)) k.banks off v })

/-- Bytes of a course's banks as a master reads them: those of a bank that is off read 0 (R308). -/
def bankBytes (s : State) (w : WytheIx) (c off n : Nat) : Bytes :=
  (List.range n).map (fun i => if s.bankView w c ((off + i) / 0x40000) = .off then 0 else s.bankByte w c (off + i))
/-- Write bytes; those of a bank that is off are dropped. -/
def setBankBytes (s : State) (w : WytheIx) (c off : Nat) (v : Bytes) : State :=
  s.each v.zipIdx (fun s e => if s.bankView w c ((off + e.2) / 0x40000) = .on then s.setBankByte w c (off + e.2) e.1 else s)

/-- An uncorrectable error read from a bank (R309). -/
def bankUncorrectable (s : State) (w : WytheIx) (c off : Nat) : State :=
  ((s.count (pgBanks w c + 0x58) 1).wr (pgBanks w c + 0x24) (w32 off)).raiseBit (pgBanks w c) 2
/-- A corrected error. -/
def bankCorrected (s : State) (w : WytheIx) (c : Nat) : State := s.count (pgBanks w c + 0x50) 1

/-- Write bytes as a master whose partial stores read the rest of their 8-byte words with report `ecc`: a word in which that read finds
an uncorrectable error keeps its bytes, and the error counts (R309). -/
def setBankEcc (s : State) (w : WytheIx) (c off : Nat) (v : Bytes) (ecc : EccReport) : State :=
  let first := off / 8 * 8
  let last := (off + v.length) / 8 * 8
  let head := decide (off ≠ first) || decide (last ≤ first)
  let word := if head then first else last
  if v.isEmpty || (!head && off + v.length == last) || s.bankView w c (word / 0x40000) != .on then s.setBankBytes w c off v
  else match ecc with
    | .good => s.setBankBytes w c off v
    | .corrected => (s.setBankBytes w c off v).bankCorrected w c
    | .uncorrectable =>
      let s1 := s.bankUncorrectable w c word
      (s1.setBankBytes w c off (v.take (word - off))).setBankBytes w c (word + 8) (v.drop (word + 8 - off))

/-- Count an access to a bank that is not ON (R308). -/
def bankRefused (s : State) (w : WytheIx) (c : Nat) (v : BankView) : State :=
  match v with
  | .on => s
  | .retained => (s.count (pgBanks w c + 0x40) 1).raiseBit (pgBanks w c) 0
  | .off => (s.count (pgBanks w c + 0x48) 1).raiseBit (pgBanks w c) 1

/-- The worst state of the banks that `n` bytes from `off` touch: retained before off. -/
def bankRange (s : State) (w : WytheIx) (c off n : Nat) : BankView :=
  let bs := (List.range 16).filter (fun b => decide (off / 0x40000 ≤ b) && decide (b ≤ (off + n - 1) / 0x40000))
  if bs.any (fun b => s.bankView w c b == .retained) then .retained
  else if bs.any (fun b => s.bankView w c b == .off) then .off else .on

/-- The CONFLICT counters of a course are brought up to date (R306): how often requests waited since is not a thing the model holds, so
each grows by a free number, of at most the cycles that have passed at the highest core clock, 1.5 GHz (log 5). -/
def settleConflicts (s : State) (w : WytheIx) (c : Nat) : State :=
  let most := 3 * (s.now - (s.wy w).conflictAt.getD c 0) / 2
  if most = 0 then s
  else (s.each (List.range 64) (fun s n =>
      let (v, s1) := s.draw
      s1.count (pgBanks w c + 0x200 + 8 * n) (v.toNat % (most + 1)))).updWy w (fun y => { y with conflictAt := y.conflictAt.set c s.now })

/-- The contents of bank `b` are lost and read 0 from its next power-up (R307). -/
def clearBank (s : State) (w : WytheIx) (c b : Nat) : State :=
  let zeroed := fun (k : Course) =>
    if k.undef = 0 then sclear k.banks (0x40000 * b) (0x40000 * (b + 1))
    else (List.range 0x40000).foldl (fun m i => sput (undefByte k.undef (16 + c)) m (0x40000 * b + i) 0) k.banks
  s.updCourse w c (fun k => { k with banks := zeroed k })

/-- Bank `b` starts to change to the state of code `t` (R307): contents are lost at a change to OFF. -/
def bankChange (s : State) (w : WytheIx) (c b : Nat) (t : Fin 3) : State :=
  let cur := kget .on (s.course w c).bankState b
  let already := match cur with
    | .on => t == 0 | .retention => t == 1 | .off => t == 2 | .changing u => t == u
  if already then s
  else
    let s1 := if t = 2 ∨ cur = .off then s.clearBank w c b else s
    s1.updCourse w c (fun k => { k with bankState := sins k.bankState b (.changing t) })

/-- BANK_POWER is written: a value of 3 is clamped to 2 (R307, R331); in DORMANT the banks stay as it has them (R484). -/
def bankPower (s : State) (w : WytheIx) (c : Nat) (v : W32) : State :=
  let a := pgBanks w c + 0x100
  let flds := (List.range 16).map (fun b => fc (2 * b + 1) (2 * b) 0 2)
  let v' := w32 (clampWord flds v.toNat)
  let s1 := (s.wr a v').noteClamp a (clampsIn flds v.toNat)
  if (s.wy w).mode = .dormant then s1
  else s1.each (List.range 16) (fun s b => s.bankChange w c b (Fin.ofNat 3 (fld v' (2 * b + 1) (2 * b))))

/-- A transition of bank `b` ends. -/
def bankSettled (s : State) (w : WytheIx) (c b : Nat) : State :=
  match kget .on (s.course w c).bankState b with
  | .changing t => s.updCourse w c (fun k => { k with bankState := sins k.bankState b (if t = 0 then .on else if t = 1 then .retention else .off) })
  | _ => s

end State

/-- BANK_POWER_WRITE (R307). -/
def execBankPowerWrite (a : Agent) (w : WytheIx) (c : CourseIx) (value : W32) (s : State) : Res :=
  .next (s.viaPage a w (fun s => s.bankPower w c value))

/-- BANK_TRANSITION_END (R307). -/
def execBankTransitionEnd (w : WytheIx) (c : CourseIx) (b : Fin 16) (s : State) : Res := .next (s.bankSettled w c b)

end Sys2Proof.Machine
end

