-- ==== Sys2Proof/Machine/Galley.lean ====
section
/-! DEFINITION. The Galley: pools, buffers, reference counts and moves (R252–R264, R276). -/

namespace Sys2Proof.Machine

/-- A handle word (chapter 09): pool and buffer number. -/
def mkHandle (p b : Nat) : Nat := 0x1000000 * p + b
def handlePool (h : Nat) : Nat := bitsOf h 26 24
def handleBuf (h : Nat) : Nat := bitsOf h 23 0
/-- The null handle with POOL_EMPTY (R259). -/
def nullHandle : W32 := 0x80FFFFFF

/-- Key of byte `off` of a buffer in the buffer memory. -/
def bufKey (h off : Nat) : Nat := 16384 * h + off

/-- Free handles of a pool: its cache, its ring, and those of the ring never yet taken out (R255). -/
def poolFree (p : Pool) : Nat := p.cache.length + p.ring.length + (p.count - p.fresh)
def ringEmpty (p : Pool) : Bool := p.ring.isEmpty && decide (p.count ≤ p.fresh)
/-- A pool newly laid out (R255): the first min(COUNT, 128) handles in the cache. -/
def layPool (size count : Nat) (dram : Bool) : Pool :=
  { open_ := true, size := size, count := count, dram := dram, cache := List.range (min count 128), fresh := min count 128 }

/-- Take `n` handles from the ring, oldest first. -/
def ringTake : Nat → Pool → List Nat × Pool
  | 0, p => ([], p)
  | n + 1, p =>
    if p.fresh < p.count then
      let (l, p') := ringTake n { p with fresh := p.fresh + 1 }
      (p.fresh :: l, p')
    else match p.ring with
      | [] => ([], p)
      | h :: r => let (l, p') := ringTake n { p with ring := r }; (h :: l, p')

/-- A refill is due below 64 cached handles, a spill above 224 (R255). -/
def poolWatch (p : Pool) : Pool :=
  { p with
    refilling := p.refilling || (decide (p.cache.length < 64) && !ringEmpty p)
    spilling := p.spilling || decide (224 < p.cache.length) }

/-- Who asks for a buffer: ingress and the tie may use the reserved handles (R260). -/
inductive AllocFor where
  | ingress
  | firmware
  deriving DecidableEq, Repr

/-- What a request for a buffer meets. -/
inductive AllocRes where
  | got (h : Nat)
  | none
  /-- the cache is empty while a refill is under way (R255) -/
  | wait
  deriving DecidableEq, Repr

namespace State

def pool (s : State) (w : WytheIx) (p : Nat) : Pool := kget {} (s.wy w).galley.pools p
def updPool (s : State) (w : WytheIx) (p : Nat) (f : Pool → Pool) : State :=
  s.updGalley w (fun g => { g with pools := kupd {} g.pools p f })

/-- RESERVE of a pool, live at the switch cycle (R256, R260). -/
def poolReserve (s : State) (w : WytheIx) (p : Nat) : Nat := fld (s.stActive (pgGalley w + 0x100 + 4 * p)) 23 12
/-- A pool takes part in allocation: laid out, or being re-laid and counting as empty (R252, R256). -/
def poolEnabled (s : State) (w : WytheIx) (p : Nat) : Bool := (s.pool w p).open_ || (s.pool w p).retiring
/-- The SIZE in bytes of a pool's buffers: what it was laid out with until it is laid out anew (R256, R288). -/
def poolSize (s : State) (w : WytheIx) (p : Nat) : Nat :=
  let laid := (s.pool w p).size
  if laid ≠ 0 then laid else 64 * fld (s.stActive (pgGalley w + 0x100 + 4 * p)) 8 0
/-- The SIZE by which requests choose a pool: the one in force while it is re-laid. -/
def rankSize (s : State) (w : WytheIx) (p : Nat) : Nat :=
  if (s.pool w p).open_ then (s.pool w p).size else 64 * fld (s.stActive (pgGalley w + 0x100 + 4 * p)) 8 0

/-- Insert a pool after those of its SIZE or smaller. -/
def rankIn (size : Nat → Nat) (p : Nat) : List Nat → List Nat
  | [] => [p]
  | q :: r => if size q ≤ size p then q :: rankIn size p r else p :: q :: r
/-- The enabled pools by SIZE, equal ones by number (R252). -/
def poolRank (s : State) (w : WytheIx) : List Nat :=
  ((List.range 8).filter (s.poolEnabled w)).foldl (fun l p => rankIn (s.rankSize w) p l) []

/-- Handles that a request may not take (R260). -/
def poolFloor (s : State) (w : WytheIx) (p : Nat) : AllocFor → Nat
  | .ingress => 0
  | .firmware => s.poolReserve w p * 32
/-- Does a pool count as empty for this request (R255, R256, R260)? -/
def poolNone (s : State) (w : WytheIx) (p : Nat) (k : AllocFor) : Bool :=
  let q := s.pool w p
  !q.open_ || q.retiring || decide (poolFree q ≤ s.poolFloor w p k)
/-- A request that finds such a pool lost a race for its handles: in the same cycle it has granted others, and it began the cycle with
enough (R261). A cycle is taken as one ns of `now` (DESIGN CHOICE; log 11). -/
def raceLost (s : State) (w : WytheIx) (p : Nat) (k : AllocFor) : Bool :=
  let q := s.pool w p
  q.open_ && !q.retiring && q.granted == s.now + 1 && decide (s.poolFloor w p k < q.startFree)

/-- A refill ends: 32 handles move from the ring to the cache (R255). -/
def refillDone (s : State) (w : WytheIx) (p : Nat) : State :=
  s.updPool w p (fun q =>
    let (l, q') := ringTake 32 q
    poolWatch { q' with cache := q'.cache ++ l, refilling := false })

/-- Hand out the first cached handle of a pool: count 1, contents its owner's to write (R257, R259). -/
def takeHandle (s : State) (w : WytheIx) (p : Nat) : AllocRes × State :=
  match (s.pool w p).cache with
  | [] => (.wait, s)
  | b :: rest =>
    let h := mkHandle p b
    let n := (s.wy w).galley.nextAlloc
    let s1 := s.updPool w p (fun q => poolWatch { q with
      cache := rest, refs := sins q.refs b 1, allocNo := sins q.allocNo b (n + 1), stale := q.stale.erase b
      granted := s.now + 1, startFree := if q.granted = s.now + 1 then q.startFree else poolFree q })
    let s2 := s1.updGalley w (fun g => { g with nextAlloc := n + 1, buf := sclear g.buf (bufKey h 0) (bufKey h 16384) })
    let s3 := s2.count (pgGalley w + 0x40) 1
    (.got h, if poolFree (s3.pool w p) = 0 then s3.raiseBit (pgGalley w) 0 else s3)

/-- Try the pools in turn; each fallback from an empty pool is counted, and each race lost (R258, R261). -/
def allocTry (w : WytheIx) (k : AllocFor) : List Nat → State → AllocRes × State
  | [], s => (.none, s)
  | p :: ps, s =>
    if s.poolNone w p k then
      let s1 := s.onlyIf (s.raceLost w p k) (fun s => s.count (pgGalley w + 0x78) 1)
      allocTry w k ps (if ps.isEmpty then s1 else s1.count (pgGalley w + 0x80 + 8 * p) 1)
    else s.takeHandle w p

/-- Allocate a buffer of at least `need` bytes from the pools of `mask` (R258–R260). -/
def alloc (s : State) (w : WytheIx) (mask need : Nat) (fallback : Bool) (k : AllocFor) : AllocRes × State :=
  if !s.enabled (pgGalley w) then (.none, s)
  else
    let ps := (s.poolRank w).filter (fun p => bitOf mask p && decide (need ≤ s.rankSize w p))
    allocTry w k (if fallback then ps else ps.take 1) s

/-- An allocation load (R259): on failure the null handle, counted in MASON_EMPTY; a load that meets a refill waits for its end. -/
def allocLoad (s : State) (w : WytheIx) (u : Nat) (fallback : Bool) : W32 × State :=
  let fail := fun (s : State) => (nullHandle, s.count (pgGalley w + 0x58) 1)
  match s.alloc w 0xFF (64 * u) fallback .firmware with
  | (.got h, s1) => (w32 h, s1)
  | (.none, s1) => fail s1
  | (.wait, _) =>
    let s2 := s.each (List.range 8) (fun s p => s.onlyIf ((s.pool w p).refilling && (s.pool w p).cache.isEmpty) (fun s => s.refillDone w p))
    match s2.alloc w 0xFF (64 * u) fallback .firmware with
    | (.got h, s3) => (w32 h, s3)
    | (_, s3) => fail s3

/-! Reference counts (R262). -/

/-- Why a reference operation on a handle is ignored: a pool not enabled, a number at or above COUNT, or an invalid handle. -/
def badHandle (s : State) (w : WytheIx) (h : Nat) : Bool :=
  let q := s.pool w (handlePool h)
  !(q.open_ || (q.retiring && decide (0 < q.count))) || decide (q.count ≤ handleBuf h) || q.stale.contains (handleBuf h)
def refCount (s : State) (w : WytheIx) (h : Nat) : Nat := kget 0 (s.pool w (handlePool h)).refs (handleBuf h)
/-- A handle that R262 accepts. -/
def goodHandle (s : State) (w : WytheIx) (h : Nat) : Bool := !s.badHandle w h && decide (0 < s.refCount w h)

/-- Decrement a buffer's count; at 0 it is freed. -/
def refDown (s : State) (w : WytheIx) (h : Nat) : State :=
  let p := handlePool h
  let b := handleBuf h
  if s.badHandle w h then s.count (pgGalley w + 0x70) 1
  else if s.refCount w h = 0 then s.count (pgGalley w + 0x60) 1
  else if s.refCount w h = 1 then
    (s.updPool w p (fun q => poolWatch { q with refs := kdel q.refs b, cache := q.cache ++ [b] })).count (pgGalley w + 0x48) 1
  else s.updPool w p (fun q => { q with refs := sins q.refs b (kget 0 q.refs b - 1) })

/-- Raise a buffer's count by `n` (R262, R265). -/
def refUp (s : State) (w : WytheIx) (h n : Nat) : State :=
  if n = 0 then s
  else if s.badHandle w h then s.count (pgGalley w + 0x70) 1
  else if s.refCount w h = 0 then s.count (pgGalley w + 0x60) 1
  else if 255 < s.refCount w h + n then s.count (pgGalley w + 0x68) 1
  else s.updPool w (handlePool h) (fun q => { q with refs := sins q.refs (handleBuf h) (kget 0 q.refs (handleBuf h) + n) })

/-- An uncorrectable DRAM error at a logical address (R439). -/
def dramUncorrectable (s : State) (w : WytheIx) (addr : Nat) : State :=
  ((s.count (pgDram w + 0x68) 1).wr (pgDram w + 0x24) (w32 addr)).raiseBit (pgDram w) 0

/-! Buffer bytes. -/

/-- A byte of a buffer: what its owner wrote, 0 since a DESTRUCTIVE march of Galley memory, or a free value (R257, R310; log 2). -/
def bufByte (s : State) (w : WytheIx) (h off : Nat) : Byte :=
  let g := (s.wy w).galley
  let q := s.pool w (handlePool h)
  let n := kget 0 q.allocNo (handleBuf h)
  match sfind g.buf (bufKey h off) with
  | some v => v
  | none => if !q.dram && decide (n ≤ g.wipedAt) && g.wipedAt != 0 then 0 else Config.freeByte n (handlePool h) (handleBuf h) off
/-- What the check bits of a buffer's memory report: nothing for a DRAM-backed one with ECC off (R439). -/
def bufEcc (s : State) (w : WytheIx) (h : Nat) (ecc : EccReport) : EccReport :=
  if (s.pool w (handlePool h)).dram && !flag (s.wy w).dram.active 8 then .good else ecc
/-- What a read of a buffer's memory notes (R278, R439): the address of an error in DRAM is the outside's. -/
def bufNote (s : State) (w : WytheIx) (h : Nat) (ecc : EccReport) : State :=
  let dram := (s.pool w (handlePool h)).dram
  match ecc with
  | .good => s
  | .corrected => if dram then s.count (pgDram w + 0x60) 1 else s
  | .uncorrectable =>
    if dram then
      let (a, s1) := s.draw
      s1.dramUncorrectable w a.toNat
    else s.raiseBit (pgGalley w) 1
/-- Galley memory under a DESTRUCTIVE march meets other masters as a retained bank does (R312). -/
def bufRetained (s : State) (w : WytheIx) (h : Nat) : Bool := !(s.pool w (handlePool h)).dram && s.marchingBlock w 0x10
def bufBytes (s : State) (w : WytheIx) (h off n : Nat) : Bytes := (List.range n).map (fun i => s.bufByte w h (off + i))
def setBufBytes (s : State) (w : WytheIx) (h off : Nat) (v : Bytes) : State :=
  s.updGalley w (fun g => { g with buf := v.zipIdx.foldl (fun m e => sins m (bufKey h (off + e.2)) e.1) g.buf })

/-! Moves (R263, R264). -/

/-- A core, or the host, has eight moves outstanding (R263). -/
def moveGroup : MoveOwner → Nat
  | none => 0
  | some n => n / 8 + 1
def moveFull (g : Galley) (o : MoveOwner) : Bool := decide (8 ≤ (g.moves.filter (fun m => moveGroup m.owner == moveGroup o)).length)
/-- A store to MOVE_POST reaches the Galley: it is queued, or held behind those of its core that are. -/
def takeMove (g : Galley) (m : Move) : Galley :=
  if moveFull g m.owner || g.heldMoves.any (fun h => moveGroup h.owner == moveGroup m.owner) then { g with heldMoves := g.heldMoves ++ [m] }
  else { g with moves := g.moves ++ [m] }
/-- Moves have ended: the stores held that now find a place are made, in order. -/
def takeHeld (g : Galley) : Galley := g.heldMoves.foldl takeMove { g with heldMoves := [] }
/-- Queue a move: `owner` none for the host. The block is named by a data address of the owner's own course banks. -/
def movePost (s : State) (w : WytheIx) (owner : MoveOwner) (course : Nat) (addr : Nat) : State :=
  let inBanks := decide (0x400000 ≤ addr) && decide (addr + 16 ≤ 0x800000) && decide (course < 6)
  s.updGalley w (fun g => takeMove g ⟨owner, course, if inBanks then some (addr - 0x400000) else none, none, false⟩)

/-- A move of this owner is outstanding, or held. -/
def moveWaits (s : State) (w : WytheIx) (owner : MoveOwner) : Bool :=
  let g := (s.wy w).galley
  g.moves.any (fun m => m.owner == owner) || g.heldMoves.any (fun m => m.owner == owner)
def moveKey : MoveOwner → Nat
  | none => 0
  | some n => n + 1
def setMoveStatus (s : State) (w : WytheIx) (owner : MoveOwner) (v : Nat) : State :=
  s.updGalley w (fun g => { g with moveStatus := sins g.moveStatus (moveKey owner) v })

/-- The engine starts the first move: it reads the block (R264, R308, R309). -/
def moveBegin (s : State) (w : WytheIx) (ecc : EccReport) : State :=
  match (s.wy w).galley.moves with
  | m :: ms =>
    if m.desc.isSome then s
    else
      let v := match m.block with
        | some o => s.bankRange w m.course o 16
        | none => .on
      let desc := match m.block, v with
        | none, _ => []
        | some _, .retained => []
        | some o, _ => s.bankBytes w m.course o 16
      let ecc := if m.block.isSome && v == .on then ecc else .good
      let s1 := s.onlyIf m.block.isSome (fun s => s.bankRefused w m.course v)
      let s2 := match ecc with
        | .good => s1
        | .corrected => s1.bankCorrected w m.course
        | .uncorrectable => s1.bankUncorrectable w m.course (m.block.getD 0)
      s2.updGalley w (fun g => { g with moves := { m with desc := some desc, bad := ecc == .uncorrectable } :: ms })
  | [] => s

/-- What a move with block bytes `d` ends with, and its effect (R264, R308, R309); an empty block is one that could not be read. `ecc`
is the report for the data read, `dst` for the bank words written in part; a move that fails a check reads no data. -/
def moveRun (s : State) (w : WytheIx) (d : Bytes) (ecc dst : EccReport) : Nat × State :=
  let w0 := beAt d 0 4
  let w2 := beAt d 8 4
  let h := bitsOf w0 26 0
  let off := beAt d 4 2
  let len := beAt d 6 2
  let course := bitsOf w2 31 29
  let bank := bitsOf w2 21 0
  if d.length < 16 ∨ bitsOf w0 30 27 ≠ 0 ∨ bitsOf w2 28 22 ≠ 0 ∨ beAt d 12 4 ≠ 0 ∨ 6 ≤ course ∨ 0x400000 < bank + len then (3, s)
  else
    let v := s.bankRange w course bank len
    let s1 := s.bankRefused w course v
    if v = .retained ∨ s.bufRetained w h then (3, s1)
    else if !s.goodHandle w h then (2, s1)
    else if s.poolSize w (handlePool h) < off + len ∨ len = 0 ∨ 2048 < len then (1, s1)
    else if bitOf w0 31 then
      match if v = .on then ecc else .good with
      | .uncorrectable => (4, s1.bankUncorrectable w course bank)
      | e => (0, (s1.onlyIf (e == .corrected) (fun s => s.bankCorrected w course)).setBufBytes w h off (s1.bankBytes w course bank len))
    else
      let e := s.bufEcc w h ecc
      let s2 := s1.bufNote w h e
      if e = .uncorrectable then (4, s2) else (0, s2.setBankEcc w course bank (s1.bufBytes w h off len) dst)

/-- The owner of a move or of its status, by the accessing agent. -/
def moveOwner : Agent → MoveOwner
  | .mason x => some (ctxNo x)
  | _ => none

/-- A load from MOVE_STATUS: the status of the agent's latest move. -/
def moveStatusWord (s : State) (w : WytheIx) (a : Agent) : W32 := w32 (kget 0 (s.wy w).galley.moveStatus (moveKey (moveOwner a)))
/-- Reads that waited at MOVE_STATUS and whose moves have all ended return, in order (R264). -/
def answerStatus (s : State) (w : WytheIx) : State :=
  let done := (s.wy w).galley.statusWaits.filter (fun a => !s.moveWaits w (moveOwner a))
  (s.updGalley w (fun g => { g with statusWaits := g.statusWaits.filter (fun a => !done.contains a) })).each done
    (fun s a => s.answer (s.moveStatusWord w a))
/-- A read of MOVE_STATUS returns once every earlier move of the reader has ended; until then it waits there (R264). -/
def readStatus (s : State) (w : WytheIx) (a : Agent) : W32 × State :=
  if s.moveWaits w (moveOwner a) then (s.readData, s.updGalley w (fun g => { g with statusWaits := g.statusWaits ++ [a] }))
  else (s.moveStatusWord w a, s)

/-- The move under way ends with its status (R264). -/
def moveFinish (s : State) (w : WytheIx) (ecc dst : EccReport) : State :=
  match (s.wy w).galley.moves with
  | m :: ms =>
    match m.desc with
    | none => s
    | some d =>
      let s1 := s.updGalley w (fun g => takeHeld { g with moves := ms })
      let (st, s2) := if m.bad then (4, s1) else s1.moveRun w d ecc dst
      (s2.setMoveStatus w m.owner st).answerStatus w
  | [] => s

/-- CTRL.ABORT of the Galley ends every queued move with ABORTED (R276); stores held are made after it. -/
def galleyAbortMoves (s : State) (w : WytheIx) : State :=
  let ms := (s.wy w).galley.moves
  ((s.each ms (fun s m => s.setMoveStatus w m.owner 5)).updGalley w (fun g => takeHeld { g with moves := [] })).answerStatus w

/-- A store to MOVE_POST (R263): a firmware store names its own course's banks, a host store the course in [26:24]. -/
def moveStore (s : State) (w : WytheIx) (a : Agent) (v : W32) : State :=
  match a with
  | .mason x => s.movePost w (some (ctxNo x)) x.c.val (fld v 23 0)
  | _ => s.movePost w none (fld v 26 24) (fld v 23 0)

/-! Re-laying (R256). -/

/-- Does the backing's space need re-laying: one of its pool settings other than RESERVE, or its window, differs? -/
def backingChanged (w : WytheIx) (old new : Nat → W32) (dram : Bool) : Bool :=
  (List.range 8).any (fun p =>
    let a := pgGalley w + 0x100 + 4 * p
    let c := pgGalley w + 0x120 + 4 * p
    let key := fun (f : Nat → W32) => (flag (f a) 31, flag (f a) 30, fld (f a) 8 0, f c)
    (flag (old a) 30 == dram || flag (new a) 30 == dram) && key old != key new) ||
  (dram && (old (pgGalley w + 0x164) != new (pgGalley w + 0x164) || old (pgGalley w + 0x168) != new (pgGalley w + 0x168)))

/-- The pools of a backing that the active settings enable, laid out anew. -/
def layBacking (s : State) (view : Nat → W32) (w : WytheIx) (dram : Bool) : State :=
  s.each (List.range 8) (fun s p =>
    let a := view (pgGalley w + 0x100 + 4 * p)
    let n := fld (view (pgGalley w + 0x120 + 4 * p)) 23 0
    if flag a 30 == dram then
      s.updPool w p (fun q =>
        if flag a 31 && n != 0 then
          { layPool (64 * fld a 8 0) n dram with stale := q.stale ++ (q.refs.map (·.1)), allocNo := q.allocNo }
        else { stale := q.stale ++ (q.refs.map (·.1)) })
    else if (s.pool w p).dram == dram && (s.pool w p).retiring && !(flag a 31 && n != 0) then s.updPool w p (fun q => { stale := q.stale ++ (q.refs.map (·.1)) })
    else s)

def relay (s : State) (w : WytheIx) (dram : Bool) : Relay :=
  if dram then (s.wy w).galley.relayDram else (s.wy w).galley.relayMem
def setRelay (s : State) (w : WytheIx) (dram : Bool) (r : Relay) : State :=
  s.updGalley w (fun g => if dram then { g with relayDram := r } else { g with relayMem := r })

/-- The pools of a backing stop allocating and count as empty (R256 step 1). -/
def retirePools (s : State) (w : WytheIx) (dram : Bool) : State :=
  s.each (List.range 8) (fun s p =>
    let a := s.stActive (pgGalley w + 0x100 + 4 * p)
    let new := flag a 31 && flag a 30 == dram && s.stActive (pgGalley w + 0x120 + 4 * p) != 0
    if new || (s.poolEnabled w p && (s.pool w p).dram == dram) then
      s.updPool w p (fun q => { q with open_ := false, retiring := true, dram := if q.open_ || q.retiring then q.dram else dram })
    else s)

/-- A lock-up changed a backing's settings, at the switch cycle (R256). `first` is the first lock-up since reset. -/
def relaySwitch (s : State) (w : WytheIx) (dram first : Bool) : State :=
  if first then s.layBacking s.stActive w dram
  else match s.relay w dram with
    | .none => (s.retirePools w dram).setRelay w dram (.draining s.now)
    | .draining t => (s.retirePools w dram).setRelay w dram (.draining t)
    | .building _ cfg => s.setRelay w dram (.building true cfg)

/-- The drain limit in ns (R63). -/
def drainLimit (s : State) : Nat := (s.rd (pgForme + 0x144)).toNat * 1000

/-- The settings of the pools in force. -/
def poolWords (s : State) (w : WytheIx) : List W32 := (List.range 16).map (fun n => s.stActive (pgGalley w + 0x100 + 4 * n))
/-- A pool that the re-lay of a backing takes down or lays out: it lies there, or its settings in force put it there. -/
def relays (s : State) (w : WytheIx) (dram : Bool) (p : Nat) : Bool :=
  let a := s.stActive (pgGalley w + 0x100 + 4 * p)
  (s.pool w p).retiring && ((s.pool w p).dram == dram || (flag a 31 && flag a 30 == dram))
/-- Step 3 begins once every buffer of the retiring pools is free, or at the drain limit; outstanding handles become invalid. -/
def relayBuild (s : State) (w : WytheIx) (dram : Bool) : State :=
  match s.relay w dram with
  | .draining t =>
    let mine := (List.range 8).filter (s.relays w dram)
    if mine.all (fun p => (s.pool w p).refs.isEmpty) ∨ t + s.drainLimit ≤ s.now then
      (s.each mine (fun s p => s.updPool w p (fun q => { q with stale := q.stale ++ q.refs.map (·.1), refs := [] }))).setRelay w dram (.building false (s.poolWords w))
    else s
  | _ => s

/-- Step 4: the pools open; a lock-up during the build starts a further re-lay at once. -/
def relayOpen (s : State) (w : WytheIx) (dram : Bool) : State :=
  match s.relay w dram with
  | .building again cfg =>
    let s1 := (s.layBacking (fun a => cfg.getD ((a - (pgGalley w + 0x100)) / 4) 0) w dram).setRelay w dram .none
    if again then (s1.retirePools w dram).setRelay w dram (.draining s.now) else s1
  | _ => s

end State

/-- ALLOC (R259). -/
def execAlloc (a : Agent) (w : WytheIx) (u : Fin 256) (s : State) : Res :=
  if s.reach a w then
    let (v, s1) := s.allocLoad w (u.val + 1) true
    .next { s1 with readData := v }
  else .next { s with readData := 0xDEAD0001 }

/-- ALLOC_EXACT (R259). -/
def execAllocExact (a : Agent) (w : WytheIx) (u : Fin 256) (s : State) : Res :=
  if s.reach a w then
    let (v, s1) := s.allocLoad w (u.val + 1) false
    .next { s1 with readData := v }
  else .next { s with readData := 0xDEAD0001 }

/-- FREE (R262). -/
def execFree (a : Agent) (w : WytheIx) (value : W32) (s : State) : Res :=
  .next (s.viaPage a w (fun s => s.refDown w (fld value 26 0)))

/-- REF_ADD (R262). -/
def execRefAdd (a : Agent) (w : WytheIx) (value : W32) (s : State) : Res :=
  .next (s.viaPage a w (fun s => s.refUp w (fld value 26 0) (fld value 31 28)))

/-- POOL_REFILL_END (R255). A DRAM ring read with an uncorrectable error loses the 32 handles to the pool (R439). -/
def execPoolRefillEnd (w : WytheIx) (p : PoolIx) (ecc : EccReport) (s : State) : Res :=
  if !(s.pool w p.val).refilling then .next s
  else
    let ecc := if (s.pool w p.val).dram && !flag (s.wy w).dram.active 8 then .good else ecc
    match ecc with
    | .good => .next (s.refillDone w p.val)
    | .corrected =>
      let s1 := s.refillDone w p.val
      .next (if (s1.pool w p.val).dram then s1.count (pgDram w + 0x60) 1 else s1)
    | .uncorrectable =>
      if (s.pool w p.val).dram then
        let n := min 32 ((s.pool w p.val).ring.length + ((s.pool w p.val).count - (s.pool w p.val).fresh))
        let s1 := s.updPool w p.val (fun q => poolWatch { (ringTake 32 q).2 with refilling := false })
        let (a, s2) := s1.draw
        .next (((s2.dramUncorrectable w a.toNat).count (pgDram w + 0x78) n))
      else .next ((s.refillDone w p.val).raiseBit (pgGalley w) 1)

/-- POOL_SPILL_END (R255): the 32 handles longest in the cache go to the ring. -/
def execPoolSpillEnd (w : WytheIx) (p : PoolIx) (s : State) : Res :=
  .next (if (s.pool w p.val).spilling then
    s.updPool w p.val (fun q => poolWatch { q with ring := q.ring ++ q.cache.take 32, cache := q.cache.drop 32, spilling := false })
  else s)

/-- MOVE_POST (R263). -/
def execMovePost (a : Agent) (w : WytheIx) (value : W32) (s : State) : Res := .next (s.viaPage a w (fun s => s.moveStore w a value))

/-- MOVE_START (R264). -/
def execMoveStart (w : WytheIx) (ecc : EccReport) (s : State) : Res := .next (s.moveBegin w ecc)

/-- MOVE_STATUS returns once every earlier move of the reader has completed (R264). -/
def execMoveStatus (a : Agent) (w : WytheIx) (s : State) : Res :=
  .next (if !s.reach a w then s.answer 0xDEAD0001
    else
      let (v, s1) := s.readStatus w a
      s1.answer v)

/-- POOL_RELAY_BUILD (R256 step 3). -/
def execPoolRelayBuild (w : WytheIx) (dram : Bool) (s : State) : Res := .next (s.relayBuild w dram)

/-- POOL_OPEN (R256 step 4). -/
def execPoolOpen (w : WytheIx) (dram : Bool) (s : State) : Res := .next (s.relayOpen w dram)

end Sys2Proof.Machine
end

