-- ==== Sys2Proof/Machine/Perf.lean ====
section
/-! DEFINITION. Performance counters and sampling (R532–R536, R544, R545). -/

namespace Sys2Proof.Machine

/-- An issue opportunity of context `x` passes for a sampled event. -/
def SampleDue.pass (x : CtxIx) (d : SampleDue) : SampleDue := if d.ctx == some x then { d with slots := d.slots + 1 } else d
/-- The instruction that context `x` issues is the one a sampled event names: the next of the core for an event of no context; for one of
the context, the one that SAMPLE_TAKEN chose, and the twelfth at the latest (R2, R535). -/
def SampleDue.names (x : CtxIx) (d : SampleDue) : Bool := d.ctx.isNone || (d.ctx == some x && (d.chosen || decide (12 ≤ d.slots)))

namespace State

/-- PMC_SELn of core `i` (R545). -/
def pmcSel (s : State) (w : WytheIx) (i n : Nat) : W32 := s.rd (pgPerf w i + 0x100 + 4 * n)
def pmcCtr (w : WytheIx) (i n : Nat) : Nat := pgPerf w i + 0x40 + 8 * n

/-- Counter `n` counts `k` events of context `x`, or of none (R532–R534): a wrap raises OVERFLOW, and a countdown that reaches 0
samples the event. -/
def pmcOne (s : State) (w : WytheIx) (i n : Nat) (x : Option CtxIx) (k : Nat) : State :=
  let a := pmcCtr w i n
  let s1 := s.count a k
  let s2 := if (s1.ctr a).msb && s1.ctrVal a < k && !s.frozen (pgPerf w i) then s1.raiseBit (pgPerf w i) 0 else s1
  if !flag (s.pmcSel w i n) 29 || s.frozen (pgPerf w i) then s2
  else
    let left := kget (max 1 (s.rd (pgPerf w i + 0x120 + 4 * n)).toNat) (s.core w i).countdown n
    if k < left then s2.updCore w i (fun c => { c with countdown := sins c.countdown n (left - k) })
    else s2.updCore w i (fun c => { c with
      countdown := kdel c.countdown n
      due := c.due ++ [{ counter := n, ctx := x, count := s2.ctrVal a, tnow := w32 (s.gptp w) }] })

/-- An event of core `i` (R532): every enabled counter that selects it counts; an event of a context only where CTX_MASK names it. -/
def pmc (s : State) (w : WytheIx) (i code : Nat) (x : Option CtxIx) (k : Nat) : State :=
  s.each (List.range 8) (fun s n =>
    let v := s.pmcSel w i n
    let named := match x with
      | some c => bitOf (fld v 23 16) c.val
      | none => true
    s.onlyIf (flag v 31 && fld v 7 0 == code && named) (fun s => s.pmcOne w i n x k))

/-- COUNTER (8) is pending while a wrapped counter has OVF_INT (R533), SAMPLE (9) while the buffer holds an entry (R536). -/
def perfPending (s : State) (w : WytheIx) (i : Nat) : Nat :=
  (if (List.range 8).any (fun n => flag (s.pmcSel w i n) 30 && (s.ctr (pmcCtr w i n)).msb) then 0x100 else 0) +
    (if (s.core w i).samples.isEmpty then 0 else 0x200)

/-- The sample of event `d` names the instruction at `pc` of context `x`, which holds `task`, issued or, where `next`, its next unissued
one (R535, R536). -/
def nameSample (s : State) (w : WytheIx) (i : Nat) (d : SampleDue) (x : CtxIx) (pc : W24) (task : Option TcbIx) (next : Bool) : State :=
  let s1 := s.updCore w i (fun c => { c with due := c.due.erase d })
  if 16 ≤ (s1.core w i).samples.length then s1.count (pgPerf w i + 0x88) 1
  else
    let w0 := w32 (0x80000000 + at' (b2n next) 30 + at' (b2n d.ctx.isNone) 29 + at' d.counter 26 + at' x.val 23 + pc.toNat / 2)
    let w2 := w32 ((match task with
      | some t => 0x400000 + at' t.val 16
      | none => 0) + d.count / 2 ^ 32 % 2 ^ 16)
    let first := (s1.core w i).samples.isEmpty
    let s2 := (s1.updCore w i (fun c => { c with samples := c.samples ++ [[w0, w32 d.count, w2, d.tnow]] })).count (pgPerf w i + 0x80) 1
    if first then s2.raiseBit (pgPerf w i) 1 else s2
/-- Context `x` issues the instruction at its PCX, an opportunity of its own where `own`: the samples due name it, in counter order. -/
def nameSamples (s : State) (w : WytheIx) (i : Nat) (x : CtxIx) (c : Ctx) (own : Bool) : State :=
  let s1 := if own then s.updCore w i (fun k => { k with due := k.due.map (SampleDue.pass x) }) else s
  s1.each (List.range 8) (fun s n =>
    s.each ((s.core w i).due.filter (fun d => d.counter == n && d.names x)) (fun s d => s.nameSample w i d x c.pcx c.task false))
/-- SAMPLE_TAKEN: the oldest event sampled by counter `n` names the next instruction of its context; one that issues nothing, its next
unissued instruction (R535). -/
def takeSample (s : State) (w : WytheIx) (i n : Nat) (view : CtxIx → Ctx) : State :=
  match (s.core w i).due.find? (fun d => d.counter == n && d.ctx.isSome) with
  | none => s
  | some d =>
    let x := d.ctx.getD 0
    let c := view x
    if c.state = .running || c.state = .entry then
      s.updCore w i (fun k => { k with due := k.due.map (fun e => if e == d then { e with chosen := true } else e) })
    else s.nameSample w i d x c.pcx c.task true

/-- A read of SAMPLE0 removes the head entry and latches its words (R536). -/
def readSample0 (s : State) (w : WytheIx) (i : Nat) : W32 × State :=
  match (s.core w i).samples with
  | [] => (0, s.updCore w i (fun c => { c with sampleLatch := [] }))
  | e :: r => (e.headD 0, s.updCore w i (fun c => { c with samples := r, sampleLatch := e }))

/-- PMC_CLEAR: each counter named is 0; its OVERFLOW stays (R533). -/
def clearPmc (s : State) (w : WytheIx) (i mask : Nat) : State :=
  s.each (List.range 8) (fun s n => s.onlyIf (bitOf mask n) (fun s =>
    s.setCtr (pmcCtr w i n) (BitVec.ofNat 49 (if (s.ctr (pmcCtr w i n)).msb then 2 ^ 48 else 0))))

/-- A counter's OVERFLOW bit is cleared, in PMC_OVF or in its HI word (R9, R533). -/
def clearOvf (s : State) (a : Nat) : State := s.setCtr a (BitVec.ofNat 49 (s.ctrVal a))

/-- PMC_OVF (R533). -/
def pmcOvf (s : State) (w : WytheIx) (i : Nat) : Nat :=
  ((List.range 8).map (fun n => if (s.ctr (pmcCtr w i n)).msb then 2 ^ n else 0)).sum

end State

/-- PMC_CLEAR (R533). -/
def execPmcClear (a : Agent) (k : CoreId) (mask : Byte) (s : State) : Res :=
  .next (s.viaPage a k.w (fun s => s.clearPmc k.w k.ix mask.toNat))

/-- PMC_OVF_CLEAR (R533). -/
def execPmcOvfClear (a : Agent) (k : CoreId) (mask : Byte) (s : State) : Res :=
  .next (s.viaPage a k.w (fun s => s.each (List.range 8) (fun s n => s.onlyIf (mask.getLsbD n) (fun s => s.clearOvf (State.pmcCtr k.w k.ix n)))))

/-- SAMPLE_TAKEN (R534, R535). -/
def execSampleTaken (k : CoreId) (n : Fin 8) (s : State) : Res :=
  .next (s.takeSample k.w k.ix n.val (fun x => s.ctx ⟨k.w, k.c, k.k, x⟩))

/-- SAMPLE0_READ (R536). -/
def execSample0Read (a : Agent) (k : CoreId) (s : State) : Res :=
  .next (if s.reach a k.w then
    let (v, s1) := s.readSample0 k.w k.ix
    s1.answer v
  else s.answer 0xDEAD0001)

end Sys2Proof.Machine
end

