-- ==== Sys2Proof/Machine/Quoin.lean ====
section
/-! DEFINITION. The Quoin: locks and semaphores (R316–R327, R330). -/

namespace Sys2Proof.Machine
namespace State

/-- Who a context is to the Quoin and the coprocessors: its task, or itself when it is master-owned (R283, R317). -/
def holderOf (s : State) (x : CtxId) : Holder :=
  match (s.ctx x).task with
  | some t => .task x.c x.k t
  | none => .master x.c x.k x.x

def askerHolder (s : State) (a : Asker) : Holder :=
  match a with
  | .host => .host
  | .datestone => .datestone
  | .dma => .dma
  | .mason x => s.holderOf x

/-- Rights bit of a master's class (R317). -/
def rightsBit : Holder → Nat
  | .task c _ _ => c.val
  | .master c _ _ => c.val
  | .host => 6
  | .datestone => 7
  | .dma => 8

def groupCfg (s : State) (w : WytheIx) (obj : Nat) : W32 := s.stActive (pgQuoin w + 0x200 + 4 * (obj / 64))
/-- Units of an object: one of a lock, MAX + 1 of a semaphore (R316, R335). -/
def quoinMax (s : State) (w : WytheIx) (obj : Nat) : Nat :=
  if flag (s.groupCfg w obj) 31 then fld (s.groupCfg w obj) 30 25 + 1 else 1
def quoinUsed (q : Quoin) (obj : Nat) : Nat := ((q.holds.filter (fun h => h.object == obj)).map (·.units)).sum
def quoinHeld (q : Quoin) (h : Holder) (obj : Nat) : Nat :=
  ((q.holds.filter (fun r => r.object == obj && r.holder == h)).map (·.units)).sum

/-- The word ACQ_RESULT returns for a request in one state (R318); `bit` is the state's bit. -/
def acqWord (bit obj : Nat) (abandoned : Bool) : W32 := w32 (2 ^ bit + (if abandoned then 0x40000000 else 0) + obj)

/-- Record the state of a master's latest request. -/
def setResult (q : Quoin) (h : Holder) (v : W32) : Quoin :=
  { q with results := (h, v) :: q.results.filter (fun e => e.1 != h) }
def quoinResult (q : Quoin) (h : Holder) : W32 :=
  match q.results.find? (fun e => e.1 == h) with
  | some e => e.2
  | none => 0

/-- Does a grant to `h` need a holding record that is not available (R319)? -/
def recordShort (q : Quoin) (h : Holder) (obj : Nat) : Bool :=
  quoinHeld q h obj == 0 && decide (4096 ≤ q.holds.length)

/-- Give `h` one unit. -/
def quoinTake (q : Quoin) (h : Holder) (obj : Nat) : Quoin :=
  let holds := if quoinHeld q h obj = 0 then q.holds ++ [⟨h, obj, 1⟩]
    else q.holds.map (fun r => if r.object == obj && r.holder == h then { r with units := r.units + 1 } else r)
  setResult { q with holds := holds, latest := sins q.latest obj h } h (acqWord 31 obj (kget false q.abandoned obj))

/-- Give back one unit. -/
def quoinGive (q : Quoin) (h : Holder) (obj : Nat) : Quoin :=
  let less := fun (r : QHold) => if r.object == obj && r.holder == h then { r with units := r.units - 1 } else r
  { q with holds := (q.holds.map less).filter (fun r => r.units != 0) }

/-- Tell a task of a grant (R320); other masters receive no flag. -/
def quoinFlag (s : State) (w : WytheIx) (r : QWait) : State :=
  match r.holder with
  | .task c k t => s.postFlags w (coreIx c k) t (w32 (2 ^ r.flag))
  | _ => s

/-- Grant free units to the waiters of an object in their order (R321, R327), at most `fuel` of them; a request that only wants a holding
record is counted once (R319). -/
def quoinPump (w : WytheIx) (obj : Nat) : Nat → State → State
  | 0, s => s
  | n + 1, s =>
    let q := (s.wy w).quoin
    match q.waits.find? (fun r => r.object == obj) with
    | none => s
    | some r =>
      if s.quoinMax w obj ≤ quoinUsed q obj then s
      else if recordShort q r.holder obj then
        (if r.short then s
        else (s.updQuoin w (fun q => { q with waits := q.waits.map (fun k => if k == r then { k with short := true } else k) })).count
          (pgQuoin w + 0x68) 1)
      else
        let s1 := (s.updQuoin w (fun q => quoinTake { q with waits := q.waits.erase r } r.holder obj)).count (pgQuoin w + 0x40) 1
        quoinPump w obj n (s1.quoinFlag w r)

/-- Grant what can be granted for every object with a waiter. -/
def quoinPumpAll (s : State) (w : WytheIx) : State :=
  s.each ((s.wy w).quoin.waits.map (·.object)).eraseDups (fun s o => quoinPump w o 4096 s)

/-- A request (R318, R319); a FLAG above 29 is clamped (R53, R335). -/
def quoinAcquire (s : State) (w : WytheIx) (h : Holder) (v : W32) : State :=
  let s := s.noteClamp (pgQuoin w + 0x100) (b2n (decide (29 < fld v 20 16)))
  let obj := fld v 10 0
  let q := (s.wy w).quoin
  let res := fun (s : State) (bit : Nat) => s.updQuoin w (fun q => setResult q h (acqWord bit obj false))
  if !bitOf (fld (s.groupCfg w obj) 8 0) (rightsBit h) || !s.enabled (pgQuoin w) then
    ((res s 28).count (pgQuoin w + 0x50) 1).raiseBit (pgQuoin w) 1
  else if q.waits.any (fun r => r.holder == h) then res s 26
  else if !flag (s.groupCfg w obj) 31 && quoinHeld q h obj != 0 then
    s.updQuoin w (fun q => setResult q h (acqWord 27 obj false))
  else
    let free := decide (quoinUsed q obj < s.quoinMax w obj) && !q.waits.any (fun r => r.object == obj)
    if free && !recordShort q h obj then (s.updQuoin w (fun q => quoinTake q h obj)).count (pgQuoin w + 0x40) 1
    else
      let s1 := if free then s.count (pgQuoin w + 0x68) 1 else s
      if flag v 31 then res s1 25
      else ((res s1 29).updQuoin w (fun q => { q with waits := q.waits ++ [⟨h, obj, min 29 (fld v 20 16), free⟩] })).count (pgQuoin w + 0x48) 1

/-- A release (R321, R324); a holding record that it frees may serve a waiter of another object (R319). -/
def quoinRelease (s : State) (w : WytheIx) (h : Holder) (v : W32) : State :=
  let obj := fld v 10 0
  if quoinHeld (s.wy w).quoin h obj = 0 then (s.count (pgQuoin w + 0x58) 1).raiseBit (pgQuoin w) 2
  else
    let s1 := s.updQuoin w (fun q => quoinGive q h obj)
    let s2 := if flag v 31 then s1.updQuoin w (fun q => { q with abandoned := kdel q.abandoned obj }) else s1
    (quoinPump w obj 4096 s2).onlyIf (decide (4096 ≤ (s.wy w).quoin.holds.length)) (fun s => s.quoinPumpAll w)

/-- A reset of the masters that `p` names (R323): their units are released and the objects marked, their requests and results removed. -/
def quoinReset (s : State) (w : WytheIx) (p : Holder → Bool) : State :=
  let q := (s.wy w).quoin
  let gone := q.holds.filter (fun h => p h.holder)
  let s1 := s.updQuoin w (fun q => { q with
    holds := q.holds.filter (fun h => !p h.holder), waits := q.waits.filter (fun r => !p r.holder), results := q.results.filter (fun e => !p e.1)
    abandoned := gone.foldl (fun m h => sins m h.object true) q.abandoned })
  let s2 := if gone.isEmpty then s1 else (s1.count (pgQuoin w + 0x60) gone.length).raiseBit (pgQuoin w) 0
  (s2.each (gone.map (·.object)).eraseDups (fun s o => quoinPump w o 4096 s)).quoinPumpAll w

/-- CTRL.ABORT of the Quoin (R330). -/
def quoinAbortAll (s : State) (w : WytheIx) : State :=
  let q := (s.wy w).quoin
  let s1 := s.updQuoin w (fun q => { q with
    holds := [], waits := []
    abandoned := q.holds.foldl (fun m h => sins m h.object true) q.abandoned })
  let s2 := s1.each q.waits (fun s r => (s.updQuoin w (fun q => setResult q r.holder (acqWord 28 r.object false))).quoinFlag w r)
  if q.holds.isEmpty then s2 else (s2.count (pgQuoin w + 0x60) q.holds.length).raiseBit (pgQuoin w) 0

/-- A lock-up changed GROUP_CFG (R327): requests of masters that lost the right are removed, and free units are granted. -/
def quoinSwitch (s : State) (w : WytheIx) : State :=
  let lost := (s.wy w).quoin.waits.filter (fun r => !bitOf (fld (s.groupCfg w r.object) 8 0) (rightsBit r.holder))
  let s1 := s.each lost (fun s r =>
    (s.updQuoin w (fun q => setResult { q with waits := q.waits.erase r } r.holder (acqWord 28 r.object false))).quoinFlag w r)
  s1.quoinPumpAll w

end State

/-- Does the asker's access reach wythe `w`'s Quoin? -/
def State.askerReach (s : State) (a : Asker) (w : WytheIx) : Bool :=
  match a with
  | .mason x => x.w == w
  | .host => s.reach .host w
  | .dma => s.reach .host w
  | .datestone => true

/-- ACQUIRE (R318, R319). -/
def execAcquire (a : Asker) (w : WytheIx) (value : W32) (s : State) : Res :=
  .next (if s.askerReach a w then s.quoinAcquire w (s.askerHolder a) value else s)

/-- RELEASE of the Quoin (R321). -/
def execQuoinRelease (a : Asker) (w : WytheIx) (value : W32) (s : State) : Res :=
  .next (if s.askerReach a w then s.quoinRelease w (s.askerHolder a) value else s)

end Sys2Proof.Machine
end

