-- ==== Sys2Proof/Machine/Coproc.lean ====
section
/-! DEFINITION. The course coprocessors (chapter 10): claims, commands, their results and the units' state. -/

namespace Sys2Proof.Machine

/-- Core a holder belongs to. -/
def holderCore : Holder → Option CoreIx
  | .task _ k _ => some k
  | .master _ k _ => some k
  | _ => none

/-- A region descriptor (R288). -/
structure Region where
  buf : Bool
  reserved : Bool
  course : Nat
  handle : Nat
  off : Nat
  len : Nat
  deriving DecidableEq, Repr

/-- The region descriptor at byte `o` of a command block. -/
def regionAt (b : Bytes) (o : Nat) : Region :=
  let w := beAt b o 4
  let buf := bitOf w 31
  let off := beAt b (o + 4) 2
  { buf := buf, reserved := bitsOf w 30 27 != 0 || (!buf && (bitsOf w 23 22 != 0 || off != 0)), course := bitsOf w 26 24
    handle := bitsOf w 26 0, off := if buf then off else bitsOf w 21 0, len := beAt b (o + 6) 2 }

/-- SRC and DST overlap without starting at the same byte (R289). -/
def badOverlap (a b : Region) : Bool :=
  let same := a.buf == b.buf && (if a.buf then a.handle == b.handle else a.course == b.course)
  same && a.off != b.off && a.len != 0 && b.len != 0 && decide (a.off < b.off + b.len) && decide (b.off < a.off + a.len)

/-- The block's fields (R287). -/
def cpOp (b : Bytes) : Nat := beAt b 0 1
def cpMode (b : Bytes) : Nat := beAt b 2 1
def cpFlag (b : Bytes) : Nat := bitsOf (beAt b 1 1) 4 0
def cpSrc (b : Bytes) : Region := regionAt b 4
def cpDst (b : Bytes) : Region := regionAt b 12
def cpAux (b : Bytes) : Region := regionAt b 20
/-- The region descriptors of a block: AUX is one for the AES unit only (R287). -/
def cpRegions (unit : Nat) (b : Bytes) : List Region := [cpSrc b, cpDst b] ++ (if unit = 0 then [cpAux b] else [])
/-- The operation reads SRC, or AUX (R295). -/
def usesSrc (unit : Nat) (b : Bytes) : Bool := unit != 3 && !(unit == 1 && cpOp b == 1)
def usesAux (unit : Nat) (b : Bytes) : Bool := unit == 0 && (cpOp b == 2 || cpOp b == 3)

/-- Lengths fit the operation, which is defined (R289, R295). -/
def cpFits (unit : Nat) (b : Bytes) : Bool :=
  let s := (cpSrc b).len
  let d := (cpDst b).len
  match unit, cpOp b with
  | 0, 1 => s == (if bitOf (cpMode b) 0 then 32 else 16)
  | 0, 2 => d == s + 16 && decide (12 ≤ (cpAux b).len)
  | 0, 3 => s == d + 16 && decide (12 ≤ (cpAux b).len)
  | 0, 4 => d == 16
  | 1, 1 => true
  | 1, 2 => s % 64 == 0
  | 1, 3 => d == 32
  | 1, 4 => decide (s ≤ 64)
  | 1, 5 => d == 32
  | 2, 1 => bitsOf (cpMode b) 1 0 != 3 && d == (if bitOf (cpMode b) 3 then 4 else 0)
  | 3, 1 => d == 8
  | 3, 2 => d == 8
  | 3, 3 => d == 8
  | _, _ => false

/-- L of R297, in cycles from COMMIT. -/
def cpLatency (unit : Nat) (b : Bytes) : Nat :=
  let up := fun (n k : Nat) => (n + k - 1) / k
  let n := (cpSrc b).len + (if usesAux unit b then (cpAux b).len else 0)
  match unit, cpOp b with
  | 0, 1 => if bitOf (cpMode b) 0 then 18 else 14
  | 0, 4 => 24 + 2 * up n 16
  | 0, _ => 30 + 2 * up n 16
  | 1, 1 => 4
  | 1, 2 => 10 + 68 * n / 64
  | 1, 3 => 10 + 68 * up (n + 9) 64
  | 1, 4 => 146
  | 1, _ => 146 + 68 * up (n + 9) 64
  | 2, _ => 10 + up n 16
  | _, _ => 20

/-- A block that fails a check of R289. -/
def cpBadBlock (unit : Nat) (b : Bytes) : Bool :=
  bitsOf (beAt b 1 1) 6 5 != 0 || bitsOf (beAt b 3 1) 7 1 != 0 || beAt b 28 4 != 0 || decide (29 < cpFlag b) ||
    (cpRegions unit b).any (·.reserved) ||
    !cpFits unit b || badOverlap (cpSrc b) (cpDst b)

/-- Integer square root by bits. -/
def isqrtF (n : Nat) : Nat → Nat → Nat
  | 0, r => r
  | k + 1, r => isqrtF n k (if (r + 2 ^ k) * (r + 2 ^ k) ≤ n then r + 2 ^ k else r)

/-- DIVS: truncation towards zero, the remainder with the dividend's sign (R296). -/
def divS (a b : Nat) : Nat × Nat :=
  let x := signed 32 a
  let y := signed 32 b
  let q := Int.tdiv x y
  (((q % 4294967296).toNat), (((x - q * y) % 4294967296).toNat))

/-- State blocks (R298). -/
def stAes (key : Bytes) : Bytes :=
  [BitVec.ofNat 8 (0x80 + b2n (key.length == 32))] ++ List.replicate 15 0 ++ padTo 32 key
def stSha (phase count : Nat) (h outer : List W32) : Bytes :=
  toBe 1 phase ++ List.replicate 7 0 ++ toBe 8 count ++ wordBytes h ++ (if phase = 2 then wordBytes outer else List.replicate 32 0)
def stCrc (alg run : Nat) : Bytes := toBe 1 (0x80 + alg) ++ [0, 0, 0] ++ toBe 4 run
def stateSize (unit : Nat) : Nat := match unit with
  | 0 => 48 | 1 => 80 | 2 => 8 | _ => 0
def aesKeyOf (st : Bytes) : Bytes := slice st 16 (if bitOf (beAt st 0 1) 0 then 32 else 16)

/-- What a command computes (R296): status, the bytes of DST, the unit's new state. -/
structure CpResult where
  status : Nat
  out : Bytes
  state : Bytes
  deriving DecidableEq, Repr

def cpAes (st b src aux : Bytes) : CpResult :=
  let key := aesKeyOf st
  let iv := aux.take 12
  let aad := aux.drop 12
  match cpOp b with
  | 1 => ⟨0, [], stAes src⟩
  | _ =>
    if st.isEmpty then ⟨5, [], st⟩
    else match cpOp b with
      | 2 => ⟨0, gcmEnc key iv aad src, st⟩
      | 3 => match gcmDec key iv aad src with
        | some p => ⟨0, p, st⟩
        | none => ⟨1, [], st⟩
      | _ => ⟨0, cmac key src, st⟩

/-- The digest words after the last bytes of a message of which `count` bytes are hashed. -/
def shaLast (h : List W32) (count : Nat) (src : Bytes) : List W32 := shaBlocks h (src ++ shaPad (count + src.length))

def cpSha (st b src : Bytes) : CpResult :=
  let phase := beAt st 0 1
  let count := beAt st 8 8
  let h := beWords (slice st 16 32)
  let outer := beWords (slice st 48 32)
  match cpOp b with
  | 1 => ⟨0, [], stSha 1 0 shaH0 []⟩
  | 4 => ⟨0, [], stSha 2 64 (hmacInner src) (hmacOuter src)⟩
  | 2 => if phase = 0 then ⟨5, [], st⟩ else ⟨0, [], stSha phase ((count + src.length) % 2 ^ 64) (shaBlocks h src) outer⟩
  | 3 => if phase = 0 then ⟨5, [], st⟩ else ⟨0, wordBytes (shaLast h count src), []⟩
  | _ => if phase ≠ 2 then ⟨5, [], st⟩ else ⟨0, wordBytes (shaLast outer 64 (wordBytes (shaLast h count src))), []⟩

def cpCrc (st b src : Bytes) : CpResult :=
  let alg := bitsOf (cpMode b) 1 0
  let cont := bitOf (cpMode b) 2
  let fin := bitOf (cpMode b) 3
  if cont ∧ (st.isEmpty ∨ bitsOf (beAt st 0 1) 1 0 ≠ alg) then ⟨5, [], st⟩
  else
    let r0 := if cont then beAt st 4 4 else if alg = 2 then 0 else 0xFFFFFFFF
    let r := if alg = 2 then onesSum r0 src else crcRun (if alg = 0 then polyCrc32 else polyCrc32c) r0 src
    if fin then ⟨0, toBe 4 (if alg = 2 then 0xFFFF - r else 0xFFFFFFFF - r), []⟩ else ⟨0, [], stCrc alg r⟩

def cpDiv (b : Bytes) : CpResult :=
  let x := beAt b 20 4
  let y := beAt b 24 4
  match cpOp b with
  | 3 => let r := isqrtF x 16 0; ⟨0, toBe 4 r ++ toBe 4 (x - r * r), []⟩
  | op =>
    if y = 0 then ⟨6, [], []⟩
    else if op = 1 then ⟨0, toBe 4 (x / y) ++ toBe 4 (x % y), []⟩
    else ⟨0, toBe 4 (divS x y).1 ++ toBe 4 (divS x y).2, []⟩

def cpCompute (unit : Nat) (st b src aux : Bytes) : CpResult :=
  match unit with
  | 0 => cpAes st b src aux
  | 1 => cpSha st b src
  | 2 => cpCrc st b src
  | _ => cpDiv b

/-- A state block is legal for CPREST (R298): its reserved bytes are 0, and its PHASE is defined. -/
def stateLegal (unit : Nat) (v : Bytes) : Bool :=
  let zero := fun (n : Nat) => (slice v 1 n).all (· == 0)
  match unit with
  | 0 => zero 15
  | 1 => zero 7 && bitsOf (beAt v 0 1) 1 0 != 3
  | 2 => zero 3
  | _ => true
/-- The state that a legal block's fields give, the empty one where they say so; bits that no field uses are not kept. -/
def stateOf (unit : Nat) (v : Bytes) : Bytes :=
  let b0 := beAt v 0 1
  match unit with
  | 0 => if bitOf b0 7 then stAes (aesKeyOf v) else []
  | 1 => if bitsOf b0 1 0 = 0 then [] else stSha (bitsOf b0 1 0) (beAt v 8 8) (beWords (slice v 16 32)) (beWords (slice v 48 32))
  | 2 => if bitOf b0 7 then stCrc (bitsOf b0 1 0) (beAt v 4 4) else []
  | _ => []

namespace State

def cpUnit (s : State) (w : WytheIx) (c u : Nat) : CpUnit := kget {} (s.course w c).units u
def updUnit (s : State) (w : WytheIx) (c u : Nat) (f : CpUnit → CpUnit) : State :=
  s.updCourse w c (fun k => { k with units := kupd {} k.units u f })

/-- The commands of a holder on a unit that have not completed. -/
def cpOutstanding (s : State) (w : WytheIx) (c : Nat) (p : Place → Bool) : Bool :=
  (s.course w c).places.any (fun e => p e.2 && e.2.state != .done)

/-- Give a free unit to the head of its waiters (R284, R286). -/
def cpGrant (s : State) (w : WytheIx) (c u : Nat) (abandoned : Bool) : State :=
  match (s.cpUnit w c u).waiters with
  | [] => s.updUnit w c u (fun k => { k with holder := none, abandoned := abandoned })
  | (h, f) :: r =>
    let s1 := (s.updUnit w c u (fun k => { k with holder := some h, abandoned := abandoned, waiters := r })).count (pgCoproc w c + 0x68) 1
    match h with
    | .task c' k t => s1.postFlags w (coreIx c' k) t (w32 (2 ^ f))
    | _ => s1

/-- The release of a unit takes effect: its state is cleared, and the next waiter is granted (R285, R286). -/
def cpFree (s : State) (w : WytheIx) (c u : Nat) (abandoned : Bool) : State :=
  let s1 := s.updUnit w c u (fun k => { k with state := [], releasing := none })
  (s1.onlyIf abandoned (fun s => (s.count (pgCoproc w c + 0x70) 1).raiseBit (pgCoproc w c) 1)).cpGrant w c u abandoned

/-- Release a unit, at once or when the holder's last outstanding command on it completes. -/
def cpRelease (s : State) (w : WytheIx) (c u : Nat) (abandoned : Bool) : State :=
  if s.cpOutstanding w c (fun p => p.unit == u && some p.owner == (s.cpUnit w c u).holder) then
    s.updUnit w c u (fun k => { k with releasing := some abandoned })
  else s.cpFree w c u abandoned

/-- After a completion, the release that waited for it. -/
def cpSettle (s : State) (w : WytheIx) (c u : Nat) : State :=
  match (s.cpUnit w c u).releasing with
  | some a => s.cpRelease w c u a
  | none => s

/-- A load from COPROC.CLAIM (R284): [31] GRANTED, [30] ABANDONED, [29] QUEUED, [28] REFUSED, [27] HELD. -/
def cpClaim (s : State) (a : Agent) (w : WytheIx) (c : CourseIx) (u f : Nat) : W32 × State :=
  match a with
  | .mason x =>
    if x.w ≠ w ∨ x.c ≠ c then (0x10000000, s)
    else
      let h := s.holderOf x
      let k := s.cpUnit w c u
      let ab : W32 := if k.abandoned then 0x40000000 else 0
      if k.holder = some h then (0x08000000 ||| ab, s)
      else if k.holder = none then
        (0x80000000 ||| ab, (s.updUnit w c u (fun k => { k with holder := some h })).count (pgCoproc w c + 0x68) 1)
      else if k.waiters.any (fun q => q.1 == h) then (0x20000000, s)
      else (0x20000000, s.updUnit w c u (fun k => { k with waiters := k.waiters ++ [(h, f)] }))
  | _ => (0x10000000, s)

/-- A store to COPROC.RELEASE (R285). -/
def cpReleaseStore (s : State) (a : Agent) (w : WytheIx) (c : CourseIx) (u : Nat) : State :=
  let holds := match a with
    | .mason x => x.w == w && x.c == c && (s.cpUnit w c u).holder == some (s.holderOf x)
    | _ => false
  if holds then s.cpRelease w c u false else s.count (pgCoproc w c + 0x78) 1

/-! Commands. -/

/-- Why a region cannot be used: 0 none, 3 BOUNDS, 4 BAD_HANDLE (R288, R290). -/
def regionStatus (s : State) (w : WytheIx) (r : Region) : Nat :=
  if r.len = 0 then 0
  else if r.buf then
    if !s.goodHandle w r.handle then 4 else if s.poolSize w (handlePool r.handle) < r.off + r.len then 3 else 0
  else if 6 ≤ r.course ∨ 0x400000 < r.off + r.len then 3 else 0
/-- How a region's banks, or its buffer's memory, meet the command; an access to a bank that is not ON is counted (R308, R312). -/
def regionView (s : State) (w : WytheIx) (r : Region) : BankView :=
  if r.len = 0 then .on
  else if r.buf then (if s.bufRetained w r.handle then .retained else .on)
  else s.bankRange w r.course r.off r.len
def regionTouch (s : State) (w : WytheIx) (r : Region) : State :=
  if r.buf then s else s.bankRefused w r.course (s.regionView w r)
/-- What the check bits report for a region that a command reads (R309, R439). -/
def regionEcc (s : State) (w : WytheIx) (r : Region) (used : Bool) (ecc : EccReport) : EccReport :=
  if !used || r.len == 0 then .good
  else if r.buf then s.bufEcc w r.handle ecc
  else if s.regionView w r = .on then ecc else .good
def regionNote (s : State) (w : WytheIx) (r : Region) (ecc : EccReport) : State :=
  if r.buf then s.bufNote w r.handle ecc
  else match ecc with
    | .good => s
    | .corrected => s.bankCorrected w r.course
    | .uncorrectable => s.bankUncorrectable w r.course r.off
def regionRead (s : State) (w : WytheIx) (r : Region) : Bytes :=
  if r.buf then s.bufBytes w r.handle r.off r.len else s.bankBytes w r.course r.off r.len
def regionWrite (s : State) (w : WytheIx) (r : Region) (v : Bytes) (ecc : EccReport) : State :=
  if r.buf then s.setBufBytes w r.handle r.off v else s.setBankEcc w r.course r.off v ecc

/-- Run a committed command: its status and effects but for completion itself (R289, R290, R296, R308, R309). -/
def cpRun (s : State) (w : WytheIx) (c : Nat) (p : Place) (ecc : CommandEcc) : Nat × State :=
  let b := p.block
  let regs := cpRegions p.unit b
  if p.found ≠ 0 then (p.found, s)
  else if cpBadBlock p.unit b then (2, s)
  else
    match (regs.map (s.regionStatus w)).find? (· != 0) with
    | some e => (e, s)
    | none =>
      let s1 := s.each regs (fun s r => s.regionTouch w r)
      if regs.any (fun r => s.regionView w r == .retained) then (3, s1)
      else
        let src := if usesSrc p.unit b then s.regionRead w (cpSrc b) else []
        let aux := if usesAux p.unit b then s.regionRead w (cpAux b) else []
        let es := s.regionEcc w (cpSrc b) (usesSrc p.unit b) ecc.src
        let ea := s.regionEcc w (cpAux b) (usesAux p.unit b) ecc.aux
        let s2 := (s1.regionNote w (cpSrc b) es).regionNote w (cpAux b) ea
        if es = .uncorrectable ∨ ea = .uncorrectable then (7, s2)
        else
          let r := cpCompute p.unit (s.cpUnit w c p.unit).state b src aux
          if r.status ≠ 0 then (r.status, s2)
          else (0, (s2.updUnit w c p.unit (fun k => { k with state := r.state })).onlyIf (!r.out.isEmpty)
            (fun s => s.regionWrite w (cpDst b) r.out ecc.dst))

/-- A command completes with a status (R290, R291, R294): flag, interrupt and counts, then its place when NOSTAT or its task's death
frees it, and a release that waited. A block whose FLAG is 30 or 31, which is no flag a command may post, posts nothing (DESIGN CHOICE;
log 32). -/
def cpComplete (s : State) (w : WytheIx) (c : CourseIx) (place : Nat) (p : Place) (status : Nat) : State :=
  let pg := pgCoproc w c
  let s1 := (s.count (pg + 0x40) 1).onlyIf (status == 1) (fun s => s.count (pg + 0x50) 1)
  let s2 := s1.onlyIf (status != 0 && status != 1) (fun s => ((s.count (pg + 0x48) 1).raiseBit pg 0).interrupt w (coreIx c p.core) 7)
  let s3 := if p.found = 0 && bitOf (beAt p.block 1 1) 7 && decide (cpFlag p.block ≤ 29) then
      if p.dead then s2.count (pgChase w (coreIx c p.core) + 0x60) 1
      else match p.owner with
        | .task c' k t => s2.postFlags w (coreIx c' k) t (w32 (2 ^ cpFlag p.block))
        | _ => s2
    else s2
  let gone := p.dead || (p.found == 0 && bitOf (beAt p.block 3 1) 0)
  let s4 := s3.updCourse w c (fun k => { k with
    places := if gone then kdel k.places place else sins k.places place { p with state := .done, status := status } })
  s4.cpSettle w c p.unit

/-- A unit has worked on a command: L cycles where that is exact, on a plumb course and with every region in banks (R297); else `least`
of them and a free number more (R300; log 5). -/
def cpWorked (s : State) (w : WytheIx) (c u least : Nat) (exact_ : Bool) : State :=
  let busy := pgCoproc w c + 0x88 + 8 * u
  if exact_ then s.count busy least
  else
    let (v, s1) := s.draw
    s1.count busy (least + v.toNat % 2 ^ 32)

/-- A command cancelled completes with CANCELLED, counted where CTRL.ABORT cancelled it (R299). -/
def cpCancel (s : State) (w : WytheIx) (c : CourseIx) (place : Nat) (p : Place) (abort : Bool) : State :=
  ((s.onlyIf abort (fun s => s.count (pgCoproc w c + 0x60) 1)).cpWorked w c p.unit 0 false).cpComplete w c place p 8

/-- COMMIT (R292): a command cancelled before it completes now. -/
def cpCommit (s : State) (w : WytheIx) (c : CourseIx) (place : Nat) : State :=
  match sfind (s.course w c).places place with
  | some p =>
    if p.state = .queued then
      let s1 := s.updCourse w c (fun k => { k with places := sins k.places place { p with state := .committed } })
      let x : Option CtxIx := match p.owner with
        | .task _ k t => some (s.tcb w (tcbIx (coreIx c k) t)).ctx
        | .master _ _ x => some x
        | _ => none
      let s2 := s1.pmc w (coreIx c p.core) 0x12 x 1
      match p.cancelled with
      | some abort => s2.cpCancel w c place { p with state := .committed } abort
      | none => s2
    else s
  | none => s

/-- COPROC_COMPLETION: a committed command ends, in the order of issue on its unit (R291, R292). -/
def cpFinish (s : State) (w : WytheIx) (c : CourseIx) (place : Nat) (ecc : CommandEcc) : State :=
  match sfind (s.course w c).places place with
  | some p =>
    let waits := (s.course w c).places.any (fun e => e.2.unit == p.unit && e.2.state != .done && decide (e.2.order < p.order))
    if p.state = .committed && !waits then
      let (st, s1) := s.cpRun w c p ecc
      let ran := decide (st ≤ 1)
      let banks := (cpRegions p.unit p.block).all (fun r => r.len == 0 || !r.buf)
      (s1.cpWorked w c p.unit (if ran then cpLatency p.unit p.block else 0) (ran && banks && s.plumbSet w c.val)).cpComplete w c place p st
    else s
  | none => s

/-- KILL for the uncommitted commands that `q` names (R293): place and tag are freed, and nothing else changes. -/
def cpKill (s : State) (w : WytheIx) (c : Nat) (q : Place → Bool) : State :=
  let gone := (s.course w c).places.filter (fun e => q e.2 && e.2.state == .queued)
  let s1 := s.updCourse w c (fun k => { k with places := k.places.filter (fun e => !(q e.2 && e.2.state == .queued)) })
  let s2 := s1.onlyIf (!gone.isEmpty) (fun s => s.count (pgCoproc w c + 0x58) gone.length)
  let s3 := s2.each gone (fun s e => s.cpWorked w c e.2.unit 0 false)
  s3.each (gone.map (·.2.unit)).eraseDups (fun s u => s.cpSettle w c u)

/-- Masters are reset (R230, R286, R294): uncommitted commands are killed, tags freed, claims and queued claims given up. -/
def cpReset (s : State) (w : WytheIx) (c : Nat) (q : Holder → Bool) : State :=
  let s1 := s.cpKill w c (fun p => q p.owner)
  let s2 := s1.updCourse w c (fun k => { k with
    places := (k.places.filter (fun e => !(q e.2.owner && e.2.state == .done))).map
      (fun e => if q e.2.owner then (e.1, { e.2 with dead := true }) else e) })
  s2.each (List.range 4) (fun s u =>
    let s3 := s.updUnit w c u (fun k => { k with waiters := k.waiters.filter (fun h => !q h.1) })
    match (s3.cpUnit w c u).holder with
    | some h => if q h then s3.cpRelease w c u true else s3
    | none => s3)

/-- CTRL.ABORT of the COPROC page (R299): every queued and running command completes with CANCELLED, once it has committed (R292). -/
def cpAbort (s : State) (w : WytheIx) (c : CourseIx) : State :=
  let live := (s.course w c).places.filter (fun e => e.2.state != .done)
  s.each live (fun s e =>
    if e.2.state = .committed then s.cpCancel w c e.1 e.2 true
    else s.updCourse w c (fun k => { k with places := sins k.places e.1 { e.2 with cancelled := some true } }))

/-- Take a place for a command (R291): its number and tag. On a disabled page it completes with CANCELLED at its COMMIT (R292, R299). -/
def cpTake (s : State) (w : WytheIx) (c : CourseIx) (h : Holder) (k : CoreIx) (unit found : Nat) (block : Bytes) : Option (Nat × Nat × State) :=
  let co := s.course w c
  match (List.range 16).find? (fun n => (sfind co.places n).isNone) with
  | none => none
  | some n =>
    let g := (kget 15 co.gens n + 1) % 16
    let p : Place := { owner := h, core := k, unit := unit, block := block, found := found, dead := false, order := co.nextOrder, state := .queued, status := 0
                       cancelled := if s.enabled (pgCoproc w c) then none else some false }
    let s1 := s.updCourse w c (fun co => { co with places := sins co.places n p, gens := sins co.gens n g, nextOrder := co.nextOrder + 1 })
    some (n, 16 * g + n, s1)

/-- The block of a command at a data address (R287, R289, R308, R309): what reading it finds, and its bytes. -/
def cpBlock (s : State) (w : WytheIx) (c : Nat) (addr : Nat) (ecc : EccReport) : Nat × Bytes × State :=
  if addr % 4 ≠ 0 ∨ addr < 0x400000 ∨ 0x800000 < addr + 32 then (2, [], s)
  else
    let o := addr - 0x400000
    let v := s.bankRange w c o 32
    match if v = .on then ecc else .good with
    | .uncorrectable => (7, s.bankBytes w c o 32, s.bankUncorrectable w c o)
    | e => (if v = .retained then 3 else 0, s.bankBytes w c o 32, (s.bankRefused w c v).onlyIf (e == .corrected) (fun s => s.bankCorrected w c))

/-- CPSAVE and CPREST of a unit at bank offset `o` (R298). -/
def cpSave (s : State) (w : WytheIx) (c u o : Nat) : State :=
  s.setBankBytes w c o (padTo (stateSize u) (s.cpUnit w c u).state)
def cpRest (s : State) (w : WytheIx) (c u o : Nat) : State :=
  let v := s.bankBytes w c o (stateSize u)
  if stateLegal u v then s.updUnit w c u (fun k => { k with state := stateOf u v })
  else (s.updUnit w c u (fun k => { k with state := [] })).count (pgCoproc w c + 0x80) 1

end State

/-- CLAIM (R284). -/
def execClaim (a : Agent) (w : WytheIx) (c : CourseIx) (u : Fin 4) (f : Fin 30) (s : State) : Res :=
  .next (if s.reach a w then
    let (v, s1) := s.cpClaim a w c u.val f.val
    s1.answer v
  else s.answer 0xDEAD0001)

/-- RELEASE of a coprocessor unit (R285). -/
def execCoprocRelease (a : Agent) (w : WytheIx) (c : CourseIx) (u : Fin 4) (s : State) : Res :=
  .next (s.viaPage a w (fun s => s.cpReleaseStore a w c u.val))

/-- COMMIT (R292). -/
def execCommit (w : WytheIx) (c : CourseIx) (place : Fin 16) (s : State) : Res := .next (s.cpCommit w c place.val)

/-- COPROC_COMPLETION (R290). -/
def execCoprocCompletion (w : WytheIx) (c : CourseIx) (place : Fin 16) (ecc : CommandEcc) (s : State) : Res :=
  .next (s.cpFinish w c place.val ecc)

end Sys2Proof.Machine
end

