-- ==== Sys2Proof/Machine/Flags.lean ====
section
/-! DEFINITION. Eoren results and flags (R179, R183, R205–R208): each operation at the width of its result. -/

namespace Sys2Proof.Machine

/-- N, Z, C and V. -/
structure Nzcv where
  n : Bool
  z : Bool
  c : Bool
  v : Bool
  deriving DecidableEq, Repr

/-- The bits of SR that hold state of their own: IE, FC and the flags (R182). -/
def srMask : W16 := 0x80EF

/-- The flags in their SR places. -/
def flagBits (f : Nzcv) : W16 := BitVec.ofNat 16 (8 * b2n f.n + 4 * b2n f.z + 2 * b2n f.c + b2n f.v)
/-- SR with new flags. -/
def setFlags (sr : W16) (f : Nzcv) : W16 := (sr &&& 0xFFF0#16) ||| flagBits f
/-- SR with a new Z. -/
def setZ (sr : W16) (z : Bool) : W16 := if z then sr ||| 4#16 else sr &&& 0xFFFB#16
def flagN (sr : W16) : Bool := sr.getLsbD 3
def flagZ (sr : W16) : Bool := sr.getLsbD 2
def flagC (sr : W16) : Bool := sr.getLsbD 1
def flagV (sr : W16) : Bool := sr.getLsbD 0

variable {w : Nat}

/-- a + b + carry, with carry out and signed overflow (R205). -/
def addFlags (a b : BitVec w) (c : Bool) : BitVec w × Nzcv :=
  let r := a + b + BitVec.ofNat w (b2n c)
  (r, ⟨r.msb, r == 0, decide (2 ^ w ≤ a.toNat + b.toNat + b2n c), decide (r.toInt ≠ a.toInt + b.toInt + (b2n c : Nat))⟩)

/-- a − b − borrow, with borrow out and signed overflow (R205). -/
def subFlags (a b : BitVec w) (c : Bool) : BitVec w × Nzcv :=
  let r := a - b - BitVec.ofNat w (b2n c)
  (r, ⟨r.msb, r == 0, decide (a.toNat < b.toNat + b2n c), decide (r.toInt ≠ a.toInt - b.toInt - (b2n c : Nat))⟩)

/-- Flags of a logical result: C and V are cleared. -/
def logicFlags (r : BitVec w) : Nzcv := ⟨r.msb, r == 0, false, false⟩

/-- Shifts (R206): C is the last bit shifted out, 0 when the count is 0; V is cleared. -/
def lslFlags (a : BitVec w) (n : Nat) : BitVec w × Nzcv :=
  let r := a <<< n
  (r, { logicFlags r with c := decide (0 < n) && decide (n ≤ w) && a.getLsbD (w - n) })
def lsrFlags (a : BitVec w) (n : Nat) : BitVec w × Nzcv :=
  let r := a >>> n
  (r, { logicFlags r with c := decide (0 < n) && a.getLsbD (n - 1) })
def asrFlags (a : BitVec w) (n : Nat) : BitVec w × Nzcv :=
  let r := a.sshiftRight n
  (r, { logicFlags r with c := decide (0 < n) && (if n ≤ w then a.getLsbD (n - 1) else a.msb) })

/-- Kinds of shift. -/
inductive ShiftKind where
  | lsl
  | lsr
  | asr
  deriving DecidableEq, Repr
def shiftFlags (k : ShiftKind) (a : BitVec w) (n : Nat) : BitVec w × Nzcv :=
  match k with
  | .lsl => lslFlags a n
  | .lsr => lsrFlags a n
  | .asr => asrFlags a n

/-- Operations of the two-operand and three-operand group (R204). -/
inductive AluOp where
  | add
  | adc
  | sub
  | sbc
  | and
  | or
  | xor
  deriving DecidableEq, Repr
def aluFlags (op : AluOp) (a b : BitVec w) (c : Bool) : BitVec w × Nzcv :=
  match op with
  | .add => addFlags a b false
  | .adc => addFlags a b c
  | .sub => subFlags a b false
  | .sbc => subFlags a b c
  | .and => (a &&& b, logicFlags (a &&& b))
  | .or => (a ||| b, logicFlags (a ||| b))
  | .xor => (a ^^^ b, logicFlags (a ^^^ b))

/-- Condition codes (R183); 0xF is reserved. -/
def condHolds (cc : BitVec 4) (sr : W16) : Bool :=
  let n := flagN sr
  let z := flagZ sr
  let c := flagC sr
  let v := flagV sr
  match cc.toNat with
  | 0 => z | 1 => !z | 2 => c | 3 => !c | 4 => n | 5 => !n | 6 => v | 7 => !v
  | 8 => !c && !z | 9 => c || z | 10 => n == v | 11 => n != v | 12 => !z && n == v | 13 => z || n != v | 14 => true
  | _ => false

/-- Parity: 1 when the number of 1 bits is odd (R207). -/
def parityOf (v n : Nat) : W16 := BitVec.ofNat 16 (((List.range n).map (fun i => v / 2 ^ i % 2)).sum % 2)
/-- The low `n` bits of `v` in reverse order. -/
def revBits (v n : Nat) : Nat := ((List.range n).map (fun i => (v / 2 ^ i % 2) * 2 ^ (n - 1 - i))).sum

/-- One byte of a CRC, least significant bit first (R208). -/
def crcStep (poly : W32) : Nat → W32 → W32
  | 0, st => st
  | n + 1, st => crcStep poly n (if st.getLsbD 0 then (st >>> 1) ^^^ poly else st >>> 1)
def crcOne (poly st : W32) (b : Byte) : W32 := crcStep poly 8 (st ^^^ b.zeroExtend 32)

end Sys2Proof.Machine
end

