-- ==== Sys2Proof/Machine/Operands.lean ====
section
/-! DEFINITION. Eoren operands: registers by their numbers, conversions between widths, and addressing modes (R176–R186, R211). -/

namespace Sys2Proof.Machine

/-- A register's value with its class (R211). -/
inductive RVal where
  | d (v : W16)
  | pair (v : W32)
  | a (v : W24)
  | x (v : W40)
  /-- a special register of 16 or of 24 bits -/
  | s16 (v : W16)
  | s24 (v : W24)
  deriving DecidableEq, Repr

/-- Into a 16-bit register: the low 16 bits. -/
def RVal.to16 : RVal → W16
  | .d v => v
  | .pair v => v.setWidth 16
  | .a v => v.setWidth 16
  | .x v => v.setWidth 16
  | .s16 v => v
  | .s24 v => v.setWidth 16
/-- Into an A register or a 24-bit special register; what a special register of another width gives is not stated (none). -/
def RVal.to24 : RVal → Option W24
  | .d v => some (v.setWidth 24)
  | .pair v => some (v.setWidth 24)
  | .a v => some v
  | .x v => some (v.setWidth 24)
  | .s16 _ => none
  | .s24 v => some v
/-- Into a pair; what a special register gives is not stated. -/
def RVal.to32 : RVal → Option W32
  | .d _ => none
  | .pair v => some v
  | .a v => some (v.setWidth 32)
  | .x v => some (v.setWidth 32)
  | .s16 _ => none
  | .s24 _ => none
/-- Into an X register: D registers and pairs are sign-extended, A registers zero-extended. -/
def RVal.to40 : RVal → Option W40
  | .d v => some (v.signExtend 40)
  | .pair v => some (v.signExtend 40)
  | .a v => some (v.setWidth 40)
  | .x v => some v
  | .s16 _ => none
  | .s24 _ => none

/-- The pair that begins at D register `n`: Dn is bits [31:16] (R178). -/
def Ctx.pair (c : Ctx) (n : Fin 16) : W32 := c.d[n.val] ++ (if h : n.val + 1 < 16 then c.d[n.val + 1] else 0)
def Ctx.setD (c : Ctx) (n : Fin 16) (v : W16) : Ctx := { c with d := c.d.set n.val v }
def Ctx.setPair (c : Ctx) (n : Fin 16) (v : W32) : Ctx :=
  let c1 := c.setD n (v.extractLsb' 16 16)
  if h : n.val + 1 < 16 then c1.setD ⟨n.val + 1, h⟩ (v.extractLsb' 0 16) else c1
def Ctx.setA (c : Ctx) (n : Fin 8) (v : W24) : Ctx := { c with a := c.a.set n.val v }
def Ctx.setX (c : Ctx) (n : Fin 4) (v : W40) : Ctx := { c with x := c.x.set n.val v }
/-- A pair field names an even register (R178). -/
def evenReg (n : Fin 16) : Bool := n.val % 2 == 0

/-- Reserved numbers; registers that are read only; the shadow registers (R180, R181, R202). -/
def Reg.reservedNo : Reg → Bool
  | .reserved _ => true
  | _ => false
def Reg.readOnly : Reg → Bool
  | .pcx => true
  | .ctx => true
  | .tnow _ => true
  | _ => false
def Reg.shadow : Reg → Bool
  | .spcx => true
  | .ssr => true
  | .sa0 => true
  | .sd0 => true
  | _ => false

namespace State

/-- SR as a read shows it: IE, FC and flags, and the live SLOT, PL and MODE (R182). -/
def srWord (s : State) (x : CtxId) (sr : W16) : W16 :=
  (sr &&& srMask) ||| BitVec.ofNat 16 (at' ((s.core x.w x.core.ix).cycle % 8) 12 + at' (b2n (s.plumb x.w x.core.ix)) 11 +
    at' (modeCode (s.wy x.w).mode) 8)
/-- CTX (R180). -/
def ctxWord (x : CtxId) : W16 := BitVec.ofNat 16 (at' x.w.val 9 + at' x.c.val 6 + at' x.k.val 3 + x.x.val)
/-- Course time (R418). -/
def tnow (s : State) (x : CtxId) : W64 := BitVec.ofNat 64 (s.gptp x.w)

/-- Read register `r` of context `x`; a read of TNOW0 latches the others (R180, R184). A reserved number reads 0: the callers refuse it. -/
def readReg (s : State) (x : CtxId) (r : Reg) : RVal × State :=
  let c := s.ctx x
  let k := s.core x.w x.core.ix
  match r with
  | .d n => (.d c.d[n.val], s)
  | .a n => (.a c.a[n.val], s)
  | .x n => (.x c.x[n.val], s)
  | .mlo => (.s16 c.mlo, s)
  | .mhi => (.s16 c.mhi, s)
  | .sr => (.s16 (s.srWord x c.sr), s)
  | .pcx => (.s24 c.pcx, s)
  | .ctx => (.s16 (ctxWord x), s)
  | .tnow i =>
    if i.val = 0 then (.s16 ((s.tnow x).extractLsb' 0 16), s.updCtx x (fun c => { c with tnow := (s.tnow x).extractLsb' 16 48 }))
    else (.s16 (c.tnow.extractLsb' (16 * (i.val - 1)) 16), s)
  | .tcmp i => (.s16 (c.tcmp.extractLsb' (16 * i.val) 16), s)
  | .polyl => (.s16 (c.poly.extractLsb' 0 16), s)
  | .polyh => (.s16 (c.poly.extractLsb' 16 16), s)
  | .evwl => (.s16 (c.evw.extractLsb' 0 16), s)
  | .evwh => (.s16 (c.evw.extractLsb' 16 16), s)
  | .spcx => (.s24 k.spcx, s)
  | .ssr => (.s16 k.ssr, s)
  | .sa0 => (.s24 k.sa0, s)
  | .sd0 => (.s16 k.sd0, s)
  | .reserved _ => (.s16 0, s)

/-- Read a register where D registers stand for pairs when `p` (R211). -/
def readRegP (s : State) (x : CtxId) (r : Reg) (p : Bool) : RVal × State :=
  match r, p with
  | .d n, true => (.pair ((s.ctx x).pair n), s)
  | r, _ => s.readReg x r

/-- A value, or the next free value where R211 states none (log 5). -/
def orFree {n : Nat} (s : State) (v : Option (BitVec n)) : BitVec n × State :=
  match v with
  | some v => (v, s)
  | none => let (f, s') := s.draw; (f.setWidth n, s')

/-- Replace the half `i` of a 32-bit special register. -/
def setHalf (v : W32) (i : Nat) (h : W16) : W32 := if i = 0 then v.extractLsb' 16 16 ++ h else h ++ v.extractLsb' 0 16
/-- Write TCMP`i` (R184, R220): TCMP0 moves the holding copy and itself into TCMP and arms the compare. -/
def writeTcmp (c : Ctx) (i : Fin 4) (v : W16) : Ctx :=
  match i.val with
  | 0 => { c with tcmp := c.tcmpHold ++ v, armed := true }
  | 1 => { c with tcmpHold := c.tcmpHold.extractLsb' 32 16 ++ c.tcmpHold.extractLsb' 16 16 ++ v }
  | 2 => { c with tcmpHold := c.tcmpHold.extractLsb' 32 16 ++ v ++ c.tcmpHold.extractLsb' 0 16 }
  | _ => { c with tcmpHold := v ++ c.tcmpHold.extractLsb' 16 16 ++ c.tcmpHold.extractLsb' 0 16 }

/-- Write register `r` of context `x`, converting the value (R211); D registers stand for pairs when `p`. PCX is written by
the debugger alone. -/
def writeReg (s : State) (x : CtxId) (r : Reg) (p : Bool) (v : RVal) : State :=
  let up := fun (f : Ctx → Ctx) => s.updCtx x f
  let core := fun (s : State) (f : Core → Core) => s.updCore x.w x.core.ix f
  match r with
  | .d n =>
    if p then
      let (q, s1) := s.orFree v.to32
      s1.updCtx x (fun c => c.setPair n q)
    else up (fun c => c.setD n v.to16)
  | .a n =>
    let (q, s1) := s.orFree v.to24
    s1.updCtx x (fun c => c.setA n q)
  | .x n =>
    let (q, s1) := s.orFree v.to40
    s1.updCtx x (fun c => c.setX n q)
  | .mlo => up (fun c => { c with mlo := v.to16 })
  | .mhi => up (fun c => { c with mhi := v.to16 })
  | .sr => up (fun c => { c with sr := v.to16 &&& srMask })
  | .pcx =>
    let (q, s1) := s.orFree v.to24
    s1.updCtx x (fun c => { c with pcx := q &&& 0xFFFFFE#24 })
  | .tcmp i => up (fun c => writeTcmp c i v.to16)
  | .polyl => up (fun c => { c with poly := setHalf c.poly 0 v.to16 })
  | .polyh => up (fun c => { c with poly := setHalf c.poly 1 v.to16 })
  | .evwl => up (fun c => { c with evw := setHalf c.evw 0 v.to16 })
  | .evwh => up (fun c => { c with evw := setHalf c.evw 1 v.to16 })
  | .spcx =>
    let (q, s1) := s.orFree v.to24
    core s1 (fun k => { k with spcx := q })
  | .ssr => core s (fun k => { k with ssr := v.to16 })
  | .sa0 =>
    let (q, s1) := s.orFree v.to24
    core s1 (fun k => { k with sa0 := q })
  | .sd0 => core s (fun k => { k with sd0 := v.to16 })
  | .ctx => s
  | .tnow _ => s
  | .reserved _ => s

end State

/-! Addressing modes (R185, R186). -/

/-- What a memory operand gives: the effective address and the base register's new value. -/
structure EffAddr where
  addr : W24
  base : W24
  deriving DecidableEq, Repr

/-- log2 of the access size, 1, 2 or 4 bytes. -/
def log2Size (s : Nat) : Nat := if s = 1 then 0 else if s = 2 then 1 else 2

/-- The effective address and base update of an access of `sz` bytes; none faults with ILLEGAL. Short forms encode modes 0 (without
displacement), 1 and 2 only. -/
def effAddr (c : Ctx) (m : MemOp) (sz : Nat) : Option EffAddr :=
  let an := c.a[m.an.val]
  let shortOk := match m.mode with
    | .disp d => d == 0
    | .postInc => true
    | .preDec => true
    | _ => false
  if !m.long && !shortOk then none
  else match m.mode with
    | .disp d => some ⟨an + d.signExtend 24, an⟩
    | .postInc => some ⟨an, an + BitVec.ofNat 24 sz⟩
    | .preDec => some ⟨an - BitVec.ofNat 24 sz, an - BitVec.ofNat 24 sz⟩
    | .step t => some ⟨an, an + t.signExtend 24⟩
    | .modulo k =>
      let z := 2 ^ (k.toNat + 2)
      if z < sz then none
      else
        let low := an.toNat % z
        some ⟨an, BitVec.ofNat 24 (an.toNat - low + (low + sz) % z)⟩
    | .bitrev k =>
      let lz := k.toNat + 2
      let q := log2Size sz
      if 2 ^ lz < sz then none
      else
        let low := an.toNat % 2 ^ lz
        let n := lz - q
        let i := revBits (revBits (low / 2 ^ q) n + 1) n % 2 ^ n
        some ⟨an, BitVec.ofNat 24 (an.toNat - low + i * 2 ^ q)⟩
    | .index mm => some ⟨an + (c.d[mm.val]).signExtend 24, an⟩
    | .reserved => none

/-- Registers a memory operand reads (R149). -/
def memReads (m : MemOp) : List Reg :=
  .a m.an :: (match m.mode with
    | .index mm => [.d mm]
    | _ => [])

end Sys2Proof.Machine
end

