-- ==== Sys2Proof/Machine/Press.lean ====
section
/-! DEFINITION. The Press (chapter 12): admission, filters and meters, class selection, shapers, gates and transmission. -/

namespace Sys2Proof.Machine

/-- A gate list as it runs: base time, cycle in ns, entries as GATES and interval in ns (R352). -/
abbrev GateList := Nat × Nat × List (Nat × Nat)

/-- The intervals of one cycle: entry number, start offset and GATES; entries with interval 0 never apply, the list is cut at the
end of the cycle, and the last entry holds until it (R352). -/
def gateCuts (cycle : Nat) : Nat → Nat → List (Nat × Nat) → List (Nat × Nat × Nat)
  | _, _, [] => []
  | i, off, (g, len) :: r =>
    if len = 0 ∨ cycle ≤ off then gateCuts cycle (i + 1) off r else (i, off, g) :: gateCuts cycle (i + 1) (off + len) r

/-- The entry in force and its GATES at time `t`. -/
def gateAt (l : GateList) (t : Nat) : Nat × Nat :=
  let (base, cycle, es) := l
  let pos := if cycle = 0 then 0 else (t - base) % cycle
  match ((gateCuts cycle 0 0 es).filter (fun e => decide (e.2.1 ≤ pos))).getLast? with
  | some e => (e.1, e.2.2)
  | none => (0, (es.headD (0, 0)).1)

/-- The first time after `t` at which the list closes the gate of class `c`; none when it never does. -/
def gateCloses (l : GateList) (c t : Nat) : Option Nat :=
  let (base, cycle, es) := l
  if cycle = 0 then none
  else
    let n := (t - base) / cycle
    let cuts := gateCuts cycle 0 0 es
    let times := (cuts.map (fun e => (base + n * cycle + e.2.1, e.2.2))) ++ (cuts.map (fun e => (base + (n + 1) * cycle + e.2.1, e.2.2)))
    (times.find? (fun e => decide (t < e.1) && !bitOf e.2 c)).map (·.1)

/-- Rate in Mb/s of a port mode (R399, R400); 0 where the mode has none. -/
def modeRate (mode speed : Nat) : Nat :=
  match mode with
  | 1 => 1000
  | 2 => if speed = 0 then 10 else if speed = 1 then 100 else if speed = 2 then 1000 else 0
  | 3 => 2500
  | 4 => if speed = 2 then 5000 else if speed = 3 then 10000 else 0
  | 5 => 10000
  | 6 => 25000
  | 7 => 100000
  | _ => 0

def cbsUnits (bytes : Nat) : Nat := bytes * 65536
/-- The addition of one tick at `rate` bytes per second: units of 1/65,536 byte, and the remainder carried (R348). -/
def tickAdd (rate rem : Nat) : Nat × Nat := ((rem + rate * 4194304) / 1000000000, (rem + rate * 4194304) % 1000000000)

/-- Parameters of a meter: CIR, EIR, METER_CBS word, EBS (R365). -/
structure MeterCfg where
  cir : Nat
  eir : Nat
  cbs : W32
  ebs : Nat
  deriving DecidableEq, Repr

/-- One refill of a meter (R342). -/
def meterRefill (k : MeterCfg) (m : Meter) : Meter :=
  let (ca, cr) := tickAdd k.cir m.tcRem
  let (ea, er) := tickAdd k.eir m.teRem
  let cbs := cbsUnits (fld k.cbs 24 0)
  let ebs := cbsUnits k.ebs
  let tc := m.tc + ca
  let te := if cbs < tc ∧ flag k.cbs 31 then min (m.te + (tc - cbs)) ebs else m.te
  { m with tc := min tc cbs, te := min (te + ea) ebs, tcRem := cr, teRem := er }

/-- The colour of a copy of length `l` and the meter after it (R342). -/
def meterColour (k : MeterCfg) (m : Meter) (l : Nat) : Colour × Meter :=
  let n := cbsUnits l
  let (colour, m1) : Colour × Meter :=
    if m.markRed then (.red, m)
    else if n ≤ m.tc then (.green, { m with tc := m.tc - n })
    else if n ≤ m.te then (.yellow, { m with te := m.te - n })
    else (.red, m)
  let m2 := if colour = .red ∧ flag k.cbs 29 then { m1 with markRed := true } else m1
  (if colour = .yellow ∧ flag k.cbs 30 then .red else colour, m2)

namespace State

/-- A PRESS ST register of port `p` as a frame stamped `forme` sees it. -/
def portMode (s : State) (w : WytheIx) (forme : W16) (p : Nat) : W32 := s.stOf w forme (pgPort w p + 0x100)
/-- LANE_MODE names a port that exists: neither OFF nor MEMBER (R402, R564). -/
def laneInUse (v : W32) : Bool := fld v 27 24 != 0 && fld v 27 24 != 8
def portRate (v : W32) : Nat := modeRate (fld v 27 24) (fld v 21 20)
def maxFrame (v : W32) : Nat := fld v 14 0
/-- Gmin of R353 in 8 ns units, from a PORT.MODE word. -/
def guardMin (v : W32) : Nat := if portRate v = 0 then 0 else ((maxFrame v + 20) * 1000 + portRate v - 1) / portRate v

/-- A failed quad holds its ports down (R501). -/
def quadHeld (s : State) (w : WytheIx) (p : Nat) : Bool := s.proof.quadFail.getLsbD (6 * w.val + p / 4)
/-- A port closed by R391. -/
def tamperClosed (s : State) (w : WytheIx) (p : Nat) : Bool := kget 0 (s.ds w).closedBy p != 0

/-- Bytes a queue holds: copies admitted and not yet started (R338). -/
def queueOf (s : State) (w : WytheIx) (hostq : Bool) (port cls : Nat) : List Copy :=
  (s.wy w).press.store.filter (fun c => c.hostq == hostq && c.port == port && (hostq || c.cls == cls) && !c.started)
def queuedBytes (s : State) (w : WytheIx) (hostq : Bool) (port cls : Nat) : Nat := ((s.queueOf w hostq port cls).map (·.queued)).sum

/-! Frames in flight (R275). -/

/-- One part of a frame counted in flight is done; at the last the frame ceases to be counted. -/
def flightDone (s : State) (w : WytheIx) (group : Nat) : State :=
  match sfind (s.wy w).coll.flights group with
  | none => s
  | some f =>
    let fl := fun (m : SMap Flight) => if f.left ≤ 1 then kdel m group else sins m group { f with left := f.left - 1 }
    s.updColl w (fun k => { k with flights := fl k.flights })

/-- Count a stream slot's counter for a copy (R368, R371): 0 TX_FRAMES, 1 TX_BYTES, 2 DROPPED. -/
def countStream (s : State) (w : WytheIx) (c : Copy) (which n : Nat) : State :=
  match streamSlot (s.stOf w c.forme) w c.stream.toNat with
  | none => s
  | some k => s.count (witStream w k + 8 * which) n

/-- Give back the references a copy holds: one for each naming of a buffer (R265). -/
def releaseSegs (s : State) (w : WytheIx) (c : Copy) : State := s.each c.segs (fun s g => s.refDown w g.handle)

/-- Drop a copy that is in no queue: references, flight, stream slot, and the counts of R337. -/
def dropCopy (s : State) (w : WytheIx) (c : Copy) (cause : Cause) (ctrOff : Option Nat) : State :=
  let s1 := ((s.releaseSegs w c).flightDone w c.group).countStream w c 2 1
  if c.hostq then (s1.count (pgPressMain w + 0x58) 1).drop w 24 cause
  else
    let s2 := match ctrOff with
      | some o => s1.count (pgPress w c.port + o) 1
      | none => s1
    s2.drop w c.port cause

/-! Gates (R352–R354). -/

def gate (s : State) (w : WytheIx) (p : Nat) : Gate := kget {} (s.wy w).press.gates p
/-- The gate states of a port: the list's while one runs, ADMIN_STATES otherwise (R354). -/
def gateStates (s : State) (w : WytheIx) (p : Nat) : Nat :=
  if (s.gate w p).running then (s.gate w p).states.toNat else fld (s.stActive (pgPress w p + 0x100)) 7 0

/-! Levels of shapers, and deficits (R346, R348–R350). -/

def shaperKey (p n : Nat) : Nat := 17 * p + n
/-- A shaper's configuration and rate in force: those of a lock-up apply from the first refill tick after it. -/
def shaperCfg (s : State) (w : WytheIx) (p n : Nat) : W32 × W32 :=
  match sfind (s.wy w).press.shaperDue (shaperKey p n) with
  | some old => old
  | none => (s.stActive (pgPress w p + 0x180 + 4 * n), s.stActive (pgPress w p + 0x200 + 4 * n))
def shaper (s : State) (w : WytheIx) (p n : Nat) : Shaper := kget {} (s.wy w).press.shapers (shaperKey p n)
def setShaper (s : State) (w : WytheIx) (p n : Nat) (v : Shaper) : State :=
  s.updPress w (fun x => { x with shapers := sins x.shapers (shaperKey p n) v })
/-- Is class `c` of a port transmitting? -/
def classSending (s : State) (w : WytheIx) (p c : Nat) : Bool :=
  match sfind (s.wy w).press.sending p with
  | some t => t.copy.cls == c
  | none => false
/-- Class `c` has a queued copy or is transmitting. -/
def classBusy (s : State) (w : WytheIx) (p c : Nat) : Bool := !(s.queueOf w false p c).isEmpty || s.classSending w p c
/-- The positive credit of a class that is not busy becomes 0, unless its closed gate holds it (R350). -/
def creditSettle (s : State) (w : WytheIx) (p c : Nat) : State :=
  let x := s.shaper w p (8 + c)
  if flag (s.shaperCfg w p (8 + c)).1 31 && bitOf (s.gateStates w p) c && !s.classBusy w p c && decide (0 < x.level) then
    s.setShaper w p (8 + c) { x with level := 0 }
  else s
def deficit (s : State) (w : WytheIx) (p c : Nat) : Int := kget 0 (s.wy w).press.deficit (8 * p + c)
def setDeficit (s : State) (w : WytheIx) (p c : Nat) (v : Int) : State :=
  s.updPress w (fun x => { x with deficit := sins x.deficit (8 * p + c) v })
/-- A copy has left the queue of a class other than by its start: an empty queue's deficit is 0, and so is its credit (R346, R350). -/
def queueLeft (s : State) (w : WytheIx) (c : Copy) : State :=
  if c.hostq || !(s.queueOf w false c.port c.cls).isEmpty then s
  else (s.setDeficit w c.port c.cls 0).creditSettle w c.port c.cls

/-- The copies of the store that `p` names and that have not started are dropped (R46, R50, R360, R391, R477). -/
def dropQueued (s : State) (w : WytheIx) (p : Copy → Bool) (cause : Cause) : State :=
  let gone := (s.wy w).press.store.filter (fun c => p c && !c.started)
  let s1 := s.updPress w (fun x => { x with store := x.store.filter (fun c => !(p c && !c.started)) })
  let s2 := s1.each gone (fun s c => s.dropCopy w c cause none)
  s2.each gone (fun s c => s.queueLeft w c)

/-! Filters and meters (R339–R343). -/

def filterA (s : State) (w : WytheIx) (forme : W16) (f : Nat) : W32 := s.stOf w forme (pgFilters w (f / 256) + 0x100 + 8 * (f % 256))
def filterB (s : State) (w : WytheIx) (forme : W16) (f : Nat) : W32 := s.stOf w forme (pgFilters w (f / 256) + 0x104 + 8 * (f % 256))
/-- The filter of a copy, if one applies (R339). -/
def filterOf (s : State) (w : WytheIx) (c : Copy) : Option Nat :=
  let f := c.stream.toNat
  let a := s.filterA w c.forme f
  if f < 4096 ∧ flag a 31 ∧ (flag a 30 ∨ fld a 29 27 = c.cls) then some f else none

def meterReg (w : WytheIx) (m i : Nat) : Nat := pgMeters w (m / 128) + 0x100 + 16 * (m % 128) + 4 * i
/-- A meter's parameters in force: those of a lock-up apply from the first refill tick after it (R343). -/
def meterCfg (s : State) (w : WytheIx) (m : Nat) : MeterCfg :=
  let v := if kget false (s.wy w).press.meterDue m then s.stPrevious else s.stActive
  ⟨(v (meterReg w m 0)).toNat, (v (meterReg w m 1)).toNat, v (meterReg w m 2), fld (v (meterReg w m 3)) 24 0⟩
def meter (s : State) (w : WytheIx) (m : Nat) : Meter := kget {} (s.wy w).press.meters m

/-- Count one of the SEL counters of a filter (R364): 0 MATCHING, 1 SDU, 2 GATE, 3 RED. -/
def countSel (s : State) (w : WytheIx) (f i : Nat) : State :=
  if s.frozen (pgPressMain w) then s
  else s.updPress w (fun x => { x with sel := sput (fun _ => 0) x.sel (4 * f + i) (ctrAdd (sget (fun _ => 0) x.sel (4 * f + i)) 1) })

/-! The gates' guard band and their lists (R352–R354). -/

/-- When the gate of class `c` next closes, in the list that operates or in the one due to replace it (R353). -/
def nextClosing (s : State) (w : WytheIx) (p c t : Nat) : Option Nat :=
  let g := s.gate w p
  let cur : Option Nat := if g.running then gateCloses (g.base, g.cycle, g.entries) c t else none
  match g.pending with
  | none => cur
  | some l =>
    let later := if bitOf (gateAt l l.1).2 c then gateCloses l c l.1 else some l.1
    match cur with
    | some x => if x < l.1 then some x else later
    | none => later

/-- The port's guard band in ns (R353). -/
def guardBand (s : State) (w : WytheIx) (p : Nat) : Nat :=
  max (fld (s.stActive (pgPress w p + 0x104)) 19 0) (guardMin (s.stActive (pgPort w p + 0x100))) * 8

/-- Class `c` passes its gate and guard band at `t` (R353). -/
def gatePass (s : State) (w : WytheIx) (p c t : Nat) : Bool :=
  bitOf (s.gateStates w p) c && (match s.nextClosing w p c t with
    | none => true
    | some x => decide (t + s.guardBand w p ≤ x))

/-- The list continues at the position that the time gives (R352, R354). -/
def gateRefresh (s : State) (w : WytheIx) (p : Nat) : State :=
  let g := s.gate w p
  if !g.running then s
  else
    let (e, st) := gateAt (g.base, g.cycle, g.entries) (s.gptp w)
    (s.updPress w (fun x => { x with gates := sins x.gates p { g with entry := e, states := BitVec.ofNat 8 st } })).each (List.range 8)
      (fun s c => s.creditSettle w p c)

/-- A pending list reaches its base time: it replaces the operating one at entry 0 (R354). -/
def gateReplace (s : State) (w : WytheIx) (p : Nat) : State :=
  let g := s.gate w p
  match g.pending with
  | none => s
  | some l =>
    if s.gptp w < l.1 then s
    else
      let g' := { g with running := true, base := l.1, cycle := l.2.1, entries := l.2.2, pending := none }
      (s.updPress w (fun x => { x with gates := sins x.gates p g' })).gateRefresh w p

/-! Admission (R337–R342). -/

/-- Is the egress port enabled by the frame's forme, and not held down? -/
def egressUp (s : State) (w : WytheIx) (c : Copy) : Bool :=
  c.hostq || (decide (c.port < 24) && laneInUse (s.portMode w c.forme c.port) && !s.quadHeld w c.port)

/-- The length that admission counts: a cut-through candidate takes the port's maximum frame length (R357). -/
def admitLen (s : State) (w : WytheIx) (c : Copy) : Nat := if c.cut then maxFrame (s.stActive (pgPort w c.port + 0x100)) else c.len

/-- Steps 2 to 5: the verdict of filter, gate and meter (R339–R342). Answers a failing cause with its PRESS counter, and the colour. -/
def admitFilter (s : State) (w : WytheIx) (c : Copy) (l : Nat) : Option (Cause × Nat) × Colour × State :=
  match s.filterOf w c with
  | none =>
    let n := c.stream.toNat
    (none, .green, if 0x1000 ≤ n ∧ n ≤ 0xFFFE then s.count (pgPressMain w + 0x48) 1 else s)
  | some f =>
    let a := s.filterA w c.forme f
    let b := s.filterB w c.forme f
    let s0 := s.countSel w f 0
    if kget false (s.wy w).press.blocked f then (some (.blocked, 0xE0), .green, s0.countSel w f 1)
    else if fld a 25 12 ≠ 0 ∧ fld a 25 12 < l then
      let s1 := s0.countSel w f 1
      let s2 := if flag a 26 then (s1.updPress w (fun x => { x with blocked := sins x.blocked f true })).raiseBit (pgPressMain w) 0 else s1
      (some (.oversize, 0xE0), .green, s2)
    else if flag b 30 ∧ !bitOf (s.gateStates w (min 23 (fld b 28 24))) (fld b 22 20) then
      (some (.streamGate, 0xE8), .green, s0.countSel w f 2)
    else if flag b 31 then
      let m := fld a 11 0
      let (colour, mt) := meterColour (s.meterCfg w m) (s.meter w m) l
      let s1 := s0.updPress w (fun x => { x with meters := sins x.meters m mt })
      let s2 := if mt.markRed && !(s.meter w m).markRed then s1.raiseBit (pgPressMain w) 1 else s1
      if colour = .red then (some (.red, 0xD8), .red, s2.countSel w f 3) else (none, colour, s2)
    else (none, .green, s0)

/-- The queue limits of a copy's queue in bytes, by its stamped forme: LIMIT and YELLOW (R44, R337 steps 7 and 8, R338). -/
def queueLimit (s : State) (w : WytheIx) (c : Copy) : Nat × Nat :=
  if c.hostq then (fld (s.stOf w c.forme (pgPressMain w + 0x180 + 4 * c.port)) 15 0 * 256, 0)
  else
    let v := s.stOf w c.forme (pgPress w c.port + 0x140 + 4 * c.cls)
    (fld v 31 16 * 256, fld v 15 0 * 256)

/-- Admit one copy, or drop it at the first test that fails (R337). -/
def admitCopy (s : State) (w : WytheIx) (c : Copy) : State :=
  let l := s.admitLen w c
  if !s.enabled (pgPressMain w) then s.dropCopy w c .pressDisabled none
  else if !s.egressUp w c || (s.wy w).outputsClosed then s.dropCopy w c .portDown none
  else if !c.hostq && s.tamperClosed w c.port then s.dropCopy w c .tamperClosed none
  else
    let (bad, colour, s1) := s.admitFilter w c l
    match bad with
    | some (cause, off) => s1.dropCopy w c cause (some off)
    | none =>
      if 65536 ≤ (s1.wy w).press.store.length then
        let s2 := if (s1.wy w).press.storeFullSeen then s1
          else (s1.updPress w (fun x => { x with storeFullSeen := true })).raiseBit (pgPressMain w) 2
        s2.dropCopy w c .storeFull (some 0xC8)
      else
        let s2 := s1.updPress w (fun x => { x with storeFullSeen := false })
        let q := s2.queuedBytes w c.hostq c.port c.cls
        let (lim, yel) := s2.queueLimit w c
        if lim < q + l then s2.dropCopy w c .queueFull (some 0xC0)
        else if colour = .yellow ∧ !c.hostq ∧ yel < q + l then s2.dropCopy w c .yellow (some 0xD0)
        else
          let s3 := (s2.onlyIf (!c.hostq) (fun s => s.creditSettle w c.port c.cls)).updPress w (fun x => { x with store := x.store ++ [{ c with queued := l, yellow := colour == .yellow }] })
          let n := (s3.wy w).press.store.length
          let s4 := if (s3.rd (pgPressMain w + 0x104)).toNat < n then s3.wr (pgPressMain w + 0x104) (w32 n) else s3
          s4.count (pgPressMain w + 0x40) 1

/-! Shapers (R348–R351). -/

/-- A shaper, if enabled, holds 0 or more (R345). -/
def shaperOk (s : State) (w : WytheIx) (p n : Nat) : Bool := !flag (s.shaperCfg w p n).1 31 || decide (0 ≤ (s.shaper w p n).level)
/-- Debit a started frame's length from one shaper. -/
def shaperDebit (s : State) (w : WytheIx) (p l n : Nat) : State :=
  if flag (s.shaperCfg w p n).1 31 then s.setShaper w p n { s.shaper w p n with level := (s.shaper w p n).level - (cbsUnits l : Nat) } else s

/-- The refill of one enabled shaper (R349, R350). -/
def shaperRefill (s : State) (w : WytheIx) (p n : Nat) : State :=
  let (cfg, rate) := s.shaperCfg w p n
  let x := s.shaper w p n
  let top : Int := (cbsUnits (fld cfg 24 0) : Nat)
  let (add, rem) := tickAdd rate.toNat x.rem
  if !flag cfg 31 then s
  else if n < 8 ∨ n = 16 then s.setShaper w p n ⟨min (x.level + (add : Nat)) top, rem⟩
  else
    let c := n - 8
    if !bitOf (s.gateStates w p) c then s
    else if s.classBusy w p c || decide (x.level < 0) then
      (s.setShaper w p n ⟨min (x.level + (add : Nat)) top, rem⟩).creditSettle w p c
    else s.creditSettle w p c

/-- The reset of a shaper whose configuration changed (R351). -/
def shaperReset (s : State) (w : WytheIx) (p n : Nat) (old : W32) : State :=
  let cfg := s.stActive (pgPress w p + 0x180 + 4 * n)
  let x := s.shaper w p n
  let target : Int := if flag cfg 30 then (cbsUnits (fld cfg 24 0) : Nat) else 0
  let level : Int := if flag cfg 31 then target else 0
  let s1 := s.setShaper w p n ⟨level, 0⟩
  let given := (level - x.level).toNat / 65536
  if flag cfg 31 && flag old 31 && given != 0 then
    let s2 := ((s1.count (pgPress w p + 0xF8) given).count (witForgiven w p) given).raiseBit (pgPress w p) 1
    if flag cfg 29 || flag old 29 then
      s2.record w 2 (256 * p + n) (toBe 4 given ++ toBe 4 ((x.level / 65536) % 4294967296).toNat ++
        toBe 4 ((level / 65536) % 4294967296).toNat ++
        [BitVec.ofNat 8 (b2n (flag cfg 29) * 4 + b2n (flag old 29) * 2 + b2n (flag cfg 30))])
    else s2
  else s1

/-- REFILL_TICK: resets first, and then refills (R347, R348). -/
def refill (s : State) (w : WytheIx) : State :=
  let due := (s.wy w).press.shaperDue
  let mdue := (s.wy w).press.meterDue
  let s0 := s.updPress w (fun x => { x with shaperDue := [], meterDue := [] })
  let s1 := s0.each due (fun s e => s.shaperReset w (e.1 / 17) (e.1 % 17) e.2.1)
  let s2 := s1.each mdue (fun s e =>
    let k := s.meterCfg w e.1
    let full := fun (m : Meter) => { m with tc := cbsUnits (fld k.cbs 24 0), te := cbsUnits k.ebs, tcRem := 0, teRem := 0 }
    s.updPress w (fun x => { x with meters := kupd {} x.meters e.1 full }))
  let s3 := s2.each (List.range 408) (fun s i => if (sfind due i).isSome then s else s.shaperRefill w (i / 17) (i % 17))
  s3.each ((s3.wy w).press.meters.map (·.1)) (fun s m =>
    if (sfind mdue m).isSome then s
    else s.updPress w (fun x => { x with meters := sins x.meters m (meterRefill (s.meterCfg w m) (kget {} x.meters m)) }))

/-! Starting a frame (R345–R347). -/

/-- The head of a class's queue waits for its frame's end: in PLUMB no frame is cut through, one admitted in another mode neither (R359). -/
def headWaits (s : State) (w : WytheIx) (p c : Nat) : Bool :=
  (s.wy w).mode == .plumb && ((s.queueOf w false p c).head?.any (fun h => h.early.isSome))
/-- Is class `c` of port `p` eligible at `t` (R345)? -/
def eligible (s : State) (w : WytheIx) (p c t : Nat) : Bool :=
  !(s.queueOf w false p c).isEmpty && !s.headWaits w p c && s.gatePass w p c t && s.shaperOk w p c && s.shaperOk w p (8 + c) && s.shaperOk w p 16

/-- CLASS_CFG of a class. A queue serves copies of two formes after a lock-up, and the manual does not say whose BAND and QUANTUM hold
then: DESIGN CHOICE, those of the active forme (log 11). -/
def classCfg (s : State) (w : WytheIx) (p c : Nat) : W32 := s.stActive (pgPress w p + 0x120 + 4 * c)
def quantum (s : State) (w : WytheIx) (p c : Nat) : Int := (64 * fld (s.classCfg w p c) 11 0 : Nat)

/-- Deficit round-robin within a band over its eligible classes (R346). -/
def drr (s : State) (w : WytheIx) (p b : Nat) (e : List Nat) : Nat × State :=
  let s1 :=
    if e.any (fun c => decide (0 < s.deficit w p c)) then s
    else
      let need := fun c => ((-(s.deficit w p c)) / s.quantum w p c + 1).toNat
      let k := (e.map need).foldl min (need (e.headD 0))
      s.each e (fun s c => s.setDeficit w p c (min (s.deficit w p c + k * s.quantum w p c) (s.quantum w p c)))
  let ptr := kget 0 (s1.wy w).press.ptr (8 * p + b)
  let order := ((List.range 8).map (fun i => (ptr + i) % 8)).filter (fun c => e.contains c)
  let c := (order.find? (fun c => decide (0 < s1.deficit w p c))).getD (e.headD 0)
  (c, s1.updPress w (fun x => { x with ptr := sins x.ptr (8 * p + b) c }))

/-- The class of port `p` that starts at `t` (R346); in PLUMB strict priority by class (R359). -/
def selectClass (s : State) (w : WytheIx) (p t : Nat) : Option Nat × State :=
  let el := (List.range 8).filter (fun c => s.eligible w p c t)
  if (s.wy w).mode = .plumb then ((el.reverse).head?, s)
  else
    let band := fun c => fld (s.classCfg w p c) 30 28
    match el with
    | [] => (none, s)
    | c0 :: _ =>
      let b := (el.map band).foldl max (band c0)
      let (c, s1) := s.drr w p b (el.filter (fun c => band c == b))
      (some c, s1)

/-- Debit a frame's length from its shapers and deficit; an empty queue's deficit is 0 (R346, R347). -/
def debit (s : State) (w : WytheIx) (p c l : Nat) : State :=
  let s1 := ((s.shaperDebit w p l c).shaperDebit w p l (8 + c)).shaperDebit w p l 16
  if (s1.queueOf w false p c).isEmpty then s1.setDeficit w p c 0 else s1.setDeficit w p c (s1.deficit w p c - (l : Nat))

/-- The first of a list's elements that equals `a` gives way to `b`. -/
def replaceFirst (a b : Copy) (l : List Copy) : List Copy := l.takeWhile (· != a) ++ ((l.dropWhile (· != a)).drop 1).cons b

/-- FRAME_START: the head copy of the selected class starts; while the link is down the MAC discards it at once (R407, R408). A copy
that is cut through is debited when its frame has ended, a discarded one too (R347, R357). -/
def startFrame (s : State) (w : WytheIx) (p : Nat) : State :=
  let t := s.gptp w
  if (s.wy w).outputsClosed ∨ !s.enabled (pgPress w p) ∨ (sfind (s.wy w).press.sending p).isSome ∨ s.tamperClosed w p
    ∨ ((s.wy w).mode = .plumb ∧ t % 8 ≠ 0) then s
  else
    let (sel, s1) := s.selectClass w p t
    match sel with
    | none => s
    | some c =>
      match s1.queueOf w false p c with
      | [] => s
      | h :: _ =>
        if (s1.port w p).up && s1.enabled (pgPort w p) then
          let h' := { h with started := true }
          let delay := signed 16 (fld (s1.stActive (pgPort w p + 0x104)) 15 0)
          let s2 := s1.updPress w (fun x => { x with
            store := replaceFirst h h' x.store
            sending := sins x.sending p ⟨h', false, h.cut, ((t : Int) + delay).toNat⟩ })
          if h.cut then (s2.count (pgPressMain w + 0x50) 1).onlyIf (s2.queueOf w false p c).isEmpty (fun s => s.setDeficit w p c 0)
          else s2.debit w p c h.len
        else
          let s2 := s1.updPress w (fun x => { x with store := x.store.erase h, debts := if h.cut then x.debts ++ [h] else x.debts })
          let s3 := if h.cut then (s2.count (pgPressMain w + 0x50) 1).queueLeft w h else s2.debit w p c h.len
          s3.dropCopy w h .portDown none

/-- The bytes a copy's segments name, in order (R268). -/
def segBytes (s : State) (w : WytheIx) (c : Copy) : Bytes := c.segs.flatMap (fun g => s.bufBytes w g.handle g.off g.len)

/-- A gPTP event message (R420): messageType, domainNumber and sequenceId. -/
def gptpEvent (d : Bytes) : Option (Nat × Nat × Nat) :=
  let at0 := if beAt d 12 2 = 0x88F7 then some 14 else if beAt d 12 2 = 0x8100 ∧ beAt d 16 2 = 0x88F7 then some 18 else none
  match at0 with
  | none => none
  | some o =>
    let b := beAt d o 1
    if b / 16 = 1 ∧ b % 16 ≤ 3 then some (b % 16, beAt d (o + 4) 1, beAt d (o + 30) 2) else none

/-- A gPTP event message's egress timestamp enters the port's FIFO of 16, or is lost (R420). -/
def stampTx (s : State) (w : WytheIx) (p : Nat) (d : Bytes) (t : Nat) : State :=
  match gptpEvent d with
  | none => s
  | some (m, dom, q) =>
    if (s.port w p).txts.length < 16 then s.updPort w p (fun k => { k with txts := k.txts ++ [⟨t, m, dom, q⟩] })
    else ((s.updPort w p (fun k => { k with txtsOverflow := true })).count (pgPort w p + 0x90) 1).raiseBit (pgPort w p) 1

/-- Add a frame to a direction of the bandwidth window (R409). -/
def bwAdd (b : BwDir) (n : Nat) : BwDir := { b with bytes := b.bytes + n, frames := b.frames + 1 }

/-- The FCS the MAC appends, least significant byte first as IEEE 802.3 sends it. -/
def fcsBytes (d : Bytes) : Bytes := toLe 4 (crc32 d)

/-- TRANSMISSION_END: the frame's last byte leaves the MAC (R20, R368, R406); a poisoned or cut frame carries the complement of its
correct FCS and is not counted as transmitted (R358, R439). -/
def endFrame (s : State) (w : WytheIx) (p : Nat) (ecc : EccReport) : State :=
  match sfind (s.wy w).press.sending p with
  | none => s
  | some t =>
    let c := t.copy
    if c.early.isSome then s
    else
      let s0 := s.updPress w (fun x => { x with sending := kdel x.sending p, store := x.store.erase c })
      let dram := c.segs.any (fun g => (s.pool w (handlePool g.handle)).dram)
      let eccOn := dram && flag (s.wy w).dram.active 8
      let poisoned := eccOn && ecc == .uncorrectable
      let body := padTo 60 (s.segBytes w c)
      let good := !t.cutBad && !poisoned
      let s1 := s0.emit (.tx w p (body ++ (if good then fcsBytes body else (fcsBytes body).map (~~~ ·))) good)
      let s2 := if poisoned then
          let (a, s1') := s1.draw
          (s1'.dramUncorrectable w a.toNat).count (pgDram w + 0x70) 1
        else if eccOn && ecc == .corrected then s1.count (pgDram w + 0x60) 1 else s1
      let s3 := if good then
          let l := c.len
          let k := pgPort w p
          let a := ((s2.count (k + 0x50) 1).count (k + 0x58) l).updPort w p (fun q => { q with txBw := bwAdd q.txBw l })
          let b := ((a.count (witTx w p) 1).count (witTx w p + 8) l).countStream w c 0 1
          let d := ((b.countStream w c 1 l).count (pgPress w p + 0x40 + 8 * c.cls) 1).count (pgPress w p + 0x80 + 8 * c.cls) l
          let e := if maxFrame (s.stActive (k + 0x100)) < l then d.count (k + 0x80) 1 else d
          e.stampTx w p body t.stamp
        else s2
      ((s3.releaseSegs w c).flightDone w c.group).creditSettle w p c.cls

/-! Early copies (R356–R358). -/

/-- SEG0 in frame-start form: it names the slug's buffer from the frame's first byte. -/
def frameStartForm (s : State) (w : WytheIx) (c : Copy) : Bool :=
  match c.segs with
  | g :: _ => g.handle == c.slugHandle.toNat &&
      g.off == 64 * fld (s.stOf w c.forme (pgGalley w + 0x170 + 4 * c.ingressPort)) 13 12
  | [] => false

/-- A cut-through candidate (R357). -/
def cutCandidate (s : State) (w : WytheIx) (c : Copy) : Bool :=
  let out := s.stActive (pgPort w c.port + 0x100)
  let inn := s.stActive (pgPort w c.ingressPort + 0x100)
  c.early.isSome && c.segs.length == 1 && s.frameStartForm w c && !c.hostq && c.ingressW == w &&
    flag (s.stOf w c.forme (pgPress w c.port + 0x100)) 30 && decide (25000 ≤ portRate out) && decide (portRate out ≤ portRate inn) &&
    (match s.filterOf w c with
      | none => true
      | some f => !flag (s.filterB w c.forme f) 31 && fld (s.filterA w c.forme f) 25 12 == 0) &&
    (s.wy w).mode != .plumb

/-- The length that counts (R336). -/
def lenOf (segs : List Seg) : Nat := max ((segs.map (·.len)).sum + 4) 64

/-- The copy once its frame has ended with `n` received bytes: the frame-start segment takes its length (R356). -/
def knownLen (s : State) (w : WytheIx) (c : Copy) (n : Nat) : Copy :=
  let segs := if s.frameStartForm w c then
      match c.segs with
      | g :: gs => { g with len := n - 4 } :: gs
      | [] => []
    else c.segs
  { c with segs := segs, len := lenOf segs, early := none, cut := false }

/-- A copy reaches the Press (R337, R356): an early one that is no candidate waits for its frame's end. -/
def pressArrive (s : State) (w : WytheIx) (fromTie : Bool) (c : Copy) : State :=
  if fromTie then s.updPress w (fun x => { x with tieArrivals := x.tieArrivals ++ [c] })
  else if c.early.isNone then s.updPress w (fun x => { x with arrivals := x.arrivals ++ [c] })
  else if s.cutCandidate w c then s.updPress w (fun x => { x with arrivals := x.arrivals ++ [{ c with cut := true }] })
  else s.updPress w (fun x => { x with early := x.early ++ [c] })

/-- A copy waiting for the tie, as its ingress wythe sees it. -/
def tieAsCopy (t : TieCopy) : Copy :=
  { group := t.group, hostq := false, port := 0, cls := 0, stream := 0, segs := t.segs, forme := t.forme, ingressW := t.ingressW
    ingressPort := t.ingressPort, slugHandle := t.slugHandle, early := t.early, cut := false, len := 0, queued := 0, yellow := false
    started := false }
/-- Flits of a copy with these segments (R517). -/
def flitsOf (segs : List Seg) : Nat := ((segs.map (·.len)).sum + 32 + 63) / 64
/-- Port a target's drops are counted on: the host port for a host queue (R369). -/
def targetPort (t : Bool × Nat × Nat × W16) : Nat := if t.1 then 24 else t.2.1

/-- The debits that waited for the length of frame `f`, of `n` bytes: of the copies in transmission, and of those a MAC without a link
discarded (R347, R357, R407). -/
def lateDebits (s : State) (w : WytheIx) (f n : Nat) (going : SMap Sending) : State :=
  let owed := (s.wy w).press.debts.filter (fun c => c.early == some f)
  let s1 := s.updPress w (fun x => { x with debts := x.debts.filter (fun c => !(c.early == some f)) })
  let s2 := s1.each going (fun s e => if e.2.debtDue then s.debit w e.1 e.2.copy.cls (s.knownLen w e.2.copy n).len else s)
  s2.each owed (fun s c => s.debit w c.port c.cls (s.knownLen w c n).len)

/-- Frame `f` has ended well with `n` bytes: its early copies get their length, debits fall due (R347, R356, R357). -/
def earlyEnd (s : State) (w : WytheIx) (f n : Nat) : State :=
  let mine := fun (c : Copy) => c.early == some f
  let fix := fun (c : Copy) => if mine c then s.knownLen w c n else c
  let fixQ := fun (c : Copy) => if mine c then { s.knownLen w c n with queued := (s.knownLen w c n).len } else c
  let waiting := ((s.wy w).press.early.filter mine).map fix
  let going := (s.wy w).press.sending.filter (fun e => mine e.2.copy)
  let s1 := s.updPress w (fun x => { x with
    early := x.early.filter (fun c => !mine c)
    arrivals := x.arrivals.map fix ++ waiting
    store := x.store.map fixQ
    sending := x.sending.map (fun e => (e.1, { e.2 with copy := fixQ e.2.copy, debtDue := e.2.debtDue && !mine e.2.copy })) })
  let tie := fun (c : TieCopy) =>
    if c.early == some f then
      let k := s.knownLen w (tieAsCopy c) n
      { c with segs := k.segs, flits := flitsOf k.segs, early := none }
    else c
  let s2 := s1.updTie w (fun x => { x with txq := x.txq.map tie })
  s2.lateDebits w f n going

/-- Frame `f` has ended badly with `n` bytes (R358): a copy being transmitted is debited as its length is now known (R347, R356). -/
def earlyBad (s : State) (w : WytheIx) (f n : Nat) : State :=
  let mine := fun (c : Copy) => c.early == some f
  let gone := (s.wy w).press.early.filter mine ++ (s.wy w).press.arrivals.filter mine ++
    (s.wy w).press.store.filter (fun c => mine c && !c.started)
  let fixQ := fun (c : Copy) => if mine c then { s.knownLen w c n with queued := (s.knownLen w c n).len } else c
  let going := (s.wy w).press.sending.filter (fun e => mine e.2.copy)
  let s1 := s.updPress w (fun x => { x with
    early := x.early.filter (fun c => !mine c)
    arrivals := x.arrivals.filter (fun c => !mine c)
    store := (x.store.filter (fun c => !(mine c && !c.started))).map fixQ
    sending := x.sending.map (fun e => if mine e.2.copy then (e.1, { e.2 with copy := fixQ e.2.copy, debtDue := false, cutBad := true }) else e) })
  let tie := (s.wy w).tie.txq.filter (fun c => c.early == some f)
  let s2 := s1.updTie w (fun x => { x with txq := x.txq.filter (fun c => !(c.early == some f)) })
  let s3 := s2.each tie (fun s c =>
    ((s.releaseSegs w (tieAsCopy c)).flightDone w c.group).each c.targets (fun s t => s.drop (1 - w) (targetPort t) .badFcs))
  let s4 := (s3.each gone (fun s c => s.dropCopy w c .badFcs none)).each gone (fun s c => s.queueLeft w c)
  (s4.lateDebits w f n going).each going (fun s e => ((s.count (pgPress w e.1 + 0xF0) 1).drop w e.1 .badFcsCut).raiseBit (pgPress w e.1) 0)

end State

/-- PRESS_ADMISSION: the copy that has waited longest, from the Collator or from the tie (R337). -/
def execPressAdmission (w : WytheIx) (fromTie : Bool) (s : State) : Res :=
  let x := (s.wy w).press
  match (if fromTie then x.tieArrivals else x.arrivals) with
  | [] => .next s
  | c :: r =>
    .next ((if fromTie then s.updPress w (fun x => { x with tieArrivals := r })
      else s.updPress w (fun x => { x with arrivals := r })).admitCopy w c)

/-- FRAME_START (R345–R347). -/
def execFrameStart (w : WytheIx) (p : EthIx) (s : State) : Res := .next (s.startFrame w p.val)

/-- TRANSMISSION_END (R20). -/
def execTransmissionEnd (w : WytheIx) (p : EthIx) (ecc : EccReport) (s : State) : Res := .next (s.endFrame w p.val ecc)

/-- REFILL_TICK (R348). -/
def execRefillTick (w : WytheIx) (s : State) : Res := .next (s.refill w)

/-- GATE_EVENT (R352). -/
def execGateEvent (w : WytheIx) (p : EthIx) (s : State) : Res := .next (s.gateRefresh w p.val)

/-- GATE_LIST_CHANGE (R354). -/
def execGateListChange (w : WytheIx) (p : EthIx) (s : State) : Res := .next (s.gateReplace w p.val)

/-- FILTER_UNBLOCK: a write to UNBLOCK with KIND 0 (R340). -/
def execFilterUnblock (a : Agent) (w : WytheIx) (f : BitVec 12) (s : State) : Res :=
  .next (s.viaPage a w (fun s => s.updPress w (fun x => { x with blocked := sins x.blocked f.toNat false })))

/-- MARK_RED_CLEAR: a write to UNBLOCK with KIND 1 (R342). -/
def execMarkRedClear (a : Agent) (w : WytheIx) (m : BitVec 12) (s : State) : Res :=
  .next (s.viaPage a w (fun s => s.updPress w (fun x => { x with meters := kupd {} x.meters m.toNat (fun k => { k with markRed := false }) })))

end Sys2Proof.Machine
end

