-- ==== Sys2Proof/Machine/Ports.lean ====
section
/-! DEFINITION. The ports' MACs and links: reception, buffers on reception, links, bandwidth windows and transmit timestamps
(R11, R12, R257, R399–R409, R420). -/

namespace Sys2Proof.Machine
namespace State

def portCfg (s : State) (w : WytheIx) (p : Nat) : W32 := s.stActive (pgPort w p + 0x100)
/-- COMPOSITOR.PORT_CFG.EARLY of a port; ports slower than 25G have it clamped to 0 (R71). -/
def earlyPort (w : WytheIx) (view : Nat → W32) (p : Nat) : Bool := flag (view (pgComp w + 0x100 + 4 * p)) 16
def galleyPortCfg (s : State) (w : WytheIx) (p : Nat) : W32 := s.stActive (pgGalley w + 0x170 + 4 * p)
def headroom (s : State) (w : WytheIx) (p : Nat) : Nat := 64 * fld (s.galleyPortCfg w p) 13 12
/-- The allocation threshold in bytes (R257). -/
def allocAt (s : State) (w : WytheIx) (p : Nat) : Nat :=
  if earlyPort w s.stActive p then 128 else 64 * fld (s.galleyPortCfg w p) 11 6
/-- Ingress FIFO bytes of a port (R405). -/
def fifoBytes (s : State) (w : WytheIx) (p : Nat) : Nat := if fld (s.portCfg w p) 27 24 = 7 then 131072 else 32768

/-- A frame still takes room in its ingress FIFO: not yet taken in, or not yet in a buffer (R69, R257). -/
def rxWaits (f : RxFrame) : Bool := !f.refused && (!f.taken || f.handle.isNone)
def fifoUsed (s : State) (w : WytheIx) (p : Nat) : Nat :=
  (((s.wy w).rx.filter (fun f => f.port == p && rxWaits f)).map (·.data.length)).sum

/-- The frame a port is receiving. -/
def receiving (s : State) (w : WytheIx) (p : Nat) : Option RxFrame := (s.wy w).rx.find? (fun f => f.port == p && !f.ended)

def updRx (s : State) (w : WytheIx) (id : Nat) (f : RxFrame → RxFrame) : State :=
  s.updWy w (fun y => { y with rx := y.rx.map (fun r => if r.id == id then f r else r) })
def delRx (s : State) (w : WytheIx) (id : Nat) : State := s.updWy w (fun y => { y with rx := y.rx.filter (fun r => r.id != id) })
/-- Discard the slug of a frame in the Compositor. -/
def compDiscard (s : State) (w : WytheIx) (id : Nat) : State :=
  s.updComp w (fun c => { c with entries := c.entries.filter (fun e => e.frame != id) })
/-- Give back the buffer of a frame that is discarded. -/
def rxFree (s : State) (w : WytheIx) (f : RxFrame) : State :=
  match f.handle with
  | some h => s.refDown w h
  | none => s

/-- Reception errors that the bytes show, in the order of precedence of R404: 1 FCS, 2 runt, 3 longer than MAX_FRAME. The FCS is
checked over the frame as received (DEDUCED, safe: log 15). -/
def rxError (data : Bytes) (max : Nat) : Nat :=
  let body := data.take (data.length - 4)
  if data.length < 4 ∨ data.drop (data.length - 4) ≠ fcsBytes body then 1
  else if data.length < 64 then 2 else if max < data.length then 3 else 0

/-- Why a frame whose first byte arrives now is discarded whole (R11, R391, R405, R408, R477, R478); none when it is taken. -/
def rxRefusal (s : State) (w : WytheIx) (p : Nat) : Option Cause :=
  if !s.enabled (pgPort w p) then some .portDown
  else if s.formeNo w = 0 then some .noForme
  else if s.tamperClosed w p then some .tamperClosed
  else if (s.wy w).outputsClosed || s.modes.change != .none then some .portDown
  else if s.fifoBytes w p ≤ s.fifoUsed w p then some .ingressFull
  else none

/-- Lines are received only while the link is up, and not in BRACE, DORMANT or OFF (R407, R484, R508). -/
def rxAlive (s : State) (w : WytheIx) (p : Nat) : Bool :=
  (s.port w p).up && (s.wy w).mode != .brace && (s.wy w).mode != .dormant && (s.wy w).mode != .off

/-- FRAME_ARRIVAL: the first byte of a frame reaches its FIFO; `data` is the frame as the line will carry it (log 8). -/
def frameBegins (s : State) (w : WytheIx) (p : Nat) (data : Bytes) : State :=
  if !s.rxAlive w p || (s.receiving w p).isSome then s
  else
    let max := maxFrame (s.portCfg w p)
    let bad := s.rxRefusal w p
    let delay := signed 16 (fld (s.stActive (pgPort w p + 0x104)) 31 16)
    let f : RxFrame :=
      { id := (s.wy w).nextFrame, port := p, data := data.take max, stamp := (((s.gptp w : Nat) : Int) - delay).toNat
        handle := none, err := rxError data max, ended := false, refused := bad.isSome
        cause := if bad = some .ingressFull then none else bad, taken := false, released := false }
    let s1 := s.updWy w (fun y => { y with rx := y.rx ++ [f], nextFrame := y.nextFrame + 1 })
    if bad = some .ingressFull then s1.drop w p .ingressFull else s1

/-- BUFFER_ALLOCATION for the oldest frame of a port that has none, once it has ended or reached its threshold (R257, R258). -/
def allocIngress (s : State) (w : WytheIx) (p : Nat) : State :=
  match (s.wy w).rx.find? (fun f => f.port == p && f.handle.isNone && !f.refused) with
  | none => s
  | some f =>
    if !f.ended && decide (f.data.length < s.allocAt w p) then s
    else
      let size := if f.ended then f.data.length else maxFrame (s.portCfg w p)
      match s.alloc w (fld (s.galleyPortCfg w p) 23 16) (s.headroom w p + size) true .ingress with
      | (.wait, _) => s
      | (.got h, s1) => (s1.setBufBytes w h (s.headroom w p) f.data).updRx w f.id (fun r => { r with handle := some h })
      | (.none, s1) =>
        if p = 24 then s1
        else
          let s2 := ((s1.count (pgGalley w + 0x50) 1).drop w p .noBuffer).compDiscard w f.id
          if f.ended then s2.delRx w f.id else s2.updRx w f.id (fun r => { r with refused := true, cause := none })

/-- Count a frame whose reception ends (R368, R404, R409). -/
def countRx (s : State) (w : WytheIx) (p n : Nat) : State :=
  let k := pgPort w p
  (((((s.count (k + 0x40) 1).count (k + 0x48) n).count (witRx w p) 1).count (witRx w p + 8) n)).updPort w p
    (fun q => { q with rxBw := bwAdd q.rxBw n })

/-- The end of a frame is reported: a good one completes its early copies, a bad one is discarded (R70, R358, R404). A frame in
error that was also refused is counted under both causes (DEDUCED, log 15). -/
def frameEnds (s : State) (w : WytheIx) (p : Nat) (codeError : Bool) : State :=
  match s.receiving w p with
  | none => s
  | some f =>
    let k := pgPort w p
    let err := if f.err = 0 ∧ codeError then 4 else f.err
    let s1 := s.countRx w p f.data.length
    let s2 := if err = 0 then s1 else (s1.count (k + 0x58 + 8 * err) 1).drop w p .fcsError
    let s3 := match f.cause with
      | some c => s2.drop w p c
      | none => s2
    if f.refused then s3.delRx w f.id
    else if err = 0 then
      let s4 := s3.updRx w f.id (fun r => { r with ended := true, endAt := s.now })
      if f.released then (s4.earlyEnd w f.id f.data.length).delRx w f.id else s4
    else if f.released then (s3.earlyBad w f.id f.data.length).delRx w f.id
    else ((s3.compDiscard w f.id).rxFree w f).delRx w f.id

/-- CTRL.ABORT of a PORT page (R408): the ingress FIFO is discarded. -/
def portAbortFifo (s : State) (w : WytheIx) (p : Nat) : State :=
  let gone := (s.wy w).rx.filter (fun f => f.port == p && rxWaits f)
  s.each gone (fun s f =>
    let s1 := ((s.drop w p .portDown).compDiscard w f.id).rxFree w f
    if f.ended then s1.delRx w f.id else s1.updRx w f.id (fun r => { r with refused := true, cause := none, handle := none }))

/-! Links (R400, R401, R407). -/

/-- The FEC in use by a mode word: none in modes 0 to 5 and 8 (R401). -/
def fecInUse (v : W32) : Bool := (fld v 27 24 == 6 || fld v 27 24 == 7) && fld v 23 22 != 0
/-- Modes with negotiation: Clause 37, SGMII, USXGMII (R422). -/
def negotiates (v : W32) : Bool := fld v 27 24 == 1 || fld v 27 24 == 2 || fld v 27 24 == 4
/-- SPEED matters in SGMII and USXGMII only (R400). -/
def speedMatters (v : W32) : Bool := fld v 27 24 == 2 || fld v 27 24 == 4

/-- LINK_UP: training ends; a partner of another speed keeps the link down (R400). -/
def linkRises (s : State) (w : WytheIx) (p : Nat) (speed : Nat) : State :=
  let v := s.portCfg w p
  if !laneInUse v || s.quadHeld w p || (s.wy w).mode == .dormant || (s.wy w).mode == .brace then s
  else if speedMatters v && fld v 21 20 != speed then s.updPort w p (fun q => { q with speedMismatch := true })
  else s.updPort w p (fun q => { q with
    up := true, localFault := false, remoteFault := false, fecLock := fecInUse v, anDone := negotiates v, speedMismatch := false })

/-- The link goes down (R407). -/
def linkFalls (s : State) (w : WytheIx) (p : Nat) (localFault remoteFault : Bool) : State :=
  let q := s.port w p
  let s1 := s.updPort w p (fun q => { q with
    up := false, localFault := localFault, remoteFault := remoteFault, fecLock := false, anDone := false })
  if q.up then (s1.count (pgPort w p + 0x88) 1).raiseBit (pgPort w p) 0 else s1

/-! Bandwidth windows (R409). -/

/-- The time the windows count: gPTP time, or pipeline cycles while it is not valid. -/
def bwTime (s : State) (w : WytheIx) : Nat := if (s.wy w).clock.valid then s.gptp w else s.now
def bwLen (s : State) (w : WytheIx) (p : Nat) : Nat := fld (s.rd (pgPort w p + 0x10C)) 19 0 * 1000
/-- When the window under way ends. -/
def bwEnd (s : State) (w : WytheIx) (p : Nat) : Nat :=
  let a := (s.port w p).bwStart
  let n := s.bwLen w p
  if (s.wy w).clock.valid then (a / n + 1) * n else a + n

/-- A direction at the end of its window: LAST, MIN and MAX take the values, unless the window is discarded. -/
def bwClose (cut : Bool) (b : BwDir) : BwDir :=
  let by' := w32 (b.bytes / 4)
  let fr := w32 b.frames
  let lo := fun (skip : Bool) (m v : W32) => if skip then m else if v.toNat < m.toNat then v else m
  let hi := fun (skip : Bool) (m v : W32) => if skip then m else if m.toNat < v.toNat then v else m
  let c : BwDir := if cut then b else
    { b with
      bytesLast := by', framesLast := fr
      bytesMin := lo b.skipBytesMin b.bytesMin by', bytesMax := hi b.skipBytesMax b.bytesMax by'
      framesMin := lo b.skipFramesMin b.framesMin fr, framesMax := hi b.skipFramesMax b.framesMax fr }
  { c with bytes := 0, frames := 0, skipBytesMin := false, skipBytesMax := false, skipFramesMin := false, skipFramesMax := false }

/-- BW_WINDOW_END. -/
def bwEnds (s : State) (w : WytheIx) (p : Nat) : State :=
  let e := s.bwEnd w p
  let n := s.bwLen w p
  let t := s.bwTime w
  if t < e ∨ n = 0 then s
  else s.updPort w p (fun q => { q with
    rxBw := bwClose q.bwCut q.rxBw, txBw := bwClose q.bwCut q.txBw, bwStart := e + (t - e) / n * n, bwCut := false })

/-- The window under way is cut short: it is discarded (R409). Without a valid time, a new one starts whole. -/
def bwCutShort (s : State) (w : WytheIx) (p : Nat) : State :=
  let t := s.bwTime w
  let v := (s.wy w).clock.valid
  s.updPort w p (fun q => { q with
    rxBw := bwClose true q.rxBw, txBw := bwClose true q.txBw, bwStart := t, bwCut := v })

/-- A write of BW_WINDOW. -/
def bwWindowWrite (s : State) (w : WytheIx) (p : Nat) (v : W32) : State := (s.wr (pgPort w p + 0x10C) v).bwCutShort w p

/-- A read of MIN or MAX returns it and restarts its tracking from the next complete window (R409). `i` counts the registers of one
direction from BYTES_MIN: 0 BYTES_MIN, 1 BYTES_MAX, 2 FRAMES_MIN, 3 FRAMES_MAX. -/
def bwTake (b : BwDir) (i : Nat) : W32 × BwDir :=
  match i with
  | 0 => (b.bytesMin, { b with bytesMin := 0xFFFFFFFF, skipBytesMin := true })
  | 1 => (b.bytesMax, { b with bytesMax := 0, skipBytesMax := true })
  | 2 => (b.framesMin, { b with framesMin := 0xFFFFFFFF, skipFramesMin := true })
  | _ => (b.framesMax, { b with framesMax := 0, skipFramesMax := true })

/-- A read of TXTS_INFO removes the head entry and latches its time (R420, R422). -/
def txtsRead (s : State) (w : WytheIx) (p : Nat) : W32 × State :=
  let q := s.port w p
  match q.txts with
  | [] => (0, s)
  | e :: r =>
    (w32 (0x80000000 + (if q.txtsOverflow then 0x40000000 else 0) + at' (e.msgType % 16) 24 + at' (e.domain % 256) 16 + e.seqId % 65536),
      s.updPort w p (fun q => { q with txts := r, txtsOverflow := false, txtsTime := e.time }))

end State

/-- FRAME_ARRIVAL (R405). -/
def execFrameArrival (w : WytheIx) (p : EthIx) (data : Bytes) (s : State) : Res := .next (s.frameBegins w p.val data)

/-- BUFFER_ALLOCATION (R257, R258). -/
def execBufferAllocation (w : WytheIx) (p : PortIx) (s : State) : Res := .next (s.allocIngress w p.val)

/-- FRAME_END (R404). -/
def execFrameEnd (w : WytheIx) (p : EthIx) (codeError : Bool) (s : State) : Res := .next (s.frameEnds w p.val codeError)

/-- LINK_UP (R400, R407). -/
def execLinkUp (w : WytheIx) (p : EthIx) (partnerSpeed : BitVec 2) (s : State) : Res :=
  .next (s.linkRises w p.val partnerSpeed.toNat)

/-- LINK_DOWN (R407). -/
def execLinkDown (w : WytheIx) (p : EthIx) (localFault remoteFault : Bool) (s : State) : Res :=
  .next (s.linkFalls w p.val localFault remoteFault)

/-- BW_WINDOW_END (R409). -/
def execBwWindowEnd (w : WytheIx) (p : EthIx) (s : State) : Res := .next (s.bwEnds w p.val)

/-- TXTS_INFO_READ (R420). -/
def execTxtsInfoRead (a : Agent) (w : WytheIx) (p : EthIx) (s : State) : Res :=
  if s.reach a w then
    let (v, s1) := s.txtsRead w p.val
    .next (s1.answer v)
  else .next (s.answer 0xDEAD0001)

end Sys2Proof.Machine
end

