-- ==== Sys2Proof/Machine/Time.lean ====
section
/-! DEFINITION. Time of day of the wythes (R410–R418): SET, STEP, SLEW, following, sources and the PPS lines. -/

namespace Sys2Proof.Machine

/-- The time of day wraps at 2^48 seconds (R410). -/
def todMod : Nat := 2 ^ 48 * 1000000000

namespace State

def clock (s : State) (w : WytheIx) : Clock := (s.wy w).clock
def updClock (s : State) (w : WytheIx) (f : Clock → Clock) : State := s.updWy w (fun y => { y with clock := f y.clock })

/-- Wythe 1's counter is locked to wythe 0's: its own time commands are ignored (R416). -/
def following (s : State) (w : WytheIx) : Bool := w == 1 && flag (s.rd (pgTime 1 + 0x100)) 31 && !s.tieCut

/-- A step of the time to `ns` (R415): counted, ledgered when large or the first SET, gates and windows moved. -/
def stepTo (s : State) (w : WytheIx) (ns : Nat) (set : Bool) : State :=
  let c := s.clock w
  let size : Int := (ns : Int) - (c.ns : Int)
  let first := set && !c.valid
  let thresh := (s.rd (pgTime w + 0x134)).toNat
  let s1 := s.updClock w (fun c => { c with ns := ns, valid := c.valid || set })
  let s2 := (s1.count (pgTime w + 0x40) 1).raiseBit (pgTime w) 1
  let s3 := if first || decide (thresh ≤ size.natAbs) then
      if s2.ledgering w then
        (s2.record w 0x0B 0 (toBe 8 (size % 18446744073709551616).toNat ++ toBe 4 thresh)).count (pgTime w + 0x48) 1
      else s2
    else s2
  let s4 := s3.each (List.range 24) (fun s p => s.gateRefresh w p)
  s4.each (List.range 24) (fun s p => s.bwCutShort w p)

/-- Any TIME_CMD ends a slew in progress (R413). -/
def endSlew (s : State) (w : WytheIx) : State :=
  s.updClock w (fun c => { c with slewing := false, slewLeft := 0, slewCycles := 0 })

/-- SET: the time of day of SET_SEC_HI, SET_SEC_LO and SET_NS. -/
def setTod (s : State) (w : WytheIx) : Nat :=
  (fld (s.rd (pgTime w + 0x120)) 15 0 * 4294967296 + (s.rd (pgTime w + 0x11C)).toNat) * 1000000000 + fld (s.rd (pgTime w + 0x118)) 29 0
def adjOffset (s : State) (w : WytheIx) : Int := signed 32 (s.rd (pgTime w + 0x124)).toNat

def timeCmdSet (s : State) (w : WytheIx) : State :=
  if s.following w then s
  else
    let s1 := s.endSlew w
    (s1.updClock w (fun c => { c with frac := 0 })).stepTo w (s1.setTod w) true
def timeCmdStep (s : State) (w : WytheIx) : State :=
  if s.following w then s
  else
    let s1 := s.endSlew w
    s1.stepTo w ((((s1.clock w).ns : Int) + s1.adjOffset w) % (todMod : Int)).toNat false
def timeCmdSlew (s : State) (w : WytheIx) : State :=
  if s.following w then s
  else
    let s1 := s.endSlew w
    let n := s1.adjOffset w
    if n = 0 then s1 else s1.updClock w (fun c => { c with slewing := true, slewLeft := n })

/-- TIME_CMD by its code (R413, R423). -/
def timeCmd (s : State) (w : WytheIx) (code : Nat) : State :=
  match code with
  | 1 => s.timeCmdSet w
  | 2 => s.timeCmdStep w
  | 3 => s.timeCmdSlew w
  | _ => s

/-- A step of wythe 0 reaches a following wythe 1 (R416). -/
def followWythe0 (s : State) : State :=
  if s.following 1 && ((s.clock 1).ns != (s.clock 0).ns || (s.clock 1).valid != (s.clock 0).valid) then
    s.stepTo 1 (s.clock 0).ns (s.clock 0).valid
  else s

/-- A rising edge of PPS_IN (R417). -/
def ppsEdge (s : State) : State :=
  s.each wythes (fun s w => ((s.updClock w (fun c => { c with ppsCap := c.ns })).count (pgTime w + 0x50) 1).raiseBit (pgTime w) 0)

/-- PPS_OUT rises in the cycle in which wythe 0's time plus PPS_OUT_OFFSET has crossed a whole second (R417): a cycle advances the
time by at most 2 ns. -/
def ppsRise (s : State) : State :=
  let cfg := s.rd (pgTime 0 + 0x100)
  let off := signed 32 (s.rd (pgTime 0 + 0x138)).toNat
  if flag cfg 29 && (s.clock 0).valid && decide ((((s.clock 0).ns : Int) + off) % 1000000000 < 2) && decide ((s.clock 0).ppsUntil ≤ s.now) then
    (s.emit .pps).updClock 0 (fun c => { c with ppsUntil := s.now + fld cfg 8 0 * 1000000 })
  else s

/-- One cycle of 1 ns of a wythe's counter (R411, R413): the rate adjustment with its fraction, and a slew of 1 ns in 10 µs. -/
def clockCycle (rate : Int) (c : Clock) : Clock :=
  let t : Int := (c.frac : Int) + 17592186044416 + rate
  let ns := (t / 17592186044416).toNat
  let frac := (t % 17592186044416).toNat
  let (extra, left, cyc) : Int × Int × Nat :=
    if c.slewLeft = 0 then (0, 0, 0)
    else if c.slewCycles + 1 < 10000 then (0, c.slewLeft, c.slewCycles + 1)
    else if 0 < c.slewLeft then (1, c.slewLeft - 1, 0) else (-1, c.slewLeft + 1, 0)
  { c with ns := ((((c.ns + ns : Nat) : Int) + extra) % (todMod : Int)).toNat, frac := frac, slewLeft := left, slewCycles := cyc }

/-- Both counters advance; a following wythe 1 advances as wythe 0 does (R416). -/
def clocksTick (s : State) : State :=
  let rate := fun (w : WytheIx) => signed 32 (s.rd (pgTime w + 0x128)).toNat
  let c0 := s.clock 0
  let c0' := clockCycle (rate 0) c0
  let c1 := s.clock 1
  let c1' := if s.following 1 then
      { c1 with ns := (c1.ns + c0'.ns + todMod - c0.ns) % todMod, frac := c0'.frac, slewing := false, slewLeft := 0, slewCycles := 0 }
    else clockCycle (rate 1) c1
  (s.updClock 0 (fun _ => c0')).updClock 1 (fun _ => c1')

end State

/-- SET: TIME_CMD 0b01 (R413). -/
def execTimeSet (a : Agent) (w : WytheIx) (s : State) : Res := .next (s.viaPage a w (fun s => s.timeCmdSet w))

/-- STEP_TIME: TIME_CMD 0b10 (R413). -/
def execStepTime (a : Agent) (w : WytheIx) (s : State) : Res := .next (s.viaPage a w (fun s => s.timeCmdStep w))

/-- SLEW: TIME_CMD 0b11 (R413). -/
def execSlew (a : Agent) (w : WytheIx) (s : State) : Res := .next (s.viaPage a w (fun s => s.timeCmdSlew w))

/-- SLEW_END: the whole offset has been applied (R413). -/
def execSlewEnd (w : WytheIx) (s : State) : Res :=
  .next (if (s.clock w).slewLeft = 0 then s.updClock w (fun c => { c with slewing := false }) else s)

/-- FOLLOW_STEP (R416). -/
def execFollowStep (s : State) : Res := .next s.followWythe0

/-- SRC_LOST (R411). -/
def execSrcLost (w : WytheIx) (s : State) : Res :=
  .next (if (s.clock w).srcActive then (s.updClock w (fun c => { c with srcActive := false })).raiseBit (pgTime w) 2 else s)

/-- PTPCLK_RETURN (R411). -/
def execPtpclkReturn (w : WytheIx) (s : State) : Res :=
  .next (if flag (s.rd (pgTime w + 0x100)) 30 then s.updClock w (fun c => { c with srcActive := true }) else s)

/-- PPS_IN (R417). -/
def execPpsIn (s : State) : Res := .next s.ppsEdge

/-- PPS_OUT (R417). -/
def execPpsOut (s : State) : Res := .next s.ppsRise

end Sys2Proof.Machine
end

