-- ==== Sys2Proof/Machine/Tables.lean ====
section
/-! DEFINITION. The trie, learn and index tables, the exact store and ternary array, and their command windows (chapter 04;
R34–R39, R85–R89). -/

namespace Sys2Proof.Machine

/-! Status codes (R131). -/
def stOk : Nat := 0
def stNotFound : Nat := 1
def stExists : Nat := 2
def stTableFull : Nat := 3
def stOverlayFull : Nat := 4
def stBadOp : Nat := 5
def stBadOperand : Nat := 6
def stAborted : Nat := 7
def stUncorrectable : Nat := 8
def stEnd : Nat := 9

/-- CRC-32C with a given start, complemented (R85, R111). -/
def crcFrom (start : Nat) (l : Bytes) : Nat := crcRun polyCrc32c start l ^^^ 0xFFFFFFFF

/-! Visibility (R34). -/

/-- An entry is seen by a view: `born` views see plain and born entries, the others plain and dying ones. -/
def seen (bornView born dying : Bool) : Bool := if bornView then !dying else !born

namespace State

def tables (s : State) (w : WytheIx) : Tables := (s.wy w).tables
/-- Host table commands are staged writes of the open session on this wythe (R33, R524). -/
def staging (s : State) (w : WytheIx) : Bool :=
  (match s.forme.session with
    | .open_ _ => true
    | _ => false) && s.joined.contains w
/-- The number of the open session on a wythe. -/
def stagedNo (s : State) (w : WytheIx) : Option W16 :=
  match s.forme.session with
  | .open_ n => if s.joined.contains w then some n else none
  | _ => none
/-- A lock-up's sweep has not ended on the wythe (R49). -/
def swept (s : State) (w : WytheIx) : Bool := (s.wy w).sweep == .idle
/-- The view of a lookup under forme number `n` (R34, R133): true sees born entries, false dying ones. -/
def bornView (s : State) (w : WytheIx) (n : W16) : Bool :=
  if !s.swept w then (s.wy w).previous != some n
  else n != s.formeNo w && s.stagedNo w == some n
/-- READ_VIEW 1 shows the active view (R64). -/
def readActive (s : State) : Bool := flag (s.rd (pgForme + 8)) 4
/-- A command is executed as a staged write: a write accepted in the session, or while its OPEN was pending (R33). A read follows the
session as it stands. -/
def stages (s : State) (w : WytheIx) (c : WinCmd) : Bool := s.staging w && (c.kind != .plain || c.op == 1 || c.op == 5 || c.op == 6)
/-- The view of a host read (R34). -/
def hostBorn (s : State) (w : WytheIx) : Bool := !s.swept w || (s.staging w && !s.readActive)

end State

/-! What a write does to the copies of a key (R35, R39). -/

/-- Operation codes (R125). -/
def opRead : Nat := 1
def opWrite : Nat := 2
def opInsert : Nat := 3
def opDelete : Nat := 4
def opSearch : Nat := 5
def opNext : Nat := 6

/-- What a WRITE, INSERT or DELETE does, by the entries that hold the key (R35 in a session, R39 outside one). -/
inductive StageDo where
  | refuse (code : Nat)
  /-- write one entry anew -/
  | fresh (born : Bool) (thenDying : Option Nat)
  /-- replace the entry at a position in place, keeping it born or making it plain; remove others -/
  | replace (pos : Nat) (born : Bool) (others : List Nat)
  | markDying (pos : Nat)
  | remove (all : List Nat)
  deriving DecidableEq, Repr

/-- `copies` are positions with their (born, dying) bits. -/
def stage (session : Bool) (op : Nat) (copies : List (Nat × Bool × Bool)) : StageDo :=
  let plain := (copies.filter (fun e => !e.2.1 && !e.2.2)).map (·.1)
  let born := (copies.filter (fun e => e.2.1)).map (·.1)
  if session then
    if op = opDelete then
      match plain, born with
      | p :: _, _ => .markDying p
      | [], b :: _ => .remove [b]
      | [], [] => .refuse stNotFound
    else if op = opInsert ∧ (plain ≠ [] ∨ born ≠ []) then .refuse stExists
    else match born with
      | b :: _ => .replace b true []
      | [] => .fresh true plain.head?
  else
    match copies.map (·.1) with
    | [] => if op = opDelete then .refuse stNotFound else .fresh false none
    | p :: ps => if op = opDelete then .remove (p :: ps) else if op = opInsert then .refuse stExists else .replace p false ps

/-! Relocation (R113): breadth-first search for a free place. -/

/-- What a search for a free place knows of a table: the bucket an entry may move to, the entry positions of a bucket, a free place of
a bucket for the entry at a position, and whether the entry at one position fits where another one is. -/
structure Reloc where
  alt : Nat → Option Nat
  ways : Nat → List Nat
  free : Nat → Nat → Option Nat
  fits : Nat → Nat → Bool

/-- Paths of entries, last first; the free place of the path's end. Among equals the earliest candidate and the lowest way come first
(DESIGN CHOICE; log 17). -/
def relocPath (r : Reloc) : Nat → List (List Nat) → Option (List Nat × Nat)
  | 0, _ => none
  | d + 1, paths =>
    let ends := fun (p : List Nat) => p.head?.bind (fun e => (r.alt e).bind (r.free e))
    match paths.find? (fun p => (ends p).isSome) with
    | some p => some (p, (ends p).getD 0)
    | none => relocPath r d
        (paths.flatMap (fun p => match p with
          | e :: _ => ((r.alt e).map r.ways).elim [] (fun ws => (ws.filter (fun x => !p.contains x && r.fits e x)).map (· :: p))
          | [] => []))

/-- Move the entries of a path, from its free end back (R113), and answer the place left free. -/
def relocMove {α : Type} (path : List Nat) (free : Nat) (m : SMap α) : Nat × SMap α :=
  path.foldl (fun (acc : Nat × SMap α) e =>
    match sfind acc.2 e with
    | some v => (e, kdel (sins acc.2 acc.1 v) e)
    | none => (e, acc.2)) (free, m)

/-- Place an entry: the lowest free place of the first candidate bucket that has one (DESIGN CHOICE; log 17), or one freed by
relocation, from the entries `first`; none when the table is full. -/
def placeEntry {α : Type} (m : SMap α) (r : Reloc) (free : Option Nat) (first : List Nat) (depth : Nat) (v : α) : Option (Nat × SMap α) :=
  match free with
  | some p => some (p, sins m p v)
  | none =>
    match relocPath r depth (first.map (fun e => [e])) with
    | none => none
    | some (path, f) =>
      let (p, m') := relocMove path f m
      some (p, sins m' p v)

/-! The learn table (R110–R120). Positions are 4 × bucket + way. -/

/-- Candidate buckets of KIND ‖ KEY (R111). -/
def learnBuckets (kk : W64) : List Nat :=
  let b := toBe 8 kk.toNat
  [crcFrom 0xFFFFFFFF b % 32768, 32768 + crcFrom 0x0F0FF0F0 b % 32768]
def learnWays (b : Nat) : List Nat := (List.range 4).map (fun i => 4 * b + i)
def learnFree (m : SMap LearnEntry) (b : Nat) : Option Nat := (learnWays b).find? (fun p => (sfind m p).isNone)
/-- The other candidate bucket of the entry at a position. -/
def learnAlt (m : SMap LearnEntry) (p : Nat) : Option Nat :=
  (sfind m p).bind (fun e => (learnBuckets e.kindKey).find? (fun b => b != p / 4))
/-- Positions that hold a key, first candidate first. -/
def learnCopies (m : SMap LearnEntry) (kk : W64) : List (Nat × LearnEntry) :=
  ((learnBuckets kk).flatMap learnWays).filterMap (fun p =>
    match sfind m p with
    | some e => if e.kindKey = kk then some (p, e) else none
    | none => none)
def learnPlace (m : SMap LearnEntry) (depth : Nat) (e : LearnEntry) : Option (Nat × SMap LearnEntry) :=
  let b := learnBuckets e.kindKey
  placeEntry m ⟨learnAlt m, learnWays, fun _ => learnFree m, fun _ _ => true⟩ (b.findSome? (learnFree m)) (b.flatMap learnWays) depth e
/-- PORT_COUNT (R117): valid non-static entries of a port; 0xFF counts nowhere. -/
def learnPortCount (m : SMap LearnEntry) (p : Nat) : Nat := (m.filter (fun e => !e.2.static && e.2.port.toNat == p)).length
/-- A PORT from 25 to 255 is taken as none (R117). -/
def learnPort (p : Byte) : Byte := if 25 ≤ p.toNat then 0xFF else p
/-- Byte 0 of an entry (R110). -/
def learnByte0 (e : LearnEntry) : Nat := 128 + at' (b2n e.born) 6 + at' (b2n e.dying) 5 + at' (b2n e.static) 4
/-- The 16 bytes of an entry. -/
def learnBytes (e : LearnEntry) : Bytes :=
  [BitVec.ofNat 8 (learnByte0 e), e.age] ++ toBe 8 e.kindKey.toNat ++ [e.port, e.flags] ++ toBe 4 e.data.toNat

/-! The trie (R104–R109). -/

/-- Bits of an address beyond `len` are 0 (R105). -/
def prefixAddr (a : W64) (len : Nat) : W64 := BitVec.ofNat 64 (a.toNat / 2 ^ (64 - len) * 2 ^ (64 - len))
def prefixMatches (p : Prefix) (v6 : Bool) (a : W64) : Bool := p.v6 == v6 && prefixAddr a p.len == p.addr
/-- Does root 1 (`r`) or root 0 reach a prefix? -/
def reaches (r : Bool) (p : Prefix) : Bool := if r then p.root1 else p.root0
def setReach (r v : Bool) (p : Prefix) : Prefix := if r then { p with root1 := v } else { p with root0 := v }
def alive (p : Prefix) : Bool := p.root0 || p.root1
/-- The longest prefix of an address under a root (R105). -/
def longest (l : List Prefix) (r v6 : Bool) (a : W64) : Option Prefix :=
  (l.filter (fun p => reaches r p && prefixMatches p v6 a)).foldl
    (fun b p => match b with
      | none => some p
      | some q => if q.len < p.len then some p else some q) none
/-- The weighted count of R106: a prefix counts once for each root that reaches it. -/
def trieWeight (l : List Prefix) : Nat := (l.map (fun p => (b2n p.root0 + b2n p.root1) * if p.v6 then 8 else 3)).sum
def trieLimit : Nat := 3145728
/-- A command that leaves `after` does not take the weighted count beyond the limit (R106). -/
def trieRoom (before after : List Prefix) : Bool := decide (trieWeight after ≤ max trieLimit (trieWeight before))
/-- The order of NEXT (R129): family, address, length. -/
def prefixKey (v6 : Bool) (a : W64) (len : Nat) : Nat := (b2n v6 * 2 ^ 64 + a.toNat) * 128 + len
def prefixIn (p : Prefix) : List Prefix → List Prefix
  | [] => [p]
  | q :: r => if prefixKey q.v6 q.addr q.len ≤ prefixKey p.v6 p.addr p.len then q :: prefixIn p r else p :: q :: r

/-! The index table (R121–R123). -/

/-- What a view of index `i` finds. -/
def indexSee (t : Tables) (bornView : Bool) (i : Nat) : Option Bytes :=
  if bornView then
    match sfind t.overlay i with
    | some b => some b
    | none => match sfind t.index i with
      | some e => if e.dying then none else some e.bytes
      | none => none
  else (sfind t.index i).map (·.bytes)

/-! The exact store (R85). Positions are byte addresses of entries; a bucket is 128 bytes. -/

def exactLen (wide : Bool) : Nat := if wide then 64 else 32
def exactWays (wide : Bool) (b : Nat) : List Nat := (List.range (if wide then 2 else 4)).map (fun i => 128 * b + exactLen wide * i)
/-- Candidate buckets of a key under a slot's TBL_CFG word. -/
def exactBuckets (cfg : W32) (key : Nat) : List Nat :=
  let n := 512 * fld cfg 23 16
  let k := toBe (if flag cfg 29 then 40 else 15) key
  if n = 0 then [] else [fld cfg 15 0 * 512 + crcFrom 0xFFFFFFFF k % n, fld cfg 15 0 * 512 + crcFrom 0x0F0FF0F0 k % n].eraseDups
/-- Is a place free: no entry overlaps its bytes? -/
def exactFreeAt (m : SMap ExactEntry) (wide : Bool) (p : Nat) : Bool :=
  !m.any (fun e => decide (e.1 < p + exactLen wide) && decide (p < e.1 + exactLen e.2.wide))
def exactFree (m : SMap ExactEntry) (wide : Bool) (b : Nat) : Option Nat := (exactWays wide b).find? (exactFreeAt m wide)
def exactCopies (m : SMap ExactEntry) (slot : Nat) (cfg : W32) (key : Nat) : List (Nat × ExactEntry) :=
  ((exactBuckets cfg key).flatMap (exactWays (flag cfg 29))).filterMap (fun p =>
    match sfind m p with
    | some e => if e.slot == slot && e.wide == flag cfg 29 && e.key == key then some (p, e) else none
    | none => none)
/-- The bucket an entry may move to, whichever slot it is of: the other candidate of its key under its own slot's TBL_CFG, where every
forme that sees the entry gives the same. `view` and `active` are the configurations of the forme being written and in force. -/
def exactAlt (m : SMap ExactEntry) (view active : Nat → W32) (p : Nat) : Option Nat :=
  (sfind m p).bind (fun e =>
    let cfg := view e.slot
    let b := exactBuckets cfg e.key
    if (e.born || cfg == active e.slot) && fld cfg 31 30 == 1 && flag cfg 29 == e.wide && b.contains (p / 128)
    then b.find? (fun b => b != p / 128) else none)
/-- Whether the entry at a position is a wide one. -/
def wideAt (m : SMap ExactEntry) (p : Nat) : Bool := ((sfind m p).map (·.wide)).getD false
def exactPlace (m : SMap ExactEntry) (view active : Nat → W32) (e : ExactEntry) : Option (Nat × SMap ExactEntry) :=
  let b := exactBuckets (view e.slot) e.key
  placeEntry m ⟨exactAlt m view active, exactWays false, fun p => exactFree m (wideAt m p), fun p q => !wideAt m p || wideAt m q⟩
    (b.findSome? (exactFree m e.wide)) ((b.flatMap (exactWays false)).filter (fun p => !e.wide || wideAt m p)) 3 e

/-- An entry as the store holds it (R85); VALID is `valid`. -/
def exactBytes (e : ExactEntry) (valid : Bool) : Bytes :=
  let ctl : Byte := BitVec.ofNat 8 (at' (b2n valid) 7 + at' (b2n e.born) 6 + at' (b2n e.dying) 5 + at' e.slot 2)
  if e.wide then toBe 40 e.key ++ [ctl] ++ slice e.act 0 16 ++ List.replicate 7 0 else toBe 15 e.key ++ [ctl] ++ slice e.act 0 16
/-- What such bytes hold when their control byte says VALID. -/
def exactOf (wide : Bool) (b : Bytes) : Option ExactEntry :=
  let n := if wide then 40 else 15
  let c := beAt b n 1
  if bitOf c 7 then some ⟨bitsOf c 4 2, wide, beAt b 0 n, bitOf c 6, bitOf c 5, slice b (n + 1) 16⟩ else none
/-- The store's 16-byte units of bytes laid at a position. -/
def unitsOf (p : Nat) (b : Bytes) : List (Nat × Bytes) := (List.range (b.length / 16)).map (fun i => (p / 16 + i, slice b (16 * i) 16))
/-- New entries of the exact store: what an entry leaves behind where it stood is its bytes without VALID. -/
def Tables.putExact (t : Tables) (m : SMap ExactEntry) : Tables :=
  { t with
    exact := m
    acts := (t.exact.filter (fun e => sfind m e.1 != some e.2)).foldl
      (fun a e => (unitsOf e.1 (exactBytes e.2 false)).foldl (fun a u => sins a u.1 u.2) a) t.acts }

/-- Reserved bits of an action record are 0 (R90). -/
def actOk (r : Bytes) : Bool := !bitOf (beAt r 0 1) 0 && decide (bitsOf (beAt r 4 1) 7 6 = 0) && decide (beAt r 5 1 = 0)
def actionUnits : Nat := 524288
/-- The entry of the exact store that covers a unit. -/
def exactOver (t : Tables) (u : Nat) : Option (Nat × ExactEntry) :=
  t.exact.find? (fun e => decide (e.1 ≤ 16 * u) && decide (16 * u < e.1 + exactLen e.2.wide))
/-- The exact store's 16 bytes at unit `u` as an action record: what stands there, of an EXACT entry too (R86, R89). -/
def actAt (t : Tables) (u : Nat) : Bytes :=
  match exactOver t u with
  | some (p, e) => slice (exactBytes e true) (16 * u - p) 16
  | none => kget (List.replicate 16 0) t.acts u
/-- Write unit `u` of the exact store, over an EXACT entry's bytes where one stands there. -/
def Tables.putAct (t : Tables) (u : Nat) (b : Bytes) : Tables :=
  if actionUnits ≤ u then t
  else match exactOver t u with
    | none => { t with acts := sins t.acts u b }
    | some (p, e) =>
      let whole := exactBytes e true
      let o := 16 * u - p
      let new := whole.take o ++ slice b 0 16 ++ whole.drop (o + 16)
      match exactOf e.wide new with
      | some e' => { t with exact := sins t.exact p e' }
      | none => { t with exact := kdel t.exact p, acts := (unitsOf p new).foldl (fun a u => sins a u.1 u.2) t.acts }

/-! Command pages and their counters (R140, R141, R143). -/

def tablePage (w : WytheIx) (t : Nat) : Option Nat :=
  match t with
  | 1 => some (pgTrie w) | 2 => some (pgLearn w) | 3 => some (pgIndex w) | _ => none
/-- The page whose CTRL governs a window's engine (R96, R139). -/
def enginePage (w : WytheIx) (t : Nat) : Nat := (tablePage w t).getD (pgKeys w)
/-- Counters by table 1–3: COMMANDS, REJECTS, CORRECTED, UNCORRECTABLE, PLUMB_LATE. -/
def tableCtr (t i : Nat) : Nat :=
  (match t with
    | 1 => 0x60 | 2 => 0x80 | _ => 0x50) + 8 * (match t, i with
      | 3, 2 => 3 | 3, 3 => 4 | 3, 4 => 5 | _, _ => i)

/-- A command's answer: code, key words, data words. -/
abbrev CmdAns := Nat × List W32 × List W32

namespace State

def setTables (s : State) (w : WytheIx) (f : Tables → Tables) : State := s.updTables w f
def countTable (s : State) (w : WytheIx) (t i : Nat) : State :=
  match tablePage w t with
  | some p => s.count (p + tableCtr t i) 1
  | none => s

/-- An error report of a table memory's read (R138); the address of an uncorrectable one is free (log 5). -/
def tableEcc (s : State) (w : WytheIx) (t : Nat) (ecc : EccReport) : State :=
  match ecc, tablePage w t with
  | .corrected, some _ => s.countTable w t 2
  | .uncorrectable, some p =>
    let (v, s1) := (s.countTable w t 3).draw
    (s1.wr (p + 0x24) (w32 v.toNat)).raiseBit p 0
  | _, _ => s

/-! Lookups (R105, R111–R117, R121, R132–R134). -/

/-- The root a lookup under forme number `n` walks (R133): root 1 when true. -/
def trieRoot (s : State) (w : WytheIx) (n : W16) : Bool :=
  let a := (s.tables w).root1
  if n = s.formeNo w then a
  else if (s.wy w).previous = some n ∨ s.stagedNo w = some n then !a else a

/-- A default route as a lookup under forme number `n` reads it: staged, previous or active copy. -/
def defaultRoute (s : State) (w : WytheIx) (n : W16) (v6 : Bool) : W32 :=
  let a := pgTrie w + (if v6 then 0x104 else 0x100)
  if n ≠ s.formeNo w ∧ s.stagedNo w = some n then s.stStaged a else s.stOf w n a

/-- A trie lookup: its result word, with ERROR when the read was uncorrectable (R134, R138). -/
def trieLook (s : State) (w : WytheIx) (v6 : Bool) (a : W64) (n : W16) (ecc : EccReport) : W32 × State :=
  let k := pgTrie w
  let s1 := (s.count (k + 0x40) 1).tableEcc w 1 ecc
  if ecc = .uncorrectable then (0x00800000, s1.count (k + 0x58) 1)
  else match longest (s.tables w).trie (s.trieRoot w n) v6 a with
    | some p => (w32 (0x80000000 + at' p.len 24 + p.hop.toNat), s1.count (k + 0x48) 1)
    | none =>
      let d := s.defaultRoute w n v6
      if flag d 31 then (w32 (0x80000000 + fld d 19 0), s1.count (k + 0x50) 1) else (0, s1.count (k + 0x58) 1)

/-- The entry a learn lookup sees: first candidate first (R111, R112). -/
def learnSeen (s : State) (w : WytheIx) (kk : W64) (n : W16) : List (Nat × LearnEntry) :=
  (learnCopies (s.tables w).learn kk).filter (fun e => seen (s.bornView w n) e.2.born e.2.dying)

/-- The result word of a learn lookup (R134). -/
def learnWord (hit new refused moved err : Bool) (port flags : Nat) : W32 :=
  w32 (at' (b2n hit) 31 + at' (b2n new) 30 + at' (b2n refused) 29 + at' (b2n moved) 28 + at' (b2n err) 27 + at' port 16 + at' flags 8)

/-- A learn request of a TLOOK that missed (R114, R115): the result word. DESIGN CHOICE (log 17): of several refusals that hold at once the
full queue counts first, then the port's limit, then the hidden entry. -/
def learnRequest (s : State) (w : WytheIx) (r : LearnReq) (err : Bool) : W32 × State :=
  let t := s.tables w
  let k := pgLearn w
  let p := r.port.toNat
  let queued := (t.learnQ.filter (fun q => q.port == r.port)).length
  if 64 ≤ t.learnQ.length then (learnWord false false true false err 0 0, s.count (k + 0x68) 1)
  else if p < 25 ∧ fld (s.rd (k + 0x180 + 4 * p)) 18 0 ≤ learnPortCount t.learn p + queued then
    (learnWord false false true false err 0 0, s.count (k + 0x60) 1)
  else if !(learnCopies t.learn r.kindKey).isEmpty && (s.learnSeen w r.kindKey r.forme).isEmpty then
    (learnWord false false true false err 0 0, s.count (k + 0x70) 1)
  else (learnWord false true false false err 0 0, s.setTables w (fun t => { t with learnQ := t.learnQ ++ [r] }))

/-- A learn lookup with its options (R114–R118): the result word and the entry bytes of the result area. DESIGN CHOICE (log 17): a hit that
moves or refreshes the entry shows it as rewritten. -/
def learnLook (s : State) (w : WytheIx) (r : LearnReq) (learn refresh : Bool) (ecc : EccReport) : W32 × Bytes × State :=
  let k := pgLearn w
  let s1 := (s.count (k + 0x40) 1).tableEcc w 2 ecc
  match s.learnSeen w r.kindKey r.forme, ecc with
  | _, .uncorrectable =>
    if learn then
      let (v, s2) := s1.learnRequest w r true
      (v, [], s2)
    else (learnWord false false false false true 0 0, [], s1)
  | [], _ =>
    if learn then
      let (v, s2) := s1.learnRequest w r false
      (v, [], s2)
    else (0, [], s1)
  | (p0, e0) :: more, _ =>
    let moved := learn && !e0.static && e0.port != r.port
    let epoch := (s.tables w).epoch
    let upd := fun (e : LearnEntry) =>
      let e1 := if moved then { e with port := r.port, flags := r.flags, data := r.data } else e
      if refresh then { e1 with age := epoch } else e1
    let s2 := s1.setTables w (fun t => { t with learn := ((p0, e0) :: more).foldl (fun m e => sins m e.1 (upd e.2)) t.learn })
    let s3 := (s2.count (k + 0x48) 1).onlyIf moved (fun s => s.count (k + 0x58) 1)
    let e := upd e0
    (learnWord true false false moved false e.port.toNat e.flags.toNat, learnBytes e, s3)

/-- An index lookup (R121, R134). -/
def indexLook (s : State) (w : WytheIx) (i : Nat) (bornView : Bool) (ecc : EccReport) : Option Bytes × State :=
  let k := pgIndex w
  let s1 := (s.count (k + 0x40) 1).tableEcc w 3 ecc
  match ecc, indexSee (s.tables w) bornView i with
  | .uncorrectable, _ => (none, s1)
  | _, some b => (some b, s1.count (k + 0x48) 1)
  | _, none => (none, s1)

/-- The learn engine reaches a queued request (R115); an uncorrectable error makes its lookup a miss (R138). -/
def learnServe (s : State) (w : WytheIx) (ecc : EccReport) : State :=
  match (s.tables w).learnQ with
  | [] => s
  | r :: rest =>
    let k := pgLearn w
    let bad := ecc == .uncorrectable
    let s1 := (s.setTables w (fun t => { t with learnQ := rest })).tableEcc w 2 ecc
    match if bad then [] else s.learnSeen w r.kindKey r.forme with
    | e :: more =>
      s1.setTables w (fun t => { t with learn := (e :: more).foldl (fun m x => sins m x.1 { x.2 with age := t.epoch }) t.learn })
    | [] =>
      if !bad && !(learnCopies (s.tables w).learn r.kindKey).isEmpty then s1.count (k + 0x70) 1
      else
        let e : LearnEntry := ⟨false, false, false, (s.tables w).epoch, r.kindKey, r.port, r.flags, r.data⟩
        match learnPlace (s.tables w).learn (fld (s.rd (k + 0x108)) 1 0) e with
        | some (_, m) => (s1.setTables w (fun t => { t with learn := m })).count (k + 0x50) 1
        | none => s1.count (k + 0x68) 1

/-! Ageing (R118–R120). -/

def ageCfg (s : State) (w : WytheIx) : W32 := s.rd (pgLearn w + 0x100)
/-- EPOCH_CHANGE, once the period in progress has passed. -/
def epochNext (s : State) (w : WytheIx) : State :=
  let t := s.tables w
  let due := t.epochStart + t.epochPeriod * 10000000
  if s.now < due then s
  else s.setTables w (fun t => { t with
    epoch := t.epoch + 1, epochStart := due, epochPeriod := fld (s.ageCfg w) 15 0
    pass := if flag (s.ageCfg w) 16 && t.pass.isNone then some 0 else t.pass
    passesOwed := if flag (s.ageCfg w) 16 && t.pass.isSome then t.passesOwed + 1 else t.passesOwed })

/-- An aged entry (R118). -/
def aged (epoch : Byte) (limit : Nat) (e : LearnEntry) : Bool :=
  !e.static && !e.born && !e.dying && decide (limit ≤ (epoch - e.age).toNat)

/-- AGER_VISIT: the ager reads one bucket and evicts what has aged; a bucket with an uncorrectable error is skipped (R119, R138). -/
def agerVisit (s : State) (w : WytheIx) (ecc : EccReport) : State :=
  let t := s.tables w
  match t.pass with
  | none => s
  | some b =>
    if !s.enabled (pgLearn w) || (s.wy w).sweep == .sweeping then s
    else
      let gone := if ecc = .uncorrectable then []
        else (learnWays b).filter (fun p => match sfind t.learn p with
          | some e => aged t.epoch (fld (s.ageCfg w) 31 24) e
          | none => false)
      let next := if b + 1 < 65536 then some (b + 1) else if 0 < t.passesOwed then some 0 else none
      let s1 := (s.tableEcc w 2 ecc).setTables w (fun t => { t with
        learn := gone.foldl kdel t.learn, pass := next
        passesOwed := if b + 1 < 65536 then t.passesOwed else t.passesOwed - 1 })
      s1.count (pgLearn w + 0x78) gone.length

/-- Clearing AGE_EN ends the pass in progress (R120). -/
def ageCfgWritten (s : State) (w : WytheIx) : State :=
  if flag (s.ageCfg w) 16 then s else s.setTables w (fun t => { t with pass := none, passesOwed := 0 })

/-! Commands (R88, R89, R122, R123, R128–R131). -/

def kw (c : WinCmd) (i : Nat) : Nat := (c.keys.getD i 0).toNat
def dw (c : WinCmd) (i : Nat) : Nat := (c.datas.getD i 0).toNat
def fail (code : Nat) (s : State) : CmdAns × State := ((code, [], []), s)

/-- The root that host reads show (R34, R108). -/
def hostRoot (s : State) (w : WytheIx) : Bool :=
  if s.staging w && !s.readActive then !(s.tables w).root1 else (s.tables w).root1

def trieAns (p : Prefix) : CmdAns :=
  (stOk, [w32 (at' (b2n p.v6) 31 + p.len), w32 (p.addr.toNat / 4294967296), w32 (if p.v6 then p.addr.toNat else 0)], [w32 p.hop.toNat])

/-- A trie write (R35, R39, R105, R106, R108): on the staged root when `staged`, else on the active one, and on the other too while a
previous forme is live or a session has copied the roots. -/
def trieWrite (s : State) (w : WytheIx) (staged : Bool) (op : Nat) (v6 : Bool) (a : W64) (len : Nat) (hop : BitVec 20) : CmdAns × State :=
  let t := s.tables w
  let r := if staged then !t.root1 else t.root1
  let both := !staged && (!s.swept w || s.staging w)
  let mine := fun (p : Prefix) => p.v6 == v6 && p.len == len && p.addr == a && (both || reaches r p)
  let less := (t.trie.map (fun p => if !mine p then p else if both then { p with root0 := false, root1 := false } else setReach r false p)).filter alive
  let p : Prefix := if both then ⟨v6, a, len, hop, true, true⟩ else setReach r true ⟨v6, a, len, hop, false, false⟩
  let put := fun (l : List Prefix) => s.setTables w (fun t => { t with trie := l })
  match t.trie.find? mine with
  | none =>
    if op = opDelete then fail stNotFound s
    else if !trieRoom t.trie (prefixIn p less) then fail stTableFull s else (trieAns p, put (prefixIn p less))
  | some e =>
    if op = opInsert then fail stExists s
    else if op = opDelete then (trieAns e, put less)
    else if !trieRoom t.trie (prefixIn p less) then fail stTableFull s else (trieAns p, put (prefixIn p less))

/-- A trie command. A READ that no prefix matches answers NOT_FOUND, whatever the default route (DEDUCED; log 17). -/
def trieCmd (s : State) (w : WytheIx) (c : WinCmd) : CmdAns × State :=
  let t := s.tables w
  let v6 := bitOf (kw c 0) 31
  let len := bitsOf (kw c 0) 6 0
  let top := if v6 then 64 else 32
  let addr : W64 := BitVec.ofNat 64 (kw c 1 * 4294967296 + (if v6 then kw c 2 else 0))
  let r := s.hostRoot w
  let one := fun (p : Option Prefix) (code : Nat) => match p with
    | some p => (trieAns p, s)
    | none => fail code s
  if bitsOf (kw c 0) 30 7 ≠ 0 then fail stBadOperand s
  else if len = 0 ∨ top < len then fail stBadOperand s
  else if c.op = opRead then one (longest t.trie r v6 addr) stNotFound
  else
    let a := prefixAddr addr len
    if c.op = opNext then
      one (t.trie.find? (fun p => reaches r p && decide (prefixKey v6 a len < prefixKey p.v6 p.addr p.len))) stEnd
    else if c.op = opSearch then one (t.trie.find? (fun p => reaches r p && p.v6 == v6 && p.len == len && p.addr == a)) stNotFound
    else if c.op ≠ opDelete ∧ bitsOf (dw c 0) 31 20 ≠ 0 then fail stBadOperand s
    else s.trieWrite w (s.stages w c) c.op v6 a len (BitVec.ofNat 20 (dw c 0))

def learnAns (p : Nat) (e : LearnEntry) : CmdAns :=
  (stOk, [w32 (e.kindKey.toNat / 4294967296), w32 e.kindKey.toNat],
    [w32 (at' (b2n e.static) 31 + at' e.port.toNat 8 + e.flags.toNat), e.data, w32 (at' (learnByte0 e) 24 + at' e.age.toNat 16), w32 p])

def learnCmd (s : State) (w : WytheIx) (c : WinCmd) : CmdAns × State :=
  let t := s.tables w
  let vis := fun (e : LearnEntry) => seen (s.hostBorn w) e.born e.dying
  let put := fun (m : SMap LearnEntry) => s.setTables w (fun t => { t with learn := m })
  if c.op = opRead ∨ c.op = opNext then
    let pos := kw c 0
    if 0x40000 ≤ pos then fail stBadOperand s
    else if c.op = opRead then
      match sfind t.learn pos with
      | some e => if vis e then (learnAns pos e, s) else fail stNotFound s
      | none => fail stNotFound s
    else match t.learn.find? (fun e => decide (pos < e.1) && vis e.2) with
      | some e => (learnAns e.1 e.2, s)
      | none => fail stEnd s
  else
    let kk : W64 := BitVec.ofNat 64 (kw c 0 * 4294967296 + kw c 1)
    let copies := learnCopies t.learn kk
    if c.op = opSearch then
      match copies.find? (fun e => vis e.2) with
      | some e => (learnAns e.1 e.2, s)
      | none => fail stNotFound s
    else
      let port := bitsOf (dw c 0) 15 8
      if c.op ≠ opDelete ∧ (bitsOf (dw c 0) 30 16 ≠ 0 ∨ (24 < port ∧ port ≠ 0xFF)) then fail stBadOperand s
      else
        let new := fun (born : Bool) => (⟨born, false, bitOf (dw c 0) 31, t.epoch, kk, BitVec.ofNat 8 port,
          BitVec.ofNat 8 (dw c 0), w32 (dw c 1)⟩ : LearnEntry)
        match stage (s.stages w c) c.op (copies.map (fun e => (e.1, e.2.born, e.2.dying))) with
        | .refuse code => fail code s
        | .fresh born dying =>
          let m := match dying with
            | some p => match sfind t.learn p with
              | some e => sins t.learn p { e with dying := true }
              | none => t.learn
            | none => t.learn
          match learnPlace m (fld (s.rd (pgLearn w + 0x108)) 1 0) (new born) with
          | some (p, m') => (learnAns p (new born), put m')
          | none => fail stTableFull s
        | .replace p born others => (learnAns p (new born), put (sins (others.foldl kdel t.learn) p (new born)))
        | .markDying p =>
          match sfind t.learn p with
          | some e => (learnAns p { e with dying := true }, put (sins t.learn p { e with dying := true }))
          | none => fail stNotFound s
        | .remove ps =>
          match copies with
          | e :: _ => (learnAns e.1 e.2, put (ps.foldl kdel t.learn))
          | [] => fail stNotFound s

def indexAns (i : Nat) (b : Bytes) : CmdAns := (stOk, [w32 i], beWords b)

/-- The lowest index above `i` that a view finds, among those listed. -/
def indexNext (t : Tables) (bornView : Bool) (i : Nat) : Option Nat :=
  ((t.index.map (·.1) ++ t.overlay.map (·.1)).filter (fun j => decide (i < j) && (indexSee t bornView j).isSome)).min?

/-- An index write in a session (R122) or outside one (R123). -/
def indexWrite (s : State) (w : WytheIx) (staged : Bool) (op i : Nat) (b : Bytes) : Nat × State :=
  let t := s.tables w
  let put := fun (f : Tables → Tables) => s.setTables w f
  let orig := sfind t.index i
  let born := (sfind t.overlay i).isSome
  if staged then
    if op = opDelete then
      if !born && orig.isNone then (stNotFound, s)
      else
        let die := fun (m : SMap IndexEntry) => match orig with
          | some e => sins m i { e with dying := true }
          | none => m
        (stOk, put (fun t => { t with overlay := kdel t.overlay i, index := die t.index }))
    else if op = opInsert ∧ (indexSee t true i).isSome then (stExists, s)
    else if !born && decide (4096 ≤ t.overlay.length) then (stOverlayFull, s.count (pgIndex w + 0x60) 1)
    else (stOk, put (fun t => { t with overlay := sins t.overlay i b }))
  else if op = opDelete then
    if !born && orig.isNone then (stNotFound, s)
    else (stOk, put (fun t => { t with overlay := kdel t.overlay i, index := kdel t.index i }))
  else if op = opInsert ∧ (born ∨ orig.isSome) then (stExists, s)
  else (stOk, put (fun t => { t with overlay := kdel t.overlay i, index := sins t.index i ⟨false, b⟩ }))

def indexCmd (s : State) (w : WytheIx) (c : WinCmd) : CmdAns × State :=
  let t := s.tables w
  let i := kw c 0
  let b := wordBytes ((List.range 8).map (fun j => w32 (dw c j)))
  if 0x10000 ≤ i then fail stBadOperand s
  else if c.op = opRead ∨ c.op = opSearch then
    match indexSee t (s.hostBorn w) i with
    | some e => (indexAns i e, s)
    | none => fail stNotFound s
  else if c.op = opNext then
    match indexNext t (s.hostBorn w) i with
    | some j => (indexAns j ((indexSee t (s.hostBorn w) j).getD []), s)
    | none => fail stEnd s
  else
    let (code, s1) := s.indexWrite w (s.stages w c) c.op i b
    if code = stOk then ((stOk, [w32 i], if c.op = opDelete then [] else beWords b), s1) else fail code s1

/-- A slot's configuration words as a command reads them: staged in a session, active otherwise (R88). -/
def caseView (s : State) (w : WytheIx) (c : WinCmd) : Nat → W32 := if s.stages w c then s.stStaged else s.stActive
def tblCfg (view : Nat → W32) (w : WytheIx) (n : Nat) : W32 := view (pgComp w + 0x180 + 4 * n)
def tblAct (view : Nat → W32) (w : WytheIx) (n : Nat) : Nat := fld (view (pgComp w + 0x1A0 + 4 * n)) 18 0
def tblKind (cfg : W32) : Nat := fld cfg 31 30

def exactCmd (s : State) (w : WytheIx) (slot : Nat) (cfg : W32) (c : WinCmd) : CmdAns × State :=
  let t := s.tables w
  let wide := flag cfg 29
  let n := if wide then 10 else 4
  let words := (List.range n).map (fun i => w32 (kw c i))
  let raw := be (wordBytes words)
  let key := if wide then raw else raw / 256
  let act := wordBytes ((List.range 4).map (fun i => w32 (dw c i)))
  let put := fun (m : SMap ExactEntry) => s.setTables w (fun t => t.putExact m)
  let ans := fun (e : ExactEntry) => ((stOk, words, beWords e.act) : CmdAns)
  if c.op = opRead ∨ c.op = opNext then fail stBadOp s
  else if !wide && raw % 256 != 0 then fail stBadOperand s
  else
    let copies := exactCopies t.exact slot cfg key
    if c.op = opSearch then
      match copies.find? (fun e => seen (s.hostBorn w) e.2.born e.2.dying) with
      | some e => (ans e.2, s)
      | none => fail stNotFound s
    else if c.op ≠ opDelete ∧ !actOk act then fail stBadOperand s
    else
      let new := fun (born : Bool) => (⟨slot, wide, key, born, false, act⟩ : ExactEntry)
      match stage (s.stages w c) c.op (copies.map (fun e => (e.1, e.2.born, e.2.dying))) with
      | .refuse code => fail code s
      | .fresh born dying =>
        let m := match dying with
          | some p => match sfind t.exact p with
            | some e => sins t.exact p { e with dying := true }
            | none => t.exact
          | none => t.exact
        match exactPlace m (tblCfg (s.caseView w c) w) (tblCfg s.stActive w) (new born) with
        | some (_, m') => (ans (new born), put m')
        | none => fail stTableFull s
      | .replace p born others => (ans (new born), put (sins (others.foldl kdel t.exact) p (new born)))
      | .markDying p =>
        match sfind t.exact p with
        | some e => (ans e, put (sins t.exact p { e with dying := true }))
        | none => fail stNotFound s
      | .remove ps =>
        match copies with
        | e :: _ => (ans e.2, put (ps.foldl kdel t.exact))
        | [] => fail stNotFound s

def ternAns (t : Tables) (base i : Nat) (e : TernEntry) : CmdAns :=
  (stOk, beWords (toBe 40 e.value.toNat) ++ beWords (toBe 40 e.mask.toNat),
    w32 (at' (b2n e.born) 31 + at' (b2n e.dying) 30 + i) :: beWords (actAt t (base + i)))

def ternCmd (s : State) (w : WytheIx) (cfg : W32) (base : Nat) (c : WinCmd) : CmdAns × State :=
  let t := s.tables w
  let lo := 256 * fld cfg 15 0
  let hi := lo + 256 * fld cfg 23 16
  let i := if c.op = opWrite then dw c 0 else kw c 0
  let act := wordBytes ((List.range 4).map (fun j => w32 (dw c (j + 1))))
  let vis := fun (e : TernEntry) => seen (s.hostBorn w) e.born e.dying
  let put := fun (m : SMap TernEntry) => s.setTables w (fun t => { t with ternary := m })
  if c.op = opInsert ∨ c.op = opSearch then fail stBadOp s
  else if 0x1000 ≤ i ∨ i < lo ∨ hi ≤ i then fail stBadOperand s
  else if c.op = opRead then
    match sfind t.ternary i with
    | some e => if vis e then (ternAns t base i e, s) else fail stNotFound s
    | none => fail stNotFound s
  else if c.op = opNext then
    match t.ternary.find? (fun e => decide (i < e.1) && decide (e.1 < hi) && vis e.2) with
    | some e => (ternAns t base e.1 e.2, s)
    | none => fail stEnd s
  else if c.op = opDelete then
    match sfind t.ternary i with
    | none => fail stNotFound s
    | some e =>
      if s.stages w c && e.dying then fail stNotFound s
      else if s.stages w c && !e.born then (ternAns t base i e, put (sins t.ternary i { e with dying := true }))
      else (ternAns t base i e, put (kdel t.ternary i))
  else if !actOk act then fail stBadOperand s
  else
    let held := match sfind t.ternary i with
      | some e => s.stages w c && !e.born
      | none => false
    if held then fail stExists s
    else
      let e : TernEntry := ⟨BitVec.ofNat 320 (be (wordBytes ((List.range 10).map (fun j => w32 (kw c j))))),
        BitVec.ofNat 320 (be (wordBytes ((List.range 10).map (fun j => w32 (kw c (j + 10)))))), s.stages w c, false⟩
      let t' := { t with ternary := sins t.ternary i e }.putAct (base + i) act
      (ternAns t' base i e, s.setTables w (fun _ => t'))

/-- What a command does and answers (R128–R131). -/
def runCmd (s : State) (w : WytheIx) (t : Nat) (c : WinCmd) : CmdAns × State :=
  if c.op = 0 ∨ opNext < c.op then fail stBadOp s
  else match t with
    | 1 => s.trieCmd w c
    | 2 => s.learnCmd w c
    | 3 => s.indexCmd w c
    | _ =>
      let n := t - 8
      let cfg := tblCfg (s.caseView w c) w n
      if tblKind cfg = 1 then s.exactCmd w n cfg c
      else if tblKind cfg = 2 then s.ternCmd w cfg (tblAct (s.caseView w c) w n) c
      else fail stBadOp s

/-! Windows (R124–R127). -/

/-- Table identifiers that have a window. -/
def windowOk (t : Nat) : Bool := (decide (1 ≤ t) && decide (t ≤ 3)) || (decide (8 ≤ t) && decide (t ≤ 15))
def window (s : State) (w : WytheIx) (t : Nat) : Window := kget {} (s.tables w).windows t
def updWindow (s : State) (w : WytheIx) (t : Nat) (f : Window → Window) : State :=
  s.setTables w (fun x => { x with windows := kupd {} x.windows t f })
def sessionPending (s : State) : Bool :=
  match s.forme.session with
  | .pending _ => true
  | _ => false
def sessionOpen (s : State) : Bool :=
  match s.forme.session with
  | .open_ _ => true
  | _ => false

/-- The FIFO is held (R33, R109, R130); what waits on wythe 1 when the tie is lost reaches no table of it (R524; DEDUCED, log 17). -/
def fifoHeld (s : State) (w : WytheIx) (t : Nat) : Bool :=
  s.sessionPending || !s.joined.contains w || (s.wy w).sweep == .sweeping || (t == 1 && (s.tables w).copying)

/-- KEY and DATA words journalled for a WRITE, INSERT or DELETE (R41, R88, R128). -/
def journalWords (s : State) (w : WytheIx) (t op : Nat) : Nat × Nat :=
  let del := op == opDelete
  match t with
  | 1 => (3, if del then 0 else 1)
  | 2 => (2, if del then 0 else 2)
  | 3 => (1, if del then 0 else 8)
  | _ =>
    let cfg := tblCfg s.stStaged w (t - 8)
    if tblKind cfg = 1 then (if flag cfg 29 then 10 else 4, if del then 0 else 4)
    else if tblKind cfg = 2 then (if op = opWrite then (20, 5) else if del then (1, 0) else (0, 0))
    else (0, 0)

/-- Add an entry to the journal (R41). -/
def journal (s : State) (b : Bytes) : State := { s with forme := { s.forme with journal := s.forme.journal ++ b } }

/-- A write to COMMAND (R125–R127, R41). -/
def acceptCmd (s : State) (w : WytheIx) (t op : Nat) (tag : Byte) (quiet : Bool) : State :=
  if !windowOk t then s
  else
    let x := s.window w t
    if 16 ≤ x.fifo.length + x.resps.length then (s.updWindow w t (fun x => { x with rejected := true })).countTable w t 1
    else
      let keys := (List.range 20).map (fun i => sget (fun _ => 0) x.keys i)
      let datas := (List.range 8).map (fun i => sget (fun _ => 0) x.datas i)
      let s1 := s.updWindow w t (fun x => { x with fifo := x.fifo ++ [⟨op, tag, quiet, keys, datas,
        if s.sessionOpen then .session else if s.sessionPending then .pending else .plain⟩] })
      if (s.sessionOpen || s.sessionPending) && (op == opWrite || op == opInsert || op == opDelete || op == 0 || decide (opNext < op)) then
        let (k, d) := if op = opWrite ∨ op = opInsert ∨ op = opDelete then s.journalWords w t op else (0, 0)
        s1.journal ([0x02, BitVec.ofNat 8 (at' w.val 4 + t), BitVec.ofNat 8 op, BitVec.ofNat 8 (k + d)] ++
          wordBytes (keys.take k ++ datas.take d))
      else s1

/-- Complete a command with an answer: a response, or none for a quiet success (R127). -/
def completeCmd (s : State) (w : WytheIx) (t : Nat) (c : WinCmd) (a : CmdAns) : State :=
  let s1 := s.countTable w t 0
  if c.quiet && a.1 == stOk && (c.op == opWrite || c.op == opInsert || c.op == opDelete) then s1
  else s1.updWindow w t (fun x => { x with resps := x.resps ++ [⟨c.op, c.tag, a.1, a.2.1, a.2.2⟩] })

/-- The oldest queued command executes and completes. -/
def popCmd (s : State) (w : WytheIx) (t : Nat) (ecc : EccReport) : State :=
  match (s.window w t).fifo with
  | [] => s
  | c :: rest =>
    let s1 := (s.updWindow w t (fun x => { x with fifo := rest })).tableEcc w t ecc
    if ecc = .uncorrectable then s1.completeCmd w t c (stUncorrectable, [], [])
    else
      let (a, s2) := s1.runCmd w t c
      s2.completeCmd w t c a
/-- COMMAND_EXECUTION: the engine executes the oldest queued command (R102, R126, R139). -/
def execCmd (s : State) (w : WytheIx) (t : Nat) (ecc : EccReport) : State :=
  if s.fifoHeld w t || !s.enabled (enginePage w t) then s else s.popCmd w t ecc

/-- Complete the queued commands that `p` names with ABORTED (R33, R139). -/
def abortCmds (s : State) (w : WytheIx) (t : Nat) (p : WinCmd → Bool) : State :=
  let gone := (s.window w t).fifo.filter p
  (s.updWindow w t (fun x => { x with fifo := x.fifo.filter (fun c => !p c) })).each gone
    (fun s c => s.completeCmd w t c (stAborted, [], []))

/-- CTRL.ABORT of a table (R139). -/
def tableAbortAll (s : State) (w : WytheIx) (t : Nat) : State :=
  let s1 := s.abortCmds w t (fun _ => true)
  if t = 2 then
    (s1.count (pgLearn w + 0xA8) (s1.tables w).learnQ.length).setTables w (fun t => { t with learnQ := [] })
  else s1
/-- CTRL.ABORT of COMPOSITOR_KEYS (R96). -/
def caseAbortAll (s : State) (w : WytheIx) : State :=
  s.each ((List.range 8).map (· + 8)) (fun s t => s.abortCmds w t (fun _ => true))

/-! Sweep, abandon and switch of the tables (R37, R38, R49, R109). -/

/-- Entries with `drop` go, and the others become plain. -/
def settle (s : State) (w : WytheIx) (dropDying : Bool) : State :=
  s.setTables w (fun t => { t.putExact (t.exact.filter (fun e => !(if dropDying then e.2.dying else e.2.born))) with
    exact := (t.exact.filter (fun e => !(if dropDying then e.2.dying else e.2.born))).map (fun e => (e.1, { e.2 with born := false, dying := false }))
    ternary := (t.ternary.filter (fun e => !(if dropDying then e.2.dying else e.2.born))).map (fun e => (e.1, { e.2 with born := false, dying := false }))
    learn := (t.learn.filter (fun e => !(if dropDying then e.2.dying else e.2.born))).map (fun e => (e.1, { e.2 with born := false, dying := false })) })

/-- The sweep (R49, R123): born bits clear, dying entries go, the overlay is written, the old root's nodes are freed. -/
def sweepTables (s : State) (w : WytheIx) : State :=
  (s.settle w true).setTables w (fun t => { t with
    index := t.overlay.foldl (fun m e => sins m e.1 ⟨false, e.2⟩) (t.index.filter (fun e => !e.2.dying))
    overlay := [], trie := (t.trie.map (setReach (!t.root1) false)).filter alive })

/-- ABANDON's effect on a wythe's tables (R38). -/
def abandonTables (s : State) (w : WytheIx) : State :=
  (s.settle w false).setTables w (fun t => { t with
    index := t.index.map (fun e => (e.1, { e.2 with dying := false }))
    overlay := [], copying := false, trie := (t.trie.map (setReach (!t.root1) false)).filter alive })

/-- The root copy ends: the staged root holds what the active one does (R109). -/
def rootCopied (s : State) (w : WytheIx) : State :=
  s.setTables w (fun t => { t with
    copying := false, trie := t.trie.map (fun p => if reaches t.root1 p then setReach (!t.root1) true p else p) })

/-- The identifiers of a wythe's windows. -/
def windowIds : List Nat := [1, 2, 3] ++ (List.range 8).map (· + 8)
/-- A window's queued commands execute up to the last that the session holds. -/
def flushWindow (s : State) (w : WytheIx) (t : Nat) : State :=
  s.each (s.window w t).fifo (fun s _ => s.onlyIf ((s.window w t).fifo.any (fun c => c.kind != .plain)) (fun s => s.popCmd w t .good))
/-- A session ends: its commands that still wait execute first, as the staged writes they were accepted as, and those before them with
them (R33, R41; DESIGN CHOICE, log 17). -/
def flushSession (s : State) (w : WytheIx) : State :=
  (s.onlyIf ((s.tables w).copying && (s.window w 1).fifo.any (fun c => c.kind != .plain)) (fun s => s.rootCopied w)).each windowIds
    (fun s t => s.flushWindow w t)

/-- The switch: the staged root becomes active (R37); without a completed root copy it holds what the active one did. -/
def switchTrie (s : State) (w : WytheIx) (copied : Bool) : State :=
  let s1 := if copied then s else s.rootCopied w
  s1.setTables w (fun t => { t with root1 := !t.root1, copying := false })

end State

/-- Host windows of wythe 1 are out of reach while the tie is lost (R28). -/
def cmdRow (w : WytheIx) (t : Fin 16) (op : Nat) (tag : Byte) (quiet : Bool) (s : State) : State :=
  s.viaPage .host w (fun s => s.acceptCmd w t.val op tag quiet)

/-- READ (R128). -/
def execRead (w : WytheIx) (t : Fin 16) (tag : Byte) (quiet : Bool) (s : State) : Res := .next (cmdRow w t opRead tag quiet s)
/-- WRITE (R128). -/
def execWrite (w : WytheIx) (t : Fin 16) (tag : Byte) (quiet : Bool) (s : State) : Res := .next (cmdRow w t opWrite tag quiet s)
/-- INSERT (R128). -/
def execInsert (w : WytheIx) (t : Fin 16) (tag : Byte) (quiet : Bool) (s : State) : Res := .next (cmdRow w t opInsert tag quiet s)
/-- DELETE (R128). -/
def execDelete (w : WytheIx) (t : Fin 16) (tag : Byte) (quiet : Bool) (s : State) : Res := .next (cmdRow w t opDelete tag quiet s)
/-- SEARCH (R128). -/
def execSearch (w : WytheIx) (t : Fin 16) (tag : Byte) (quiet : Bool) (s : State) : Res := .next (cmdRow w t opSearch tag quiet s)
/-- NEXT (R128). -/
def execNextCmd (w : WytheIx) (t : Fin 16) (tag : Byte) (quiet : Bool) (s : State) : Res := .next (cmdRow w t opNext tag quiet s)

/-- COMMAND_EXECUTION (R126). -/
def execCommandExecution (w : WytheIx) (t : Fin 16) (ecc : EccReport) (s : State) : Res := .next (s.execCmd w t.val ecc)

/-- RESP_NEXT (R127). -/
def execRespNext (w : WytheIx) (t : Fin 16) (s : State) : Res :=
  .next (s.viaPage .host w (fun s => if State.windowOk t.val then s.updWindow w t.val (fun x => { x with resps := x.resps.drop 1 }) else s))

/-- LEARN_REQUEST_SERVICE (R115). -/
def execLearnRequestService (w : WytheIx) (ecc : EccReport) (s : State) : Res :=
  .next (if s.enabled (pgLearn w) then s.learnServe w ecc else s)

/-- EPOCH_CHANGE (R118). -/
def execEpochChange (w : WytheIx) (s : State) : Res := .next (s.epochNext w)

/-- AGER_VISIT (R119). -/
def execAgerVisit (w : WytheIx) (ecc : EccReport) (s : State) : Res := .next (s.agerVisit w ecc)

/-- TRIE_ROOT_COPY_END (R109). -/
def execTrieRootCopyEnd (w : WytheIx) (s : State) : Res := .next (if (s.tables w).copying then s.rootCopied w else s)

end Sys2Proof.Machine
end

