-- ==== Sys2Proof/Machine/Compositor.lean ====
section
/-! DEFINITION. The Compositor (chapter 03): intake, parsing, Case tables, spreading, the slug and its release. -/

namespace Sys2Proof.Machine

/-! EXCEPT bits (R80). -/
def exWindow : Nat := 0
def exShort : Nat := 1
def exBadLength : Nat := 2
def exIpv4Checksum : Nat := 3
def exBadVersion : Nat := 4
def exExtLimit : Nat := 5
def exNodeLimit : Nat := 6
def exFragment : Nat := 7
def exRecircLimit : Nat := 8
def exTableParity : Nat := 9
def setBit16 (v : W16) (i : Nat) : W16 := v ||| BitVec.ofNat 16 (2 ^ i)

/-- `width` bits of a byte string from bit `pos`, bit 0 the top bit of byte 0; bits beyond its end read 0 (R76). -/
def bitField (d : Bytes) (pos width : Nat) : Nat :=
  let n := (pos % 8 + width + 7) / 8
  (beAt d (pos / 8) n / 2 ^ (8 * n - pos % 8 - width)) % 2 ^ width

/-! Parsing (R73–R77, R565). -/

/-- The parse as far as it has come. `previous` is the Next Header byte of the latest IPv6 header; `needEnd` the packet ends that
R565 tests against the frame's length. -/
structure Parse where
  fields : SMap W32 := []
  except_ : W16 := 0
  offsets : Bytes := List.replicate 8 0xFF
  proto : W32 := 0
  last : Nat := 0
  done : Nat := 0
  entry : Nat := 0
  vlans : Nat := 0
  exts : Nat := 0
  previous : Nat := 0x100
  needEnd : List Nat := []
  deriving DecidableEq, Repr

/-- A node's words (R99). -/
structure Node where
  cfg : W32
  len : W32
  sel : W32
  flds : List W32
  deriving DecidableEq, Repr

def nodeAt (view : Nat → W32) (w : WytheIx) (n : Nat) : Node :=
  let b := pgGraph w (n / 32) + 0x100 + 0x40 * (n % 32)
  ⟨view b, view (b + 4), view (b + 8), (List.range 8).map (fun i => view (b + 0x10 + 4 * i))⟩

def nodeKind (n : Node) : Nat := fld n.cfg 30 27

/-- The last byte a header may reach: byte 127 or the frame's last byte, FCS included (R75). -/
def parseLimit (frame : Bytes) : Nat := min 128 frame.length
/-- The flag of a header or field beyond it. -/
def overrunFlag (frame : Bytes) : Nat := if frame.length < 128 then exShort else exWindow

/-- The header length by NODE_LEN; none when its length field lies beyond the limits (R75, R99). -/
def nodeLength (frame : Bytes) (start : Nat) (n : Node) : Option Nat :=
  if fld n.len 31 30 = 0 then some (fld n.len 7 0)
  else
    let pos := 8 * start + fld n.len 29 20
    let width := fld n.len 19 16
    if 8 * parseLimit frame < pos + width then none
    else some (bitField frame pos width * 2 ^ fld n.len 14 12 + fld n.len 7 0)

/-- Extract a node's fields (R76). -/
def extractField (frame : Bytes) (start : Nat) (m : SMap W32) (f : W32) : SMap W32 :=
  let width := fld f 5 0
  let pos := 8 * start + fld f 25 16
  if width = 0 then m
  else if 8 * parseLimit frame < pos + width then kdel m (fld f 31 27)
  else sins m (fld f 31 27) (w32 (bitField frame pos width))

def setOffset (p : Parse) (i v : Nat) : Parse := { p with offsets := p.offsets.set i (BitVec.ofNat 8 v) }
def setProto (p : Parse) (i : Nat) : Parse := { p with proto := p.proto ||| w32 (2 ^ i) }
def setExcept (p : Parse) (b : Bool) (i : Nat) : Parse := if b then { p with except_ := setBit16 p.except_ i } else p

/-- Offset byte and protocol bit of a node (R77). -/
def nodeMarks (n : Node) (start len : Nat) (p : Parse) : Parse :=
  match nodeKind n with
  | 1 => setProto (setOffset p 0 start) 0
  | 2 => let i := if p.vlans = 0 then 1 else 2
         setProto (setOffset { p with vlans := p.vlans + 1 } i start) i
  | 3 => setProto (setOffset p 3 start) 3
  | 4 => setProto (setOffset p 4 start) 4
  | 5 => setProto (setOffset p 4 start) 5
  | 6 => setProto { (if p.exts = 0 then setOffset p 5 start else p) with exts := p.exts + 1 } 9
  | 7 => setProto (setOffset (setOffset p 6 start) 7 (start + 8)) 6
  | 8 => setProto (setOffset (setOffset p 6 start) 7 (start + len)) 7
  | 9 => setProto (setOffset p 7 start) 8
  | _ =>
    let p1 := if fld n.cfg 11 8 < 8 then setOffset p (fld n.cfg 11 8) start else p
    if flag n.cfg 7 then setProto p1 (fld n.cfg 4 0) else p1

/-- Checks and effects of a node's kind; true when they end the parse (R77, R565). The IPv4 checksum covers those of the 4 × IHL bytes
that lie in the window (DESIGN CHOICE; log 44). -/
def nodeChecks (frame : Bytes) (n : Node) (start : Nat) (p : Parse) : Parse × Bool :=
  let win := slice frame 0 128
  let b := fun (i k : Nat) => beAt win (start + i) k
  match nodeKind n with
  | 4 =>
    let ihl := b 0 1 % 16
    let p1 := setExcept (setExcept p (b 0 1 / 16 != 4) exBadVersion) (decide (ihl < 5)) exBadLength
    let p2 := setExcept { p1 with needEnd := (start + b 2 2) :: p1.needEnd } (onesSum 0 (slice win start (4 * ihl)) != 0xFFFF) exIpv4Checksum
    let frag := bitsOf (b 6 2) 12 0 != 0
    (setExcept p2 frag exFragment, frag)
  | 5 =>
    let p1 := setExcept p (b 0 1 / 16 != 6) exBadVersion
    ({ p1 with needEnd := (start + 40 + b 4 2) :: p1.needEnd, previous := b 6 1 }, false)
  | 6 =>
    let frag := p.previous == 44 && b 2 2 / 8 != 0
    ({ setExcept p frag exFragment with previous := b 0 1 }, frag)
  | 7 => (setExcept p (decide (b 4 2 < 8)) exBadLength, false)
  | 8 => (setExcept p (decide (b 12 1 / 16 < 5)) exBadLength, false)
  | _ => (p, false)

/-- Where the parse goes after a completed node (R73): a node, the end, or the end with an overrun of the select field. -/
inductive After where
  | goto (n : Nat)
  | stop
  | overrun
  deriving DecidableEq, Repr

def nodeSelect (view : Nat → W32) (w : WytheIx) (frame : Bytes) (start : Nat) (n : Node) : After :=
  let pos := 8 * start + fld n.sel 31 22
  let width := fld n.sel 20 16
  if 8 * parseLimit frame < pos + width then .overrun
  else
    let v := BitVec.ofNat 16 (bitField frame pos width)
    let base := fld n.sel 15 8
    let hit := ((List.range (fld n.sel 3 0)).map (fun i => base + i)).find? (fun t =>
      let m := view (pgTrans w + 0x100 + 8 * t)
      let mask := BitVec.ofNat 16 (fld m 31 16)
      decide (t < 256) && (v &&& mask == BitVec.ofNat 16 (fld m 15 0) &&& mask))
    match hit with
    | some t =>
      let x := view (pgTrans w + 0x104 + 8 * t)
      if flag x 31 then .stop else .goto (fld x 5 0)
    | none => if flag n.cfg 22 then .stop else .goto (fld n.cfg 21 16)

/-- Parse from node `n` at byte `start`, at most `fuel` further nodes (R73–R77). -/
def parseFrom (view : Nat → W32) (w : WytheIx) (frame : Bytes) : Nat → Nat → Nat → Parse → Parse
  | 0, _, _, p => setExcept p true exNodeLimit
  | fuel + 1, n, start, p =>
    let node := nodeAt view w n
    if !flag node.cfg 31 then p
    else if nodeKind node = 6 ∧ p.exts = 2 then setExcept p true exExtLimit
    else match nodeLength frame start node with
      | none => setExcept p true (overrunFlag frame)
      | some len =>
        if parseLimit frame < start + len then setExcept p true (overrunFlag frame)
        else
          let p1 := { p with fields := node.flds.foldl (extractField frame start) p.fields }
          let (p2, ends) := nodeChecks frame node start (nodeMarks node start len p1)
          let p3 := { p2 with last := n, done := p2.done + 1, entry := fld node.cfg 15 12 }
          if ends then p3
          else match nodeSelect view w frame start node with
            | .stop => p3
            | .overrun => setExcept p3 true (overrunFlag frame)
            | .goto n' => parseFrom view w frame fuel n' (start + len) p3

/-- The parse of a frame received on a port (R73, R79). -/
def parseFrame (view : Nat → W32) (w : WytheIx) (port : Nat) (frame : Bytes) : Parse :=
  let n := fld (view (pgComp w + 0x100 + 4 * port)) 5 0
  let p := parseFrom view w frame 16 n 0 {}
  if nodeKind (nodeAt view w n) = 1 then setOffset p 0 0 else p

/-- A packet fits the frame (R565). -/
def packetsFit (needEnd : List Nat) (len : Nat) : Bool := needEnd.all (fun e => decide (e + 4 ≤ len))

/-! The slug (R79). -/

/-- The 64 metadata bytes of a slug. -/
def slugMeta (w : WytheIx) (e : CompEntry) (len handle stamp place seq hash : Nat) : Bytes :=
  toBe 2 (at' w.val 15 + e.port) ++ toBe 2 len ++ toBe 4 handle ++ toBe 8 stamp ++ toBe 2 e.forme.toNat ++ toBe 2 place ++
    toBe 2 seq ++ toBe 2 e.except_.toNat ++ e.offsets ++ toBe 4 hash ++ toBe 2 e.stream.toNat ++ toBe 1 e.hint.toNat ++
    toBe 1 (at' e.recirculations 6 + e.tablesRun) ++ toBe 4 e.proto.toNat ++ toBe 2 e.lastNode.toNat ++ toBe 2 e.hitmap.toNat ++
    wordBytes e.user

/-! Keys (R82, R84). -/

/-- Segments concatenated: value and bits. -/
def keyBits (fields : SMap W32) (scratch md : Bytes) (segs : List W32) : Nat × Nat :=
  segs.foldl (fun (acc : Nat × Nat) g =>
    let len := fld g 5 0
    let idx := fld g 29 24
    let word : Nat := match fld g 31 30 with
      | 0 => ((sfind fields (idx % 32)).getD 0).toNat
      | 1 => beAt scratch idx 4
      | 2 => beAt md idx 4
      | _ => (fields.map (fun f => 2 ^ f.1)).sum
    (acc.1 * 2 ^ len + (word / 2 ^ fld g 20 16) % 2 ^ len, acc.2 + len)) (0, 0)
/-- A key placed at the top of `width` bits. -/
def keyOf (width : Nat) (k : Nat × Nat) : Nat := if width ≤ k.2 then k.1 / 2 ^ (k.2 - width) else k.1 * 2 ^ (width - k.2)

/-! Action records (R90, R91). -/

def applyAction (r : Bytes) (e : CompEntry) : CompEntry :=
  let b0 := beAt r 0 1
  let b1 := beAt r 1 1
  let v := beAt r 2 2
  let off := bitsOf (beAt r 4 1) 5 0
  let n := min 8 (bitsOf v 12 9)
  let hint1 := if bitOf b0 3 then e.hint ||| 0x40 else e.hint
  let hint2 := if bitOf b0 2 then (hint1 &&& 0xF8) ||| BitVec.ofNat 8 (bitsOf b1 7 5) ||| 0x20 else hint1
  let hint3 := if bitOf b0 1 then hint2 ||| 0x80 else hint2
  let hint4 := if bitOf b1 0 then hint3 ||| 0x10 else hint3
  { e with
    scratch := (patch e.scratch off (slice r 8 n)).take 64
    stream := if bitOf b0 3 then BitVec.ofNat 16 (beAt r 6 2) else e.stream
    hint := hint4
    profile := if bitOf b1 4 then some (bitsOf b1 3 1) else e.profile
    pin := if bitOf b1 0 then some (bitsOf v 8 0) else e.pin
    user := if bitOf v 15 then e.user.set (bitsOf v 14 13) (w32 (beAt r 12 4)) else e.user }

namespace State

/-- The record a Case lookup finds (R85–R87): none on a miss. -/
def caseLook (s : State) (w : WytheIx) (slot : Nat) (cfg : W32) (forme : W16) (key : Nat) (ecc : EccReport) : Option Bytes × State :=
  let t := s.tables w
  let born := s.bornView w forme
  match tblKind cfg with
  | 1 =>
    if ecc = .uncorrectable then (none, s)
    else (((exactCopies t.exact slot cfg key).find? (fun e => seen born e.2.born e.2.dying)).map (·.2.act), s)
  | 2 =>
    let lo := 256 * fld cfg 15 0
    let hi := lo + 256 * fld cfg 23 16
    let k : BitVec 320 := BitVec.ofNat 320 key
    if ecc = .uncorrectable then (none, s)
    else ((t.ternary.find? (fun e => decide (lo ≤ e.1) && decide (e.1 < hi) && seen born e.2.born e.2.dying &&
      (k &&& e.2.mask == e.2.value &&& e.2.mask))).map (fun e => actAt t (tblAct (s.stOf w forme) w slot + e.1)), s)
  | _ =>
    let (b, s1) := s.indexLook w ((key + fld cfg 15 0) % 65536) born ecc
    (b.map (fun b => slice b (if flag cfg 28 then 16 else 0) 16), s1)

/-- The metadata bytes a key segment reads during classification (R82): PLACE, SEQUENCE and HASH read 0. HANDLE reads 0 while no buffer
is allocated, and HITMAP and PASS hold what the pass before left (DESIGN CHOICE; log 44). -/
def metaNow (s : State) (w : WytheIx) (e : CompEntry) : Bytes :=
  match (s.wy w).rx.find? (fun f => f.id == e.frame) with
  | some f => slugMeta w e (min 128 f.data.length) (f.handle.getD 0) f.stamp 0 0 0
  | none => List.replicate 64 0

/-- One pass from `slot` (R81, R91, R92): the entry, and the slot to recirculate to. -/
def casePass (w : WytheIx) (parity corrected : Byte) : Nat → Nat → Nat → Nat → Nat → CompEntry → State → Option Nat × CompEntry × State
  | 0, _, run, hit, n, e, s => (none, { e with hitmap := BitVec.ofNat 16 (256 * hit + run), tablesRun := n }, s)
  | fuel + 1, slot, run, hit, n, e, s =>
    let view := s.stOf w e.forme
    let cfg := tblCfg view w slot
    let kind := tblKind cfg
    let width := if kind = 3 then 16 else if kind = 2 ∨ flag cfg 29 then 320 else 120
    let segs := (List.range 10).map (fun m => view (pgKeys w + 0x100 + 0x40 * slot + 4 * m))
    let key := keyOf width (keyBits e.fields e.scratch (s.metaNow w e) segs)
    let bad := kind != 0 && parity.getLsbD slot
    let (rec, s1) := if kind = 0 then (none, s) else s.caseLook w slot cfg e.forme key
      (if bad then .uncorrectable else if corrected.getLsbD slot then .corrected else .good)
    let s2 := if kind = 0 then s1
      else s1.count (pgComp w + (if rec.isSome then 0x70 else 0xB0) + 8 * slot) 1
    let miss := wordBytes ((List.range 4).map (fun i => view (pgComp w + 0x1C0 + 0x10 * slot + 4 * i)))
    let act := rec.getD miss
    let e1 := applyAction act (if bad then { e with except_ := setBit16 e.except_ exTableParity } else e)
    let run' := run + 2 ^ slot
    let hit' := if rec.isSome then hit + 2 ^ slot else hit
    let next := bitsOf (beAt act 0 1) 7 4
    let done := { e1 with hitmap := BitVec.ofNat 16 (256 * hit' + run'), tablesRun := n + 1 }
    if 8 ≤ next then (none, done, s2)
    else if next ≤ slot then (some next, done, s2)
    else casePass w parity corrected fuel next run' hit' (n + 1) e1 s2

/-- The spreading hash (R94). -/
def spreadHash (s : State) (w : WytheIx) (e : CompEntry) : W32 :=
  let view := s.stOf w e.forme
  let prof := e.profile.getD (fld (view (pgComp w + 0x100 + 4 * e.port)) 14 12)
  let (v, n) := keyBits e.fields e.scratch (s.metaNow w e) ((List.range 8).map (fun m => view (pgKeys w + 0x300 + 0x20 * prof + 4 * m)))
  let d := toBe ((n + 7) / 8) (v * 2 ^ ((8 - n % 8) % 8))
  if flag (view (pgComp w + 0x240 + 4 * prof)) 0 then
    w32 (toeplitzF (be (wordBytes ((List.range 10).map (fun i => view (pgComp w + 0x260 + 4 * i))))) 320 0 d 0)
  else w32 (crc32c d)

def setEntry (s : State) (w : WytheIx) (e : CompEntry) : State :=
  s.updComp w (fun c => { c with entries := c.entries.map (fun x => if x.frame == e.frame then e else x) })

/-- The course and domain of a slug, and whether the fallback is used (R95). -/
def placeOf (s : State) (w : WytheIx) (e : CompEntry) : Bool × Nat × Nat :=
  let view := s.stOf w e.forme
  let grp := fld (view (pgComp w + 0x100 + 4 * e.port)) 10 8
  let idx := e.pin.getD (e.hash.toNat % 512)
  let v := view (pgInd w grp + 0x100 + 4 * idx)
  let mode := (s.wy w).mode
  let fb := mode == .half || ((mode == .run || mode == .plumb) && (s.course w (fld v 14 12)).held)
  if fb then (true, fld v 30 28, fld v 27 16) else (false, fld v 14 12, fld v 11 0)

/-- The lowest key from `n` on that a map does not list. -/
def firstFree {α : Type} : Nat → SMap α → Nat
  | n, [] => n
  | n, (k, _) :: r => if k = n then firstFree (n + 1) r else n

def slotsUsed (s : State) (w : WytheIx) : Nat := (s.wy w).coll.slots.length
/-- No sequence slot can be assigned (R15, R277). -/
def noSlot (s : State) (w : WytheIx) : Bool := !s.enabled (pgColl w) || decide (16384 ≤ s.slotsUsed w)
/-- A held slug that could be released now but for R72 and the order of releases. -/
def heldReady (s : State) (w : WytheIx) (e : CompEntry) : Bool :=
  e.stage == .held && (match (s.wy w).rx.find? (fun f => f.id == e.frame) with
    | some f => f.handle.isSome && (f.ended || earlyPort w (s.stOf w e.forme) e.port)
    | none => false)
/-- Release and intake are stopped: no sequence slot is free, or the queue of the course a finished slug names is full (R15, R16, R72). -/
def compStopped (s : State) (w : WytheIx) : Bool :=
  s.noSlot w || (s.wy w).comp.entries.any (fun e => e.stage == .held &&
    !(s.course w (s.placeOf w e).2.1).held && decide (256 ≤ (s.course w (s.placeOf w e).2.1).dq.length))

/-- How far a port stands behind the one last served, in a rotation over the 25 ports (R69, R70). -/
def portTurn (last p : Nat) : Nat := (p + 24 - last) % 25
/-- `now` at which a held slug became ready for release (R70). -/
def readyAt (s : State) (w : WytheIx) (e : CompEntry) : Nat :=
  match (s.wy w).rx.find? (fun f => f.id == e.frame) with
  | some f => if earlyPort w (s.stOf w e.forme) e.port then e.heldAt else max e.heldAt f.endAt
  | none => e.heldAt
/-- A ready slug is the next to be released: earlier ready ones first, and those of one cycle in the rotation of ports (R70). -/
def releaseTurn (s : State) (w : WytheIx) (e : CompEntry) : Bool :=
  let c := (s.wy w).comp
  c.entries.all (fun x => !s.heldReady w x || decide (s.readyAt w e < s.readyAt w x) ||
    (s.readyAt w e == s.readyAt w x && decide (portTurn c.lastOut e.port ≤ portTurn c.lastOut x.port)))
/-- The first frame of a port not yet taken in, when its first 128 bytes or all of it have arrived (R68). -/
def intakeReady (s : State) (w : WytheIx) (p : Nat) : Option RxFrame :=
  ((s.wy w).rx.find? (fun f => f.port == p && !f.taken && !f.refused)).filter (fun f => f.ended || decide (128 ≤ f.data.length))
/-- An intake cycle falls to a port: no recirculating frame waits, and no ready port stands before it in the rotation (R69). -/
def intakeTurn (s : State) (w : WytheIx) (p : Nat) : Bool :=
  let c := (s.wy w).comp
  !c.entries.any (fun e => e.stage == .recirculating) && (List.range 25).all (fun q => (s.intakeReady w q).isNone ||
    decide (portTurn c.lastIn p ≤ portTurn c.lastIn q))

/-- COMPOSITOR_INTAKE: a port's first frame enters, stamped with the forme number (R13, R68, R69). -/
def compIntake (s : State) (w : WytheIx) (p : Nat) : State :=
  match s.intakeReady w p with
  | none => s
  | some f =>
    if !s.enabled (pgComp w) || (s.wy w).outputsClosed || s.compStopped w || !s.intakeTurn w p then s
    else
      let e : CompEntry :=
        { frame := f.id, port := p, forme := s.formeNo w, stage := .pipeline, parsed := false, nextSlot := 8
          scratch := List.replicate 64 0, fields := [], except_ := 0, offsets := List.replicate 8 0xFF, proto := 0, lastNode := 0
          hitmap := 0, recirculations := 0, tablesRun := 0, stream := 0, hint := 0, user := [0, 0, 0, 0], profile := none, pin := none
          hash := 0, needEnd := [] }
      (s.updRx w f.id (fun r => { r with taken := true })).updComp w (fun c => { c with entries := c.entries ++ [e], lastIn := p })

/-- Release a slug of the hold area (R15, R70, R71, R95): with the next sequence number of its domain, to its course's queue. -/
def slugRelease (s : State) (w : WytheIx) (e : CompEntry) : State :=
  match (s.wy w).rx.find? (fun f => f.id == e.frame) with
  | none => s
  | some f =>
    if !s.heldReady w e || s.compStopped w || !s.releaseTurn w e then s
    else
      let (fb, course, dom) := s.placeOf w e
      let gone := (s.compDiscard w e.frame).updComp w (fun c => { c with lastOut := e.port })
      if (s.course w course).held then
        let s1 := (((gone.rxFree w f).drop w e.port .courseClosed).count (pgComp w + 0xF0) 1)
        if f.ended then s1.delRx w f.id else s1.updRx w f.id (fun r => { r with refused := true, cause := none, handle := none })
      else
        let h := f.handle.getD 0
        let early := !f.ended
        let long := f.ended && !packetsFit e.needEnd f.data.length && !earlyPort w (s.stOf w e.forme) e.port
        let e1 : CompEntry := { e with
          except_ := if long then setBit16 e.except_ exBadLength else e.except_
          hint := if earlyPort w (s.stOf w e.forme) e.port then e.hint ||| 0x08 else e.hint }
        let coll := (s.wy w).coll
        let slot := firstFree 0 coll.slots
        let serial := coll.nextSerial
        let seq := kget 0 coll.nextSeq dom
        let len := if earlyPort w (s.stOf w e.forme) e.port then 0 else f.data.length
        let bytes := (padTo 128 (f.data.take 128)) ++
          slugMeta w e1 len h f.stamp (at' (b2n fb) 15 + at' course 12 + dom) seq.toNat e.hash.toNat
        let sl : SeqSlot :=
          { state := .pending, domain := dom, seq := seq, forme := e.forme, port := e.port, handle := w32 h, serial := serial
            frame := if early then some f.id else none }
        let head := kget [] coll.order dom
        let s1 := gone.updColl w (fun c => { c with
          slots := sins c.slots slot sl, nextSerial := serial + 1, nextSeq := sins c.nextSeq dom (seq + 1)
          order := sins c.order dom (head ++ [slot])
          headSince := if head.isEmpty then sins c.headSince dom s.now else c.headSince
          flights := sins c.flights serial ⟨e.forme, 1⟩, slotsMax := max c.slotsMax (coll.slots.length + 1) })
        let s2 := s1.updCourse w course (fun k => { k with
          dq := k.dq ++ [⟨bytes, slot, serial⟩], dqMax := max k.dqMax (k.dq.length + 1) })
        let s3 := if early then s2.updRx w f.id (fun r => { r with released := true }) else s2.delRx w f.id
        let s4 := (s3.count (pgColl w + 0x40) 1).count (pgComp w + 0x40) 1
        let s5 := s4.onlyIf (e1.except_ != 0) (fun s => s.count (pgComp w + 0x50) 1)
        let s6 := s5.onlyIf fb (fun s => s.count (pgComp w + 0x68) 1)
        s6.onlyIf (coll.slots.length + 1 == 16384) (fun s => s.raiseBit (pgColl w) 2)

/-- SPREADING_END: the first frame of a port in the pipeline is parsed, passes the Case tables, and is spread or recirculates
(R70, R73, R81, R92, R94). On a port with EARLY the slug is released at once when it can be (R71). The hold area holds one slug of a
port: while it does, the port's next frame waits in the pipeline (R70). -/
def spreadEnd (s : State) (w : WytheIx) (p : Nat) (parity corrected : Byte) : State :=
  match (s.wy w).comp.entries.find? (fun e => e.port == p && e.stage == .pipeline) with
  | none => s
  | some e =>
    if (s.wy w).comp.entries.any (fun e => e.port == p && e.stage == .held) then s else
    match (s.wy w).rx.find? (fun f => f.id == e.frame) with
    | none => s
    | some f =>
      let view := s.stOf w e.forme
      let e1 : CompEntry := if e.parsed then e
        else
          let r := parseFrame view w p f.data
          let now := f.ended && !packetsFit r.needEnd f.data.length
          { e with
            parsed := true, nextSlot := r.entry, fields := r.fields, offsets := r.offsets, proto := r.proto
            except_ := if now then setBit16 r.except_ exBadLength else r.except_
            lastNode := BitVec.ofNat 16 (256 * r.done + r.last), needEnd := r.needEnd }
      let (again, e2, s1) := if 8 ≤ e1.nextSlot then (none, { e1 with hitmap := 0, tablesRun := 0 }, s)
        else casePass w parity corrected 8 e1.nextSlot 0 0 0 e1 s
      match again with
      | some n =>
        if e2.recirculations < 2 then
          (s1.setEntry w { e2 with stage := .recirculating, nextSlot := n, recirculations := e2.recirculations + 1 }).count (pgComp w + 0x48) 1
        else
          let e3 := { e2 with except_ := setBit16 e2.except_ exRecircLimit, stage := .held, heldAt := s.now }
          let e4 := { e3 with hash := s1.spreadHash w e3 }
          let s2 := (s1.setEntry w e4).count (pgComp w + 0x58) 1
          if earlyPort w view p then s2.slugRelease w e4 else s2
      | none =>
        let e4 := { e2 with stage := .held, heldAt := s.now, hash := s1.spreadHash w e2 }
        let s2 := s1.setEntry w e4
        if earlyPort w view p then s2.slugRelease w e4 else s2

/-- CTRL.ABORT of the Compositor (R96). -/
def compAbort (s : State) (w : WytheIx) : State :=
  let es := (s.wy w).comp.entries
  s.each es (fun s e =>
    match (s.wy w).rx.find? (fun f => f.id == e.frame) with
    | none => s.compDiscard w e.frame
    | some f =>
      let s1 := (((s.compDiscard w e.frame).rxFree w f).drop w e.port .compositorAbort).count (pgComp w + 0xF8) 1
      if f.ended then s1.delRx w f.id else s1.updRx w f.id (fun r => { r with refused := true, cause := none, handle := none }))

/-- Cycles in which the Compositor is stopped are counted (R72, R280). -/
def stallTick (s : State) (w : WytheIx) : State :=
  (s.onlyIf (s.compStopped w) (fun s => s.count (pgComp w + 0x60) 1)).onlyIf (s.noSlot w) (fun s => s.count (pgColl w + 0xA0) 1)

end State

/-- COMPOSITOR_INTAKE (R68, R69). -/
def execCompositorIntake (w : WytheIx) (p : PortIx) (s : State) : Res := .next (s.compIntake w p.val)

/-- SPREADING_END (R70). -/
def execSpreadingEnd (w : WytheIx) (p : PortIx) (parity corrected : Byte) (s : State) : Res :=
  .next (s.spreadEnd w p.val parity corrected)

/-- RECIRCULATION (R92): the oldest recirculating frame of a port re-enters at an intake cycle. -/
def execRecirculation (w : WytheIx) (p : PortIx) (s : State) : Res :=
  .next (match (s.wy w).comp.entries.find? (fun e => e.port == p.val && e.stage == .recirculating) with
    | some e => if s.compStopped w then s else s.setEntry w { e with stage := .pipeline }
    | none => s)

/-- SLUG_RELEASE (R70). -/
def execSlugRelease (w : WytheIx) (p : PortIx) (s : State) : Res :=
  .next (match (s.wy w).comp.entries.find? (fun e => e.port == p.val && e.stage == .held) with
    | some e => s.slugRelease w e
    | none => s)

end Sys2Proof.Machine
end

