-- ==== Sys2Proof/Machine/Collator.lean ====
section
/-! DEFINITION. The Collator (chapter 09): verdicts, releases in order, hold limits, discards and abort. -/

namespace Sys2Proof.Machine

/-- The segments a descriptor uses (R268). -/
def segsOf (d : Bytes) : List Seg :=
  (List.range (bitsOf (beAt d 4 1) 1 0)).map (fun i => ⟨beAt d (8 + 8 * i) 4, beAt d (12 + 8 * i) 2, beAt d (14 + 8 * i) 2⟩)
/-- The segments a verdict names. -/
def verdictSegs : Verdict → List Seg
  | .forward d => segsOf d
  | .multi d => segsOf d
  | _ => []
/-- Its target words (R268). -/
def verdictTargets : Verdict → List Nat
  | .forward d => [beAt d 0 4]
  | .multi d => (List.range (min 16 (beAt d 32 1))).map (fun i => beAt d (36 + 4 * i) 4)
  | _ => []
def targetW (t : Nat) : WytheIx := if bitOf t 31 then 1 else 0
def targetHost (t : Nat) : Bool := bitOf t 30
def targetNo (t : Nat) : Nat := bitsOf t 28 24
/-- A target as a tie copy carries it. -/
def targetOf (t : Nat) : Bool × Nat × Nat × W16 := (targetHost t, targetNo t, bitsOf t 23 21, BitVec.ofNat 16 (bitsOf t 15 0))
/-- A target word with a reserved bit set, or a port that does not exist (R269). -/
def badTarget (t : Nat) : Bool := bitOf t 29 || bitsOf t 20 16 != 0 || (decide (23 < targetNo t) && !targetHost t)

namespace State

/-- A descriptor that the Collator's check finds invalid (R269). -/
def badDescriptor (s : State) (w : WytheIx) (v : Verdict) : Bool :=
  let segs := verdictSegs v
  let d := match v with
    | .forward d => d
    | .multi d => d
    | _ => []
  let multi := match v with
    | .multi d => beAt d 32 1 == 0 || decide (16 < beAt d 32 1) || beAt d 33 3 != 0
    | _ => false
  segs.isEmpty || multi || bitsOf (beAt d 4 1) 7 2 != 0 || beAt d 5 3 != 0 || (verdictTargets v).any badTarget ||
    segs.any (fun g => decide (2 ^ 27 ≤ g.handle) || !s.goodHandle w g.handle || g.len == 0 ||
      decide (s.poolSize w (handlePool g.handle) < g.off + g.len)) ||
    decide (16383 < (segs.map (·.len)).sum)

/-- Does a verdict name the slug's buffer? -/
def namesSlug (sl : SeqSlot) (v : Verdict) : Bool := (verdictSegs v).any (fun g => g.handle == sl.handle.toNat)

/-- Act as DROP: every buffer named is decremented once for each naming, and the slug's buffer when it is not named (R265, R269). -/
def dropRefs (s : State) (w : WytheIx) (sl : SeqSlot) (v : Verdict) : State :=
  (s.each (verdictSegs v) (fun s g => s.refDown w g.handle)).onlyIf (!namesSlug sl v) (fun s => s.refDown w sl.handle.toNat)

def collSlot (s : State) (w : WytheIx) (i : Nat) : Option SeqSlot := sfind (s.wy w).coll.slots i
def freeSlot (s : State) (w : WytheIx) (i : Nat) : State := s.updColl w (fun c => { c with slots := kdel c.slots i })
/-- The head slot of a domain (R266). -/
def collHead (s : State) (w : WytheIx) (d : Nat) : Option (Nat × SeqSlot) :=
  match kget [] (s.wy w).coll.order d with
  | i :: _ => (s.collSlot w i).map (fun x => (i, x))
  | [] => none
/-- Take a slot out of its domain's turn; a new head's hold timer starts (R266, R270). -/
def leaveOrder (s : State) (w : WytheIx) (d i : Nat) : State :=
  let l := kget [] (s.wy w).coll.order d
  s.updColl w (fun c => { c with
    order := sins c.order d (l.erase i)
    headSince := if l.head? = some i then sins c.headSince d s.now else c.headSince })

/-- A discarded slug at its turn, or an orphan's (R266, R274): its buffer is decremented and its slot freed. -/
def discardDone (s : State) (w : WytheIx) (i : Nat) (x : SeqSlot) : State :=
  (((s.refDown w x.handle.toNat).count (pgColl w + 0x88) 1).freeSlot w i).flightDone w x.serial

/-- The turn passes at once over DISCARDED heads (R266). -/
def passDiscarded (w : WytheIx) (d : Nat) : Nat → State → State
  | 0, s => s
  | n + 1, s =>
    match s.collHead w d with
    | some (i, x) => if x.state = .discarded then passDiscarded w d n ((s.leaveOrder w d i).discardDone w i x) else s
    | none => s
/-- The turn passes from slot `i` of domain `d`. -/
def turnPasses (s : State) (w : WytheIx) (d i : Nat) : State :=
  let n := (kget [] (s.wy w).coll.order d).length
  passDiscarded w d n (s.leaveOrder w d i)

/-- A slug is discarded without a verdict (R266, R274); a slot taken again since, or freed, is left alone. -/
def discardSlot (s : State) (w : WytheIx) (i serial : Nat) : State :=
  match s.collSlot w i with
  | none => s
  | some x =>
    if x.serial ≠ serial then s
    else match x.state with
      | .pending =>
        let s1 := s.updColl w (fun c => { c with slots := sins c.slots i { x with state := .discarded } })
        passDiscarded w x.domain (kget [] (s.wy w).coll.order x.domain).length s1
      | .orphan => s.discardDone w i x
      | _ => s

/-- VERDICT_ARRIVAL: the `i`-th verdict on its way is recorded, or is late, stale or a duplicate (R17, R267, R272, R273).
DEDUCED (log 33): a further verdict for a number whose slot is already free counts as stale, not as a duplicate. -/
def verdictArrives (s : State) (w : WytheIx) (i : Nat) : State :=
  match (s.wy w).coll.verdicts[i]? with
  | none => s
  | some m =>
    let s1 := s.updColl w (fun c => { c with verdicts := c.verdicts.eraseIdx i })
    let stale := s1.count (pgColl w + 0x78) 1
    match m.slot with
    | none => stale
    | some (k, serial) =>
      match s1.collSlot w k with
      | none => stale
      | some x =>
        if x.serial ≠ serial then stale
        else match x.state with
          | .pending => s1.updColl w (fun c => { c with slots := sins c.slots k { x with state := .ready m.verdict } })
          | .ready _ => s1.count (pgColl w + 0x80) 1
          | .discarded => stale
          | .orphan =>
            let s2 := if m.verdict = .hold then s1 else s1.dropRefs w x m.verdict
            ((((s2.freeSlot w k).flightDone w serial).count (pgColl w + 0x70) 1).drop w x.port .lateVerdict).raiseBit (pgColl w) 1

/-- Flits waiting in a direction's transmit queue (R518). -/
def txDepth (s : State) (w : WytheIx) : Nat := ((s.wy w).tie.txq.map (·.flits)).sum

/-- The increments a verdict makes pass 255 for some buffer (R265). -/
def refsTooHigh (s : State) (w : WytheIx) (segs : List Seg) (n : Nat) : Bool :=
  segs.any (fun g => decide (255 < s.refCount w g.handle + n * (segs.filter (fun k => k.handle == g.handle)).length))

/-- The host queues of a wythe take no frames: wythe 1's while the tie is lost, until the rejoin completes (R22, R527). -/
def hostCut (s : State) (w : WytheIx) : Bool := w == 1 && wythes.any s.split
/-- Send a valid verdict's copies (R19, R21, R265); a frame that wythe 1 directs to its host queues while the tie is lost is dropped at
its host port (R22). -/
def sendCopies (s : State) (w : WytheIx) (x : SeqSlot) (v : Verdict) : State :=
  let segs := verdictSegs v
  let targets := verdictTargets v
  let here := targets.filter (fun t => targetW t == w)
  let there := targets.filter (fun t => targetW t != w)
  let copies := here.length + (if there.isEmpty then 0 else 1)
  if s.refsTooHigh w segs (copies - 1) then
    (((s.count (pgColl w + 0x98) 1).drop w x.port .refLimit).dropRefs w x v).flightDone w x.serial
  else
    let multi := match v with
      | .multi _ => true
      | _ => false
    let s1 := s.onlyIf multi (fun s => s.count (pgColl w + 0x60) 1)
    let s2 := s1.each segs (fun s g => s.refUp w g.handle (copies - 1))
    let s3 := s2.onlyIf (!namesSlug x v) (fun s => s.refDown w x.handle.toNat)
    let s4 := s3.updColl w (fun c => { c with flights := sins c.flights x.serial ⟨x.forme, copies⟩ })
    let early := x.frame.filter (fun f => (s.wy w).rx.any (fun r => r.id == f && !r.ended))
    let s5 := s4.each here (fun s t =>
      let (hostq, port, cls, stream) := targetOf t
      let c : Copy :=
        { group := x.serial, hostq := hostq, port := port, cls := cls, stream := stream, segs := segs, forme := x.forme, ingressW := w
          ingressPort := x.port, slugHandle := x.handle, early := early, cut := false, len := lenOf segs, queued := 0, yellow := false
          started := false }
      if hostq && s.hostCut w then ((s.releaseSegs w c).flightDone w x.serial).drop w 24 .tieLost else s.pressArrive w false c)
    if there.isEmpty then s5
    else
      let t : TieCopy :=
        { group := x.serial, targets := there.map targetOf, segs := segs, data := [], forme := x.forme, ingressW := w
          ingressPort := x.port, flits := flitsOf segs, slugHandle := x.handle, early := early, handle := 0, egressGroup := 0 }
      if s.split w then ((s5.releaseSegs w (tieAsCopy t)).flightDone w x.serial).drop w x.port .tieLost
      else s5.updTie w (fun k => { k with txq := k.txq ++ [t] })

/-- A release that crosses the tie must wait for room in its transmit queue (R518). -/
def noTieRoom (s : State) (w : WytheIx) (v : Verdict) : Bool :=
  !s.badDescriptor w v && !s.split w && (verdictTargets v).any (fun t => targetW t != w) &&
    decide (2048 < s.txDepth w + flitsOf (verdictSegs v))

/-- A domain whose release is held stands in front of this one's (R518). -/
def heldBefore (s : State) (w : WytheIx) (d : Nat) : Bool :=
  match (s.wy w).coll.held with
  | none => false
  | some h => h != d && (match s.collHead w h with
    | some (_, x) => (match x.state with
      | .ready v => s.noTieRoom w v
      | _ => false)
    | none => false)

/-- DESCRIPTOR_RELEASE: the READY head of a domain is released and its slot freed (R265–R269). -/
def release (s : State) (w : WytheIx) (d : Nat) : State :=
  match s.collHead w d with
  | none => s
  | some (i, x) =>
    match x.state with
    | .ready v =>
      let crosses := match v with
        | .forward _ => true
        | .multi _ => true
        | _ => false
      if s.heldBefore w d then s
      else if crosses && s.noTieRoom w v then s.updColl w (fun c => { c with held := some d })
      else
        let s1 := ((s.updColl w (fun c => { c with held := none })).count (pgColl w + 0x48) 1).freeSlot w i
        let s2 := match v with
          | .drop => (((s1.count (pgColl w + 0x50) 1).drop w x.port .verdictDrop).refDown w x.handle.toNat).flightDone w x.serial
          | .hold => (s1.count (pgColl w + 0x58) 1).flightDone w x.serial
          | _ =>
            if s.badDescriptor w v then
              (((s1.count (pgColl w + 0x90) 1).drop w x.port .badDescriptor).dropRefs w x v).flightDone w x.serial
            else s1.sendCopies w x v
        s2.turnPasses w d i
    | _ => s

/-- The hold limit of a domain under a forme, in ns; 0 none (R270, R282). -/
def holdLimit (s : State) (w : WytheIx) (forme : W16) (d : Nat) : Nat :=
  let prof := bitsOf (s.stOf w forme (pgDomains w + 0x100 + 4 * (d / 8))).toNat (4 * (d % 8) + 3) (4 * (d % 8))
  100 * fld (s.stOf w forme (pgColl w + 0x110 + 4 * prof)) 23 0

/-- SKIP: the hold limit passes at a PENDING head (R271). -/
def skipHead (s : State) (w : WytheIx) (d : Nat) : State :=
  match s.collHead w d with
  | none => s
  | some (i, x) =>
    let l := s.holdLimit w x.forme d
    if x.state ≠ .pending ∨ l = 0 ∨ s.now < kget 0 (s.wy w).coll.headSince d + l then s
    else
      let s1 := s.updColl w (fun c => { c with slots := sins c.slots i { x with state := .orphan } })
      (((s1.count (pgColl w + 0x68) 1).count (witSkips w) 1).raiseBit (pgColl w) 0).turnPasses w d i

/-- CTRL.ABORT of the Collator (R277): every slot is freed, and DROP applied to each frame. -/
def collAbort (s : State) (w : WytheIx) : State :=
  let slots := (s.wy w).coll.slots
  let s1 := s.updColl w (fun c => { c with slots := [], order := [], headSince := [], held := none })
  s1.each slots (fun s e =>
    let x := e.2
    let s2 := match x.state with
      | .ready v => s.each ((verdictSegs v).filter (fun (g : Seg) => g.handle != x.handle.toNat)) (fun s g => s.refDown w g.handle)
      | _ => s
    (((s2.refDown w x.handle.toNat).count (pgColl w + 0x88) 1).drop w x.port .collatorAbort).flightDone w x.serial)

/-- Frames in flight of a forme number (R275). -/
def flightOf (s : State) (w : WytheIx) (forme : W16) : Nat := ((s.wy w).coll.flights.filter (fun e => e.2.forme == forme)).length

/-- The drain limit expires (R50, R274): ORPHAN slots of the forme are discarded, and verdicts waiting for their turn act as DROP;
each frame counts FORME_DRAIN at its ingress port. -/
def collDrain (s : State) (w : WytheIx) (forme : W16) : State :=
  let mine := (s.wy w).coll.slots.filter (fun e => e.2.forme == forme)
  s.each mine (fun s e =>
    let (i, x) := e
    match x.state with
    | .orphan => (s.discardDone w i x).drop w x.port .formeDrain
    | .ready v =>
      let s1 := if v = .hold then s else s.dropRefs w x v
      (((s1.freeSlot w i).flightDone w x.serial).drop w x.port .formeDrain).turnPasses w x.domain i
    | _ => s)

end State

/-- VERDICT_ARRIVAL (R267). -/
def execVerdictArrival (w : WytheIx) (i : Nat) (s : State) : Res := .next (s.verdictArrives w i)

/-- DESCRIPTOR_RELEASE (R267). -/
def execDescriptorRelease (w : WytheIx) (d : DomainIx) (s : State) : Res := .next (s.release w d.val)

/-- SKIP (R271). -/
def execSkip (w : WytheIx) (d : DomainIx) (s : State) : Res := .next (s.skipHead w d.val)

end Sys2Proof.Machine
end

