-- ==== Sys2Proof/Machine/Datestone.lean ====
section
/-! DEFINITION. The ledger of a Datestone: appending, sealing, export and witness snapshots (R372–R382), and token challenges (R389). -/

namespace Sys2Proof.Machine
namespace State

/-- The device identifier, 16 bytes (R394). -/
def uidBytes : Bytes := toBe 16 Config.uid.toNat

/-- head[0] (R376): "PLOVXINTE LEDGER" ‖ uid ‖ wythe. -/
def head0 (w : WytheIx) : Bytes :=
  sha256 (toBe 16 0x504C4F5658494E5445204C4544474552 ++ uidBytes ++ [BitVec.ofNat 8 w.val])

def lcCode : LifeCycle → Nat
  | .blank => 0 | .commissioned => 1 | .service => 2 | .retired => 3

/-- LOCAL_TIME: Datestone ms since its start (R372). -/
def localTime (s : State) (w : WytheIx) : Nat := (s.now - (s.ds w).startedAt) / 1000000 % 2 ^ 32

/-- A record's 64 bytes (R372); the caller gives SEQUENCE and the chain head before it. -/
def recordBytes (s : State) (w : WytheIx) (seq : Nat) (head : Bytes) (type subject time : Nat) (payload : Bytes)
    (off : Bool) (missed : Nat) : Bytes :=
  let d := s.ds w
  let flags := 64 * lcCode d.lc + (if off || (!(s.wy w).clock.valid && type != 0x0B) then 32 else 0) + (if s.split w then 16 else 0) +
    (if off then 8 else 0)
  toBe 6 seq ++ toBe 2 type ++ toBe 8 time ++ toBe 4 (s.localTime w) ++ toBe 1 w.val ++ toBe 1 flags ++
    toBe 2 d.boot.toNat ++ toBe 2 (s.formeNo w).toNat ++ [1, 0] ++ toBe 2 subject ++ toBe 2 (min missed 0xFFFF) ++
    slice payload 0 24 ++ slice head 0 8

/-- Is the slot's content a SEAL record? -/
def isSeal (b : Bytes) : Bool := beAt b 6 2 == 0x10

/-- Slots in use before the newest, oldest first. -/
def oldestSlot (d : Datestone) : Nat := (d.newest + 4097 - d.used) % 4096

/-- Free a slot when the ring is full: the oldest is reused, a seal's attachment with it (R380). Answers the Datestone and how
many slots that lie after EXPORT_ACK were lost. -/
def ringFree (d : Datestone) : Datestone × Nat :=
  if d.used < 4096 then (d, 0)
  else
    let o := oldestSlot d
    let n := if isSeal (kget [] d.ring o) then 3 else 1
    let lost := d.unacked - (d.used - n)
    ({ d with ring := kdel (kdel (kdel d.ring o) (if n = 3 then (o + 1) % 4096 else o)) (if n = 3 then (o + 2) % 4096 else o)
              used := d.used - n, unacked := min d.unacked (d.used - n) }, lost)

/-- Take the next slot, writing `b` to it, or reserving it when `b` is none (R377, R380). -/
def takeSlot (s : State) (w : WytheIx) (b : Option Bytes) : State :=
  let (d, lost) := ringFree (s.ds w)
  let slot := if d.used = 0 ∧ d.newest = 0 then 0 else (d.newest + 1) % 4096
  let ring := match b with
    | some v => sins d.ring slot v
    | none => kdel d.ring slot
  let s1 := s.updDs w (fun _ => { d with ring := ring, newest := slot, used := d.used + 1, unacked := d.unacked + 1 })
  let s2 := if lost = 0 then s1 else (s1.count (pgLedger w + 0x40) lost).raiseBit (pgLedger w) 1
  if d.unacked = 2048 then (s2.raiseBit (pgLedger w) 2).notice w 5 else s2

/-- Notices and events that a record's append brings (R392). -/
def appendNotice (s : State) (w : WytheIx) (type : Nat) : State :=
  match type with
  | 0x04 => s.notice w 1
  | 0x09 | 0x0A => s.notice w 4
  | 0x0B => s.notice w 3
  | _ => s

/-- Append one record (R376, R379): it takes the next SEQUENCE, the head moves on, and every 256 numbers the Brace store gets a
ceiling 256 above (the first of each 256, so that no number is used twice; log 14). -/
def appendRecord (s : State) (w : WytheIx) (type subject time : Nat) (payload : Bytes) (off : Bool) (missed : Nat) : State :=
  let d := s.ds w
  let r := s.recordBytes w d.nextSeq d.head type subject time payload off missed
  let s1 := s.updDs w (fun d => { d with
    head := sha256 (d.head ++ r), nextSeq := d.nextSeq + 1,
    brace := if d.nextSeq % 256 = 1 then { d.brace with ceiling := d.nextSeq + 256 } else d.brace })
  ((s1.takeSlot w (some r)).count (pgDate w + 0x40) 1).appendNotice w type

/-- Append the SEAL record and reserve its attachment (R377 steps 1–3); a CLAMP_SUMMARY goes before it when clamps were counted. -/
def appendSeal (s : State) (w : WytheIx) (reason missed : Nat) : State :=
  let d := s.ds w
  let s1 := if d.clampCount = 0 then s
    else (s.appendRecord w 0x0F 0 (s.gptp w) (toBe 4 d.clampCount ++ toBe 4 d.clampPage ++ toBe 2 d.clampReg) false 0).updDs w
      (fun d => { d with clampCount := 0 })
  let d1 := s1.ds w
  let n := d1.nextSeq
  let s2 := s1.appendRecord w 0x10 0 (s.gptp w)
    (toBe 6 d1.sealFirst ++ toBe 2 (n - d1.sealFirst + 1) ++ toBe 1 reason) false missed
  let s3 := (s2.takeSlot w none).takeSlot w none
  s3.updDs w (fun d => { d with sealFirst := n + 1, sealing := some ⟨n, d.head, (d.newest + 4095) % 4096, reason⟩ })

/-- After an entry has left the queue, a set missed bit takes its place as a request that stands for those it folded (R375). -/
def refillIntake (s : State) (w : WytheIx) : State :=
  match (s.ds w).missed with
  | [] => s
  | m :: ms =>
    let r := match m.latest with
      | .record t sub tm p off _ => Intake.record t sub tm p off m.count
      | .seal reason _ => Intake.seal reason m.count
    if (s.ds w).intake.length < 256 then s.updDs w (fun d => { d with intake := d.intake ++ [r], missed := ms }) else s

/-- LOCK_GO clears once each FORME_LOCK record has been appended (R43): the lock-up waits while one is queued or missed. -/
def lockPending (s : State) : Bool :=
  wythes.any (fun w => (s.ds w).missed.any (fun m => m.type == 1) || (s.ds w).intake.any (fun r => match r with
    | .record t _ _ _ _ _ => t == 1
    | .seal _ _ => false))

/-- A PERIODIC seal is asked for when 255 records have been appended since the previous seal, unless one is asked for already (R377). -/
def periodicSeal (s : State) (w : WytheIx) : State :=
  let d := s.ds w
  let asked := d.intake.any (fun r => match r with
    | .seal reason _ => reason == 0
    | .record _ _ _ _ _ _ => false) || d.missed.any (fun m => m.source == 0)
  if d.nextSeq - d.sealFirst < 255 || asked then s else s.sealReq w 0

/-- RECORD_APPEND: the request at the head of the intake queue is appended; a seal waits for the attachment under way (R374, R377).
The record of an event of OFF takes its times now (R390). -/
def appendNext (s : State) (w : WytheIx) : State :=
  let d := s.ds w
  match d.started, d.intake with
  | true, .record t sub tm p off missed :: rest =>
    (((s.updDs w (fun d => { d with intake := rest })).appendRecord w t sub (if off then s.gptp w else tm) p off missed).periodicSeal w).refillIntake w
  | true, .seal reason missed :: rest =>
    if d.sealing.isSome then s
    else ((s.updDs w (fun d => { d with intake := rest })).appendSeal w reason missed).refillIntake w
  | _, _ => s

/-- A random number of the generator, as a nonce or private key in 1 … N − 1 (R383; log 5). -/
def drawScalar (s : State) : Nat × State :=
  ((Config.freeRandom s.free).toNat % (p256N - 1) + 1, { s with free := s.free + 1 })

/-- The seal of a RETIRED Datestone's last change is the one whose attachment is written: no other seal of a lifecycle change waits. -/
def lastSeal (d : Datestone) (a : Sealing) : Bool :=
  d.lc == .retired && a.reason == 4 && !d.missed.any (fun m => m.source == 3 && m.type == 0x10) && !d.intake.any (fun r => match r with
    | .seal reason _ => reason == 4
    | .record _ _ _ _ _ _ => false)

/-- SEAL_ATTACHMENT: the signed head goes into the reserved slots; the Brace store keeps head and SEQUENCE (R377–R379). After the seal of
its retiring a Datestone destroys its private key and appends no more (R387). -/
def attachSeal (s : State) (w : WytheIx) : State :=
  match (s.ds w).sealing with
  | none => s
  | some a =>
    let (k, s0) := s.drawScalar
    let d := s0.ds w
    let att := a.head ++ ecdsaSign d.privkey k a.head ++ (sha256 (slice d.pubkey 0 65)).take 8 ++ toBe 6 a.seq ++
      toBe 2 0x5EA1 ++ List.replicate 16 0
    let s1 := s0.updDs w (fun d => { d with
      ring := sins (sins d.ring a.slot (att.take 64)) ((a.slot + 1) % 4096) (att.drop 64)
      sealing := none, sealHead := a.head, sealSeq := a.seq
      brace := { d.brace with sealHead := a.head, sealSeq := a.seq }
      privkey := if lastSeal d a then 0 else d.privkey, intake := if lastSeal d a then [] else d.intake
      missed := if lastSeal d a then [] else d.missed })
    ((s1.count (pgDate w + 0x48) 1).raiseBit (pgLedger w) 0).notice w 0

/-- Copy up to `n` consecutive slots from `slot`, stopping at the first not yet written or reserved (R381). -/
def copySlots (ring : SMap Bytes) : Nat → Nat → List Bytes
  | 0, _ => []
  | n + 1, slot => match sfind ring slot with
    | none => []
    | some b => b :: copySlots ring n ((slot + 1) % 4096)

/-- A write of EXPORT_BASE takes a snapshot (R381). -/
def exportFrom (s : State) (w : WytheIx) (slot : Nat) : State :=
  ((s.wr (pgLedger w + 0x10C) (w32 slot)).updDs w (fun d => { d with window := copySlots d.ring 32 slot })).count (pgLedger w + 0x48) 1

/-- A write of EXPORT_ACK: the slots after it are those not yet stored by the host; RING_HALF where they are more than 2,048 (R380). -/
def exportAcked (s : State) (w : WytheIx) (slot : Nat) : State :=
  let after := min (s.ds w).used (((s.ds w).newest + 4096 - slot) % 4096)
  let s1 := (s.wr (pgLedger w + 0x114) (w32 slot)).updDs w (fun d => { d with unacked := after })
  if 2048 < after then (s1.raiseBit (pgLedger w) 2).notice w 5 else s1

/-! Witness snapshots (R382). -/

/-- A WITNESS_SNAP request for counters of one record, when one of them changed since the previous round or `all`. -/
def snapOne (s : State) (w : WytheIx) (all : Bool) (kind index : Nat) (ctrs : List Nat) (tail : Bytes) : State :=
  if all || ctrs.any (fun a => s.ctr a != sget (fun _ => 0) (s.ds w).prevSnap a) then
    s.record w 3 (0x1000 * kind + index) (ctrs.flatMap (fun a => toBe 6 (s.ctrVal a)) ++ tail)
  else s

/-- The stream slot's snapshot under a mapping to `stream`. -/
def snapStream (s : State) (w : WytheIx) (all : Bool) (k stream : Nat) : State :=
  s.snapOne w all 1 k [witStream w k, witStream w k + 8, witStream w k + 16] (toBe 2 stream)

/-- A stream slot's map word under the forme in force (R398). -/
def slotMap (view : Nat → W32) (w : WytheIx) (k : Nat) : W32 := view (pgWStreams w (k / 128) + 0x100 + 4 * (k % 128))

/-- One round of snapshots: the counters that changed, or every one after a rejoin (R382, R528). -/
def snapRound (s : State) (w : WytheIx) (all : Bool) : State :=
  let ports := (List.range 25).filter (s.meteredPort w)
  let s1 := s.each ports (fun s p => s.snapOne w all 0 p [witRx w p, witRx w p + 8, witTx w p, witTx w p + 8] [])
  let s2 := s1.each (List.range 1024) (fun s k =>
    let m := slotMap s.stActive w k
    if flag m 31 then s.snapStream w all k (fld m 11 0) else s)
  let s3 := s2.each ports (fun s p => s.each (List.range 8) (fun s g =>
    s.snapOne w all 2 (8 * p + g) ((List.range 4).map (fun i => witDrop w p (4 * g + i))) []))
  let s4 := s3.each (ports.filter (· < 24)) (fun s p => s.snapOne w all 3 p [witForgiven w p] [])
  let s5 := s4.snapOne w true 3 0xFFF [witSkips w, pgLedger w + 0x40] []
  s5.updDs w (fun d => { d with
    prevSnap := ((pgLedger w + 0x40) :: witAll w).foldl (fun m a => sput (fun _ => 0) m a (s.ctr a)) d.prevSnap, snapAt := s.now })

/-- The snapshot period in ns of LOCAL_TIME (R382). -/
def snapPeriod (s : State) (w : WytheIx) : Nat := fld (s.stActive (pgWitness w + 0x604)) 11 0 * 1000000000

/-- A read of CHALLENGE0 draws a fresh challenge on the primary (R389). -/
def drawChallenge (s : State) : State :=
  let c := (toBe 32 (Config.freeRandom s.free).toNat).take 16
  { s with free := s.free + 1 }.updDs 0 (fun d => { d with challenge := ⟨c, true, s.now⟩ })

end State

/-- SEAL_REQ: a write of 1 to DATESTONE.SEAL_REQ (R377). -/
def execSealReq (a : Agent) (w : WytheIx) (s : State) : Res := .next (s.viaPage a w (fun s => s.sealReq w 3))

/-- EXPORT_BASE (R381). -/
def execExportBase (a : Agent) (w : WytheIx) (slot : BitVec 12) (s : State) : Res :=
  .next (s.viaPage a w (fun s => s.exportFrom w slot.toNat))

/-- EXPORT_ACK (R380). -/
def execExportAck (a : Agent) (w : WytheIx) (slot : BitVec 12) (s : State) : Res :=
  .next (s.viaPage a w (fun s => s.exportAcked w slot.toNat))

/-- WITNESS_SNAP_ROUND, once SNAP_PERIOD seconds have passed since the previous round (R382). -/
def execWitnessSnapRound (w : WytheIx) (s : State) : Res :=
  .next (if (s.ds w).started ∧ (s.ds w).snapAt + s.snapPeriod w ≤ s.now then s.snapRound w false else s)

/-- CHALLENGE_READ (R389). -/
def execChallengeRead (a : Agent) (s : State) : Res :=
  let s1 := s.drawChallenge
  .next (if s.reach a 0 then s1.answer (w32 (beAt (s1.ds 0).challenge.bytes 0 4)) else s.answer 0xDEAD0001)

end Sys2Proof.Machine
end

