-- ==== Sys2Proof/Machine/Dram.lean ====
section
/-! DEFINITION. The DRAM controller halves (chapter 15): address map, queues, refresh rate, retraining and configuration. -/

namespace Sys2Proof.Machine
namespace State

def dram (s : State) (w : WytheIx) : Dram := (s.wy w).dram
def updDram (s : State) (w : WytheIx) (f : Dram → Dram) : State := s.updWy w (fun y => { y with dram := f y.dram })
def dramCh (s : State) (w : WytheIx) (c : Nat) : DramCh := kget {} (s.dram w).channels c
def updCh (s : State) (w : WytheIx) (c : Nat) (f : DramCh → DramCh) : State :=
  s.updDram w (fun d => { d with channels := kupd {} d.channels c f })

/-! Configuration (R425, R426, R428, R429). -/

/-- CH_EN naming three channels is clamped to its two lowest. -/
def chEn (v : Nat) : Nat :=
  let l := (List.range 4).filter (bitOf v)
  if l.length = 3 then ((l.take 2).map (2 ^ ·)).sum else v
/-- DRAM_CFG as it is held, and the number of clamps. -/
def dramCfgClamp (v : W32) : W32 × Nat :=
  let flds := [fl 27 24, fl 21 20, fc 17 16 0 2, fl 8 8, fc 3 0 0 8]
  let v1 := w32 (clampWord flds v.toNat)
  let e := chEn (fld v1 27 24)
  (setFld v1 27 24 e, clampsIn flds v.toNat + b2n (e != fld v1 27 24))
/-- Enabled channels of a configuration, in ascending order. -/
def dramSet (cfg : W32) : List Nat := (List.range 4).filter (fun c => flag cfg (24 + c))
def dramGrain (cfg : W32) : Nat := 2 ^ (fld cfg 3 0 + 8)
/-- Channel and channel-local address of a logical address (R428). -/
def dramMap (cfg : W32) (a : Nat) : Nat × Nat :=
  let l := dramSet cfg
  let g := dramGrain cfg
  (l.getD (a / g % l.length) 0, a / (g * l.length) * g + a % g)
/-- Physical address on a channel (R429). -/
def dramPhysical (cfg : W32) (loc : Nat) : Nat :=
  if flag cfg 8 then loc / 32 / 15 * 512 + loc / 32 % 15 * 32 + loc % 32 else loc
/-- The wythe's logical space in bytes (R429). -/
def dramSpace (cfg : W32) : Nat :=
  let density := 2 ^ (29 + fld cfg 17 16)
  (dramSet cfg).length * (if flag cfg 8 then density / 16 * 15 else density)
/-- A store to DRAM_CFG: kept, in force from the next start. -/
def dramCfgStore (s : State) (w : WytheIx) (v : W32) : State :=
  let a := pgDram w + 0x100
  let (v', n) := dramCfgClamp v
  let s1 := (s.wr a v').noteClamp a n
  { s1 with keep := sput regReset s1.keep a v' }

/-! Requests (R436–R438). -/

/-- Two units of a channel overlap in some byte. -/
def dramOverlap (a b : DramOp) : Bool := a.unit == b.unit && decide (a.lo < b.lo + b.len) && decide (b.lo < a.lo + a.len)
/-- A unit is accepted into its channel's queue; a requester whose queue is full, or whose channel does not serve, waits. -/
def dramAccept (s : State) (w : WytheIx) (u : DramUnit) : State :=
  let d := s.dram w
  let (c, loc) := dramMap d.active u.addr
  let h := s.dramCh w c
  let unit := dramPhysical d.active loc / 32
  let part := flag d.active 8 && u.write && u.len != 32
  let full := decide (32 ≤ (if u.write then h.writeQ else h.readQ).length)
  if !d.available || h.selfRefresh || full || decide (dramSpace d.active < u.addr + u.len) then s
  else
    let op : DramOp := ⟨h.accepted, unit, part, if part then 0 else loc % 32, if part then 32 else u.len⟩
    let s1 := s.updCh w c (fun h => { h with
      accepted := h.accepted + 1, readQ := if u.write then h.readQ else h.readQ ++ [op], writeQ := if u.write then h.writeQ ++ [op] else h.writeQ })
    if u.write then
      if !part then s1
      else
        let s2 := s1.count (pgDram w + 0x50) 1
        match u.ecc with
        | .good => s2
        | .corrected => s2.count (pgDram w + 0x60) 1
        | .uncorrectable =>
          (s2.dramUncorrectable w u.addr).updCh w c (fun h => { h with writeQ := h.writeQ.filter (fun o => o.no != op.no) })
    else s1.onlyIf (h.writeQ.any (dramOverlap op)) (fun s => s.count (pgDram w + 0x58) 1)

/-- The unit a channel issues next: true a write. Reads go before writes until the write queue reaches 24 units, or no read waits, and
then until 8 remain; a read passes no earlier write that it overlaps, a write no earlier unit it shares (R436, R437). In PLUMB, the order of acceptance (R440). -/
def dramNext (plumb : Bool) (h : DramCh) : Option (Bool × DramOp) :=
  let earlier := fun (l : List DramOp) (o : DramOp) => l.any (fun p => p.unit == o.unit && decide (p.no < o.no))
  let r := h.readQ.find? (fun o => !h.writeQ.any (fun p => dramOverlap o p && decide (p.no < o.no)))
  let wq := h.writeQ.find? (fun o => !earlier h.readQ o)
  let first := fun (o : Option DramOp) (k : Bool) => o.map (fun p => (k, p))
  if plumb then
    match h.readQ.head?, h.writeQ.head? with
    | some a, some b => if a.no < b.no then some (false, a) else some (true, b)
    | some a, none => some (false, a)
    | none, b => first b true
  else if h.draining then (first wq true).orElse (fun _ => first r false)
  else (first r false).orElse (fun _ => first wq true)
/-- A retraining pause of the channel runs (R433). -/
def dramPaused (s : State) (w : WytheIx) (c : Nat) : Bool := decide (s.now < (s.dramCh w c).pauseEnd)
/-- The channel may issue a unit: no pause runs (R433); in PLUMB the 60 ns slot of the latest unit is over, and the next one overlaps
no 300 ns refresh window (R440). -/
def dramOpen (s : State) (w : WytheIx) (c : Nat) : Bool :=
  let h := s.dramCh w c
  !h.selfRefresh && !s.dramPaused w c &&
    ((s.wy w).mode != .plumb || (decide (h.slotEnd ≤ s.now) && decide (h.refreshed + 300 ≤ s.now) && decide (s.now + 60 ≤ h.nextRefresh)))
/-- A channel serves one unit (log 7). -/
def dramServe (s : State) (w : WytheIx) (c : Nat) : State :=
  if !s.dramOpen w c then s
  else match dramNext ((s.wy w).mode == .plumb) (s.dramCh w c) with
    | none => s
    | some (wr, o) =>
      (s.updCh w c (fun h =>
        let wq := if wr then h.writeQ.erase o else h.writeQ
        let rq := if wr then h.readQ else h.readQ.erase o
        { h with
          writeQ := wq, readQ := rq, slotEnd := s.now + 60
          draining := if 24 ≤ wq.length then true else if wq.length ≤ 8 then false else h.draining || rq.isEmpty })).count (pgDram w + if wr then 0x48 else 0x40) 1

/-! Refresh (R434). -/

/-- CH_STATUS.REFRESH_2X: twice in PLUMB whatever MR4 reports (R440). -/
def dramTwice (s : State) (w : WytheIx) (c : Nat) : Bool := (s.dramCh w c).twice || ((s.wy w).mode == .plumb && (s.dramCh w c).trained)
def dramLive (s : State) (w : WytheIx) (c : Nat) : Bool := (s.dramCh w c).trained && !(s.dramCh w c).selfRefresh
/-- MR4 of one channel is read. -/
def mr4Read (s : State) (w : WytheIx) (c : Nat) (code : BitVec 5) : State :=
  if !s.dramLive w c then s
  else
    let pg := pgDram w
    let hot := flag (s.rd (pg + 0x110)) code.toNat
    let twice := hot || flag (s.rd (pg + 0x10C)) code.toNat
    let old := s.dramTwice w c
    let s1 := s.updCh w c (fun h => { h with mr4 := code.toNat, hot := hot, twice := twice })
    (s1.onlyIf hot (fun s => s.raiseBit pg 2)).onlyIf (s1.dramTwice w c != old) (fun s => s.raiseBit pg 3)
/-- MR4_POLL: every POLL ms. -/
def mr4Poll (s : State) (w : WytheIx) (codes : List (BitVec 5)) : State :=
  if s.now < (s.dram w).lastPoll + fld (s.rd (pgDram w + 0x108)) 7 0 * 1000000 then s
  else
    let s1 := s.updDram w (fun d => { d with lastPoll := s.now })
    s1.each codes.zipIdx (fun s e => s.mr4Read w e.2 e.1)
/-- A refresh is due: 3,900 ns or 1,950 ns after the latest; in PLUMB at fixed instants (R440). -/
def refreshDue (s : State) (w : WytheIx) (c : Nat) : Bool :=
  s.dramLive w c && decide ((s.dramCh w c).nextRefresh + (if s.dramTwice w c then 0 else 1950) ≤ s.now)
/-- REFRESH: a channel's refresh falls due. It is issued, or, during a pause, postponed to the pause's end (R435). -/
def dramRefresh (s : State) (w : WytheIx) (c : Nat) : State :=
  if !s.refreshDue w c then s
  else
    let plumb := (s.wy w).mode == .plumb
    let wait := s.dramPaused w c
    s.updCh w c (fun h => { h with
      nextRefresh := (if plumb then h.nextRefresh + (s.now - h.nextRefresh) / 1950 * 1950 else s.now) + 1950
      refreshed := if wait then h.refreshed else s.now
      postponed := wait })
/-- At the end of a pause a postponed refresh is issued at once (R435). -/
def refreshLate (s : State) (w : WytheIx) (c : Nat) : State :=
  let h := s.dramCh w c
  s.onlyIf (h.postponed && decide (h.pauseEnd ≤ s.now)) (fun s => s.updCh w c (fun h => { h with postponed := false, refreshed := s.now }))

/-! Retraining (R433). -/

/-- Replace a lane's read and write delays in DELAYc. -/
def setDelays (v : W32) (lane : Nat) (r wr : Byte) : W32 := setFld (setFld v (16 * lane + 7) (16 * lane) r.toNat) (16 * lane + 15) (16 * lane + 8) wr.toNat
/-- Steps between two delays. -/
def delayMove (a b : Nat) : Nat := if a ≤ b then b - a else a - b
/-- A pause re-centres one lane: a window below 24 steps keeps the old delays; a move above 8 steps is counted and kept. -/
def retrainLane (s : State) (w : WytheIx) (c lane window : Nat) (r wr : Byte) : State :=
  let pg := pgDram w
  let h := s.dramCh w c
  let s1 := (s.count (pg + 0x80) 1).updCh w c (fun h => { h with
    eye0 := if lane = 0 then window else h.eye0, eye1 := if lane = 0 then h.eye1 else window, nextLane := 1 - lane })
  if window < 24 then s1.raiseBit pg 1
  else
    let moved := (if 8 < delayMove (fld h.delay (16 * lane + 7) (16 * lane)) r.toNat then 1 else 0) +
      (if 8 < delayMove (fld h.delay (16 * lane + 15) (16 * lane + 8)) wr.toNat then 1 else 0)
    let s2 := s1.updCh w c (fun h => { h with delay := setDelays h.delay lane r wr })
    if moved = 0 then s2
    else { s2.count (pg + 0x88) moved with keep := sput regReset s2.keep (pg + 0x120 + 4 * c) (s2.dramCh w c).delay }
/-- PERIOD in ns. -/
def retrainEvery (s : State) (w : WytheIx) : Nat := fld (s.rd (pgDram w + 0x114)) 13 0 * 1000000
/-- The instant of a retraining by time: in PLUMB the multiples of PERIOD from its entry (R440). -/
def retrainDue (s : State) (w : WytheIx) (c : Nat) : Bool := decide ((s.dramCh w c).lastRetrain + s.retrainEvery w ≤ s.now)
def retrainMark (s : State) (w : WytheIx) (c : Nat) : State :=
  let p := s.retrainEvery w
  s.updCh w c (fun h => { h with
    lastRetrain := if (s.wy w).mode = .plumb then h.lastRetrain + (s.now - h.lastRetrain) / p * p else s.now })
/-- Only one channel of a wythe pauses at a time, and a lane's pause starts after the other lane's. -/
def retrainFree (s : State) (w : WytheIx) : Bool := (List.range 4).all (fun d => !s.dramPaused w d)
/-- A pause of at most 1 µs starts, its length a free value (log 40); a refresh due in the same cycle goes first (R435). -/
def retrainPause (s : State) (w : WytheIx) (c : Nat) : State :=
  let s1 := s.dramRefresh w c
  s1.draw.2.updCh w c (fun h => { h with pauseEnd := s1.now + s1.draw.1.toNat % 1001 })
/-- RETRAIN_PERIOD: lane 0 every PERIOD ms, then lane 1; what the PHY's sensor reads at it is a free value (log 40). -/
def retrainPeriod (s : State) (w : WytheIx) (c lane window : Nat) (r wr : Byte) : State :=
  let on := s.dramLive w c && flag (s.rd (pgDram w + 0x114)) 31 && s.retrainFree w && (s.dramCh w c).nextLane == lane
  if !on || (lane == 0 && !s.retrainDue w c) then s
  else
    let s1 := ((if lane = 0 then s.retrainMark w c else s).retrainPause w c).retrainLane w c lane window r wr
    s1.onlyIf (lane == 1) (fun s => s.draw.2.updCh w c (fun h => { h with trainTemp := s.draw.1.setWidth 16 }))
/-- RETRAIN_DRIFT: the PHY has moved DRIFT °C or more from its reading at the latest training. -/
def retrainDrift (s : State) (w : WytheIx) (c lane window : Nat) (r wr : Byte) (temp : W16) : State :=
  let v := s.rd (pgDram w + 0x114)
  let h := s.dramCh w c
  let moved := (signed 16 temp.toNat - signed 16 h.trainTemp.toNat).natAbs
  let on := s.dramLive w c && flag v 30 && s.retrainFree w && h.nextLane == lane && decide (4 * fld v 21 16 ≤ moved)
  if !on || (lane == 0 && (s.wy w).mode == .plumb && !s.retrainDue w c) then s
  else
    let s1 := if lane = 0 && (s.wy w).mode == .plumb then s.retrainMark w c else s
    ((s1.retrainPause w c).retrainLane w c lane window r wr).updCh w c (fun h => if lane = 1 then { h with trainTemp := temp } else h)

/-- Entering or leaving PLUMB changes the refresh rate of a channel at 1×, and starts the periods of R440: channel `c` refreshes first 480 × c ns after the turn. -/
def dramPlumb (s : State) (w : WytheIx) (entering : Bool) : State :=
  let s1 := s.onlyIf ((List.range 4).any (fun c => (s.dramCh w c).trained && !(s.dramCh w c).twice)) (fun s => s.raiseBit (pgDram w) 3)
  if entering then
    s1.each (List.range 4) (fun s c => s.updCh w c (fun h => { h with lastRetrain := s.now, nextRefresh := s.now + 480 * c }))
  else s1

/-- A wythe enters a mode: MODE (14) at context 0 of every core, MODE_CHANGE and TRANSITIONS; LAST holds only SETTING, RUN or
PLUMB (R474, R482, R488); PLUMB's refresh and its periods (R440); until the next turn boundary a core keeps the plumb attribute it
had (R175). Entering the mode it is in changes nothing. -/
def enterMode (s : State) (w : WytheIx) (m : DevMode) : State :=
  let old := (s.wy w).mode
  if old = m then s
  else
    let s0 := s.onlyIf (old == .plumb || m == .plumb) (fun s => s.each (List.range 48) (fun s i => s.updCore w i (fun k =>
      { k with plumbWas := some (s.plumb w i, k.cycle) })))
    let s1 := s0.updWy w (fun y => { y with mode := m })
    let s2 := s1.each (List.range 48) (fun s i => s.interrupt w i 14)
    let s3 := (s2.raiseBit pgMode 0).count (pgMode + 0x40) 1
    let s4 := if m = .setting ∨ m = .run ∨ m = .plumb then { s3 with modes := { s3.modes with last := m } } else s3
    s4.onlyIf (old == .plumb || m == .plumb) (fun s => s.dramPlumb w (m == .plumb))

end State

/-- MR4_POLL (R434). -/
def execMr4Poll (w : WytheIx) (codes : List (BitVec 5)) (s : State) : Res := .next (s.mr4Poll w codes)
/-- REFRESH (R434). -/
def execRefresh (w : WytheIx) (ch : Fin 4) (s : State) : Res := .next (s.dramRefresh w ch.val)
/-- RETRAIN_PERIOD (R433). -/
def execRetrainPeriod (w : WytheIx) (ch : Fin 4) (lane : Fin 2) (window : Nat) (rd wr : Byte) (s : State) : Res :=
  .next (s.retrainPeriod w ch.val lane.val window rd wr)
/-- RETRAIN_DRIFT (R433). -/
def execRetrainDrift (w : WytheIx) (ch : Fin 4) (lane : Fin 2) (window : Nat) (rd wr : Byte) (temp : W16) (s : State) : Res :=
  .next (s.retrainDrift w ch.val lane.val window rd wr temp)
/-- DRAM_REQUEST (R436). -/
def execDramRequest (w : WytheIx) (u : DramUnit) (s : State) : Res := .next (s.dramAccept w u)
/-- DRAM_CFG_WRITE (R426). -/
def execDramCfgWrite (a : Agent) (w : WytheIx) (value : W32) (s : State) : Res := .next (s.viaPage a w (fun s => s.dramCfgStore w value))

end Sys2Proof.Machine
end

