-- ==== Sys2Proof/Machine/Tie.lean ====
section
/-! DEFINITION. The tie (chapter 19): copies across it, retraining, loss, isolation and rejoin. -/

namespace Sys2Proof.Machine

/-- Cause codes of R521. -/
def tieCause : TieCause → Nat
  | .none => 0 | .tieLost => 1 | .regionSkew => 2 | .hostIsolate => 3

/-- Two region codes of R531 name a pair of neighbouring regions (R25): the wythes, two courses of one wythe, or the same course of
both. -/
def neighbours (a b : Nat) : Bool :=
  let level := fun (r : Nat) => bitOf r 7
  let w := fun (r : Nat) => bitsOf r 6 6
  let c := fun (r : Nat) => bitsOf r 2 0
  let legal := fun (r : Nat) => bitsOf r 5 3 == 0 && (level r || decide (c r < 6))
  legal a && legal b && level a == level b &&
    (if level a then w a != w b else if w a = w b then c a != c b else c a == c b)

namespace State

/-! Copies across the tie (R21, R265, R275, R517). -/

/-- Flits pass: neither end has lost the tie or is retraining, and no rejoin is due (R519, R523, R527). -/
def tieCarries (s : State) : Bool := wythes.all (fun w => !(s.wy w).tie.split && !(s.wy w).tie.retraining)

/-- Each target of a copy that has not reached the Press is dropped at its egress port. -/
def dropTargets (s : State) (w : WytheIx) (t : TieCopy) (cause : Cause) : State :=
  s.each t.targets (fun s g => s.drop w (targetPort g) cause)
/-- The ingress wythe gives the original buffers back, and its frame's copy is done (R21, R275). -/
def tieOriginal (s : State) (t : TieCopy) : State :=
  (s.releaseSegs t.ingressW (tieAsCopy t)).flightDone t.ingressW t.group

/-- TIE_COPY_ARRIVAL at wythe `w`: the first copy of the other's queue, with a buffer or without (R21, R257). -/
def tieArrive (s : State) (w : WytheIx) : State :=
  let v : WytheIx := 1 - w
  match (s.wy v).tie.txq with
  | [] => s
  | t :: rest =>
    if !s.tieCarries || t.early.isSome then s
    else
      let bytes := s.segBytes v (tieAsCopy t)
      let sent := fun (s : State) => ((s.updTie v (fun k => { k with txq := rest })).count (pgTie v + 0x40) t.flits).count (pgTie w + 0x48) t.flits
      match s.alloc w 0xFF (bytes.length + 4) true .ingress with
      | (.wait, _) => s
      | (.none, s1) => ((sent s1).dropTargets w t .tieNoBuffer).tieOriginal t
      | (.got h, s1) =>
        let s2 := (sent s1).refUp w h (t.targets.length - 1)
        let n := (s2.wy w).coll.nextSerial
        let s3 := s2.updColl w (fun c => { c with nextSerial := n + 1, flights := sins c.flights n ⟨t.forme, t.targets.length⟩ })
        s3.updTie w (fun k => { k with rxq := k.rxq ++ [{ t with data := bytes, handle := h, egressGroup := n }] })

/-- The buffer of a copy that goes no further is given back, and the egress wythe no longer counts its frame. -/
def tieFree (s : State) (w : WytheIx) (t : TieCopy) : State :=
  (s.each t.targets (fun s _ => s.refDown w t.handle)).updColl w (fun c => { c with flights := kdel c.flights t.egressGroup })

/-- TIE_COPY_COMPLETE at wythe `w` (R21, R48). -/
def tieComplete (s : State) (w : WytheIx) : State :=
  match (s.wy w).tie.rxq with
  | [] => s
  | t :: rest =>
    let s1 := (s.updTie w (fun k => { k with rxq := rest })).tieOriginal t
    let y := s1.wy w
    if y.forme ≠ t.forme ∧ y.previous ≠ some t.forme then (s1.tieFree w t).dropTargets w t .formeUnknown
    else
      let seg : Seg := ⟨t.handle, 0, t.data.length⟩
      (s1.setBufBytes w t.handle 0 t.data).each t.targets (fun s g =>
        s.pressArrive w true
          { group := t.egressGroup, hostq := g.1, port := g.2.1, cls := g.2.2.1, stream := g.2.2.2, segs := [seg], forme := t.forme
            ingressW := t.ingressW, ingressPort := t.ingressPort, slugHandle := w32 t.handle, early := none, cut := false
            len := lenOf [seg], queued := 0, yellow := false, started := false })

/-! Loss (R519–R525). -/

/-- A wythe loses the tie: copies are counted once, the Datestone appends SPLIT (R523, R525). -/
def tieFalls (s : State) (w : WytheIx) (why : TieCause) : State :=
  let k := (s.wy w).tie
  let again := k.split
  let s1 := s.updTie w (fun k => { k with
    state := .down, split := true, cause := why, splitSince := if again then k.splitSince else s.now, retraining := false
    lastAttempt := s.now, rejoinAsked := false, txq := [], rxq := [] })
  let s2 := s1.each k.txq (fun s t => (s.tieOriginal t).drop w t.ingressPort .tieLost)
  let s3 := s2.each k.rxq (fun s t =>
    let p := (t.targets.map targetPort).headD 24
    (((s.tieOriginal t).tieFree w t).drop w p .tieLost).count (pgTie w + 0x68) 1)
  let s4 := (s3.count (pgTie w + 0x60) 1).raiseBit (pgTie w) 0
  let info := (s4.wy w).tie.skewInfo
  let regions := if why = .regionSkew then [BitVec.ofNat 8 (fld info 7 0), BitVec.ofNat 8 (fld info 23 16)] else [0, 0]
  let s5 := s4.record w 9 0 (toBe 1 (tieCause why) ++ regions ++ toBe 6 k.otherSeq)
  if w = 0 then { s5 with modes := { s5.modes with w1Last := (s5.wy 1).mode } } else s5

/-- A wythe in SETTING, RUN or PLUMB enters HALF, keeping its mode as return mode (R522), unless its firmware holds it in SETTING (R385). -/
def enterHalf (s : State) (w : WytheIx) : State :=
  let m := (s.wy w).mode
  if !s.fwHeld && (m == .setting || m == .run || m == .plumb) then
    (s.updWy w (fun y => { y with returnMode := m })).enterMode w .half
  else s

/-- An end loses the tie; one that has lost it already, or whose tie is powered down, loses nothing. -/
def loseTie (s : State) (w : WytheIx) (why : TieCause) : State :=
  let m := (s.wy w).mode
  if s.tieLost w || m == .off || m == .brace || m == .dormant then s else (s.tieFalls w why).enterHalf w

/-- The skew monitor's comparison of a pair, by the differences of its latest samples, the latest first, in mV or 0.25 °C: REGION_SKEW is
raised when the pair is one of R25 and four voltages, or two temperatures, in a row stood too far apart (R27). -/
def skewRaised (a b : Byte) (temperature : Bool) (diffs : List Nat) : Bool :=
  let bound := if temperature then 120 else 40
  let run := if temperature then 2 else 4
  neighbours a.toNat b.toNat && decide (run ≤ diffs.length) && (diffs.take run).all (fun d => decide (bound < d))
/-- REGION_SKEW: both ends isolate at once (R27, R521). Voltages are sampled every 1 µs, temperatures every 1 ms. -/
def skewFound (s : State) (a b : Byte) (temperature : Bool) : State :=
  let info := w32 (at' b.toNat 16 + at' (b2n temperature) 8 + a.toNat)
  let s1 := s.each wythes (fun s w =>
    (s.updTie w (fun k => { k with skewInfo := info, skewUntil := s.now + if temperature then 1000000 else 1000 })).raiseBit (pgTie w) 2)
  (s1.loseTie 0 .regionSkew).loseTie 1 .regionSkew

/-! Rejoin (R526–R529). -/

/-- An attempt to retrain begins. -/
def attempt (s : State) (w : WytheIx) : State := s.updTie w (fun k => { k with state := .training, lastAttempt := s.now })

/-- REJOIN_ATTEMPT: RETRY ms have passed, and the conditions of R526 hold. -/
def retryDue (s : State) (w : WytheIx) : Bool :=
  let k := (s.wy w).tie
  let cfg := s.rd (pgTie w + 0x104)
  s.tieLost w && decide (k.lastAttempt + fld cfg 25 16 * 1000000 ≤ s.now) && (match k.cause with
    | .tieLost => flag cfg 31
    | .regionSkew => decide (k.skewUntil + fld cfg 15 0 * 1000000 ≤ s.now)
    | .hostIsolate => k.rejoinAsked
    | .none => false)

/-- A REJOIN written to TIE_CMD (R526). -/
def rejoinWritten (s : State) (w : WytheIx) : State :=
  let k := (s.wy w).tie
  if !s.tieLost w then s
  else if k.cause = .hostIsolate then (s.attempt w).updTie w (fun k => { k with rejoinAsked := true })
  else if s.now < k.skewUntil then s
  else s.attempt w

/-- The rejoin completes (R528): modes, traffic, time, and REJOIN with a full round of snapshots. -/
def rejoinComplete (s : State) : State :=
  let ms := fun (w : WytheIx) => (s.now - (s.wy w).tie.splitSince) / 1000000
  let back := wythes.filter s.split
  let s1 := s.each back (fun s w =>
    let s' := s.updTie w (fun k => { k with state := .up, split := false })
    if (s.wy w).mode = .half then s'.enterMode w (s.wy w).returnMode else s')
  let c0 := (s1.wy 0).clock
  let c1 := (s1.wy 1).clock
  let s2 := if c0.ns = c1.ns ∧ c0.valid = c1.valid then s1 else s1.stepTo 1 c0.ns c0.valid
  s2.each back (fun s w =>
    let s' := (s.record w 0x0A 0 (toBe 4 (ms w) ++ toBe 6 (s.ds (1 - w)).nextSeq)).snapRound w true
    s'.raiseBit (pgTie w) 1)

/-- The secondary takes the primary's lifecycle state and image keys (R527); its change is ledgered and sealed (R377, R387). -/
def shareLifecycle (s : State) : State :=
  let a := s.ds 0
  let b := s.ds 1
  let take := fun (s : State) => s.updDs 1 (fun d => { d with lc := a.lc, imageKeys := a.imageKeys, serviceEnd := a.serviceEnd })
  if a.lc = b.lc then take s
  else
    let note := fun (s : State) => (s.record 1 7 0 (toBe 1 (lcCode b.lc) ++ toBe 1 (lcCode a.lc) ++ [3])).sealReq 1 4
    ((if s.ledgering 1 then take (note s) else note (take s)).raiseBit (pgDate 1) 1).notice 1 2

/-- The Datestones exchange their next SEQUENCE (R525, R527). -/
def swapSequence (s : State) : State :=
  let a := (s.ds 0).nextSeq
  let b := (s.ds 1).nextSeq
  (s.updTie 0 (fun k => { k with otherSeq := b })).updTie 1 (fun k => { k with otherSeq := a })

/-- LINKED: every end that lost the tie is training, and the training succeeds (R527). -/
def tieLinks (s : State) : State :=
  let lost := wythes.filter s.tieLost
  if lost.isEmpty || lost.any (fun w => (s.wy w).tie.state != .training) then s
  else
    let s1 := s.each wythes (fun s w => s.updTie w (fun k => { k with state := if k.split then .linked else .up, retraining := false }))
    let s2 := s1.shareLifecycle.swapSequence
    if (s2.wy 0).forme = (s2.wy 1).forme then s2.rejoinComplete
    else s2.each (wythes.filter s2.split) (fun s w => (s.updTie w (fun k => { k with state := .held })).raiseBit (pgTie w) 3)

end State

/-- TIE_COPY_ARRIVAL (R21). -/
def execTieCopyArrival (w : WytheIx) (s : State) : Res := .next (s.tieArrive w)

/-- TIE_COPY_COMPLETE (R21). -/
def execTieCopyComplete (w : WytheIx) (s : State) : Res := .next (s.tieComplete w)

/-- REGION_SKEW (R27). -/
def execRegionSkew (regionA regionB : Byte) (temperature : Bool) (diffs : List Nat) (s : State) : Res :=
  .next (s.onlyIf (State.skewRaised regionA regionB temperature diffs) (fun s => s.skewFound regionA regionB temperature))

/-- TIE_RETRAIN (R519). -/
def execTieRetrain (w : WytheIx) (s : State) : Res :=
  let k := (s.wy w).tie
  .next (if s.tieLost w || k.retraining || k.state == .down then s
    else (s.updTie w (fun k => { k with retraining := true, retrainSince := s.now })).count (pgTie w + 0x58) 1)

/-- TIE_RETRAIN_END (R519). -/
def execTieRetrainEnd (w : WytheIx) (s : State) : Res :=
  .next (s.onlyIf ((s.wy w).tie.retraining && decide (s.now ≤ (s.wy w).tie.retrainSince + 100000))
    (fun s => s.updTie w (fun k => { k with retraining := false })))

/-- TIE_LOST: a retraining has not completed within 100 µs (R519). -/
def execTieLost (w : WytheIx) (s : State) : Res :=
  .next (s.onlyIf ((s.wy w).tie.retraining && decide ((s.wy w).tie.retrainSince + 100000 ≤ s.now)) (fun s => s.loseTie w .tieLost))

/-- ISOLATE: TIE_CMD bit 0 (R521). -/
def execIsolate (a : Agent) (w : WytheIx) (s : State) : Res := .next (s.viaPage a w (fun s => s.loseTie w .hostIsolate))

/-- REJOIN: TIE_CMD bit 1 (R526). -/
def execRejoin (a : Agent) (w : WytheIx) (s : State) : Res := .next (s.viaPage a w (fun s => s.rejoinWritten w))

/-- REJOIN_ATTEMPT (R526). -/
def execRejoinAttempt (w : WytheIx) (s : State) : Res := .next (s.onlyIf (s.retryDue w) (fun s => s.attempt w))


/-- FLIT_RETRY (R516). -/
def execFlitRetry (w : WytheIx) (s : State) : Res :=
  .next (s.onlyIf (!s.tieLost w) (fun s => s.count (pgTie w + 0x50) 1))

/-- SEQUENCE_EXCHANGE, while the tie is up (R525). -/
def execSequenceExchange (s : State) : Res := .next (s.onlyIf (!s.tieLost 0 && !s.tieLost 1) (fun s => s.swapSequence))

end Sys2Proof.Machine
end

