-- ==== Sys2Proof/Machine/Mason.lean ====
section
/-! DEFINITION. The Mason core (chapter 05): context states, the issue of an instruction, products, faults and interrupts. -/

namespace Sys2Proof.Machine

/-- What an instruction does once issued. -/
inductive Effect where
  /-- it completes, and the context goes on at the next instruction -/
  | done (s : State)
  /-- it completes, and the context goes on at `target` -/
  | jump (target : W24) (s : State)
  /-- it completes and has set PCX and the context's state itself -/
  | hold (s : State)
  /-- it faults (R170) -/
  | fault (code addr : Nat) (s : State)
  /-- it is not ready: it does not issue, and nothing changes (R149, R201) -/
  | wait

/-- An instruction as a half of a pair: its class and the registers it writes (R155). -/
abbrev Half := PairClass × List Reg
/-- A data-class instruction that writes `rs`. -/
def dataHalf (rs : List Reg) : Option Half := some (.data, rs)
/-- An address-class instruction that writes `rs`. -/
def addrHalf (rs : List Reg) : Option Half := some (.address, rs)

def fILLEGAL : Nat := 0x04
def fUNMAPPED : Nat := 0x07

/-- Context `n` of the core of `x`. -/
def CtxId.sib (x : CtxId) (n : CtxIx) : CtxId := { x with x := n }
def ctxsOf (k : CoreId) : List CtxId := (List.finRange 8).map (fun n => ⟨k.w, k.c, k.k, n⟩)
/-- The core of index `i` of a wythe. -/
def coreOf (w : WytheIx) (i : Nat) : CoreId := ⟨w, Fin.ofNat 6 (i / 8), Fin.ofNat 8 (i % 8)⟩

namespace State

/-- Courses run in every mode but OFF, BRACE and DORMANT, unless held in reset (R484, R501, R508); a core stopped by DOUBLE or an
abort waits for its restart (R171, R249). -/
def coreRuns (s : State) (k : CoreId) : Bool :=
  let m := (s.wy k.w).mode
  m != .off && m != .brace && m != .dormant && !(s.course k.w k.c.val).held && !(s.core k.w k.ix).dead

/-- Context `x` is Chase-owned (R146). -/
def chaseOwned (s : State) (x : CtxId) : Bool := x.x != 0 && flag (s.coreCfg x.w x.core.ix 0x104) x.x.val
/-- Index of the task a context holds. -/
def taskOf (s : State) (x : CtxId) : Option Nat := (s.ctx x).task.map (tcbIx x.core.ix)

/-- The task state that a context state shows (R227). -/
def taskStateOf : CtxState → Option TaskState
  | .running => some .running
  | .waiting => some .waiting
  | .halted => some .halted
  | .faulted => some .faulted
  | .swapping => some .moving
  | _ => none

/-- The quiescence detector of a course counts from zero (R246). -/
def unquiet (s : State) (w : WytheIx) (c : Nat) : State := s.updCourse w c (fun k => { k with quiet := 0 })
/-- A context enters a state, and its task with it; CTX_EVENT at STOPPED, HALTED and FAULTED (R161), HALTED on the DEBUG page
(R546). -/
def setCtxState (s : State) (x : CtxId) (st : CtxState) : State :=
  let s1 := s.updCtx x (fun c => { c with state := st })
  let s2 := match s.taskOf x, taskStateOf st with
    | some t, some ts => s1.updTcb x.w t (fun k => { k with state := ts })
    | _, _ => s1
  let s3 := s2.onlyIf (x.x != 0 && (s.ctx x).state != st && (st == .stopped || st == .halted || st == .faulted))
    (fun s => s.interrupt x.w x.core.ix 4)
  let s4 := s3.onlyIf ((s.taskOf x).isSome && (st == .running || st == .halted)) (fun s => s.unquiet x.w x.c.val)
  s4.onlyIf (st == .halted) (fun s => s.raiseBit pgDebug 0)

/-- A course is metered while the Mason image it has loaded has METERED set (R542). -/
def meteredCourse (s : State) (w : WytheIx) (c : Nat) : Bool :=
  (List.range 8).any (fun k => match (s.core w (8 * c + k)).image with
    | some m => bitOf (beAt m.bytes 7 1) 0
    | none => false)
/-- Debug of a course is permitted (R542). -/
def debugAllowed (s : State) (w : WytheIx) (c : Nat) : Bool := (s.ds w).lc != .commissioned || !s.meteredCourse w c

/-! Products (R157, R198). -/

def landOne (c : Ctx) (p : Product) : Ctx :=
  match p.dest with
  | .pair => { c with mlo := p.value.extractLsb' 0 16, mhi := p.value.extractLsb' 16 16 }
  | .acc x => c.setX x p.value
/-- At cycle `t` the products due have landed and a window whose VERD retired is empty (R242). -/
def settleCtx (t : Nat) (c : Ctx) : Ctx :=
  let due := c.products.filter (fun p => decide (p.lands ≤ t))
  let c1 := due.foldl landOne { c with products := c.products.filter (fun p => !decide (p.lands ≤ t)) }
  match c1.slugEnds with
  | some e => if e ≤ t then { c1 with slug := none, slugEnds := none } else c1
  | none => c1
/-- Every product lands (R198). -/
def landAll (c : Ctx) : Ctx :=
  let c1 := c.products.foldl landOne { c with products := [] }
  if c1.slugEnds.isSome then { c1 with slug := none, slugEnds := none } else c1

/-! Faults (R170, R171). -/

/-- Master class and identity of a context for FAULT_INFO (R170, R448). -/
def masterId (s : State) (x : CtxId) : Nat :=
  match (s.ctx x).task with
  | some t => at' x.c.val 10 + at' x.k.val 7 + t.val
  | none => 0x10000 + at' x.c.val 10 + at' x.k.val 7 + x.x.val

/-- Record a fault: FAULT_INFO, FAULT_ADDR and the counts. -/
def recordFault (s : State) (x : CtxId) (code addr : Nat) : State :=
  let i := x.core.ix
  let pg := pgCore x.w i
  (((s.wr (pg + 0x20) (w32 (at' code 24 + s.masterId x))).wr (pg + 0x24) (w32 addr)).count (pg + 0x70) 1).pmc x.w i 0x18 (some x.x) 1

/-- Masters of a core. -/
def ofCore (c : CourseIx) (k : CoreIx) (h : Holder) : Bool :=
  match h with
  | .task c' k' _ => c' == c && k' == k
  | .master c' k' _ => c' == c && k' == k
  | _ => false

/-- The result word of a lookup and, for the learn and index tables, the entry (R134). -/
def lookWord (s : State) (x : CtxId) (p : PendingLook) (ecc : EccReport) : W32 × Option Bytes × State :=
  match p.table with
  | .trie4 => let (v, s1) := s.trieLook x.w false p.key p.forme ecc; (v, none, s1)
  | .trie6 => let (v, s1) := s.trieLook x.w true p.key p.forme ecc; (v, none, s1)
  | .learn =>
    let (v, b, s1) := s.learnLook x.w ⟨p.key, p.port, p.flags, p.data, p.forme⟩ p.learn p.refresh ecc
    (v, some b, s1)
  | .index =>
    let i := p.key.toNat
    let (r, s1) := s.indexLook x.w i (s.bornView x.w p.forme) ecc
    (w32 (i + (if r.isSome then 0x80000000 else 0) + (if ecc = .uncorrectable then 0x40000000 else 0)), some (r.getD []), s1)
/-- The instructions that a context has issued complete, as it is emptied or stopped: products land, and lookups still out have their
effect on the tables (R172, R230; log 27). -/
def completeIssued (s : State) (x : CtxId) : State :=
  (s.each (s.ctx x).looks (fun s p => (s.lookWord x p .good).2.2)).updCtx x (fun c => { landAll c with loads := [], looks := [], stopDue := false })
/-- Nothing is left to wait for in a context. -/
def freshTiming (s : State) (x : CtxId) : State := s.updCore x.w x.core.ix (fun k => { k with timing := kdel k.timing x.x.val })

/-- Every context of a core is STOPPED; its coprocessor commands, claims and Quoin holdings go (R171, R172, R286, R323). -/
def stopCore (s : State) (k : CoreId) : State :=
  let s1 := s.each (ctxsOf k) (fun s x => (s.completeIssued x).setCtxState x .stopped)
  let s2 := (s1.cpReset k.w k.c.val (ofCore k.c k.k)).quoinReset k.w (ofCore k.c k.k)
  s2.updCore k.w k.ix (fun c => { c with dead := true, entryStep := 0, handlers := [], sampled := 0, timing := [] })

/-- What the context issues after its instruction of the core's present cycle, in the `n` cycles that follow, is killed. -/
def killsAfter (s : State) (x : CtxId) (n : Nat) : State :=
  s.updCore x.w x.core.ix (fun k => { k with timing := kupd {} k.timing x.x.val (fun t => { t with squash := k.cycle + n }) })
/-- A context faults at its PCX (R170); context 0 during a FAULT entry or its handler double-faults (R171). Successors that it issues
before the faulting instruction would reach WB, in cycle c + 5, are killed (R293; the cycle is a DESIGN CHOICE, log 32). -/
def fault (s : State) (x : CtxId) (code addr : Nat) : State :=
  let k := s.core x.w x.core.ix
  if x.x = 0 ∧ k.inFault then
    ((s.recordFault x 0x08 addr).stopCore x.core).raiseBit (pgCore x.w x.core.ix) 0
  else (((s.recordFault x code addr).updCtx x (fun c => { c with stepping := false, stopDue := false })).setCtxState x .faulted).killsAfter x 4

/-- A context that CTXSTOP has met is STOPPED once the instructions it issued have completed (R147). -/
def stopIfDone (s : State) (x : CtxId) : State :=
  let c := s.ctx x
  if c.stopDue && c.loads.isEmpty && c.looks.isEmpty then
    (s.updCtx x (fun c => { landAll c with stopDue := false, stepping := false })).setCtxState x .stopped
  else s

/-- An access to a bank that is off is recorded, and the context continues (R170, R308). -/
def offBank (s : State) (x : CtxId) (addr : Nat) : State := s.recordFault x 0x02 addr

/-! Readiness and result timing (R149, R150). -/

/-- What a context waits for. -/
def timing (s : State) (x : CtxId) : Timing := kget {} (s.core x.w x.core.ix).timing x.x.val
/-- The context's next instruction issues in cycle `n` or later. -/
def notBefore (s : State) (x : CtxId) (n : Nat) : State :=
  s.updCore x.w x.core.ix (fun k => { k with timing := kupd {} k.timing x.x.val (fun t => { t with next := max t.next n }) })
/-- A result on its way to registers `rs`: an instruction of the context that reads one, as an address where `addr`, issues in cycle `n`
or later. Results that have arrived by the core's present cycle are forgotten. -/
def resultAt (s : State) (x : CtxId) (rs : List Reg) (addr : Bool) (n : Nat) : State :=
  s.updCore x.w x.core.ix (fun k => { k with timing := kupd {} k.timing x.x.val (fun t =>
    { t with results := t.results.filter (fun r => decide (k.cycle < r.2.2)) ++ rs.map (fun r => (r, addr, n)) }) })
/-- The core's present cycle, in which the instruction under way has issued. -/
def cycleOf (s : State) (x : CtxId) : Nat := (s.core x.w x.core.ix).cycle
/-- An arithmetic result into an address register: used as an address two cycles on (R150). -/
def addrResult (s : State) (x : CtxId) (n : Fin 8) : State := s.resultAt x [.a n] true (s.cycleOf x + 2)
/-- In cycle `t` a register the instruction reads, or uses as an address, is a result still outstanding. -/
def outstanding (m : Timing) (t : Nat) (reads addrs : List Reg) : Bool :=
  m.results.any (fun r => decide (t < r.2.2) && (addrs.contains r.1 || (!r.2.1 && reads.contains r.1)))

/-! The issue of an instruction (R144, R149, R151, R159). -/

/-- The cycle of an issue after `gap` cycles without one; the second of a pair issues with the first (R155). -/
def issueCycle (s : State) (i : Issue) : Nat :=
  let t := (s.core i.id.w i.id.core.ix).cycle
  if i.pair then t else t + i.gap + 1
/-- An instruction may issue as the second of a pair (R155): in RUN with PAIR_EN set, after an instruction of the other class that its
context has issued in the core's present cycle, reading no register that one writes and writing none of them. -/
def pairOk (s : State) (i : Issue) (reads : List Reg) (half : Option Half) : Bool :=
  let k := s.core i.id.w i.id.core.ix
  !i.pair || (match half, k.last with
    | some h, some l => i.gap == 0 && !s.plumb i.id.w i.id.core.ix && flag (s.coreCfg i.id.w (8 * i.id.c.val) 0x124) 3 &&
        l.ctx == i.id.x && l.cycle == k.cycle && l.cls != h.1 && !reads.any l.writes.contains && !h.2.any l.writes.contains
    | _, _ => false)

/-- A register still to be written by a TLOOK or by a window or far-bank load (R149, R150). -/
def awaited (c : Ctx) (r : Reg) : Bool :=
  c.loads.any (fun l => l.reg == r || (match l.reg, r with
    | .d n, .d m => l.size == 4 && m.val == n.val + 1
    | _, _ => false)) ||
  c.looks.any (fun l => match r with
    | .d m => m.val == l.dest.val || m.val == l.dest.val + 1
    | _ => false)

/-- A load from the far banks (R189). -/
def farLoad (l : PendingLoad) : Bool := decide (0x800000 ≤ l.addr) && decide (l.addr < 0xC00000)

/-! Interrupt sources (R161). -/

/-- Sources pending at a core: those latched until they are taken or acknowledged, and FAULT, COUNTER and SAMPLE while their
conditions hold. -/
def pendingInts (s : State) (k : CoreId) : Nat :=
  let c := s.core k.w k.ix
  let latched := c.intPend.toNat &&& 0x7CFF
  latched + s.perfPending k.w k.ix + (if (ctxsOf k).any (fun x => (s.ctx x).state == .faulted) then 0x8000 else 0)
/-- Pending and enabled. -/
def takeable (s : State) (k : CoreId) : Nat := s.pendingInts k &&& (fld (s.rd (pgCore k.w k.ix + 0x114)) 15 0)
/-- The highest source set. -/
def topSource (v : Nat) : Option Nat := ((List.range 16).reverse).find? (bitOf v)

/-! The slot wheel (R151–R154, R159, R164). -/

/-- Context 0 of a core. -/
def master (k : CoreId) : CtxId := ⟨k.w, k.c, k.k, 0⟩
/-- Context 0 may enter a handler: it runs with IE set, is not stepped, and a source is pending and enabled (R161). -/
def mayEnter (s : State) (k : CoreId) : Bool :=
  let c := s.ctx (master k)
  (s.core k.w k.ix).entryStep == 0 && c.state == .running && !c.stopDue && c.sr.getLsbD 15 && !c.stepping && s.takeable k != 0
/-- The slot 0 in which E1 falls in plumb: the next one for a source sampled at the latest, otherwise the one after it (R164). -/
def entrySlot (s : State) (k : CoreId) : Nat :=
  let core := s.core k.w k.ix
  let next := (core.cycle / 8 + 1) * 8
  if (s.takeable k &&& core.sampled) != 0 then next else next + 8
/-- E1 of an entry is due in cycle `t`. -/
def entryDue (s : State) (k : CoreId) (t : Nat) : Bool :=
  s.mayEnter k && (!s.plumbAt k.w k.ix t || decide (s.entrySlot k ≤ t))
/-- Context 0 asks for cycle `t` for a step of an entry. -/
def entryAsks (s : State) (k : CoreId) (t : Nat) : Bool :=
  ((s.ctx (master k)).state == .entry && (s.core k.w k.ix).entryStep != 0) || (s.entryDue k t && decide ((s.timing (master k)).next ≤ t))
/-- A context may issue in cycle `t` as far as its state shows (R149, R189). -/
def issuable (s : State) (x : CtxId) (t : Nat) : Bool :=
  let c := s.ctx x
  c.state == .running && !c.stopDue && decide ((s.timing x).next ≤ t) && (s.plumbAt x.w x.core.ix t || !c.loads.any farLoad) &&
    !(x.x == 0 && s.entryDue x.core t)
/-- A context's priority (R153): in an entry and until its handler's RETI 16, otherwise its task's or its CTX_PRIO field. -/
def ctxPrio (s : State) (x : CtxId) (t : Nat) : Nat :=
  if x.x == 0 && ((s.core x.w x.core.ix).inHandler || s.entryAsks x.core t) then 16
  else if s.chaseOwned x then (match s.taskOf x with
    | some n => (s.tcb x.w n).prio.toNat
    | none => 0)
  else fld (s.coreCfg x.w x.core.ix 0x10C) (4 * x.x.val + 3) (4 * x.x.val)
/-- The owner of a slot: its own context in plumb, otherwise the one that SLOT_PLAN names (R151, R159). -/
def slotOwner (s : State) (k : CoreId) (t : Nat) : Option CtxIx :=
  let n := t % 8
  if s.plumbAt k.w k.ix t then some (Fin.ofNat 8 n)
  else
    let v := s.coreCfg k.w k.ix 0x108
    if flag v (4 * n + 3) then some (Fin.ofNat 8 (fld v (4 * n + 2) (4 * n))) else none
/-- The next of `xs` after context `last`, going round. -/
def nextAfter (last : Nat) (xs : List CtxIx) : Option CtxIx :=
  match xs.find? (fun x => decide (last < x.val)) with
  | some x => some x
  | none => xs.head?
/-- Of the contexts `xs`, the one of the highest priority, among equals the next after the one last granted at that priority (R151). -/
def byPrio (s : State) (k : CoreId) (t : Nat) (xs : List CtxIx) : Option CtxIx :=
  let prio := fun (n : CtxIx) => s.ctxPrio ⟨k.w, k.c, k.k, n⟩ t
  let top := xs.foldl (fun m n => max m (prio n)) 0
  nextAfter (kget 7 (s.core k.w k.ix).grants top) (xs.filter (fun n => prio n == top))
/-- The context that is granted cycle `t`, where the contexts of `ready` have an instruction that waits for nothing: the slot's owner when
it is ready; otherwise, but not in plumb, the first by priority (R151, R154, R159). -/
def granted (s : State) (k : CoreId) (t : Nat) (ready : BitVec 8) : Option CtxIx :=
  let xs := (List.finRange 8).filter (fun n =>
    (n == 0 && s.entryAsks k t) || (ready.getLsbD n.val && s.issuable ⟨k.w, k.c, k.k, n⟩ t))
  match s.slotOwner k t with
  | some o => if xs.contains o then some o else if s.plumbAt k.w k.ix t then none else s.byPrio k t xs
  | none => s.byPrio k t xs
/-- The next cycle of a context's own: on a plumb core its slot (R159). -/
def nextOwn (s : State) (x : CtxId) : Nat :=
  let t := (s.core x.w x.core.ix).cycle + 1
  if s.plumb x.w x.core.ix then t + (x.x.val + 8 - t % 8) % 8 else t
/-- The cost of an instruction (R200): the context's next one issues `run` cycles after it at the earliest, on a plumb core `own` own
slots. -/
def cost (s : State) (x : CtxId) (run own : Nat) : State :=
  s.notBefore x (s.cycleOf x + if s.plumb x.w x.core.ix then 8 * own else run)
/-- The cycles between the core's latest issue and cycle `t` may have passed with no issue: a step of an entry would have taken one of
them, in plumb its own slot (R151, R164). -/
def mayPass (s : State) (k : CoreId) (t : Nat) : Bool :=
  let core := s.core k.w k.ix
  let p := s.plumbAt k.w k.ix t
  if core.entryStep != 0 then (if p then (t - 1) / 8 == core.cycle / 8 else t == core.cycle + 1)
  else !(p && s.mayEnter k && decide (s.entrySlot k < t) && decide ((s.timing (master k)).next ≤ s.entrySlot k))
/-- Bit `n` of a set of contexts. -/
def ctxBit (n : CtxIx) : BitVec 8 := BitVec.ofNat 8 (2 ^ n.val)
/-- The core grants the cycle of an issue to its context; the second of a pair issues with the first. -/
def grants (s : State) (i : Issue) : Bool :=
  let t := s.issueCycle i
  i.pair || (s.mayPass i.id.core t && s.granted i.id.core t (i.ready ||| ctxBit i.id.x) == some i.id.x)

/-- The context may issue in that cycle: it is RUNNING and not to stop, its operands are there and the cycle is granted to it; `addrs`
are the registers it reads as addresses, `half` is the instruction as a half of a pair, none where it issues alone. -/
def mayIssue (s : State) (i : Issue) (reads : List Reg) (half : Option Half := none) (addrs : List Reg := []) : Bool :=
  let c := s.ctx i.id
  let t := s.issueCycle i
  s.coreRuns i.id.core && s.issuable i.id t && s.pairOk i reads half && !reads.any (awaited c) && !outstanding (s.timing i.id) t reads addrs &&
    s.grants i

/-- A line of the course banks enters the instruction cache (R144): 64 sets of 4 ways, the oldest of a set leaving (DESIGN CHOICE,
log 18). -/
def cacheLine (s : State) (x : CtxId) (pc : Nat) : State :=
  let i := x.core.ix
  let l := pc / 32
  let k := s.core x.w i
  if s.plumb x.w x.core.ix || !flag (s.coreCfg x.w (8 * x.c.val) 0x124) 1 || pc < 0x400000 || k.icache.contains l then s
  else
    let set := k.icache.filter (fun m => m % 64 == l % 64)
    let keep := if set.length < 4 then k.icache else k.icache.erase (set.getLastD 0)
    (s.updCore x.w i (fun k => { k with icache := l :: keep })).pmc x.w i 0x11 (some x.x) 1

/-- The fetch reads a course bank: the cache is off or does not hold the line (R144, R174). -/
def fetchesBank (s : State) (x : CtxId) (pc : Nat) : Bool :=
  decide (0x400000 ≤ pc) && !(flag (s.coreCfg x.w (8 * x.c.val) 0x124) 1 && (s.core x.w x.core.ix).icache.contains (pc / 32))
/-- Why an instruction of `len` bytes cannot be fetched at `pc`, on a core that is plumb or is not: its fault code (R159, R191, R194,
R308). -/
def fetchFault (s : State) (plumb : Bool) (x : CtxId) (pc len : Nat) : Option Nat :=
  if plumb && decide (0x10000 ≤ pc) then some 0x05
  else if decide (0x10000 ≤ pc) && (decide (pc < 0x400000) || decide (0x800000 ≤ pc)) then some fUNMAPPED
  else if decide (pc < 0x10000) && s.marching x.w x.c.val then some 0x01
  else if s.fetchesBank x pc && s.bankView x.w x.c.val ((pc - 0x400000) / 0x40000) != .on then some 0x01
  else if len = 4 && pc % 8 == 6 then some fILLEGAL
  else none

/-- What the check bits report for the fetched bank word (R309). -/
def fetchCheck (s : State) (i : Issue) (pc : Nat) : State :=
  if !s.fetchesBank i.id pc then s
  else match i.fetchEcc with
    | .good => s
    | .corrected => s.bankCorrected i.id.w i.id.c.val
    | .uncorrectable => s.bankUncorrectable i.id.w i.id.c.val (pc - 0x400000)

/-- A core's cycle counter runs on to `t`; a slot 0 passed on the way samples the sources that can be taken (R164). -/
def runTo (s : State) (k : CoreId) (t : Nat) : State :=
  let now := s.takeable k
  s.updCore k.w k.ix (fun c => { c with cycle := t, sampled := if c.cycle / 8 < t / 8 then now else c.sampled })
/-- The core grants its cycle `t` to context `x`, `gap` cycles after its latest issue (R151, R173, R532). -/
def takeCycle (s : State) (x : CtxId) (t gap : Nat) : State :=
  let n := x.core.ix
  let prio := s.ctxPrio x t
  ((((s.runTo x.core t).updCore x.w n (fun k => { k with grants := sput (fun _ => 7) k.grants prio x.x.val })).onlyIf (gap != 0) (fun s =>
    (s.count (pgCore x.w n + 0x50) gap).pmc x.w n 0x05 none gap))).pmc x.w n 0x01 none (gap + 1)
/-- A core issues in a cycle of its own, `gap` cycles after its last issue. -/
def countAlone (s : State) (i : Issue) (half : Option Half) : State :=
  let x := i.id
  let n := x.core.ix
  let t := s.issueCycle i
  (((((s.takeCycle x t i.gap).nameSamples x.w n x.x (s.ctx x) true).updCore x.w n (fun k => { k with
    loadIssues := k.loadIssues + 1, last := half.map (fun h => ⟨x.x, h.1, h.2, t⟩) })).count (pgCore x.w n + 0x40) 1).pmc x.w n 0x02
    (some x.x) 1).pmc x.w n 0x03 (some x.x) 1
/-- The second of a pair issues in the first one's cycle (R155, R173, R532). -/
def countPair (s : State) (i : Issue) : State :=
  let x := i.id
  let n := x.core.ix
  ((((s.nameSamples x.w n x.x (s.ctx x) false).updCore x.w n (fun k => { k with last := none })).count (pgCore x.w n + 0x48) 1).pmc x.w n 0x02
    (some x.x) 1).pmc x.w n 0x04 (some x.x) 1
/-- The accounting of one issue. -/
def countIssue (s : State) (i : Issue) (half : Option Half := none) : State := if i.pair then s.countPair i else s.countAlone i half
/-- The waiting time of a context's task ends at cycle `t` (R248). -/
def waitingEnds (s : State) (x : CtxId) (t : Nat) : State :=
  match s.taskOf x with
  | none => s
  | some ti => s.updTcb x.w ti (fun k => match k.waitFrom with
    | none => k
    | some f =>
      let d := t - f
      { k with
        waitFrom := none, waitLast := w32 (min d 0xFFFFFFFF), waitMax := w32 (max k.waitMax.toNat (min d 0xFFFFFFFF))
        waitSum := if s.frozen (pgChase x.w x.core.ix) then k.waitSum else ctrAdd k.waitSum d })
/-- The accounting of an issue: cycle, counters, the task's waiting time, and the products that land. -/
def accounting (s : State) (i : Issue) (half : Option Half := none) : State :=
  ((s.countIssue i half).waitingEnds i.id (s.issueCycle i)).updCtx i.id (settleCtx (s.issueCycle i))

/-- A stepped context halts after its instruction (R538). -/
def stepEnds (s : State) (x : CtxId) : State :=
  if (s.ctx x).stepping && (s.ctx x).state == .running then
    ((s.updCtx x (fun c => { c with stepping := false })).setCtxState x .halted).count (pgDebug + 0x48) 1
  else s

/-- Issue an instruction: nothing changes when the context may not issue it; otherwise the accounting, the fetch, and its effect. -/
def issue (s : State) (i : Issue) (long : Bool) (reads : List Reg) (f : State → Effect) (half : Option Half := none)
    (addrs : List Reg := []) : State :=
  let x := i.id
  let len := if long then 4 else 2
  if !s.mayIssue i reads half addrs then s
  else
    let s1 := s.accounting i half
    let pc := (s.ctx x).pcx
    match s.fetchFault (s.plumbAt x.w x.core.ix (s.issueCycle i)) x pc.toNat len with
    | some code =>
      let s2 := if code = 1 then s1.bankRefused x.w x.c.val (s1.bankView x.w x.c.val ((pc.toNat - 0x400000) / 0x40000)) else s1
      (s2.fault x code pc.toNat).stepEnds x
    | none =>
      let s1 := s1.fetchCheck i pc.toNat
      if i.fetchEcc = .uncorrectable && s.fetchesBank x pc.toNat then (s1.fault x 0x0E pc.toNat).stepEnds x
      else match f (s1.cacheLine x pc.toNat) with
      | .done s2 => (s2.updCtx x (fun c => { c with pcx := pc + BitVec.ofNat 24 len })).stepEnds x
      | .jump t s2 => (s2.updCtx x (fun c => { c with pcx := t &&& 0xFFFFFE#24 })).stepEnds x
      | .hold s2 => s2.stepEnds x
      | .fault code addr s2 => s2.fault x code addr
      | .wait => s

/-- An ILLEGAL encoding (R202). -/
def illegal (s : State) (x : CtxId) : Effect := .fault fILLEGAL (s.ctx x).pcx.toNat s

/-! Interrupt entry (R162–R164). -/

/-- Arbitration at E1 to E5: a higher source takes the entry over (R163). -/
def arbitrate (s : State) (k : CoreId) : State :=
  match topSource (s.takeable k) with
  | none => s
  | some n => s.updCore k.w k.ix (fun c =>
      let m := max n c.entrySource
      { c with entrySource := m, entryTook := c.entryTook || decide (c.entrySource < n), handlers := m :: c.handlers.drop 1 })

/-- What one step of an entry does, E1 to E6 (R162). -/
def entryWork (s : State) (k : CoreId) : State :=
  let x := master k
  let i := k.ix
  let c0 := s.ctx x
  let core := s.core k.w i
  match core.entryStep with
  | 0 =>
    let n := (topSource (s.takeable k)).getD 0
    let sr := s.srWord x c0.sr
    (s.updCtx x (fun c => settleCtx core.cycle { c with state := .entry })).updCore k.w i (fun c => { c with
      spcx := c0.pcx, ssr := sr, entryStep := 1, entrySource := n, entryTook := false, handlers := n :: c.handlers })
  | 1 =>
    let s1 := s.updCore k.w i (fun c => { c with sa0 := c0.a[0], sd0 := c0.d[0], entryStep := 2 })
    (s1.updCtx x (fun c => { c with sr := c.sr &&& 0x7FFF#16 })).arbitrate k
  | 2 => (s.arbitrate k).updCore k.w i (fun c => { c with entryStep := 3 })
  | 3 => (s.arbitrate k).updCore k.w i (fun c => { c with entryStep := 4 })
  | 4 =>
    let s1 := s.arbitrate k
    s1.updCore k.w i (fun c => { c with
      entryStep := 5, intPend := c.intPend &&& (0x2000#16 ||| ~~~(BitVec.ofNat 16 (2 ^ c.entrySource))) })
  | _ =>
    let n := core.entrySource
    let vec := BitVec.ofNat 24 (fld (s.rd (pgCore k.w i + 0x11C)) 15 4 * 16 + 16 * n)
    let s1 := s.updCore k.w i (fun c => { c with
      entryStep := 0, lastEntry := w32 (at' (b2n core.entryTook) 5 + 0x10 + n) })
    let s2 := (s1.updCtx x (fun c => { c with pcx := vec })).count (pgCore k.w i + 0x60) 1
    let s3 := (s2.onlyIf core.entryTook (fun s => s.count (pgCore k.w i + 0x68) 1)).pmc k.w i 0x17 none 1
    let halt := c0.haltDue || c0.stepping
    let s4 := (s3.updCtx x (fun c => { c with state := .running, haltDue := false, stepping := false }))
    if halt then (s4.setCtxState x .halted).count (pgDebug + if c0.stepping then 0x48 else 0x40) 1 else s4

/-- The step of an entry in the core's cycle `gap` cycles after its latest issue may be made: context 0 asks for that cycle and is granted
it, where the contexts of `ready` are ready too (R151, R162, R164). -/
def entryMay (s : State) (k : CoreId) (gap : Nat) (ready : BitVec 8) : Bool :=
  let t := (s.core k.w k.ix).cycle + gap + 1
  s.coreRuns k && s.entryAsks k t && s.mayPass k t && s.granted k t (ready &&& 0xFE) == some 0
/-- One step of an entry (R162). -/
def entryStep (s : State) (k : CoreId) (gap : Nat) (ready : BitVec 8) : State :=
  if s.entryMay k gap ready then ((s.takeCycle (master k) ((s.core k.w k.ix).cycle + gap + 1) gap).updCore k.w k.ix (fun c => { c with last := none })).entryWork k
  else s

end State

/-- INTERRUPT_ENTRY: the next of the entry's six steps (R162). -/
def execInterruptEntry (k : CoreId) (gap : Nat) (ready : BitVec 8) (s : State) : Res := .next (s.entryStep k gap ready)

/-- INT_SOFT (R161). -/
def execIntSoft (a : Agent) (k : CoreId) (mask : BitVec 4) (s : State) : Res :=
  .next (s.viaPage a k.w (fun s => s.each (List.range 4) (fun s n => s.onlyIf (mask.getLsbD n) (fun s => s.interrupt k.w k.ix n))))

end Sys2Proof.Machine
end

