-- ==== Sys2Proof/Machine/Alu.lean ====
section
/-! DEFINITION. Eoren arithmetic, logic, shifts, bit fields, characters, multiplies and moves (R204–R211). -/

namespace Sys2Proof.Machine

/-- The registers of a pair. -/
def pairRegs (n : Fin 16) : List Reg := [.d n, .d (Fin.ofNat 16 (n.val + 1))]
/-- A register operand that the encoding accepts: its number is listed, the shadow registers are context 0's (R181), a written one is
not read-only, and a D register that stands for a pair is even (R178, R202). -/
def regOk (x : CtxId) (r : Reg) (write p : Bool) : Bool :=
  !Reg.reservedNo r && (!Reg.shadow r || x.x == 0) && !(write && Reg.readOnly r) && (match r with
    | .d n => !p || evenReg n
    | _ => true)
/-- The D registers an operand reads. -/
def regReads (r : Reg) (p : Bool) : List Reg :=
  match r, p with
  | .d n, true => pairRegs n
  | r, _ => [r]

namespace State

/-- An instruction that changes its context's registers alone. -/
def regsOnly (s : State) (x : CtxId) (g : Ctx → Ctx) : Effect := .done (s.updCtx x g)

/-! Two-operand and three-operand arithmetic (R204, R205). -/

def aluIsLong : AluForm → Bool
  | .short _ _ => false
  | _ => true
def aluReads : AluForm → List Reg
  | .short d r => [.d d, .d r]
  | .w _ a b => [.d a, .d b]
  | .l _ a b => pairRegs a ++ pairRegs b
  | .x _ a b => [.x a, .x b]
/-- The form as a half of a pair (R155). -/
def aluHalf (write : Bool) (f : AluForm) : Option Half :=
  dataHalf (if !write then [] else match f with
    | .short d _ => [.d d]
    | .w d _ _ => [.d d]
    | .l d _ _ => pairRegs d
    | .x d _ _ => [.x d])
/-- Rd is 0 where the form has one (CMP). -/
def noDest : AluForm → Bool
  | .short _ _ => true
  | .w d _ _ => d == 0
  | .l d _ _ => d == 0
  | .x d _ _ => d == 0
/-- The operation on the context's registers; `write` false discards the result. -/
def aluCtx (op : AluOp) (write : Bool) (f : AluForm) (c : Ctx) : Ctx :=
  let cy := flagC c.sr
  match f with
  | .short d r =>
    let (v, fl) := aluFlags op c.d[d.val] c.d[r.val] cy
    { (if write then c.setD d v else c) with sr := setFlags c.sr fl }
  | .w d a b =>
    let (v, fl) := aluFlags op c.d[a.val] c.d[b.val] cy
    { (if write then c.setD d v else c) with sr := setFlags c.sr fl }
  | .l d a b =>
    let (v, fl) := aluFlags op (c.pair a) (c.pair b) cy
    { (if write then c.setPair d v else c) with sr := setFlags c.sr fl }
  | .x d a b =>
    let (v, fl) := aluFlags op c.x[a.val] c.x[b.val] cy
    { (if write then c.setX d v else c) with sr := setFlags c.sr fl }
def aluOk : AluForm → Bool
  | .l d a b => evenReg d && evenReg a && evenReg b
  | _ => true
def alu (s : State) (i : Issue) (op : AluOp) (write : Bool) (f : AluForm) : State :=
  s.issue i (aluIsLong f) (aluReads f) (half := aluHalf write f) (fun s =>
    if aluOk f && (write || noDest f) then s.regsOnly i.id (aluCtx op write f) else s.illegal i.id)

/-- D := g D with new flags, for the forms on D registers. -/
def unary (s : State) (i : Issue) (long : Bool) (reads : List Reg) (d : Fin 16) (g : Ctx → W16 × Nzcv) : State :=
  s.issue i long reads (half := dataHalf [.d d]) (fun s => s.regsOnly i.id (fun c =>
    let (v, fl) := g c
    { c.setD d v with sr := setFlags c.sr fl }))
/-- D := g D, the flags unchanged. -/
def plainD (s : State) (i : Issue) (long : Bool) (reads : List Reg) (d : Fin 16) (g : Ctx → W16) : State :=
  s.issue i long reads (half := dataHalf [.d d]) (fun s => s.regsOnly i.id (fun c => c.setD d (g c)))
/-- A := g, the flags unchanged (R150, R177). -/
def plainA (s : State) (i : Issue) (long : Bool) (reads : List Reg) (n : Fin 8) (g : Ctx → W24) : State :=
  s.issue i long reads (half := addrHalf [.a n]) (fun s => .done ((s.updCtx i.id (fun c => c.setA n (g c))).addrResult i.id n))
/-- What an instruction that has written register `r` by arithmetic leaves to wait for (R150). -/
def written (s : State) (x : CtxId) (r : Reg) : State :=
  match r with
  | .a n => s.addrResult x n
  | _ => s

/-- A move between any registers with conversion (R211). -/
def move (s : State) (i : Issue) (dst src : Reg) (p : Bool) : State :=
  s.issue i true (regReads src p) (fun s =>
    if regOk i.id dst true p && regOk i.id src false p then
      let (v, s1) := s.readRegP i.id src p
      .done ((s1.writeReg i.id dst p v).written i.id dst)
    else s.illegal i.id)

/-- MOVI's class by its destination: D and X data, A address, another register alone (R155, R211). -/
def movImmHalf (r : Reg) : Option Half :=
  match r with
  | .d _ => dataHalf [r]
  | .x _ => dataHalf [r]
  | .a _ => addrHalf [r]
  | _ => none
/-- MOVI long (R204, R211). -/
def movImm (s : State) (i : Issue) (r : Reg) (imm : W16) : State :=
  s.issue i true [] (half := movImmHalf r) (fun s =>
    if !regOk i.id r true false then s.illegal i.id
    else .done ((s.writeReg i.id r false (match r with
      | .x _ => .d imm
      | .a _ => .a (imm.setWidth 24)
      | .spcx => .s24 (imm.setWidth 24)
      | .sa0 => .s24 (imm.setWidth 24)
      | _ => .s16 imm)).written i.id r))

/-- Logic with a long immediate. -/
def logicImm (s : State) (i : Issue) (r : Reg) (op : AluOp) (imm : W16) : State :=
  match r with
  | .d d => s.unary i true [r] d (fun c => aluFlags op c.d[d.val] imm false)
  | _ => s.issue i true [] (fun s => s.illegal i.id)

/-! Shifts (R206). -/

def shiftIsLong : ShiftForm → Bool
  | .short _ _ => false
  | _ => true
def shiftReads : ShiftForm → List Reg
  | .short d r => [.d d, .d r]
  | .w _ a c => [.d a, .d c]
  | .l _ a c => .d c :: pairRegs a
  | .x _ a c => [.x a, .d c]
/-- The form as a half of a pair (R155). -/
def shiftHalf : ShiftForm → Option Half
  | .short d _ => dataHalf [.d d]
  | .w d _ _ => dataHalf [.d d]
  | .l d _ _ => dataHalf (pairRegs d)
  | .x d _ _ => dataHalf [.x d]
def shiftCtx (k : ShiftKind) (f : ShiftForm) (c : Ctx) : Ctx :=
  match f with
  | .short d r =>
    let (v, fl) := shiftFlags k c.d[d.val] (c.d[r.val].toNat % 32)
    { c.setD d v with sr := setFlags c.sr fl }
  | .w d a n =>
    let (v, fl) := shiftFlags k c.d[a.val] (c.d[n.val].toNat % 64)
    { c.setD d v with sr := setFlags c.sr fl }
  | .l d a n =>
    let (v, fl) := shiftFlags k (c.pair a) (c.d[n.val].toNat % 64)
    { c.setPair d v with sr := setFlags c.sr fl }
  | .x d a n =>
    let (v, fl) := shiftFlags k c.x[a.val] (c.d[n.val].toNat % 64)
    { c.setX d v with sr := setFlags c.sr fl }
def shiftOk : ShiftForm → Bool
  | .l d a _ => evenReg d && evenReg a
  | _ => true
def shift (s : State) (i : Issue) (k : ShiftKind) (f : ShiftForm) : State :=
  s.issue i (shiftIsLong f) (shiftReads f) (half := shiftHalf f) (fun s => if shiftOk f then s.regsOnly i.id (shiftCtx k f) else s.illegal i.id)
/-- Shifts by an immediate: a count above 15, or a negative one, is ILLEGAL. -/
def shiftImm (s : State) (i : Issue) (k : ShiftKind) (d : Fin 16) (n : BitVec 7) : State :=
  s.issue i false [.d d] (half := dataHalf [.d d]) (fun s =>
    if 15 < n.toNat then s.illegal i.id
    else s.regsOnly i.id (fun c =>
      let (v, fl) := shiftFlags k c.d[d.val] n.toNat
      { c.setD d v with sr := setFlags c.sr fl }))

/-! Multiplies (R157, R209): the product is read by a DC three cycles on. -/

/-- A product on its way, issued in the core's present cycle. -/
def product (s : State) (x : CtxId) (dest : ProductTo) (v : Ctx → W40) : Effect :=
  let t := (s.core x.w x.core.ix).cycle
  s.regsOnly x (fun c => { c with products := c.products ++ [⟨dest, v c, t + 3⟩] })
/-- Product registers: the unsigned and the signed product of 32 bits. -/
def mulU (a b : W16) : W40 := (a.setWidth 32 * b.setWidth 32 : W32).setWidth 40
def mulS (a b : W16) : W40 := (a.signExtend 32 * b.signExtend 32 : W32).setWidth 40
/-- X with the products in flight to it. -/
def accNow (c : Ctx) (n : Fin 4) : W40 :=
  match (c.products.filter (fun p => p.dest == .acc n)).getLast? with
  | some p => p.value
  | none => c.x[n.val]
/-- SAT (R206). -/
def satOf (v : W40) : W32 × Nzcv :=
  let r : W32 := if v.toInt < -2147483648 then 0x80000000 else if 2147483647 < v.toInt then 0x7FFFFFFF else v.setWidth 32
  (r, { logicFlags r with v := decide (r.toInt ≠ v.toInt) })

/-! Bit fields (R206). -/

def bfxOf (v p w : Nat) : W16 := BitVec.ofNat 16 (v / 2 ^ p % 2 ^ w)
def bfiOf (old src p w : Nat) : Nat := old - (old / 2 ^ p % 2 ^ w) * 2 ^ p + (src % 2 ^ w) * 2 ^ p
/-- An encoding whose field leaves the operand, or a pair at an odd register, is ILLEGAL. -/
def fieldOk (r : Fin 16) (pair : Bool) (p : Fin 32) (w : Fin 16) : Bool :=
  if pair then evenReg r && decide (p.val + w.val + 1 ≤ 32) else decide (p.val + w.val + 1 ≤ 16)

/-- PAR and PARW: Z alone can be set. -/
def parFlags (v : W16) : W16 × Nzcv := (v, ⟨false, v == 0, false, false⟩)

end State

/-- MOV (R204, R210). -/
def execMov (i : Issue) (f : MovForm) (s : State) : Res :=
  .next (match f with
    | .dd d r => s.plainD i false [.d r] d (fun c => c.d[r.val])
    | .aa n m => s.plainA i false [.a m] n (fun c => c.a[m.val])
    | .ad n m => s.plainA i false [.d m] n (fun c => c.d[m.val].setWidth 24)
    | .da d n => s.plainD i false [.a n] d (fun c => c.a[n.val].setWidth 16))
/-- ADD (R204, R210). -/
def execAdd (i : Issue) (f : AddForm) (s : State) : Res :=
  .next (match f with
    | .alu g => s.alu i .add true g
    | .aa n m => s.plainA i false [.a n, .a m] n (fun c => c.a[n.val] + c.a[m.val])
    | .ad n m => s.plainA i false [.a n, .d m] n (fun c => c.a[n.val] + c.d[m.val].signExtend 24))
/-- SUB (R204, R210). -/
def execSub (i : Issue) (f : SubForm) (s : State) : Res :=
  .next (match f with
    | .alu g => s.alu i .sub true g
    | .aa n m => s.plainA i false [.a n, .a m] n (fun c => c.a[n.val] - c.a[m.val]))
/-- AND (R204). -/
def execAnd (i : Issue) (f : AluForm) (s : State) : Res := .next (s.alu i .and true f)
/-- OR (R204). -/
def execOr (i : Issue) (f : AluForm) (s : State) : Res := .next (s.alu i .or true f)
/-- XOR (R204). -/
def execXor (i : Issue) (f : AluForm) (s : State) : Res := .next (s.alu i .xor true f)
/-- CMP (R204). -/
def execCmp (i : Issue) (f : AluForm) (s : State) : Res := .next (s.alu i .sub false f)
/-- TST (R204). -/
def execTst (i : Issue) (d r : Fin 16) (s : State) : Res := .next (s.alu i .and false (.short d r))
/-- NEG (R204). -/
def execNeg (i : Issue) (d r : Fin 16) (s : State) : Res :=
  .next (s.unary i false [.d r] d (fun c => subFlags 0 c.d[r.val] false))
/-- NOT (R204). -/
def execNot (i : Issue) (d r : Fin 16) (s : State) : Res :=
  .next (s.unary i false [.d r] d (fun c => (~~~c.d[r.val], logicFlags (~~~c.d[r.val]))))
/-- ADC (R204). -/
def execAdc (i : Issue) (f : AluForm) (s : State) : Res := .next (s.alu i .adc true f)
/-- SBC (R204). -/
def execSbc (i : Issue) (f : AluForm) (s : State) : Res := .next (s.alu i .sbc true f)
/-- MOVI (R204, R211). -/
def execMovi (i : Issue) (f : MoviForm) (s : State) : Res :=
  .next (match f with
    | .short d imm => s.plainD i false [] d (fun _ => imm.signExtend 16)
    | .long r imm => s.movImm i r imm)
/-- ADDI (R204, R210). -/
def execAddi (i : Issue) (f : AddiForm) (s : State) : Res :=
  .next (match f with
    | .short d imm => s.unary i false [.d d] d (fun c => addFlags c.d[d.val] (imm.signExtend 16) false)
    | .shortA n imm => s.plainA i false [.a n] n (fun c => c.a[n.val] + imm.signExtend 24)
    | .long r imm => match r with
      | .d d => s.unary i true [.d d] d (fun c => addFlags c.d[d.val] imm false)
      | .a n => s.plainA i true [.a n] n (fun c => c.a[n.val] + imm.signExtend 24)
      | .x n => s.issue i true [.x n] (half := dataHalf [.x n]) (fun s => s.regsOnly i.id (fun c =>
          let (v, fl) := addFlags c.x[n.val] (imm.signExtend 40) false
          { c.setX n v with sr := setFlags c.sr fl }))
      | _ => s.issue i true [] (fun s => s.illegal i.id))
/-- CMPI (R204). -/
def execCmpi (i : Issue) (f : CmpiForm) (s : State) : Res :=
  let cmp := fun (long : Bool) (d : Fin 16) (imm : W16) => s.issue i long [.d d] (half := dataHalf []) (fun s => s.regsOnly i.id (fun c =>
    { c with sr := setFlags c.sr (subFlags c.d[d.val] imm false).2 }))
  .next (match f with
    | .short d imm => cmp false d (imm.signExtend 16)
    | .long r imm => match r with
      | .d d => cmp true d imm
      | _ => s.issue i true [] (fun s => s.illegal i.id))
/-- ANDI (R204). -/
def execAndi (i : Issue) (r : Reg) (imm : W16) (s : State) : Res := .next (s.logicImm i r .and imm)
/-- ORI (R204). -/
def execOri (i : Issue) (r : Reg) (imm : W16) (s : State) : Res := .next (s.logicImm i r .or imm)
/-- XORI (R204). -/
def execXori (i : Issue) (r : Reg) (imm : W16) (s : State) : Res := .next (s.logicImm i r .xor imm)
/-- LSL (R206). -/
def execLsl (i : Issue) (f : ShiftForm) (s : State) : Res := .next (s.shift i .lsl f)
/-- LSR (R206). -/
def execLsr (i : Issue) (f : ShiftForm) (s : State) : Res := .next (s.shift i .lsr f)
/-- ASR (R206). -/
def execAsr (i : Issue) (f : ShiftForm) (s : State) : Res := .next (s.shift i .asr f)
/-- LSLI (R206). -/
def execLsli (i : Issue) (d : Fin 16) (n : BitVec 7) (s : State) : Res := .next (s.shiftImm i .lsl d n)
/-- LSRI (R206). -/
def execLsri (i : Issue) (d : Fin 16) (n : BitVec 7) (s : State) : Res := .next (s.shiftImm i .lsr d n)
/-- ASRI (R206). -/
def execAsri (i : Issue) (d : Fin 16) (n : BitVec 7) (s : State) : Res := .next (s.shiftImm i .asr d n)
/-- BFX (R206): `w` is the width less 1. -/
def execBfx (i : Issue) (d r : Fin 16) (pair : Bool) (p : Fin 32) (w : Fin 16) (s : State) : Res :=
  .next (s.issue i true (regReads (.d r) pair) (half := dataHalf [.d d]) (fun s =>
    if !State.fieldOk r pair p w then s.illegal i.id
    else s.regsOnly i.id (fun c =>
      let v := State.bfxOf (if pair then (c.pair r).toNat else c.d[r.val].toNat) p.val (w.val + 1)
      { c.setD d v with sr := setFlags c.sr (logicFlags v) })))
/-- BFI (R206). -/
def execBfi (i : Issue) (d r : Fin 16) (pair : Bool) (p : Fin 32) (w : Fin 16) (s : State) : Res :=
  .next (s.issue i true (.d r :: regReads (.d d) pair) (half := dataHalf (regReads (.d d) pair)) (fun s =>
    if !State.fieldOk d pair p w then s.illegal i.id
    else s.regsOnly i.id (fun c =>
      let src := c.d[r.val].toNat
      if pair then c.setPair d (w32 (State.bfiOf (c.pair d).toNat src p.val (w.val + 1)))
      else c.setD d (BitVec.ofNat 16 (State.bfiOf c.d[d.val].toNat src p.val (w.val + 1))))))
/-- SAT (R206). -/
def execSat (i : Issue) (d : Fin 16) (x : Fin 4) (s : State) : Res :=
  .next (s.issue i true [.x x] (half := dataHalf (pairRegs d)) (fun s =>
    if !evenReg d then s.illegal i.id
    else s.regsOnly i.id (fun c =>
      let (v, fl) := State.satOf c.x[x.val]
      { c.setPair d v with sr := setFlags c.sr fl })))
/-- CRCS (R207, R208). -/
def execCrcs (i : Issue) (d r : Fin 16) (s : State) : Res :=
  .next (s.issue i false (.d r :: pairRegs d) (half := dataHalf (pairRegs d)) (fun s =>
    if !evenReg d then s.illegal i.id
    else s.regsOnly i.id (fun c =>
      let v := c.d[r.val]
      c.setPair d (crcOne c.poly (crcOne c.poly (c.pair d) (v.extractLsb' 8 8)) (v.extractLsb' 0 8)))))
/-- CRCB (R207, R208). -/
def execCrcb (i : Issue) (d r : Fin 16) (s : State) : Res :=
  .next (s.issue i false (.d r :: pairRegs d) (half := dataHalf (pairRegs d)) (fun s =>
    if !evenReg d then s.illegal i.id
    else s.regsOnly i.id (fun c => c.setPair d (crcOne c.poly (c.pair d) (c.d[r.val].extractLsb' 0 8)))))
/-- PAR (R207). -/
def execPar (i : Issue) (d r : Fin 16) (s : State) : Res :=
  .next (s.unary i false [.d r] d (fun c => State.parFlags (parityOf c.d[r.val].toNat 8)))
/-- PARW (R207). -/
def execParw (i : Issue) (d r : Fin 16) (s : State) : Res :=
  .next (s.unary i false [.d r] d (fun c => State.parFlags (parityOf c.d[r.val].toNat 16)))
/-- BREV (R207). -/
def execBrev (i : Issue) (d r : Fin 16) (s : State) : Res :=
  .next (s.plainD i false [.d r] d (fun c => BitVec.ofNat 16 (revBits c.d[r.val].toNat 16)))
/-- BREV8 (R207). -/
def execBrev8 (i : Issue) (d r : Fin 16) (s : State) : Res :=
  .next (s.plainD i false [.d r] d (fun c =>
    BitVec.ofNat 16 (revBits (c.d[r.val].toNat / 256) 8 * 256 + revBits (c.d[r.val].toNat % 256) 8)))
/-- MUL (R209). -/
def execMul (i : Issue) (long : Bool) (a b : Fin 16) (s : State) : Res :=
  .next (s.issue i long [.d a, .d b] (half := dataHalf [.mlo, .mhi]) (fun s => s.product i.id .pair (fun c => State.mulU c.d[a.val] c.d[b.val])))
/-- MULS (R209). -/
def execMuls (i : Issue) (long : Bool) (a b : Fin 16) (s : State) : Res :=
  .next (s.issue i long [.d a, .d b] (half := dataHalf [.mlo, .mhi]) (fun s => s.product i.id .pair (fun c => State.mulS c.d[a.val] c.d[b.val])))
/-- MAC (R209). -/
def execMac (i : Issue) (x : Fin 4) (a b : Fin 16) (s : State) : Res :=
  .next (s.issue i true [.d a, .d b] (half := dataHalf [.x x]) (fun s => s.product i.id (.acc x) (fun c =>
    State.accNow c x + (c.d[a.val].signExtend 40 * c.d[b.val].signExtend 40))))
/-- MOVH (R210). -/
def execMovh (i : Issue) (n : Fin 8) (imm : Byte) (s : State) : Res :=
  .next (s.plainA i true [.a n] n (fun c => imm ++ c.a[n.val].extractLsb' 0 16))
/-- MOVR (R210, R211). -/
def execMovr (i : Issue) (dst src : Reg) (p : Bool) (s : State) : Res := .next (s.move i dst src p)
/-- LEA: modes 0 and 6 (R210). -/
def execLea (i : Issue) (n : Fin 8) (m : MemOp) (s : State) : Res :=
  .next (s.issue i true (memReads m) (half := addrHalf [.a n]) (addrs := [.a m.an]) (fun s =>
    let ok := match m.mode with
      | .disp _ => m.long
      | .index _ => m.long
      | _ => false
    match ok, effAddr (s.ctx i.id) m 1 with
    | true, some e => .done ((s.updCtx i.id (fun c => c.setA n e.addr)).addrResult i.id n)
    | _, _ => s.illegal i.id))

end Sys2Proof.Machine
end

