-- ==== Sys2Proof/Machine/Chase.lean ====
section
/-! DEFINITION. The Chase (chapter 08): tasks and their states, posts, swaps, slugs to tasks, channels' forced closes, quiescence, and
how a core starts, is disabled and is aborted. -/

namespace Sys2Proof.Machine

/-- A wait condition (R219). -/
def satisfied (flags evw : W32) (all : Bool) : Bool :=
  evw == 0 || (if all then flags &&& evw == evw else flags &&& evw != 0)
/-- Flag 30 alone would satisfy the wait (R239). -/
def slugWakes (flags evw : W32) (all : Bool) : Bool := evw.getLsbD 30 && satisfied (flags ||| 0x40000000) evw all

/-- Among tasks with their keys, the one of best key, the first among equals. -/
def bestOf (better : Nat × Nat → Nat × Nat → Bool) (l : List (Nat × (Nat × Nat))) : Option Nat :=
  (l.foldl (fun (b : Option (Nat × (Nat × Nat))) e => match b with
    | none => some e
    | some c => if better e.2 c.2 then some e else b) none).map (·.1)
/-- Highest priority, then longest-waiting (R235, R240). -/
def higher (a b : Nat × Nat) : Bool := decide (b.1 < a.1) || (a.1 == b.1 && decide (a.2 < b.2))
/-- Lowest priority, then longest-waiting (R236). -/
def lower (a b : Nat × Nat) : Bool := decide (a.1 < b.1) || (a.1 == b.1 && decide (a.2 < b.2))

namespace State

def tcbNo (k : CoreId) (t : TcbIx) : Nat := tcbIx k.ix t
def taskOn (s : State) (k : CoreId) (t : TcbIx) : Tcb := s.tcb k.w (tcbNo k t)
def updTask (s : State) (k : CoreId) (t : TcbIx) (f : Tcb → Tcb) : State := s.updTcb k.w (tcbNo k t) f
/-- The tasks of a core that satisfy `q`, with priority and order. -/
def tasksWith (s : State) (k : CoreId) (q : TcbIx → Tcb → Bool) : List (Nat × (Nat × Nat)) :=
  ((List.finRange 64).filter (fun t => q t (s.taskOn k t))).map (fun t => (t.val, ((s.taskOn k t).prio.toNat, (s.taskOn k t).since)))
/-- The context a resident task is in. -/
def ctxOf (s : State) (k : CoreId) (t : TcbIx) : CtxId := ⟨k.w, k.c, k.k, (s.taskOn k t).ctx⟩
/-- The next order stamp of a course. -/
def stamp (s : State) (k : CoreId) : Nat × State :=
  ((s.course k.w k.c.val).nextOrder, s.updCourse k.w k.c.val (fun c => { c with nextOrder := c.nextOrder + 1 }))

/-- The Chase may load tasks and deliver slugs: the core runs and is enabled (R172, R249). -/
def chaseRuns (s : State) (k : CoreId) : Bool :=
  s.coreRuns k && s.enabled (pgCore k.w k.ix)
def swapIn (s : State) (x : CtxId) : Option Swap := (s.core x.w x.core.ix).swaps.find? (fun p => p.ctx == x.x)
/-- The TCB port is busy with a save or a load (R235, R237). -/
def portBusy (s : State) (k : CoreId) : Bool := (s.core k.w k.ix).swaps.any (fun p => p.save.isSome || p.load.isSome)
def dropSwap (s : State) (x : CtxId) : State :=
  s.updCore x.w x.core.ix (fun c => { c with swaps := c.swaps.filter (fun p => p.ctx != x.x) })

/-- READY tasks of a priority (R248). -/
def readyCount (s : State) (k : CoreId) (prio : Nat) : Nat :=
  (s.tasksWith k (fun _ t => t.state == .ready && t.prio.toNat == prio)).length
/-- A task becomes READY, at the tail of its priority's list (R235). -/
def becomeReady (s : State) (k : CoreId) (t : TcbIx) : State :=
  let (n, s1) := s.stamp k
  let cycle := (s.core k.w k.ix).cycle
  let s2 := (s1.updTask k t (fun c => { c with state := .ready, since := n, waitFrom := some (c.waitFrom.getD cycle) })).unquiet k.w k.c.val
  let p := (s2.taskOn k t).prio.toNat
  s2.updCore k.w k.ix (fun c => { c with readyMax := sins c.readyMax p (max (kget 0 c.readyMax p) (s2.readyCount k p)) })

/-! Posts (R231, R232). -/

/-- A post: one that names flag 30 sets nothing. -/
def postTask (s : State) (w : WytheIx) (i : Nat) (t : TcbIx) (mask : W32) : State :=
  if mask.getLsbD 30 then s.count (pgChase w i + 0x60) 1 else s.postFlags w i t mask
/-- A post reaches its task: lost when the TCB is FREE. -/
def applyPost (s : State) (w : WytheIx) (i : Nat) (t : TcbIx) (mask : W32) : State :=
  if (s.tcb w (tcbIx i t)).state = .free then s.count (pgChase w i + 0x60) 1
  else (s.updTcb w (tcbIx i t) (fun k => { k with flags := k.flags ||| mask })).count (pgChase w i + 0x58) 1

/-- The copy and clear of a wait that is met: the flags named by EVW go to the pair, and the context runs (R219). -/
def copyClear (s : State) (x : CtxId) (t : TcbIx) (d : Fin 16) : State :=
  let k := s.taskOn x.core t
  let e := (s.ctx x).evw
  let s1 := s.updCtx x (fun c => { c.setPair d (k.flags &&& e) with waitDest := none })
  let s2 := s1.updTask x.core t (fun k => { k with
    flags := k.flags &&& ~~~e, waitFrom := some (k.waitFrom.getD (s.core x.w x.core.ix).cycle) })
  (s2.setCtxState x .running).stepEnds x

/-- A resident task's wait condition is met. -/
def waitMet (s : State) (k : CoreId) (t : TcbIx) : Bool :=
  let c := s.ctx (s.ctxOf k t)
  satisfied (s.taskOn k t).flags c.evw c.evAll
/-- WAIT_SATISFIED (R219, R235). -/
def waitSatisfied (s : State) (k : CoreId) (t : TcbIx) : State :=
  let tc := s.taskOn k t
  let x := s.ctxOf k t
  match tc.state with
  | .waiting =>
    match (s.ctx x).waitDest with
    | some d => if s.waitMet k t && s.coreRuns k then s.copyClear x t d else s
    | none => s
  | .saved => if satisfied tc.flags tc.evw tc.evAll then s.becomeReady k t else s
  | _ => s

/-! Loads and saves (R226, R235–R238). -/

/-- A Chase-owned context that is empty: no task, and not set running by context 0. -/
def emptyCtx (s : State) (x : CtxId) : Bool := s.chaseOwned x && (s.ctx x).task.isNone && (s.ctx x).state == .stopped
def firstEmpty (s : State) (k : CoreId) : Option CtxId := (ctxsOf k).find? s.emptyCtx
/-- The window holds a slug: from its delivery, or its way there, until its VERD retires. -/
def windowTaken (s : State) (x : CtxId) : Bool :=
  ((s.ctx x).slug.isSome && (s.ctx x).slugEnds.isNone) || (match s.swapIn x with
    | some p => p.slug.isSome
    | none => false)
/-- A candidate of R236. -/
def mayLeave (s : State) (k : CoreId) (t : TcbIx) (tc : Tcb) : Bool :=
  let x := s.ctxOf k t
  tc.state == .waiting && !tc.pin && !s.windowTaken x && (s.ctx x).looks.isEmpty && (s.ctx x).loads.isEmpty && !s.waitMet k t &&
    (s.swapIn x).isNone
def victim (s : State) (k : CoreId) : Option TcbIx := (bestOf lower (s.tasksWith k (s.mayLeave k))).map (Fin.ofNat 64)
/-- The head of the highest non-empty ready list. -/
def readyHead (s : State) (k : CoreId) : Option TcbIx :=
  (bestOf higher (s.tasksWith k (fun _ t => t.state == .ready))).map (Fin.ofNat 64)

/-- Begin a load of `t` into context `x`, after a save of the task in it, with the slug that comes along. -/
def beginSwap (s : State) (x : CtxId) (save : Option TcbIx) (t : TcbIx) (slug : Option SlugRec) : State :=
  let s1 := s.updCore x.w x.core.ix (fun c => { c with swaps := c.swaps ++ [⟨x.x, save, some t, slug⟩] })
  let s2 := (s1.updCtx x (fun c => { c with state := .swapping })).updTask x.core t (fun k => { k with state := .moving, ctx := x.x })
  match save with
  | some v => s2.updTask x.core v (fun k => { k with state := .moving })
  | none => s2.updCtx x (fun c => { c with task := some t })

/-- TASK_LOAD (R235). -/
def taskLoad (s : State) (k : CoreId) : State :=
  if !s.chaseRuns k || s.portBusy k then s
  else match s.firstEmpty k, s.readyHead k with
    | some x, some t => s.beginSwap x none t none
    | _, _ => s
/-- TASK_EXCHANGE (R236). -/
def taskExchange (s : State) (k : CoreId) : State :=
  if !s.chaseRuns k || s.portBusy k || (s.firstEmpty k).isSome then s
  else match s.victim k, s.readyHead k with
    | some v, some t => s.beginSwap (s.ctxOf k v) (some v) t none
    | _, _ => s

/-- The task in context `x` is saved: products in flight land first (R198, R226, R237). -/
def saveTask (s : State) (x : CtxId) (v : TcbIx) : State :=
  let s1 := s.updCtx x landAll
  let c := s1.ctx x
  let s2 := (s1.freshTiming x).updTask x.core v (fun k => { k with
    state := .saved, a := c.a, d := c.d, pcx := c.pcx, sr := c.sr &&& 0x00EF#16, mlo := c.mlo, mhi := c.mhi, evw := c.evw
    evAll := c.evAll, waitDest := c.waitDest, tcmp := c.tcmp, armed := c.armed, poly := c.poly })
  (s2.updCtx x (fun c => { c with task := none, armed := false, waitDest := none, state := .stopped })).count (pgChase x.w x.core.ix + 0x48) 1
/-- A task is loaded: X0–X3 and the TLOOK areas read 0 (R226); what TNOW1–TNOW3 and the holding copy of TCMP hold is not stated. -/
def loadTask (s : State) (x : CtxId) (t : TcbIx) : State :=
  let k := s.taskOn x.core t
  let (f1, s1) := s.draw
  let (f2, s2) := s1.draw
  let s3 := s2.updCtx x (fun c => { c with
    a := k.a, d := k.d, x := Vector.replicate 4 0, mlo := k.mlo, mhi := k.mhi, sr := k.sr, pcx := k.pcx, tcmp := k.tcmp
    tcmpHold := f1.setWidth 48, tnow := f2.setWidth 48, armed := k.armed, poly := k.poly, evw := k.evw, evAll := k.evAll
    waitDest := k.waitDest, areas := [], slug := none, slugEnds := none, products := [], looks := [], loads := [], task := some t
    stepping := false })
  let s4 := (s3.freshTiming x).count (pgChase x.w x.core.ix + 0x40) 1
  match k.waitDest with
  | none => s4.setCtxState x .running
  | some d => if satisfied k.flags k.evw k.evAll then s4.copyClear x t d else s4.setCtxState x .waiting

/-- A HALT that waited for the swap's end takes effect (R537). -/
def haltAfterSwap (s : State) (x : CtxId) : State :=
  if (s.ctx x).haltDue then ((s.updCtx x (fun c => { c with haltDue := false })).setCtxState x .halted).count (pgDebug + 0x40) 1 else s

/-- SWAP_END: the save or the load under way in a context ends (R237), a load only while the core is enabled (R249; log 25); a load that
a slug goes with ends at SLUG_DELIVERY (R241). -/
def swapEnd (s : State) (x : CtxId) : State :=
  if !s.coreRuns x.core then s
  else match s.swapIn x with
    | none => s
    | some p =>
      match p.save, p.load with
      | some v, some t =>
        let s1 := (s.saveTask x v).updCtx x (fun c => { c with task := some t, state := .swapping })
        (s1.updCore x.w x.core.ix (fun c => { c with
          swaps := c.swaps.map (fun q => if q.ctx == x.x then { q with save := none } else q) })).pmc x.w x.core.ix 0x14 (some x.x) 12
      | some v, none =>
        let s1 := ((((s.saveTask x v).dropSwap x).updCtx x (fun c => { c with state := .swapping })).setCtxState x .stopped).pmc x.w x.core.ix
          0x14 (some x.x) 12
        if (s.ctx x).haltDue then { s1.updCtx x (fun c => { c with haltDue := false }) with dbgUnit := { s1.dbgUnit with status := 3 } } else s1
      | none, some t =>
        if p.slug.isSome || !s.chaseRuns x.core then s else (((s.dropSwap x).loadTask x t).haltAfterSwap x).pmc x.w x.core.ix 0x14 (some x.x) 12
      | none, none => s

/-- SLUG_DELIVERY: the slug on its way to a context is in its window, and flag 30 is set (R188, R241). -/
def slugDelivered (s : State) (x : CtxId) : State :=
  if !s.coreRuns x.core then s
  else match s.swapIn x with
    | none => s
    | some p =>
      match p.slug with
      | none => s
      | some g =>
        let i := x.core.ix
        let s1 := match p.save with
          | some v => (s.saveTask x v).pmc x.w i 0x14 (some x.x) 12
          | none => s
        let s2 := s1.dropSwap x
        let s3 := match p.load with
          | some t => (s2.loadTask x t).pmc x.w i 0x14 (some x.x) 12
          | none => s2
        let s4 := (s3.updCtx x (fun c => { c with slug := some g, slugEnds := none })).count (pgChase x.w i + 0x50) 1
        let s5 := s4.pmc x.w i 0x15 (some x.x) 1
        match (s5.ctx x).task with
        | none => s5
        | some t => ((s5.applyPost x.w i t 0x40000000).waitSatisfied x.core t).haltAfterSwap x

/-! Slugs to tasks (R239, R240). -/

/-- A resident task that takes slugs now. -/
def residentTaker (s : State) (k : CoreId) (t : TcbIx) (tc : Tcb) : Bool :=
  let x := s.ctxOf k t
  tc.taker && tc.state == .waiting && !s.windowTaken x && (s.swapIn x).isNone && slugWakes tc.flags (s.ctx x).evw (s.ctx x).evAll
def savedTaker (tc : Tcb) : Bool := tc.taker && tc.state == .saved && slugWakes tc.flags tc.evw tc.evAll
def pickResident (s : State) (k : CoreId) : Option TcbIx :=
  if s.chaseRuns k then (bestOf higher (s.tasksWith k (s.residentTaker k))).map (Fin.ofNat 64) else none
/-- A SAVED taker with the context it can be loaded into and the task to be saved from it. -/
def pickSaved (s : State) (k : CoreId) : Option (TcbIx × CtxId × Option TcbIx) :=
  if !s.chaseRuns k || s.portBusy k then none
  else match (bestOf higher (s.tasksWith k (fun _ t => savedTaker t))).map (Fin.ofNat 64), s.firstEmpty k, s.victim k with
    | some t, some x, _ => some (t, x, none)
    | some t, none, some v => some (t, s.ctxOf k v, some v)
    | _, _, _ => none

/-- Forme number of a slug, from its metadata (R79). -/
def slugForme (g : SlugRec) : W16 := BitVec.ofNat 16 (beAt g.bytes 144 2)
/-- The next slug a course dispatches: the oldest, and during a pause the oldest of the old forme (R47; DEDUCED, log 25). -/
def nextSlug (s : State) (w : WytheIx) (co : Course) : Option SlugRec :=
  if co.pausing then co.dq.find? (fun g => slugForme g != s.formeNo w) else co.dq.head?

/-- TAKER_SELECTION (R240). -/
def takerSelection (s : State) (w : WytheIx) (c : CourseIx) : State :=
  let co := s.course w c.val
  match s.nextSlug w co with
  | none => s
  | some g =>
    let rest := co.dq.erase g
    let ks : List CoreId := (List.range 8).map (fun i => ⟨w, c, Fin.ofNat 8 (co.lastCore.val + 1 + i)⟩)
    let took := fun (s : State) (k : CoreId) (t : TcbIx) =>
      (s.updCourse w c.val (fun co => { co with dq := rest, lastCore := k.k })).updTask k t (fun tc => { tc with
        waitFrom := some (s.core w k.ix).cycle })
    match ks.findSome? (fun k => (s.pickResident k).map (fun t => (k, t))) with
    | some (k, t) =>
      (took s k t).updCore w k.ix (fun q => { q with swaps := q.swaps ++ [⟨(s.taskOn k t).ctx, none, none, some g⟩] })
    | none =>
      match ks.findSome? (fun k => (s.pickSaved k).map (fun e => (k, e))) with
      | some (k, t, x, v) => (took s k t).beginSwap x v t (some g)
      | none => s

/-! Channels closed by force (R244, R245). -/

def chan (s : State) (w : WytheIx) (c ch : Nat) : Chan := kget {} (s.course w c).channels ch
def updChan (s : State) (w : WytheIx) (c ch : Nat) (f : Chan → Chan) : State :=
  s.updCourse w c (fun k => { k with channels := kupd {} k.channels ch f })
/-- Places taken, by delivered messages and by words of the open one (R222). -/
def chanPlaces (h : Chan) : Nat := (h.msgs.map (fun m => m.words.length / 2)).sum + h.words.length / 2
/-- Deliver the open message, if it has words, and release ownership. -/
def chanDeliver (s : State) (w : WytheIx) (c ch : Nat) (aborted : Bool) : State :=
  let h := s.chan w c ch
  let s1 := s.updChan w c ch (fun h => { h with
    msgs := if h.words.isEmpty then h.msgs else h.msgs ++ [⟨h.words, aborted⟩]
    owner := none, words := [], stalled := none })
  if h.words.isEmpty then s1 else s1.postCourseBindings w c 0 ch
def forceClose (s : State) (w : WytheIx) (c ch : Nat) : State :=
  let h := s.chan w c ch
  match h.owner with
  | none => s
  | some o =>
    let pg := pgChase w (8 * c)
    let s1 := ((s.chanDeliver w c ch true).count (pg + 0x78) 1).raiseBit pg 1
    let m := s.stActive (pg + 0x1D0 + 4 * (ch / 32))
    if flag m (ch % 32) then
      s1.record w 0x0E (64 * c + ch) (toBe 1 o.core.val ++ toBe 1 o.id ++ toBe 1 (b2n o.master) ++ toBe 1 (h.words.length / 2))
    else s1
/-- Close what the owners that `q` names hold open. -/
def closeOwned (s : State) (w : WytheIx) (c : Nat) (q : ChOwner → Bool) : State :=
  s.each (List.range 64) (fun s ch => s.onlyIf (match (s.chan w c ch).owner with
    | some o => q o
    | none => false) (fun s => s.forceClose w c ch))
/-- CHANNEL_FORCED_CLOSE: the owner has made no progress for CHAN_HOLD µs, its waits for a free place not counted. -/
def chanExpire (s : State) (w : WytheIx) (c ch : Nat) : State :=
  let h := s.chan w c ch
  let l := 1000 * fld (s.rd (pgChase w (8 * c) + 0x1C8)) 15 0
  if h.owner.isNone || l == 0 || decide (h.stalled.getD s.now < h.progress + l) then s else s.forceClose w c ch

/-! Creating and ending tasks (R228–R230). -/

/-- A slug is discarded without a verdict and counted (R230, R274). -/
def discardSlug (s : State) (w : WytheIx) (i : Nat) (g : SlugRec) : State :=
  (s.discardSlot w g.slot g.serial).count (pgChase w i + 0x68) 1
/-- Slugs in a context's window or on their way to it. -/
def slugsAt (s : State) (x : CtxId) : List SlugRec :=
  (match (s.ctx x).slug, (s.ctx x).slugEnds with
    | some g, none => [g]
    | _, _ => []) ++ (match s.swapIn x with
    | some p => p.slug.toList
    | none => [])
/-- A context is emptied and becomes STOPPED, its instructions having completed; a HALT that waited finds it empty (R161, R230, R537). -/
def emptyContext (s : State) (x : CtxId) : State :=
  let s1 := if (s.ctx x).haltDue then { s with dbgUnit := { s.dbgUnit with status := 3 } } else s
  (((s1.completeIssued x).freshTiming x).updCtx x (fun c => { c with
    task := none, slug := none, slugEnds := none, armed := false, waitDest := none, stepping := false, haltDue := false })).setCtxState x .stopped
/-- Effects 2 to 5 of R230 on a task's holdings and on the slugs of the context it has. -/
def endHoldings (s : State) (k : CoreId) (t : TcbIx) (slugs : List SlugRec) : State :=
  let mine := fun (h : Holder) => h == .task k.c k.k t
  let s1 := s.cpReset k.w k.c.val mine
  let s2 := s1.closeOwned k.w k.c.val (fun o => o.core == k.k && !o.master && o.id == t.val)
  let s3 := s2.quoinReset k.w mine
  s3.each slugs (fun s g => s.discardSlug k.w k.ix g)

/-- Slugs of task `t`, in context `x` or on the way there: a slug that comes with another task is not its own. -/
def taskSlugs (s : State) (x : CtxId) (t : TcbIx) : List SlugRec :=
  let here := match (s.ctx x).slug, (s.ctx x).slugEnds with
    | some g, none => if (s.ctx x).task == some t then [g] else []
    | _, _ => []
  here ++ (match s.swapIn x with
    | some p => if p.load == some t || (p.load.isNone && (s.ctx x).task == some t) then p.slug.toList else []
    | none => [])
/-- KILL (R230). A task being saved leaves its context to the load that follows; one being loaded leaves the save to end. -/
def killTask (s : State) (k : CoreId) (t : TcbIx) : State :=
  let tc := s.taskOn k t
  let x := s.ctxOf k t
  let mine := (s.ctx x).task == some t
  let slugs := s.taskSlugs x t
  let s1 := if mine then match s.swapIn x with
      | some p =>
        if p.save == some t then match p.load with
          | some l =>
            ((s.completeIssued x).updCtx x (fun c => { c with task := some l, waitDest := none, armed := false })).updCore x.w x.core.ix
              (fun c => { c with swaps := c.swaps.map (fun q => if q.ctx == x.x then { q with save := none } else q) })
          | none => (s.emptyContext x).dropSwap x
        else (s.emptyContext x).dropSwap x
      | none => s.emptyContext x
    else s.updCore k.w k.ix (fun c => { c with
      swaps := c.swaps.map (fun q => if q.load == some t then { q with load := none, slug := none } else q) })
  let s2 := s1.endHoldings k t slugs
  s2.updTask k t (fun _ => { waitLast := tc.waitLast, waitMax := tc.waitMax, waitSum := tc.waitSum })

/-- Create a task in a FREE TCB (R228, R229). -/
def makeTask (s : State) (k : CoreId) (t : TcbIx) (entry : W24) (prio : BitVec 4) (taker : Bool) (pin : Option CtxIx) : State :=
  let s1 := s.updTask k t (fun _ => { pcx := entry &&& 0xFFFFFE#24, prio := prio, taker := taker, pin := pin.isSome, pinCtx := pin.getD 0 })
  match pin with
  | none => s1.becomeReady k t
  | some n => (s1.updTask k t (fun c => { c with waitFrom := some (s.core k.w k.ix).cycle })).beginSwap ⟨k.w, k.c, k.k, n⟩ none t none

def setTaskStatus (s : State) (k : CoreId) (v : Nat) : State := s.updCore k.w k.ix (fun c => { c with taskStatus := v })
def taskArg (s : State) (k : CoreId) : W32 := s.rd (pgChase k.w k.ix + 0x108)
def taskCfg (s : State) (k : CoreId) : W32 := s.rd (pgChase k.w k.ix + 0x10C)

/-- TASK_CMD CREATE. -/
def taskCreate (s : State) (k : CoreId) (t : TcbIx) : State :=
  let cfg := s.taskCfg k
  let n : CtxIx := Fin.ofNat 8 (fld cfg 9 7)
  let pin := if flag cfg 10 then some n else none
  if (s.taskOn k t).state ≠ .free then s.setTaskStatus k 1
  else if pin.isSome && !s.emptyCtx ⟨k.w, k.c, k.k, n⟩ then s.setTaskStatus k 3
  else (s.makeTask k t ((s.taskArg k).setWidth 24) (BitVec.ofNat 4 (fld cfg 15 12)) (flag cfg 11) pin).setTaskStatus k 0
/-- The other operations: NO_TASK for a FREE TCB. -/
def onTask (s : State) (k : CoreId) (t : TcbIx) (f : State → State) : State :=
  if (s.taskOn k t).state = .free then s.setTaskStatus k 2 else (f s).setTaskStatus k 0
/-- TASK_CMD SET_PRIO. -/
def setPrio (s : State) (k : CoreId) (t : TcbIx) : State :=
  let s1 := s.updTask k t (fun c => { c with prio := BitVec.ofNat 4 (fld (s.taskCfg k) 15 12) })
  if (s.taskOn k t).state = .ready then s1.becomeReady k t else s1
/-- A store to TASK_CMD (R229, R251). -/
def taskCmd (s : State) (k : CoreId) (op : Nat) (t : TcbIx) : State :=
  match op with
  | 1 => s.taskCreate k t
  | 2 => s.onTask k t (fun s => s.killTask k t)
  | 3 => s.onTask k t (fun s => s.setPrio k t)
  | 4 => s.onTask k t (fun s => s.postTask k.w k.ix t (s.taskArg k))
  | _ => s

/-! Bindings (R234). -/

/-- A store to BINDn: a binding whose condition holds already posts at once. -/
def bindStore (s : State) (k : CoreId) (n : Nat) (v : W32) : State :=
  let a := pgChase k.w k.ix + 0x180 + 4 * n
  let flds := [fl 31 31, fl 30 28, fc 25 20 0 (if fld v 30 28 = 3 ∨ fld v 30 28 = 4 then 15 else 63), fl 13 8, fc 4 0 0 29]
  let v' := w32 (clampWord flds v.toNat)
  let s1 := (s.wr a v').noteClamp a (clampsIn flds v.toNat)
  let h := s.chan k.w k.c.val (fld v' 25 20)
  let holds := (fld v' 30 28 == 0 && !h.msgs.isEmpty) || (fld v' 30 28 == 1 && decide (chanPlaces h < 32))
  s1.onlyIf (flag v' 31 && holds) (fun s => s.postFlags k.w k.ix (Fin.ofNat 64 (fld v' 13 8)) (w32 (2 ^ fld v' 4 0)))

/-! Timers (R220, R243). -/

def timerFires (s : State) (t : TimerOf) : State :=
  match t with
  | .context x =>
    let c := s.ctx x
    if !c.armed || (s.tnow x).toNat < c.tcmp.toNat then s
    else
      let s1 := s.updCtx x (fun c => { c with armed := false })
      if x.x = 0 then s1.interrupt x.w x.core.ix 10
      else match c.task with
        | some t => s1.applyPost x.w x.core.ix t 0x80000000
        | none => s1
  | .saved k t =>
    let tc := s.taskOn k t
    if (tc.state = .saved ∨ tc.state = .ready) ∧ tc.armed ∧ tc.tcmp.toNat ≤ s.gptp k.w then
      (s.updTask k t (fun c => { c with armed := false })).applyPost k.w k.ix t 0x80000000
    else s

/-! Quiescence (R246, R247). -/

/-- A binding from outside the course names a flag this task waits on. -/
def boundOutside (s : State) (k : CoreId) (t : TcbIx) (evw : W32) : Bool :=
  (List.range 16).any (fun n =>
    let b := s.rd (pgChase k.w k.ix + 0x180 + 4 * n)
    flag b 31 && decide (2 ≤ fld b 30 28) && decide (fld b 30 28 ≤ 4) && fld b 13 8 == t.val && evw.getLsbD (fld b 4 0))
/-- What R246 asks of one task. -/
def taskQuiet (s : State) (k : CoreId) (t : TcbIx) (tc : Tcb) : Bool :=
  let c := s.ctx (s.ctxOf k t)
  let resident := tc.state == .waiting || tc.state == .faulted
  let evw := if resident then c.evw else tc.evw
  let mine := fun (h : Holder) => h == .task k.c k.k t
  (tc.state == .waiting || tc.state == .saved || tc.state == .faulted) && !(if resident then c.armed else tc.armed) &&
    (tc.state == .faulted || (!satisfied tc.flags evw (if resident then c.evAll else tc.evAll) && !s.boundOutside k t evw)) &&
    !(s.enabled (pgCore k.w k.ix) && (s.residentTaker k t tc || savedTaker tc)) &&
    !s.cpOutstanding k.w k.c.val (fun p => mine p.owner) && !(s.wy k.w).quoin.waits.any (fun r => mine r.holder) &&
    !(List.range 4).any (fun u => (s.cpUnit k.w k.c.val u).waiters.any (fun r => mine r.1))
def courseQuiet (s : State) (w : WytheIx) (c : CourseIx) : Bool :=
  (List.finRange 8).all (fun k => (List.finRange 64).all (fun t =>
    (s.taskOn ⟨w, c, k⟩ t).state == .free || s.taskQuiet ⟨w, c, k⟩ t (s.taskOn ⟨w, c, k⟩ t)))
/-- The detector of a course runs: in SETTING, RUN, PLUMB and HALF, with a limit, while no recovery is open (R246, R247). -/
def detects (s : State) (w : WytheIx) (c : CourseIx) : Bool :=
  let m := (s.wy w).mode
  (s.rd (pgChase w (8 * c.val) + 0x1C0)).toNat != 0 && !(s.course w c.val).recovery && !(s.course w c.val).held &&
    (m == .setting || m == .run || m == .plumb || m == .half)
/-- 1 ns passes for a course's detector: it counts one and a half cycles in which the course is quiet (R246; the core clock is taken as
1.5 GHz, log 9). -/
def quietTick (s : State) (w : WytheIx) (c : CourseIx) : State :=
  if s.detects w c && s.courseQuiet w c then s.updCourse w c.val (fun k => { k with quiet := k.quiet + 3 })
  else s.onlyIf ((s.course w c.val).quiet != 0) (fun s => s.unquiet w c.val)
/-- QUIESCENCE: the detector fires when its count has reached QUIET_LIMIT and the course is quiet still. -/
def quiescent (s : State) (w : WytheIx) (c : CourseIx) : State :=
  let pg := pgChase w (8 * c.val)
  if !s.detects w c || decide ((s.course w c.val).quiet < 2 * (s.rd (pg + 0x1C0)).toNat) || !s.courseQuiet w c then s
  else
    let s1 := s.each (List.range 8) (fun s k => s.interrupt w (8 * c.val + k) 13)
    ((s1.updCourse w c.val (fun k => { k with recovery := true, quiet := 0 })).raiseBit pg 0).count (pg + 0x70) 1
/-- QUIESCENT stops being pending at core `i`. -/
def quietAck (s : State) (w : WytheIx) (i : Nat) : State := s.updCore w i (fun c => { c with intPend := c.intPend &&& 0xDFFF#16 })
/-- RECOVERY.END through a core page of the course. -/
def recoveryEnds (s : State) (w : WytheIx) (c : Nat) : State :=
  if (s.course w c).recovery then
    (s.updCourse w c (fun k => { k with recovery := false, quiet := 0 })).each (List.range 8) (fun s k => s.quietAck w (8 * c + k))
  else s

/-- LOAD_WINDOW_END: LOAD takes the window's issue cycles in units of 1/65,536 of it (R248). -/
def loadWindow (s : State) (k : CoreId) : State :=
  let n := 2 ^ fld (s.rd (pgChase k.w k.ix + 0x128)) 4 0
  let c := s.core k.w k.ix
  let ends := c.loadStart + n
  let s1 := s.updCore k.w k.ix (fun c => { c with
    load := w32 (min 65536 (c.loadIssues * 65536 / n)), loadStart := ends, loadIssues := 0, cycle := max c.cycle ends })
  if c.cycle < ends then
    ((s1.count (pgCore k.w k.ix + 0x50) (ends - c.cycle)).pmc k.w k.ix 0x05 none (ends - c.cycle)).pmc k.w k.ix 0x01 none (ends - c.cycle)
  else s1

/-! Starting, disabling and aborting a core (R148, R172, R228, R249). -/

/-- Registers that hold free values: a start leaves them undefined (R148; log 12). -/
def freeRegs (n : Nat) (c : Ctx) : Ctx :=
  let f := fun (i m : Nat) => (Config.freeValue (n + i)).setWidth m
  { c with
    a := Vector.ofFn (fun i => f i.val 24), d := Vector.ofFn (fun i => f (8 + i.val) 16), x := Vector.ofFn (fun i => f (24 + i.val) 40)
    mlo := f 28 16, mhi := f 29 16, tnow := f 30 48, tcmp := f 31 64, tcmpHold := f 32 48, poly := f 33 32, evw := f 34 32 }
/-- A context as a start leaves it: 64 free values are drawn for its registers. -/
def freshCtx (s : State) (x : CtxId) (st : CtxState) (pcx : W24) : State :=
  let n := s.free
  { (s.updCtx x (fun c => freeRegs n { bkpt := c.bkpt, state := st, pcx := pcx })) with free := n + 64 }

/-- Tasks of an image's task table (R228, R466): TCB, attributes, entry. -/
def imageTasks (b : Bytes) : List (TcbIx × Nat × W24) :=
  let n := if beAt b 4 2 = 1 then 0 else beAt b 0x10 2
  let base := 128 + 8 * beAt b 0x12 2
  (List.range n).map (fun i => (Fin.ofNat 64 (beAt b (base + 8 * i) 1), beAt b (base + 8 * i + 1) 2, BitVec.ofNat 24 (beAt b (base + 8 * i + 4) 4)))
/-- Create the tasks of the table; a pin to a context that is not Chase-owned or not empty is dropped. -/
def createTable (s : State) (k : CoreId) (b : Bytes) : State :=
  s.each (imageTasks b) (fun s (e : TcbIx × Nat × W24) =>
    let n : CtxIx := Fin.ofNat 8 (bitsOf e.2.1 2 0)
    let pin := if bitOf e.2.1 6 && s.emptyCtx ⟨k.w, k.c, k.k, n⟩ then some n else none
    if (s.taskOn k e.1).state = .free then s.makeTask k e.1 e.2.2 (BitVec.ofNat 4 (bitsOf e.2.1 11 8)) (bitOf e.2.1 7) pin else s)

/-- Every task of a core ends with effects 2 to 5 of R230, and its contexts are emptied (R249). -/
def endTasks (s : State) (k : CoreId) : State :=
  let s1 := s.each (List.finRange 64) (fun s t =>
    if (s.taskOn k t).state = .free then s
    else (s.endHoldings k t []).updTask k t (fun c => { waitLast := c.waitLast, waitMax := c.waitMax, waitSum := c.waitSum }))
  let slugs := (ctxsOf k).flatMap s1.slugsAt
  let s2 := s1.each slugs (fun s g => s.discardSlug k.w k.ix g)
  (s2.each (ctxsOf k) (fun s x => s.emptyContext x)).updCore k.w k.ix (fun c => { c with swaps := [] })

/-- Start a core by R148 with the image it holds, and recreate the image's tasks (R228); without an image nothing runs. -/
def startCore (s : State) (k : CoreId) : State :=
  let img := (s.core k.w k.ix).image
  let n := s.free
  let f := fun (i m : Nat) => (Config.freeValue (n + i)).setWidth m
  let s1 := { (s.updCore k.w k.ix (fun c => { c with
    dead := false, aborted := false, entryStep := 0, handlers := [], sampled := 0, timing := [], swaps := [], icache := [], btb := []
    spcx := f 0 24, ssr := f 1 16, sa0 := f 2 24, sd0 := f 3 16 })) with free := n + 4 }
  let entry : W24 := match img with
    | some m => BitVec.ofNat 24 (beAt m.bytes 0x0C 4) &&& 0xFFFFFE#24
    | none => 0
  let s2 := s1.each (ctxsOf k) (fun s x => s.freshCtx x (if x.x = 0 && img.isSome then .running else .stopped) entry)
  match img with
  | some m => s2.createTable k m.bytes
  | none => s2

/-- CORE.CTRL.ABORT (R172, R245): contexts stopped while RUNNING, WAITING or ENTRY are counted. -/
def abortCore (s : State) (k : CoreId) : State :=
  let n := ((ctxsOf k).filter (fun x =>
    let st := (s.ctx x).state
    st == .running || st == .waiting || st == .entry)).length
  let s1 := (s.stopCore k).updCore k.w k.ix (fun c => { c with aborted := true })
  (s1.count (pgCore k.w k.ix + 0x88) n).closeOwned k.w k.c.val (fun o => o.core == k.k)
/-- CORE.CTRL.ENABLE set: after an abort the core starts again (R171, R249). -/
def enableCore (s : State) (k : CoreId) : State :=
  let a := pgCore k.w k.ix + 8
  let s1 := s.wr a (s.rd a ||| 1)
  if (s.core k.w k.ix).aborted then (s1.endTasks k).startCore k else s1
def disableCore (s : State) (k : CoreId) : State :=
  let a := pgCore k.w k.ix + 8
  s.wr a (s.rd a &&& 0xFFFFFFFE#32)

end State

/-- TAKER_SELECTION (R240). -/
def execTakerSelection (w : WytheIx) (c : CourseIx) (s : State) : Res := .next (s.takerSelection w c)
/-- SLUG_DELIVERY (R241). -/
def execSlugDelivery (x : CtxId) (s : State) : Res := .next (s.slugDelivered x)
/-- CREATE (R229). -/
def execCreate (a : Agent) (k : CoreId) (t : TcbIx) (s : State) : Res := .next (s.viaPage a k.w (fun s => s.taskCmd k 1 t))
/-- KILL (R230). -/
def execKill (a : Agent) (k : CoreId) (t : TcbIx) (s : State) : Res := .next (s.viaPage a k.w (fun s => s.taskCmd k 2 t))
/-- SET_PRIO (R229). -/
def execSetPrio (a : Agent) (k : CoreId) (t : TcbIx) (s : State) : Res := .next (s.viaPage a k.w (fun s => s.taskCmd k 3 t))
/-- POST (R229, R231). -/
def execPost (a : Agent) (k : CoreId) (t : TcbIx) (s : State) : Res := .next (s.viaPage a k.w (fun s => s.taskCmd k 4 t))
/-- POST_APPLY: the `i`-th post on its way reaches its task (R231). -/
def execPostApply (w : WytheIx) (i : Nat) (s : State) : Res :=
  .next (match (s.wy w).posts[i]? with
    | none => s
    | some p => (s.updWy w (fun y => { y with posts := y.posts.eraseIdx i })).applyPost w p.core p.tcb p.mask)
/-- WAIT_SATISFIED (R219, R235). -/
def execWaitSatisfied (k : CoreId) (t : TcbIx) (s : State) : Res := .next (s.waitSatisfied k t)
/-- TASK_LOAD (R235). -/
def execTaskLoad (k : CoreId) (s : State) : Res := .next (s.taskLoad k)
/-- TASK_EXCHANGE (R236). -/
def execTaskExchange (k : CoreId) (s : State) : Res := .next (s.taskExchange k)
/-- SWAP_END (R237). -/
def execSwapEnd (x : CtxId) (s : State) : Res := .next (s.swapEnd x)
/-- BIND_WRITE (R234). -/
def execBindWrite (a : Agent) (k : CoreId) (n : Fin 16) (value : W32) (s : State) : Res :=
  .next (s.viaPage a k.w (fun s => s.bindStore k n.val value))
/-- TIMER_COMPARE_FIRE (R220, R243). -/
def execTimerCompareFire (t : TimerOf) (s : State) : Res := .next (s.timerFires t)
/-- QUIESCENCE (R247). -/
def execQuiescence (w : WytheIx) (c : CourseIx) (s : State) : Res := .next (s.quiescent w c)
/-- RECOVERY_END (R247). -/
def execRecoveryEnd (a : Agent) (k : CoreId) (s : State) : Res := .next (s.viaPage a k.w (fun s => s.recoveryEnds k.w k.c.val))
/-- RECOVERY_ACK (R247). -/
def execRecoveryAck (a : Agent) (k : CoreId) (s : State) : Res := .next (s.viaPage a k.w (fun s => s.quietAck k.w k.ix))
/-- CHANNEL_FORCED_CLOSE (R244). -/
def execChannelForcedClose (w : WytheIx) (c : CourseIx) (ch : Fin 64) (s : State) : Res := .next (s.chanExpire w c.val ch.val)
/-- LOAD_WINDOW_END (R248). -/
def execLoadWindowEnd (k : CoreId) (s : State) : Res := .next (s.loadWindow k)
/-- CORE_DISABLE (R172). -/
def execCoreDisable (a : Agent) (k : CoreId) (s : State) : Res := .next (s.viaPage a k.w (fun s => s.disableCore k))
/-- CORE_ABORT (R172). -/
def execCoreAbort (a : Agent) (k : CoreId) (s : State) : Res := .next (s.viaPage a k.w (fun s => s.abortCore k))
/-- CORE_ENABLE (R171, R172). -/
def execCoreEnable (a : Agent) (k : CoreId) (s : State) : Res := .next (s.viaPage a k.w (fun s => s.enableCore k))

end Sys2Proof.Machine
end

