-- ==== Sys2Proof/Machine/Memory.lean ====
section
/-! DEFINITION. The data address space of a context but for its device windows (R187–R192), split accesses (R167), and what firmware
reads and writes in memory. -/

namespace Sys2Proof.Machine

/-- What a data address names (R187). -/
inductive Area where
  | data (off : Nat)
  | inst (off : Nat)
  | slug (off : Nat)
  /-- a bank of the own course, of the far course; the bank offset -/
  | bank (c off : Nat)
  | far (c off : Nat)
  /-- a device window: the BAR0 offset -/
  | device (addr : Nat)
  | unmapped
  deriving DecidableEq, Repr

/-- The area of a data address; the far window needs SR.FC below 6 (R189). -/
def areaOf (x : CtxId) (sr : W16) (a : Nat) : Area :=
  let fc := (sr.extractLsb' 5 3).toNat
  if a < 0x18000 then .data a
  else if a < 0x20000 then .unmapped
  else if a < 0x30000 then .inst (a - 0x20000)
  else if a < 0x30140 then .slug (a - 0x30000)
  else if a < 0x400000 then .unmapped
  else if a < 0x800000 then .bank x.c.val (a - 0x400000)
  else if a < 0xC00000 then (if fc < 6 then .far fc (a - 0x800000) else .unmapped)
  else if a < 0xE00000 then .device (a - 0xC00000)
  else .device (wyBase x.w + (a - 0xE00000))

/-- Addresses of the parts checked one by one: a 32-bit access is two halves (R167). -/
def accessParts (a size : Nat) : List Nat :=
  if size = 1 then [a] else if size = 2 then [a - a % 2] else [a - a % 2, (a - a % 2 + 2) % 0x1000000]
/-- A 32-bit access that crosses a 16-byte boundary (R167). -/
def splitAccess (a size : Nat) : Bool := size == 4 && decide (16 < (a - a % 2) % 16 + 4)

namespace State

/-- The course banks an area lies in. -/
def areaBank : Area → Option (Nat × Nat)
  | .bank c o => some (c, o)
  | .far c o => some (c, o)
  | _ => none
/-- How an area meets a context's access: a bank as it stands; a core's own memories are retained while a DESTRUCTIVE march of its course
runs (R308, R312). -/
def areaView (s : State) (x : CtxId) : Area → BankView
  | .bank c o => s.bankView x.w c (o / 0x40000)
  | .far c o => s.bankView x.w c (o / 0x40000)
  | .data _ => if s.marching x.w x.c.val then .retained else .on
  | .inst _ => if s.marching x.w x.c.val then .retained else .on
  | _ => .on

/-- Why a part of an access faults (R170, R187, R190). -/
def partFault (s : State) (x : CtxId) (a size : Nat) : Option Nat :=
  let ar := areaOf x (s.ctx x).sr a
  match ar with
  | .unmapped => some fUNMAPPED
  | .device _ => if size = 1 then some 0x03 else none
  | _ => if s.areaView x ar = .retained then some 0x01 else none
/-- A byte of an access lies in a device window. -/
def touchesDevice (s : State) (x : CtxId) (a size : Nat) : Bool :=
  (a :: accessParts a size).any (fun p => match areaOf x (s.ctx x).sr p with
    | .device _ => true
    | _ => false)
/-- The fault of an access: the first part that fails, with its address. One that reaches a device window, wherever it begins, must be
aligned (R169). -/
def accessFault (s : State) (x : CtxId) (a size : Nat) : Option (Nat × Nat) :=
  if s.touchesDevice x a size && (if size = 4 then a % 4 != 0 else size == 2 && a % 2 != 0) then some (0x03, a)
  else (accessParts a size).findSome? (fun p => (s.partFault x p size).map (fun c => (c, p)))

/-- Accesses to banks that are not ON are counted (R308); one to a bank that is off is recorded, and the context goes on; where a part
lies in a retained bank the access faults for that part, and that alone is counted. -/
def accessNotes (s : State) (x : CtxId) (a size : Nat) : State :=
  let views := (accessParts a size).map (fun p => (p, areaOf x (s.ctx x).sr p))
  match (views.find? (fun e => s.areaView x e.2 == .retained)).or (views.find? (fun e => s.areaView x e.2 != .on)) with
  | none => s
  | some (p, ar) =>
    let v := s.areaView x ar
    let s1 := s.bankRefused x.w (((areaBank ar).map (·.1)).getD x.c.val) v
    if v = .off then s1.offBank x p else s1

/-- What the check bits report for the bank word an access reads (R309): an uncorrectable error counts, and faults the instruction. -/
def accessEcc (s : State) (x : CtxId) (a size : Nat) (ecc : EccReport) : Option (Nat × Nat) × State :=
  match (accessParts a size).findSome? (fun p => (areaBank (areaOf x (s.ctx x).sr p)).map (fun b => (p, b))) with
  | none => (none, s)
  | some (p, c, o) => match ecc with
    | .good => (none, s)
    | .corrected => (none, s.bankCorrected x.w c)
    | .uncorrectable => (some (0x0E, p), s.bankUncorrectable x.w c o)
/-- An access is checked: its fault with the state in which it is raised, or the state with what it notes. -/
def accessCheck (s : State) (x : CtxId) (a size : Nat) (ecc : EccReport) : Option (Nat × Nat) × State :=
  match s.accessFault x a size with
  | some (code, p) => (some (code, p), if code = 1 then s.accessNotes x a size else s)
  | none => (s.accessNotes x a size).accessEcc x a size ecc

/-- A slug-window byte: the slug's while one is present, then the TLOOK result areas (R188). -/
def windowByte (c : Ctx) (o : Nat) : Byte :=
  if o < 0xC0 then (match c.slug with
    | some g => g.bytes.getD o 0
    | none => 0)
  else sget (fun _ => 0) c.areas o
def setWindowByte (c : Ctx) (o : Nat) (v : Byte) : Ctx :=
  if o < 0xC0 then (match c.slug with
    | some g => { c with slug := some { g with bytes := (padTo 0xC0 g.bytes).set o v } }
    | none => c)
  else { c with areas := sput (fun _ => 0) c.areas o v }

/-- A byte of memory as context `x` reads it; a device window is not read here. -/
def memByte (s : State) (x : CtxId) (a : Nat) : Byte :=
  let k := s.core x.w x.core.ix
  match areaOf x (s.ctx x).sr a with
  | .data o => sget (undefByte k.undef 2) k.data o
  | .inst o => sget (undefByte k.undef 3) k.inst o
  | .slug o => windowByte (s.ctx x) o
  | .bank c o => if s.bankView x.w c (o / 0x40000) = .off then 0 else s.bankByte x.w c o
  | .far c o => if s.bankView x.w c (o / 0x40000) = .off then 0 else s.bankByte x.w c o
  | _ => 0
def setMemByte (s : State) (x : CtxId) (a : Nat) (v : Byte) : State :=
  match areaOf x (s.ctx x).sr a with
  | .data o => s.updCore x.w x.core.ix (fun k => { k with data := sput (undefByte k.undef 2) k.data o v })
  | .inst o => s.updCore x.w x.core.ix (fun k => { k with inst := sput (undefByte k.undef 3) k.inst o v })
  | .slug o => s.updCtx x (fun c => setWindowByte c o v)
  | .bank c o => if s.bankView x.w c (o / 0x40000) = .on then s.setBankByte x.w c o v else s
  | .far c o => if s.bankView x.w c (o / 0x40000) = .on then s.setBankByte x.w c o v else s
  | _ => s

/-- The addresses of the bytes of an access, bit 0 taken as 0 but for a byte (R192). -/
def accessBytes (a size : Nat) : List Nat :=
  let b := if size = 1 then a else a - a % 2
  (List.range size).map (fun i => (b + i) % 0x1000000)
def memBytes (s : State) (x : CtxId) (a n : Nat) : Bytes := (List.range n).map (fun i => s.memByte x ((a + i) % 0x1000000))
/-- The big-endian value of an access (R178). -/
def memValue (s : State) (x : CtxId) (a size : Nat) : Nat := be ((accessBytes a size).map (s.memByte x))
def setMemValue (s : State) (x : CtxId) (a size v : Nat) : State :=
  s.each ((accessBytes a size).zip (toBe size v)) (fun s e => s.setMemByte x e.1 e.2)

/-! The store queue (R150, R193, R263). -/

/-- Stores to MOVE_POST that a core holds for want of a place. -/
def heldByMove (s : State) (x : CtxId) : Nat :=
  ((s.wy x.w).galley.heldMoves.filter (fun m => moveGroup m.owner == moveGroup (some (ctxNo x)))).length
/-- The core's store queue is held by a store to MOVE_POST. -/
def storesHeld (s : State) (x : CtxId) : Bool := s.heldByMove x != 0 || !(s.core x.w x.core.ix).storeQ.isEmpty
/-- It is held, and its eight places are taken: a store waits. -/
def storeFull (s : State) (x : CtxId) : Bool := s.storesHeld x && decide (8 ≤ s.heldByMove x + (s.core x.w x.core.ix).storeQ.length)
/-- A store goes behind those that are held. -/
def queueStore (s : State) (x : CtxId) (a size v : Nat) : State :=
  s.updCore x.w x.core.ix (fun k => { k with storeQ := k.storeQ ++ [⟨x.x, (s.ctx x).sr, a, size, v⟩] })
/-- `f` with the SR that a store was issued with. -/
def withSr (s : State) (x : CtxId) (sr : W16) (f : State → State) : State :=
  (f (s.updCtx x (fun c => { c with sr := sr }))).updCtx x (fun c => { c with sr := (s.ctx x).sr })
/-- Memory as a context sees it, with its own stores that are held (R193). -/
def seenBy (s : State) (x : CtxId) : State :=
  s.each ((s.core x.w x.core.ix).storeQ.filter (fun q => q.ctx == x.x)) (fun s q =>
    s.withSr x q.sr (fun s => s.setMemValue x q.addr q.size q.value))
/-- The slug window, which its own context alone reads, is written at once. -/
def windowStore (s : State) (x : CtxId) (a : Nat) : Bool :=
  match areaOf x (s.ctx x).sr a with
  | .slug _ => true
  | _ => false
/-- A store to memory is made, or goes behind those that are held. -/
def storeMem (s : State) (x : CtxId) (a size v : Nat) : State :=
  if s.storesHeld x && !s.windowStore x a then s.queueStore x a size v else s.setMemValue x a size v

/-- A read of a result area whose TLOOK is outstanding is not ready (R134). -/
def areaAwaited (c : Ctx) (a size : Nat) : Bool :=
  (accessBytes a size).any (fun b => c.looks.any (fun l =>
    decide (0x300C0 + 0x20 * l.tag.val ≤ b) && decide (b < 0x300E0 + 0x20 * l.tag.val)))

/-- Splits are counted in the data scratchpad, the slug window and the banks, and put the context's next instruction off (R167, R173). -/
def splitNote (s : State) (x : CtxId) (a size : Nat) : State :=
  let counted := match areaOf x (s.ctx x).sr a with
    | .data _ => true
    | .slug _ => true
    | .bank _ _ => true
    | .far _ _ => true
    | _ => false
  s.onlyIf (splitAccess a size && counted) (fun s => ((s.count (pgCore x.w x.core.ix + 0x80) 1).pmc x.w x.core.ix 0x0F (some x.x) 1).notBefore x
    (s.cycleOf x + 2))

/-- Why reading a block of `n` bytes by words faults: the key block of TLOOK, the descriptor of VERD. -/
def blockFault (s : State) (x : CtxId) (a n : Nat) : Option (Nat × Nat) :=
  ((List.range (n / 2)).map (fun i => (a + 2 * i) % 0x1000000)).findSome? (fun p => (s.accessFault x p 2))

end State
end Sys2Proof.Machine
end

