-- ==== Sys2Proof/Machine/Debug.lean ====
section
/-! DEFINITION. The DEBUG page's commands and the TAP's instructions but for DBG_ACCESS and PROOF (R537–R543, R546, R547). -/

namespace Sys2Proof.Machine

/-- DBG_TARGET's fields (R547). -/
def targetWythe (v : W32) : WytheIx := Fin.ofNat 2 (fld v 16 16)
def targetCtx (v : W32) : CtxId :=
  ⟨targetWythe v, Fin.ofNat 6 (fld v 14 12), Fin.ofNat 8 (fld v 10 8), Fin.ofNat 8 (fld v 6 4)⟩
/-- The contexts of a target's scope: one context, a core's, or a course's. -/
def targetScope (v : W32) : List CtxId :=
  let x := targetCtx v
  match fld v 1 0 with
  | 0 => [x]
  | 1 => ctxsOf x.core
  | _ => (List.finRange 8).flatMap (fun k => ctxsOf ⟨x.w, x.c, k⟩)

def dbgOK : Nat := 0
def dbgDENIED : Nat := 1
def dbgNOTHALTED : Nat := 2
def dbgBADTARGET : Nat := 3
def dbgSPLIT : Nat := 4
def dbgUNMAPPED : Nat := 5
def dbgFAULT : Nat := 6

/-- What HALT does to a context. -/
inductive HaltWay where
  | now
  | later
  | already
  | no
  deriving DecidableEq, Repr

def haltWay (st : CtxState) : HaltWay :=
  match st with
  | .running => .now
  | .waiting => .now
  | .entry => .later
  | .swapping => .later
  | .halted => .already
  | .stopped => .no
  | .faulted => .no

namespace State

def setDebug (s : State) (f : Debug → Debug) : State := { s with dbgUnit := f s.dbgUnit }
/-- A command completes with a result. -/
def dbgResult (s : State) (r : Nat) : State := s.setDebug (fun d => { d with status := w32 r })
/-- A command that is not permitted (R542). -/
def dbgDenied (s : State) : State := ((s.dbgResult dbgDENIED).count (pgDebug + 0x50) 1).raiseBit pgDebug 1
def dbgTarget (s : State) : W32 := s.rd (pgDebug + 0x100)
/-- JTAG's debugger is permitted by the primary's lifecycle state (R542). -/
def jtagDebug (s : State) : Bool := (s.ds 0).lc != .commissioned
/-- Who reaches the DEBUG page: the host, and JTAG where permitted; firmware's stores are ignored. -/
def debugReach (s : State) (a : Agent) : Bool :=
  match a with
  | .host => true
  | .jtag => s.jtagDebug
  | .mason _ => false
/-- A debug command: it needs the target's wythe within reach and debug of its course permitted (R539, R542). -/
def dbgCommand (s : State) (a : Agent) (f : State → State) : State :=
  if !s.debugReach a then s
  else
    let x := targetCtx s.dbgTarget
    if x.w = 1 && s.tieCut then s.dbgResult dbgSPLIT
    else if !s.debugAllowed x.w x.c.val then s.dbgDenied
    else f s

/-! HALT, RESUME and STEP (R537, R538). -/

/-- A context halts: what it has issued completes, but a load or a TLOOK still out writes when it arrives (log 27). -/
def haltNow (s : State) (x : CtxId) : State :=
  let s1 := (s.updCtx x (fun c => { c.products.foldl landOne { c with products := [] } with stepping := false })).setCtxState x .halted
  s1.count (pgDebug + 0x40) 1
/-- HALT on one context. -/
def haltOne (s : State) (x : CtxId) : State :=
  match haltWay (s.ctx x).state with
  | .now => s.haltNow x
  | .later => s.updCtx x (fun c => { c with haltDue := true })
  | .already => s
  | .no => s
/-- HALT: OK when it applied to a context of the scope. -/
def dbgHalt (s : State) : State :=
  let xs := targetScope s.dbgTarget
  let ok := xs.any (fun x => haltWay (s.ctx x).state != .no)
  (s.each xs haltOne).dbgResult (if ok then dbgOK else dbgBADTARGET)

/-- The wait a context was halted in is still unsatisfied. -/
def stillWaits (s : State) (x : CtxId) : Bool :=
  match (s.ctx x).task, (s.ctx x).waitDest with
  | some t, some _ => !s.waitMet x.core t
  | _, _ => false
/-- RESUME on one HALTED context: it waits on, or its wait ends, or it runs. -/
def resumeOne (s : State) (x : CtxId) : State :=
  if (s.ctx x).state ≠ .halted then s
  else if s.stillWaits x then s.setCtxState x .waiting
  else match (s.ctx x).task, (s.ctx x).waitDest with
    | some t, some d => s.copyClear x t d
    | _, _ => s.setCtxState x .running
/-- A command for the HALTED contexts of the scope. -/
def onHalted (s : State) (f : State → CtxId → State) : State :=
  let xs := (targetScope s.dbgTarget).filter (fun x => (s.ctx x).state == .halted)
  (s.each xs f).dbgResult (if xs.isEmpty then dbgNOTHALTED else dbgOK)
def dbgResume (s : State) : State := s.onHalted resumeOne

/-- An entry may begin at context 0 as the step (R538). -/
def stepEnters (s : State) (x : CtxId) (takeInt : Bool) : Bool :=
  takeInt && x.x == 0 && s.coreRuns x.core && s.takeable x.core != 0 && (s.ctx x).sr.getLsbD 15
/-- STEP on one HALTED context: it issues one instruction, or makes one whole entry, and halts again. -/
def stepOne (s : State) (x : CtxId) (takeInt : Bool) : State :=
  if (s.ctx x).state ≠ .halted then s
  else
    let s1 := s.resumeOne x
    let t := s1.nextOwn x
    let s2 := if s.stepEnters x takeInt then (s1.takeCycle x t (t - s1.cycleOf x - 1)).entryWork x.core else s1
    s2.updCtx x (fun c => { c with stepping := true })
def dbgStep (s : State) (takeInt : Bool) : State := s.onHalted (fun s x => s.stepOne x takeInt)

/-! Registers and memory (R539). -/

/-- A context whose registers the debugger reaches. -/
def regsReached (st : CtxState) : Bool := st == .halted || st == .stopped || st == .faulted
/-- A register's value in DBG_DATA: the upper bits of a narrow register that R211 gives no 32-bit form are free (log 5). -/
def dbgWord (s : State) (v : RVal) : W32 × State :=
  let (f, s1) := s.draw
  match v with
  | .d n => (f.extractLsb' 16 16 ++ n, s1)
  | .s16 n => (f.extractLsb' 16 16 ++ n, s1)
  | .s24 n => (f.extractLsb' 24 8 ++ n, s1)
  | v => (v.to32.getD 0, s)
/-- A reserved register number: what the debugger answers is not stated (log 5). -/
def dbgFreeResult (s : State) : State :=
  let (f, s1) := s.draw
  s1.dbgResult (f.toNat % 256)
def dbgReadReg (s : State) (r : Reg) : State :=
  let x := targetCtx s.dbgTarget
  if !regsReached (s.ctx x).state then s.dbgResult dbgNOTHALTED
  else if Reg.reservedNo r then
    let (f, s1) := s.draw
    (s1.wr (pgDebug + 0x10C) (f.setWidth 32)).dbgFreeResult
  else
    let (v, s1) := s.readReg x r
    let (n, s2) := s1.dbgWord v
    (s2.wr (pgDebug + 0x10C) n).dbgResult dbgOK
/-- WRITE_REG: DBG_DATA stands for a pair (R211); a read-only register but for PCX keeps its value. -/
def dbgWriteReg (s : State) (r : Reg) : State :=
  let x := targetCtx s.dbgTarget
  if !regsReached (s.ctx x).state then s.dbgResult dbgNOTHALTED
  else if Reg.reservedNo r then s.dbgFreeResult
  else (s.writeReg x r false (.pair (s.rd (pgDebug + 0x10C)))).dbgResult dbgOK

/-- Areas the debugger reaches. -/
def dbgArea (ar : Area) : Bool :=
  match ar with
  | .data _ => true
  | .inst _ => true
  | .slug _ => true
  | .bank _ _ => true
  | .far _ _ => false
  | .device _ => false
  | .unmapped => false
/-- A 32-bit access at DBG_ADDR with bits [1:0] taken as 0. -/
def dbgMem (s : State) (f : State → CtxId → Nat → State) : State :=
  let x := targetCtx s.dbgTarget
  let a := fld (s.rd (pgDebug + 0x108)) 23 2 * 4
  let ar := areaOf x (s.ctx x).sr a
  if !dbgArea ar then s.dbgResult dbgUNMAPPED
  else
    let v := s.areaView x ar
    let s1 := s.bankRefused x.w (((areaBank ar).map (·.1)).getD x.c.val) v
    if v = .retained then s1.dbgResult dbgFAULT else (f s1 x a).dbgResult dbgOK
def dbgReadMem (s : State) : State :=
  s.dbgMem (fun s x a => s.wr (pgDebug + 0x10C) (w32 (s.memValue x a 4)))
def dbgWriteMem (s : State) : State :=
  s.dbgMem (fun s x a => s.setMemValue x a 4 (s.rd (pgDebug + 0x10C)).toNat)
/-- BKPT_ON and BKPT_OFF (R540). -/
def dbgBreak (s : State) (on : Bool) : State :=
  (s.each (targetScope s.dbgTarget) (fun s x => s.updCtx x (fun c => { c with bkpt := on }))).dbgResult dbgOK

/-! The lifecycle leaves SERVICE (R543). -/

/-- The contexts of a wythe's metered courses. -/
def meteredCtxs (s : State) (w : WytheIx) : List CtxId :=
  (List.finRange 6).flatMap (fun c => if s.meteredCourse w c.val then
    (List.finRange 8).flatMap (fun k => ctxsOf ⟨w, c, k⟩) else [])
/-- HALTED contexts of metered courses resume, their breakpoint enables clear, and a command in progress ends with DENIED. -/
def debugLeavesService (s : State) (w : WytheIx) : State :=
  let xs := s.meteredCtxs w
  let busy := xs.any (fun x => (s.ctx x).haltDue || (s.ctx x).stepping)
  let s1 := s.each xs (fun s x => (s.resumeOne x).updCtx x (fun c => { c with bkpt := false, haltDue := false, stepping := false }))
  s1.onlyIf busy dbgDenied

/-! The TAP (R541). -/

/-- Outputs are closed on both wythes in SETTING, or both are in PROOF. -/
def tapMayDrive (s : State) : Bool :=
  wythes.all (fun w => (s.wy w).mode == .proof || ((s.wy w).mode == .setting && (s.wy w).outputsClosed))
/-- The instruction that acts: a code that is not listed, not permitted or not in a mode that allows it acts as BYPASS (R541, R542). -/
def tapActs (s : State) : BitVec 5 :=
  let ir := s.dbgUnit.ir
  if ir = 0x00 ∨ ir = 0x03 ∨ ir = 0x04 then (if s.tapMayDrive then ir else 0x1F)
  else if ir = 0x10 then (if s.jtagDebug then ir else 0x1F)
  else if ir = 0x01 ∨ ir = 0x02 ∨ ir = 0x08 then ir
  else 0x1F
def setIr (s : State) (ir : BitVec 5) : State := s.setDebug (fun d => { d with ir := ir })
/-- The pins are driven from the boundary scan register, held, or floated by the TAP; they then follow no unit of the device. -/
def pinsTaken (s : State) : Bool := s.tapActs == 0x00 || s.tapActs == 0x03 || s.tapActs == 0x04
/-- The identification register (R541). -/
def idcodeWord : W32 := Config.idcodeRevision ++ 0x9680#16 ++ Config.idcodeManufacturer ++ 1#1

end State

/-- HALT (R537): a scope with a context not permitted is denied as a whole (R542); a course is metered as a whole. -/
def execHalt (a : Agent) (s : State) : Res := .next (s.dbgCommand a State.dbgHalt)
/-- RESUME (R538). -/
def execResume (a : Agent) (s : State) : Res := .next (s.dbgCommand a State.dbgResume)
/-- STEP (R538). -/
def execStep (a : Agent) (takeInt : Bool) (s : State) : Res := .next (s.dbgCommand a (fun s => s.dbgStep takeInt))
/-- READ_REG (R539). -/
def execReadReg (a : Agent) (r : Reg) (s : State) : Res := .next (s.dbgCommand a (fun s => s.dbgReadReg r))
/-- WRITE_REG (R539). -/
def execWriteReg (a : Agent) (r : Reg) (s : State) : Res := .next (s.dbgCommand a (fun s => s.dbgWriteReg r))
/-- READ_MEM (R539). -/
def execReadMem (a : Agent) (s : State) : Res := .next (s.dbgCommand a State.dbgReadMem)
/-- WRITE_MEM (R539). -/
def execWriteMem (a : Agent) (s : State) : Res := .next (s.dbgCommand a State.dbgWriteMem)
/-- BKPT_ON (R540). -/
def execBkptOn (a : Agent) (s : State) : Res := .next (s.dbgCommand a (fun s => s.dbgBreak true))
/-- BKPT_OFF (R540). -/
def execBkptOff (a : Agent) (s : State) : Res := .next (s.dbgCommand a (fun s => s.dbgBreak false))
/-- EXTEST: the boundary scan register is selected (R541). -/
def execExtest (s : State) : Res := .next (s.setIr 0x00)
/-- IDCODE: the identification register is selected, and Capture-DR takes its word. -/
def execIdcode (s : State) : Res := .next ((s.setIr 0x01).answer State.idcodeWord)
/-- SAMPLE/PRELOAD: the boundary scan register is selected. -/
def execSamplePreload (s : State) : Res := .next (s.setIr 0x02)
/-- CLAMP: the outputs hold, and the bypass register is selected. -/
def execClampJtag (s : State) : Res := .next (s.setIr 0x03)
/-- HIGHZ: the outputs float, and the bypass register is selected. -/
def execHighz (s : State) : Res := .next (s.setIr 0x04)
/-- BYPASS (R541). -/
def execBypass (s : State) : Res := .next (s.setIr 0x1F)
/-- TRST_N resets the TAP alone (R480): its instruction register and the word of its data register. -/
def execTrstN (s : State) : Res := .next (s.setDebug (fun d => { d with ir := 1, jtagData := 0 }))

end Sys2Proof.Machine
end

