-- ==== Sys2Proof/Machine/Plinth.lean ====
section
/-! DEFINITION. Plinth: queue pairs, doorbells, the mailbox and the link (R445, R455–R469), and how a Datestone verifies a Mason
image (R384, R466). What lies in host memory is the host's: every read of it gives free values (log 5). -/

namespace Sys2Proof.Machine
namespace State

/-- Read `n` bytes of host memory at `addr`. -/
def readHost (s : State) (addr n : Nat) : Bytes × State :=
  ((List.range n).map (fun i => Config.freeByte s.free 255 (addr + i) 0), { s with free := s.free + 1 })

/-- Count the requests of a DMA of `n` bytes: one for each `max` bytes, and as many more as its splitting takes, which the manual
does not give (R445, R470; log 5). -/
def dmaCount (s : State) (a n max : Nat) : State :=
  let (v, s1) := s.draw
  s1.count a ((n + max - 1) / max + v.toNat % 65536)

/-- A DMA read of host memory. -/
def dmaRead (s : State) (addr n : Nat) : Bytes × State :=
  let (b, s1) := s.readHost addr n
  (b, s1.dmaCount (pgPlinth + 0x40) n 4096)

/-- A DMA write to host memory. -/
def dmaWrite (s : State) (addr : Nat) (b : Bytes) : State :=
  if b.isEmpty then s else (s.dmaCount (pgPlinth + 0x48) b.length 512).emit (.dma addr b)

/-- A DMA ends with an error or times out. -/
def dmaFailed (s : State) : State := s.count (pgPlinth + 0x50) 1

/-- Plinth works: its link is up, and wythe 0 is not in OFF, BRACE or DORMANT (R484, R508). -/
def plinthRuns (s : State) : Bool :=
  s.plinth.linkUp && s.w0.mode != .off && s.w0.mode != .brace && s.w0.mode != .dormant

/-! Queue pairs (R456–R461). -/

/-- The wythe a queue pair serves. -/
def qpWythe (q : Fin 64) : WytheIx := if q.val < 32 then 0 else 1
def qp (s : State) (q : Fin 64) : QueuePair := kget {} s.plinth.qps q.val
def updQp (s : State) (q : Fin 64) (f : QueuePair → QueuePair) : State :=
  { s with plinth := { s.plinth with qps := kupd {} s.plinth.qps q.val f } }
/-- A 64-bit address held in two registers of the pair's page. -/
def qpAddr (s : State) (q : Fin 64) (off : Nat) : Nat :=
  (s.rd (pgQp q.val + off)).toNat + 2 ^ 32 * (s.rd (pgQp q.val + off + 4)).toNat
/-- Entries of the send and receive ring. -/
def txEntries (s : State) (q : Fin 64) : Nat := 2 ^ (fld (s.rd (pgQp q.val + 0x118)) 3 0 + 4)
def rxEntries (s : State) (q : Fin 64) : Nat := 2 ^ (fld (s.rd (pgQp q.val + 0x118)) 11 8 + 4)
def txDescAddr (s : State) (q : Fin 64) : Nat := s.qpAddr q 0x100 + 16 * ((s.qp q).tx.head.toNat % s.txEntries q)
def rxDescAddr (s : State) (q : Fin 64) : Nat := s.qpAddr q 0x108 + 16 * ((s.qp q).rx.head.toNat % s.rxEntries q)

/-- A TAIL doorbell's value, and whether it was clamped to HEAD + entries (R457). -/
def clampTail (r : Ring) (entries : Nat) (v : W16) : W16 × Bool :=
  if entries < (v - r.head).toNat then (r.head + BitVec.ofNat 16 entries, true) else (v, false)
def ringTx (s : State) (q : Fin 64) (v : W16) : State :=
  let (t, c) := clampTail (s.qp q).tx (s.txEntries q) v
  (s.updQp q (fun p => { p with tx := { p.tx with tail := t } })).noteClamp (pgQp q.val + 0x11C) (b2n c)
def ringRx (s : State) (q : Fin 64) (v : W16) : State :=
  let (t, c) := clampTail (s.qp q).rx (s.rxEntries q) v
  (s.updQp q (fun p => { p with rx := { p.rx with tail := t } })).noteClamp (pgQp q.val + 0x120) (b2n c)

/-- Descriptors are fetched: Plinth works, the pair is enabled, and the tie reaches its wythe (R460, R461). -/
def qpFetches (s : State) (q : Fin 64) : Bool :=
  s.plinthRuns && s.enabled (pgQp q.val) && !(qpWythe q == 1 && wythes.any s.split)

/-- The write-back of both HEADs, then the pair's MSI-X vector (R456, R459). -/
def writeBack (s : State) (q : Fin 64) : State :=
  let p := s.qp q
  (s.dmaWrite (s.qpAddr q 0x110) (toLe 2 p.tx.head.toNat ++ toLe 2 p.rx.head.toNat)).emit (.msix q.val)

/-- Complete the send descriptor at HEAD with a status (R457): 0 OK, 1 BAD_LENGTH, 2 DMA_ERROR, 3 ABORTED. -/
def sendDone (s : State) (q : Fin 64) (status : Nat) : State :=
  let s1 := s.dmaWrite (s.txDescAddr q + 10) [BitVec.ofNat 8 (128 + status)]
  let s2 := s1.updQp q (fun p => { p with tx := { p.tx with head := p.tx.head + 1 }, waiting := none })
  let s3 := if status = 0 then s2.count (pgQp q.val + 0x40) 1 else if status = 3 then s2 else s2.count (pgQp q.val + 0x48) 1
  let s4 := if status = 2 then (s3.dmaFailed).raiseBit (pgQp q.val) 0 else s3
  s4.writeBack q

/-- Hand a frame to the Galley and the Compositor as one of the host port (R22, R257, R368), or let it wait for a buffer. -/
def handFrame (s : State) (q : Fin 64) (data : Bytes) : State :=
  let w := qpWythe q
  match s.alloc w (fld (s.galleyPortCfg w 24) 23 16) (s.headroom w 24 + data.length) true .ingress with
  | (.got h, s1) =>
    let f : RxFrame :=
      { id := (s1.wy w).nextFrame, port := 24, data := data, stamp := s1.gptp w, handle := some h, err := 0, ended := true, endAt := s1.now
        refused := false, cause := none, taken := false, released := false }
    (((s1.setBufBytes w h (s1.headroom w 24) data).updWy w (fun y => { y with rx := y.rx ++ [f], nextFrame := y.nextFrame + 1 })).countRx
      w 24 data.length).sendDone q 0
  | (.wait, _) => s.updQp q (fun p => { p with waiting := some data })
  | (.none, _) => s.updQp q (fun p => { p with waiting := some data })

/-- SEND_DESCRIPTOR: the frame that waits, or the next descriptor's, is handed in (R457). -/
def sendNext (s : State) (q : Fin 64) (dmaError : Bool) : State :=
  let p := s.qp q
  match p.waiting with
  | some d => if s.plinthRuns && !(qpWythe q == 1 && wythes.any s.split) then s.handFrame q d else s
  | none =>
    if !s.qpFetches q || p.tx.head == p.tx.tail then s
    else
      let (d, s1) := s.dmaRead (s.txDescAddr q) 16
      let len := le (slice d 8 2)
      if dmaError then s1.sendDone q 2
      else if len = 0 ∨ 16383 < len then s1.sendDone q 1
      else
        let (b, s2) := s1.dmaRead (le (slice d 0 8)) len
        let body := padTo 60 b
        s2.handFrame q (body ++ fcsBytes body)

/-- RECEIVE_DESCRIPTOR: the head copy of the pair's host queue goes to the next posted buffer (R458); no MAC pads it (log 36). A failed read of the descriptor
leaves the copy queued (log 21). -/
def receiveNext (s : State) (q : Fin 64) (dmaError : Bool) : State :=
  let w := qpWythe q
  let r := (s.qp q).rx
  match s.queueOf w true (q.val % 32) 0 with
  | [] => s
  | c :: _ =>
    if !s.qpFetches q || r.head == r.tail then s
    else
      let (d, s1) := s.dmaRead (s.rxDescAddr q) 16
      if dmaError then (s1.dmaFailed).raiseBit (pgQp q.val) 0
      else
        let body := s1.segBytes w c
        let size := le (slice d 8 2)
        let cutShort := decide (size < body.length)
        let desc := s1.rxDescAddr q
        let s2 := s1.dmaWrite (le (slice d 0 8)) (body.take size)
        let s3 := s2.dmaWrite (desc + 8) (toLe 2 body.length ++ [BitVec.ofNat 8 (128 + at' (b2n cutShort) 6), BitVec.ofNat 8 c.cls] ++
          toLe 2 c.stream.toNat ++ [0, 0])
        let s4 := (s3.updPress w (fun x => { x with store := x.store.erase c })).updQp q
          (fun p => { p with rx := { p.rx with head := p.rx.head + 1 } })
        let s5 := (s4.count (pgQp q.val + 0x50) 1).onlyIf cutShort (fun s => s.count (pgQp q.val + 0x58) 1)
        let k := pgPort w 24
        let s6 := (((s5.count (k + 0x50) 1).count (k + 0x58) c.len).count (witTx w 24) 1).count (witTx w 24 + 8) c.len
        let s7 := (s6.countStream w c 0 1).countStream w c 1 c.len
        ((s7.releaseSegs w c).flightDone w c.group).writeBack q

/-- CTRL.ABORT of a PLINTH_QP page: a fetched send descriptor completes with ABORTED (R461); no receive descriptor is fetched before
its frame is written. -/
def qpAbort (s : State) (q : Fin 64) : State := if (s.qp q).waiting.isSome then s.sendDone q 3 else s

/-- A link reset (R469): Plinth alone is reset. -/
def plinthReset (s : State) : State :=
  let s1 := { s with plinth := { s.plinth with linkUp := false, rate := 0, width := 0, version := none, req := none, again := false, qps := [] } }
  let s2 := s1.each (List.finRange 64) (fun s q => s.wr (pgQp q.val + 8) (s.rd (pgQp q.val + 8) &&& ~~~1#32))
  s2.each wythes (fun s w => s.quoinReset w (fun h => h == .host || h == .dma))

/-! Mason images (R384, R466). -/

/-- Regions a section of an image may lie in: data scratchpad, instruction alias, course banks (R187, R466). -/
def sectionFits (a n : Nat) : Bool :=
  decide (a + n ≤ 0x18000) || (decide (0x20000 ≤ a) && decide (a + n ≤ 0x30000)) || (decide (0x400000 ≤ a) && decide (a + n ≤ 0x800000))

/-- The image's sections: load address, length and offset of its data, or none when they do not fit the body. -/
def imageSections (b : Bytes) : List (Nat × Nat × Nat) :=
  let n := beAt b 0x12 2
  let t := if beAt b 4 2 = 1 then 0 else beAt b 0x10 2
  ((List.range n).foldl (fun (acc : List (Nat × Nat × Nat) × Nat) i =>
    let len := beAt b (128 + 8 * i + 4) 4
    (acc.1 ++ [(beAt b (128 + 8 * i) 4, len, acc.2)], acc.2 + len)) ([], 128 + 8 * n + 8 * t)).1

/-- The image has the form of R466: sections outside it or overlapping are a BAD_ARGUMENT. -/
def imageForm (b : Bytes) : Bool :=
  let v := beAt b 4 2
  let secs := imageSections b
  beAt b 0 4 == 0x4D41534E && (v == 1 || v == 2) && b.length == 128 + beAt b 8 4 && beAt b 6 1 < 8 && (v == 1 || beAt b 0x10 2 ≤ 64) &&
    secs.all (fun e => sectionFits e.1 e.2.1 && decide (e.2.2 + e.2.1 ≤ b.length)) &&
    secs.zipIdx.all (fun p => secs.zipIdx.all (fun q => decide (p.2 ≤ q.2) || p.1.2.1 == 0 || q.1.2.1 == 0 ||
      decide (p.1.1 + p.1.2.1 ≤ q.1.1) || decide (q.1.1 + q.1.2.1 ≤ p.1.1)))

/-- The result of a verification (R384): 0 ACCEPTED, 1 BAD_DIGEST, 2 BAD_SIGNATURE, 3 BAD_SLOT, 4 NOT_METERED_OK, 5 RETIRED. -/
def imageResult (d : Datestone) (b : Bytes) : Nat :=
  let dig := slice b 0x20 32
  let key := kget ⟨[], false, true⟩ d.imageKeys (beAt b 6 1)
  if d.lc = .retired then 5
  else if sha256 (b.drop 128) ≠ dig then 1
  else if d.lc = .blank then 0
  else if key.revoked then 3
  else if !ecdsaVerify key.key dig (slice b 0x40 64) then 2
  else if bitOf (beAt b 7 1) 0 && !key.meteredOk then 4
  else 0

/-- A course's Datestone verifies an image: the result is counted and ledgered (R373, R384). -/
def verifyImage (s : State) (course : Nat) (b : Bytes) : Nat × State :=
  let w : WytheIx := if course < 6 then 0 else 1
  let r := imageResult (s.ds w) b
  let s1 := s.count (pgDate w + (if r = 0 then 0x58 else 0x60)) 1
  (r, s1.record w 0x0C course (slice b 0x20 16 ++ toBe 1 (beAt b 6 1) ++ toBe 1 r ++ toBe 1 (beAt b 7 1 % 2)))

/-- Hold an image for the cores of a course that `mask` names (R465). -/
def holdImage (s : State) (course mask : Nat) (b : Bytes) : State :=
  let w : WytheIx := if course < 6 then 0 else 1
  s.each ((List.range 8).filter (fun k => bitOf mask k)) (fun s k => s.updCore w (8 * (course % 6) + k) (fun c => { c with staged := some ⟨b⟩ }))

/-! The mailbox (R463–R465). -/

/-- Status, payload and the state after a request is served. -/
abbrev Reply := Nat × Bytes × State

/-- HELLO (R464). -/
def serveHello (s : State) (p : Bytes) : Reply :=
  let top := min 3 (fld (s.rd (pgPlinth + 0x108)) 1 0)
  let v := min top (beAt p 1 1)
  if v < max 1 (beAt p 0 1) then (2, [1] ++ toBe 1 top, { s with plinth := { s.plinth with version := none } })
  else (0, toBe 1 v, { s with plinth := { s.plinth with version := some v } })

/-- GET_INFO (R465, R468). -/
def serveInfo (s : State) : Reply := (0, toBe 2 0x9680 ++ [2, 2, 1, 1] ++ uidBytes, s)

/-- IMAGE_STAGE (R41, R465). -/
def serveImage (s : State) (p : Bytes) (dmaError : Bool) : Reply :=
  let course := beAt p 12 1
  if 11 < course then (5, [], s)
  else if dmaError then (6, [], s.dmaFailed)
  else
    let (b, s1) := s.dmaRead (beAt p 0 8) (beAt p 8 4)
    if !imageForm b then (5, [], s1)
    else
      let (r, s2) := s1.verifyImage course b
      let ans := toBe 1 r ++ sha256 b
      let mark := fun (s : State) (bad : Bool) => { s with forme := { s.forme with
        refusedImages := if bad then sins s.forme.refusedImages course true else kdel s.forme.refusedImages course } }
      if r ≠ 0 then (7, ans, mark s2 true)
      else
        let s3 := (mark s2 false).holdImage course (beAt p 13 1) b
        (0, ans, { s3 with forme := { s3.forme with
          journal := s3.forme.journal ++ [3] ++ toBe 1 course ++ toBe 1 (beAt p 13 1) ++ sha256 b } })

/-- LEDGER_DMA (R381, R465). Wythe 1's ring is not read while the tie is lost, and no slot is written (log 22). -/
def serveLedger (s : State) (p : Bytes) (dmaError : Bool) : Reply :=
  let wy := beAt p 0 1
  let first := beAt p 1 2
  let n := beAt p 3 2
  if 1 < wy ∨ 4095 < first ∨ n = 0 ∨ 4096 < n then (5, [], s)
  else if dmaError then (6, [], s.dmaFailed)
  else
    let w : WytheIx := if wy = 0 then 0 else 1
    let recs := if w = 1 ∧ s.tieCut then [] else copySlots (s.ds w).ring n first
    (0, toBe 2 recs.length, s.dmaWrite (beAt p 5 8) recs.flatten)

/-- The slot's forme image is signed with `pub`, or a zero signature stands in BLANK (R58). -/
def slotSigned (b : Bytes) (blank : Bool) (pub : Bytes) : Bool :=
  let sig := slice b 0x30 64
  if sig = List.replicate 64 0 then blank else !pub.isEmpty && ecdsaVerify pub (slice b 0x10 32) sig

/-- A slot is valid (R58). -/
def slotValid (b : Bytes) (blank : Bool) (pub : Bytes) : Bool :=
  let l := beAt b 0x0C 4
  decide (0x110 ≤ b.length) && beAt b (0x100 + l) 4 == 0x5EA1C0DE && beAt b (0x104 + l) 4 == beAt b 8 4 &&
    beAt b (0x108 + l) 4 == crc32c (slice b 0 0x100) && sha256 (slice b 0x100 l) == slice b 0x10 32 && slotSigned b blank pub
def slotOk (s : State) (b : Bytes) : Bool := slotValid b (decide ((s.ds 0).lc = .blank)) (s.ds 0).pubkey

/-- Base address of slot A or B (R57, R63). -/
def slotBase (s : State) (b : Bool) : Nat := (s.rd (pgForme + if b then 0x150 else 0x14C)).toNat
/-- What stands in slot A or B: from its base on, of what was written there or before it. -/
def slotAt (s : State) (b : Bool) : FlashSlot :=
  let a := s.slotBase b
  match sfind s.forme.flash a with
  | some v => v
  | none => match s.forme.flash.find? (fun e => decide (e.1 < a) && decide (a < e.1 + e.2.bytes.length)) with
    | some e => { e.2 with bytes := e.2.bytes.drop (a - e.1) }
    | none => {}

/-- SLOT_READ (R465). -/
def serveSlot (s : State) (p : Bytes) (dmaError : Bool) : Reply :=
  if 1 < beAt p 0 1 then (5, [], s)
  else if dmaError then (6, [], s.dmaFailed)
  else
    let b := (s.slotAt (beAt p 0 1 != 0)).bytes
    let out := b.take (beAt p 9 4)
    (0, toBe 4 out.length ++ toBe 1 (b2n (s.slotOk b)), s.dmaWrite (beAt p 1 8) out)

/-- The opcode's first version and its payload length (R465). -/
def opcodeInfo (op : Nat) : Option (Nat × Nat) :=
  match op with
  | 1 => some (1, 2) | 2 => some (1, 0) | 3 => some (1, 14) | 4 => some (2, 13) | 5 => some (3, 13) | _ => none

/-- Serve a request (R463–R465): the checks in the order of negotiation, version, opcode and length. -/
def serve (s : State) (req : Bytes) (dmaError : Bool) : Reply :=
  let op := beAt req 1 1
  let p := slice req 4 (beAt req 2 2)
  if op = 1 ∧ s.plinth.version = none then (if beAt req 2 2 = 2 then s.serveHello p else (4, [], s))
  else match s.plinth.version with
    | none => (1, [], s)
    | some v =>
      if beAt req 0 1 ≠ v then (8, [], s)
      else match opcodeInfo op with
        | none => (3, [], s)
        | some (since, n) =>
          if v < since then (3, [], s)
          else if beAt req 2 2 ≠ n then (4, [], s)
          else match op with
            | 1 => s.serveHello p
            | 2 => s.serveInfo
            | 3 => s.serveImage p dmaError
            | 4 => s.serveLedger p dmaError
            | _ => s.serveSlot p dmaError

/-- REQ as it stands, 256 bytes. -/
def reqBytes (s : State) : Bytes := (List.range 64).flatMap (fun i => toBe 4 (s.rd (pgMbox + 0x200 + 4 * i)).toNat)

/-- A 1 is written to GO (R463): a disabled mailbox starts none (R451). -/
def mboxGo (s : State) : State :=
  if s.plinth.req.isSome then { s with plinth := { s.plinth with again := true } }
  else if s.enabled pgMbox then { s with plinth := { s.plinth with req := some s.reqBytes } } else s

/-- The request being served ends: the response overwrites RESP, GO clears, DONE is raised with MSI-X vector 65, and a further
request starts (R463). A response's VERSION before any negotiation is a free value (log 5). -/
def mboxServe (s : State) (op : Nat) (dmaError : Bool) : State :=
  match s.plinth.req with
  | none => s
  | some r =>
    if beAt r 1 1 ≠ op ∧ ¬(op = 1 ∧ (opcodeInfo (beAt r 1 1)).isNone) then s
    else
      let (st, p, s1) := s.serve r dmaError
      let (fv, s2) := s1.draw
      let ver := match s2.plinth.version with
        | some v => v
        | none => fv.toNat
      let resp := toBe 1 ver ++ toBe 1 st ++ toBe 2 p.length ++ p
      let words := (beWords (padTo 256 resp)).zipIdx.foldl (fun m e => sput (fun _ => 0) m e.2 e.1) ([] : SMap W32)
      let s3 := { s2 with plinth := { s2.plinth with resp := words, req := none, again := false } }
      let s4 := (s3.raiseBit pgMbox 0).emit (.msix 65)
      if s.plinth.again && s4.enabled pgMbox then { s4 with plinth := { s4.plinth with req := some s4.reqBytes } } else s4

end State

/-- SEND_TAIL_DOORBELL (R457, R462). -/
def execSendTailDoorbell (q : Fin 64) (value : W16) (s : State) : Res := .next (s.ringTx q value)

/-- RECEIVE_TAIL_DOORBELL (R457, R462). -/
def execReceiveTailDoorbell (q : Fin 64) (value : W16) (s : State) : Res := .next (s.ringRx q value)

/-- FIRMWARE_DOORBELL (R462). -/
def execFirmwareDoorbell (w : WytheIx) (d : Fin 64) (s : State) : Res :=
  .next (if w = 1 ∧ s.tieCut then s.count (pgPlinth + 0x58) 1 else (s.postBindings w 2 d.val).interruptEnabled w 11)

/-- SEND_DESCRIPTOR (R457, R459–R461). -/
def execSendDescriptor (q : Fin 64) (dmaError : Bool) (s : State) : Res := .next (s.sendNext q dmaError)

/-- RECEIVE_DESCRIPTOR (R458–R461). -/
def execReceiveDescriptor (q : Fin 64) (dmaError : Bool) (s : State) : Res := .next (s.receiveNext q dmaError)

/-- HELLO (R463, R464); a request whose opcode the manual does not list is answered here (log 23). -/
def execHello (s : State) : Res := .next (s.mboxServe 1 false)

/-- GET_INFO (R465). -/
def execGetInfo (s : State) : Res := .next (s.mboxServe 2 false)

/-- IMAGE_STAGE (R384, R465, R466). -/
def execImageStage (dmaError : Bool) (s : State) : Res := .next (s.mboxServe 3 dmaError)

/-- LEDGER_DMA (R465). -/
def execLedgerDma (dmaError : Bool) (s : State) : Res := .next (s.mboxServe 4 dmaError)

/-- SLOT_READ (R465). -/
def execSlotRead (dmaError : Bool) (s : State) : Res := .next (s.mboxServe 5 dmaError)

/-- LINK_RESET: PERST_N or a link reset (R469). -/
def execLinkReset (s : State) : Res := .next s.plinthReset

/-- PERST_N_RELEASE: the link trains and comes up, at a rate and width the partner decides (R445, R554; log 5). -/
def execPerstNRelease (s : State) : Res :=
  let (v, s1) := s.draw
  .next { s1 with plinth := { s1.plinth with linkUp := true, rate := v.toNat % 4 + 1, width := 2 ^ (v.toNat / 4 % 4) } }

/-- QP_DISABLE: CTRL.ENABLE of a PLINTH_QP page cleared (R461). -/
def execQpDisable (a : Agent) (q : Fin 64) (s : State) : Res :=
  .next (s.viaGlobal a (fun s => s.wr (pgQp q.val + 8) (s.rd (pgQp q.val + 8) &&& ~~~1#32)))

/-- QP_ABORT: CTRL.ABORT of a PLINTH_QP page set (R461). -/
def execQpAbort (a : Agent) (q : Fin 64) (s : State) : Res := .next (s.viaGlobal a (fun s => s.qpAbort q))

end Sys2Proof.Machine
end

