-- ==== Sys2Proof/Machine/Staging.lean ====
section
/-! DEFINITION. Writes of forme content: the staged copies with their clamps, and the journal (R31, R32, R41, R52, R53). -/

namespace Sys2Proof.Machine

/-! Clamps that other settings bound (R8): each answers the word held and how many clamps it took. -/

/-- SLOT_PLAN: a context named by a lower slot takes the valid bit of a later one away (R152): one field, one clamp. -/
def clampPlan (v : W32) : W32 × Nat :=
  let ok := fun (i : Nat) => flag v (4 * i + 3) && (List.range i).all (fun j => !(flag v (4 * j + 3) && fld v (4 * j + 2) (4 * j) == fld v (4 * i + 2) (4 * i)))
  let r := (List.range 8).foldl (fun (a : W32) i => setFld a (4 * i + 3) (4 * i + 3) (b2n (ok i))) v
  (r, b2n (r != v))
/-- KEYSEG: START + LEN stays within a word (R82). -/
def clampKeyseg (v : W32) : W32 × Nat :=
  if 32 < fld v 20 16 + fld v 5 0 then (setFld v 5 0 (32 - fld v 20 16), 1) else (v, 0)
/-- HOLD_LIMIT: 0, or 10 and more (R272). -/
def clampHold (v : W32) : W32 × Nat := if 1 ≤ v.toNat ∧ v.toNat ≤ 9 then (w32 10, 1) else (v, 0)
/-- TBL_CFG: SIZE and BASE by KIND (R98; DEDUCED, log 24). -/
def clampTbl (v : W32) : W32 × Nat :=
  let top := fun (n b : Nat) =>
    let size := min (max (fld v 23 16) 1) n
    let base := min (fld v 15 0) b
    (setFld (setFld v 23 16 size) 15 0 base, b2n (size != fld v 23 16) + b2n (base != fld v 15 0))
  if fld v 31 30 = 1 then top 128 127 else if fld v 31 30 = 2 then top 16 15 else (v, 0)

/-- Bytes a pool occupies (R253). -/
def poolBytes (size count : Nat) : Nat := 64 * size * count + (5 * count + 63) / 64 * 64
/-- The largest COUNT up to `count` that fits `room` bytes. -/
def poolFits (size count room : Nat) : Nat :=
  if poolBytes size count ≤ room then count
  else
    let c := room / (64 * size + 5)
    if poolBytes size c ≤ room then c else c - 1

namespace State

/-- Put a word into a staged copy, noting `n` clamps. -/
def stage (s : State) (a : Nat) (v : W32) (n : Nat) : State :=
  ({ s with staged := sput regReset s.staged a v }).noteClamp a n

/-- The rate of a port's staged mode is at least 25G (R71); the host port has none, and EARLY is clamped there too (DESIGN CHOICE; log 44). -/
def earlyAllowed (s : State) (w : WytheIx) (p : Nat) : Bool :=
  decide (p < 24) && decide (25000 ≤ portRate (s.stStaged (pgPort w p + 0x100)))

/-- GUARD stays at or above Gmin (R353). -/
def reguard (s : State) (w : WytheIx) (p : Nat) : State :=
  let a := pgPress w p + 0x104
  let v := s.stStaged a
  let g := guardMin (s.stStaged (pgPort w p + 0x100))
  if fld v 19 0 < g then s.stage a (setFld v 19 0 g) 1 else s
/-- EARLY goes when the port becomes slower than 25G (R71). -/
def reearly (s : State) (w : WytheIx) (p : Nat) : State :=
  let a := pgComp w + 0x100 + 4 * p
  let v := s.stStaged a
  if flag v 16 && !s.earlyAllowed w p then s.stage a (setFld v 16 16 0) 1 else s

/-- The staged DRAM window is cut at the end of the wythe's DRAM (R253, R425, R429). -/
def rewindow (s : State) (w : WytheIx) : State :=
  let a := pgGalley w + 0x168
  let v := s.stStaged a
  let most := dramSpace (s.dram w).active / 65536 - (s.stStaged (pgGalley w + 0x164)).toNat
  if most < v.toNat then s.stage a (w32 most) 1 else s
/-- One backing's layout in pool order; each COUNT that does not fit is clamped (R253). -/
def relayout (s : State) (w : WytheIx) (dram : Bool) : State :=
  let room := if dram then 65536 * (s.stStaged (pgGalley w + 0x168)).toNat else 0x2000000
  ((List.range 8).foldl (fun (acc : State × Nat) p =>
    let (s, left) := acc
    let f := s.stStaged (pgGalley w + 0x100 + 4 * p)
    let a := pgGalley w + 0x120 + 4 * p
    let n := fld (s.stStaged a) 23 0
    if flag f 30 != dram then (s, left)
    else
      let m := poolFits (fld f 8 0) n left
      (if m = n then s else s.stage a (w32 m) 1, left - poolBytes (fld f 8 0) m)) (s, room)).1

/-- The wythe a page lies on. -/
def pageWythe (pg : PageId) : WytheIx := if pg.region = 2 then 1 else 0

/-- Clamps of a word by the settings around it, on entry to its staged copy. -/
def clampSpecial (s : State) (pg : PageId) (o : Nat) (v : W32) : W32 × Nat :=
  let w := pageWythe pg
  if pg.type = 0x30 ∧ o = 0x108 then clampPlan v
  else if pg.type = 0x13 then clampKeyseg v
  else if pg.type = 0x1D ∧ 0x110 ≤ o ∧ o < 0x150 then clampHold v
  else if pg.type = 0x10 ∧ 0x180 ≤ o ∧ o < 0x1A0 then clampTbl v
  else if pg.type = 0x10 ∧ 0x100 ≤ o ∧ o < 0x164 then
    (if flag v 16 && !s.earlyAllowed w ((o - 0x100) / 4) then (setFld v 16 16 0, 1) else (v, 0))
  else if pg.type = 0x40 ∧ o = 0x104 then
    let g := guardMin (s.stStaged (pgPort w pg.inst + 0x100))
    (if fld v 19 0 < g then (setFld v 19 0 g, 1) else (v, 0))
  else (v, 0)

/-- Other staged words that a write changes: guard band and EARLY by the port's mode, pool counts and window by the pools' layout. -/
def stageAfter (s : State) (pg : PageId) (o : Nat) : State :=
  let w := pageWythe pg
  if pg.type = 0x38 ∧ o = 0x100 then (s.reguard w pg.inst).reearly w pg.inst
  else if pg.type = 0x1C ∧ o < 0x170 then ((s.rewindow w).relayout w false).relayout w true
  else s

/-- A word enters an ST register's staged copy (R31, R32, R52). -/
def stageWord (s : State) (a : Nat) (raw : W32) : State :=
  match regDesc a, pageOf a with
  | some d, some pg =>
    if d.acc = .st ∨ d.acc = .stKept then
      let v1 := w32 (clampWord d.flds raw.toNat)
      let (v2, n) := s.clampSpecial pg (a % 0x1000) v1
      (s.stage a v2 (clampsIn d.flds raw.toNat + n)).stageAfter pg (a % 0x1000)
    else s
  | _, _ => s

/-- Is the register at `a` forme content? -/
def isSt (a : Nat) : Bool :=
  match regDesc a with
  | some d => d.acc == .st || d.acc == .stKept
  | none => false

/-- A host write to an ST register: journalled as merged, before clamping (R41, R447). -/
def stWrite (s : State) (a : Nat) (v : W32) (en : BitVec 4) : State :=
  if !isSt a then s
  else
    let raw := mergeBytes (s.stStaged a) v en
    (s.journal (1 :: toBe 4 a ++ toBe 4 raw.toNat)).stageWord a raw

end State

/-- ST_FIELD_WRITE: the host writes a register that holds ST fields (R31, R32, R41). -/
def execStFieldWrite (addr : Nat) (value : W32) (be : BitVec 4) (s : State) : Res :=
  .next (if addr < 0x1000000 || !s.tieCut then s.stWrite addr value be else s)

end Sys2Proof.Machine
end

