-- ==== Sys2Proof/Machine/Formes.lean ====
section
/-! DEFINITION. The forme unit: sessions, lock-up, drain, sweep and persisted formes (R30–R62, R564). -/

namespace Sys2Proof.Machine
namespace State

def setForme (s : State) (f : FormeUnit → FormeUnit) : State := { s with forme := f s.forme }

/-! Sessions (R33, R38). -/

/-- A sweep is running (R49, R275). -/
def sweeps (s : State) : Bool := !s.forme.sweepOn.isEmpty || s.joined.any (fun w => !s.swept w)

/-- A session opens: the root copy of R109 begins. -/
def sessionOpens (s : State) (n : W16) : State :=
  (s.setForme (fun f => { f with session := .open_ n })).each s.joined (fun s w => s.updTables w (fun t => { t with copying := true }))

/-- OPEN: at once, or pending while a sweep runs (R33, R51). -/
def openWritten (s : State) (n : W16) : State :=
  if s.forme.session ≠ .none ∨ !s.enabled pgForme then s
  else if s.sweeps then s.setForme (fun f => { f with session := .pending n })
  else s.sessionOpens n

/-- PENDING_SESSION_OPEN: the sweeps have ended. -/
def pendingOpens (s : State) : State :=
  match s.forme.session with
  | .pending n => if s.sweeps then s else s.sessionOpens n
  | _ => s

/-- The part of an ST copy that an operation on the joined wythes replaces by `new`; while the tie is lost wythe 1's stays (R524). -/
def takeCopy (s : State) (old new : SMap W32) : SMap W32 :=
  if s.tieCut then new.filter (fun e => decide (e.1 < 0x1000000)) ++ old.filter (fun e => decide (0x1000000 ≤ e.1)) else new

/-- ABANDON (R33, R38). -/
def abandonWritten (s : State) : State :=
  let s1 := match s.forme.session with
    | .open_ _ => s.each s.joined (fun s w => (s.flushSession w).abandonTables w)
    | .pending _ => s.each s.joined (fun s w => s.each windowIds (fun s t => s.abortCmds w t (fun c => c.kind == CmdKind.pending)))
    | .none => s
  let s2 := s1.each s.joined (fun s w => s.each (List.range 48) (fun s i => s.updCore w i (fun c => { c with staged := c.locked })))
  { s2 with
    staged := s2.takeCopy s2.staged s2.active
    forme := { s2.forme with session := .none, restored := false, journal := [], refusedImages := [] } }

/-- CLAMP_CLEAR: CLAMP_NOTE of every page that the write reaches (R53, R64). -/
def clampsCleared (s : State) : State :=
  { s with regs := s.regs.filter (fun e => e.1 % 0x1000 != 0x28 || (s.tieCut && decide (0x1000000 ≤ e.1))) }

/-! Validation (R42, R52, R564). -/

/-- The number being locked up (R41). -/
def lockNumber (s : State) : W16 :=
  match s.forme.session with
  | .none => (s.rd (pgForme + 0x108)).setWidth 16
  | .pending n => n
  | .open_ n => n
/-- The journal with its header (R41). -/
def journalBytes (s : State) (n : W16) : Bytes := toBe 2 n.toNat ++ toBe 2 (s.formeNo 0).toNat ++ s.forme.journal
/-- DIGEST0 to DIGEST7 as bytes. -/
def digestWritten (s : State) : Bytes := (List.range 8).flatMap (fun i => toBe 4 (s.rd (pgForme + 0x110 + 4 * i)).toNat)

/-- A port is in use under the staged forme (R564). -/
def stagedUse (s : State) (w : WytheIx) (p : Nat) : Bool := p == 24 || laneInUse (s.stStaged (pgPort w p + 0x100))
def portsInUse (s : State) (w : WytheIx) : List Nat := (List.range 25).filter (s.stagedUse w)

/-- A parse node's words in the staged forme: NODE_CFG and NODE_SEL. -/
def stagedNode (s : State) (w : WytheIx) (n : Nat) : W32 × W32 :=
  let a := pgGraph w (n / 32) + 0x100 + 64 * (n % 32)
  (s.stStaged a, s.stStaged (a + 8))
def nodeDefined (s : State) (w : WytheIx) (n : Nat) : Bool := flag (s.stagedNode w n).1 31
/-- A defined node names what is not defined (R74). -/
def nodeBad (s : State) (w : WytheIx) (n : Nat) : Bool :=
  let (cfg, sel) := s.stagedNode w n
  let base := fld sel 15 8
  let count := fld sel 3 0
  flag cfg 31 && (decide (256 < base + count) || (!flag cfg 22 && !s.nodeDefined w (fld cfg 21 16)) ||
    (List.range count).any (fun i =>
      let nx := s.stStaged (pgTrans w + 0x104 + 8 * (base + i))
      !flag nx 31 && !s.nodeDefined w (fld nx 5 0)))

/-- Bytes of the exact store an EXACT slot names. -/
def exactSpan (cfg : W32) : Nat × Nat := (0x10000 * fld cfg 15 0, 0x10000 * (fld cfg 15 0 + fld cfg 23 16))
/-- A Case slot's region runs beyond its store, or its actions beyond the exact store or into an EXACT region (R85, R86). -/
def slotBad (s : State) (w : WytheIx) (n : Nat) : Bool :=
  let cfg := tblCfg s.stStaged w n
  let ends := fld cfg 15 0 + fld cfg 23 16
  if tblKind cfg = 1 then decide (128 < ends)
  else if tblKind cfg = 2 then
    let lo := 16 * tblAct s.stStaged w n
    let hi := lo + 16 * 256 * ends
    decide (16 < ends) || decide (0x800000 < hi) || (List.range 8).any (fun m =>
      let c := tblCfg s.stStaged w m
      tblKind c == 1 && decide (lo < (exactSpan c).2) && decide ((exactSpan c).1 < hi))
  else false

/-- A pool is enabled in the staged forme (R252). -/
def stagedPool (s : State) (w : WytheIx) (p : Nat) : Bool :=
  flag (s.stStaged (pgGalley w + 0x100 + 4 * p)) 31 && s.stStaged (pgGalley w + 0x120 + 4 * p) != 0
/-- UNDEFINED_REF (R74, R85, R86, R258, R425, R432). -/
def undefinedRef (s : State) (w : WytheIx) : Bool :=
  (List.range 64).any (s.nodeBad w) || (List.range 8).any (s.slotBad w) ||
  (s.portsInUse w).any (fun p =>
    !s.nodeDefined w (fld (s.stStaged (pgComp w + 0x100 + 4 * p)) 5 0) ||
    (List.range 8).any (fun q => flag (s.stStaged (pgGalley w + 0x170 + 4 * p)) (16 + q) && !s.stagedPool w q)) ||
  (!(s.dram w).available && (List.range 8).any (fun q =>
    let f := s.stStaged (pgGalley w + 0x100 + 4 * q)
    flag f 31 && flag f 30))

/-- GATE_CYCLE_ZERO. -/
def gateZero (s : State) (w : WytheIx) : Bool :=
  (List.range 24).any (fun p => flag (s.stStaged (pgPress w p + 0x100)) 31 && s.stStaged (pgPress w p + 0x108) == 0)

/-- A course is required by the staged forme (R564). -/
def courseRequired (s : State) (w : WytheIx) (c : Nat) : Bool :=
  ((s.portsInUse w).map (fun p => fld (s.stStaged (pgComp w + 0x100 + 4 * p)) 10 8)).eraseDups.any (fun g =>
    (List.range 512).any (fun i =>
      let v := s.stStaged (pgInd w g + 0x100 + 4 * i)
      fld v 14 12 == c || fld v 30 28 == c))
/-- IMAGE_REJECTED (R42, R384, R564). -/
def imagesBad (s : State) (w : WytheIx) : Bool :=
  (List.range 6).any (fun c => (sfind s.forme.refusedImages (6 * w.val + c)).isSome ||
    ((List.range 8).any (fun k => (s.core w (8 * c + k)).staged.isNone) && s.courseRequired w c))

/-- Lane rate class of a mode; none when the lane is powered down (R399, R402). -/
def laneRate (m : Nat) : Option Nat :=
  match m with
  | 0 => none | 1 => some 1 | 2 => some 1 | 3 => some 2 | 4 => some 3 | 5 => some 3 | _ => some 4
/-- QUAD_MODE (R402). -/
def quadBad (s : State) (w : WytheIx) (q : Nat) : Bool :=
  let v := (List.range 4).map (fun i => s.stStaged (pgPort w (4 * q + i) + 0x100))
  let m := v.map (fun x => fld x 27 24)
  let rest := m.drop 1
  let first := m.headD 0
  rest.any (· == 7) || (first == 7 && rest.any (· != 8)) || (first != 7 && m.any (· == 8)) ||
  decide (2 < (m.filterMap laneRate).eraseDups.length) ||
  v.any (fun x => (fld x 27 24 == 6 && fld x 23 22 == 0) || (fld x 27 24 == 7 && fld x 23 22 != 2))

/-- The number cannot be locked up (R42, R527). -/
def badNumber (s : State) (n : W16) : Bool :=
  n == 0 || n == 0xFFFF || s.joined.any (fun w => (s.wy w).forme == n || (s.wy w).previous == some n) ||
  (match s.forme.session with
    | .open_ m => m != n
    | _ => false)

/-- The result code of R42, in its order. `digest` false: the lock-up of R60 needs none. -/
def validate (s : State) (n : W16) (persist digest : Bool) : Nat :=
  if s.sweeps then 1
  else if persist && s.forme.persist.isSome then 2
  else if s.badNumber n then 3
  else if digest && sha256 (s.journalBytes s.lockNumber) != s.digestWritten then 4
  else if s.joined.any s.undefinedRef then 5
  else if s.joined.any s.gateZero then 6
  else if s.joined.any s.imagesBad then 7
  else if s.joined.any (fun w => (List.range 6).any (s.quadBad w)) then 8
  else 0

/-! Forme images and slots (R56–R58, R467). -/

def entry02 (w : WytheIx) (t op : Nat) (words : List W32) : Bytes :=
  [0x02, BitVec.ofNat 8 (at' w.val 4 + t), BitVec.ofNat 8 op, BitVec.ofNat 8 words.length] ++ wordBytes words

/-- A wythe's tables as the forme just locked up sees them, as entries that rebuild them. -/
def tableEntries (s : State) (w : WytheIx) : List Bytes :=
  let t := s.tables w
  let vis := fun (born dying : Bool) => seen true born dying
  (t.trie.filter (reaches t.root1)).map (fun p => entry02 w 1 opInsert ((trieAns p).2.1 ++ (trieAns p).2.2)) ++
  (t.learn.filter (fun e => e.2.static && vis e.2.born e.2.dying)).map (fun e =>
    entry02 w 2 opInsert ((learnAns e.1 e.2).2.1 ++ (learnAns e.1 e.2).2.2.take 2)) ++
  ((t.index.map (·.1) ++ (t.overlay.filter (fun o => (sfind t.index o.1).isNone)).map (·.1)).filterMap (fun i =>
    (indexSee t true i).map (fun b => entry02 w 3 opInsert (w32 i :: beWords b)))) ++
  (t.exact.filter (fun e => vis e.2.born e.2.dying)).filterMap (fun e =>
    let cfg := tblCfg s.stActive w e.2.slot
    if tblKind cfg = 1 ∧ flag cfg 29 = e.2.wide then
      some (entry02 w (8 + e.2.slot) opInsert (beWords (if e.2.wide then toBe 40 e.2.key else toBe 15 e.2.key ++ [0]) ++ beWords e.2.act))
    else none) ++
  (t.ternary.filter (fun e => vis e.2.born e.2.dying)).filterMap (fun e =>
    ((List.range 8).find? (fun n =>
      let cfg := tblCfg s.stActive w n
      tblKind cfg == 2 && decide (256 * fld cfg 15 0 ≤ e.1) && decide (e.1 < 256 * (fld cfg 15 0 + fld cfg 23 16)))).map (fun n =>
        entry02 w (8 + n) opWrite (beWords (toBe 40 e.2.value.toNat) ++ beWords (toBe 40 e.2.mask.toNat) ++
          (w32 e.1 :: beWords (actAt t (tblAct s.stActive w n + e.1))))))

/-- A course's images, one entry for the cores that hold the same one. -/
def imageEntries (s : State) (w : WytheIx) (c : Nat) : List Bytes :=
  let imgs := (List.range 8).map (fun k => (s.core w (8 * c + k)).locked)
  (imgs.filterMap id).eraseDups.map (fun m =>
    let mask := ((List.range 8).map (fun k => b2n (imgs.getD k none == some m) * 2 ^ k)).sum
    [0x04] ++ toBe 1 (6 * w.val + c) ++ toBe 1 mask ++ toBe 4 m.bytes.length ++ m.bytes)

/-- The forme image of the active forme (R467), in an order the model chooses: registers by offset, tables, images (log 26). -/
def formeImage (s : State) (n : W16) : Bytes :=
  let es := ((s.active.filter (fun e => decide (e.1 < 0x1000000) || !s.tieCut)).map (fun e => 1 :: toBe 4 e.1 ++ toBe 4 e.2.toNat)) ++
    s.joined.flatMap s.tableEntries ++ s.joined.flatMap (fun w => (List.range 6).flatMap (s.imageEntries w))
  toBe 4 0x46524D45 ++ toBe 2 2 ++ toBe 2 n.toNat ++ toBe 4 es.length ++ toBe 4 0 ++ es.flatten

/-- The slot a persist writes (R56). -/
def persistSlotB (s : State) : Bool :=
  let a := (s.slotAt false).bytes
  let b := (s.slotAt true).bytes
  if !s.slotOk a then false else if !s.slotOk b then true else decide (beAt b 8 4 < beAt a 8 4)
/-- The flash with `size` bytes from `base` erased: what lies there goes, and what runs into them ends before them. -/
def eraseFlash (m : SMap FlashSlot) (base size : Nat) : SMap FlashSlot :=
  (m.filter (fun e => !(decide (base ≤ e.1) && decide (e.1 < base + max 1 size)))).map (fun e =>
    if e.1 < base ∧ base < e.1 + e.2.bytes.length then (e.1, { e.2 with bytes := e.2.bytes.take (base - e.1) }) else e)
/-- PERSIST_STATUS and the counters of a persist's end. -/
def persistDone (s : State) (b : Bool) (code : Nat) : State :=
  let s1 := s.setForme (fun f => { f with persist := none, persistStatus := w32 (256 * b2n b + code) })
  if code = 2 then s1.count (pgForme + 0x60) 1 else s1.count (pgForme + 0x68) 1
/-- A persist begins: the slot is erased (R56); no key, or an image too long, ends it with nothing written (R58). Its kept settings are
those the Keep store holds (DESIGN CHOICE; log 20). -/
def persistStarts (s : State) (n : W16) : State :=
  let b := s.persistSlotB
  let img := s.formeImage n
  if (s.ds 0).lc = .retired then s.persistDone b 6
  else if (s.rd (pgForme + 0x154)).toNat < img.length + 0x110 then s.persistDone b 4
  else s.setForme (fun f => { f with
    flash := eraseFlash f.flash (s.slotBase b) (s.rd (pgForme + 0x154)).toNat
    persist := some ⟨b, s.slotBase b, n, img, f.lockCount, s.keep, s.modes.last⟩, persistStatus := w32 (256 * b2n b + 1) })
/-- PERSIST_END (R56–R58): the slot whole, signed by the primary, or left invalid by a flash error. -/
def persistEnds (s : State) (flashError : Bool) : State :=
  match s.forme.persist with
  | none => s
  | some p =>
    if flashError then s.persistDone p.slotB 3
    else if (s.ds 0).lc = .retired then s.persistDone p.slotB 6
    else
      let dig := sha256 p.image
      let (k, s1) := s.drawScalar
      let (_, s2) := s1.draw
      let sig := if (s.ds 0).lc = .blank then List.replicate 64 0 else ecdsaSign (s.ds 0).privkey k dig
      let kept := (List.range 144).map (fun i => Config.freeByte s1.free 254 i 0)
      let head := toBe 4 2 ++ toBe 2 p.number.toNat ++ [0, 0] ++ toBe 4 p.lockCount.toNat ++ toBe 4 p.image.length ++ dig ++ sig ++ kept
      let tail := toBe 4 0x5EA1C0DE ++ toBe 4 p.lockCount.toNat ++ toBe 4 (crc32c head) ++ [0, 0, 0, 0]
      (s2.setForme (fun f => { f with flash := sins f.flash p.base ⟨head ++ p.image ++ tail, p.keep, p.last⟩ })).persistDone p.slotB 2

/-! The switch (R43–R47, R175, R256, R327, R371). -/

/-- Offsets at which the staged forme differs from the active one. -/
def changedRegs (s : State) : List Nat :=
  ((s.staged.map (·.1) ++ s.active.map (·.1)).eraseDups).filter (fun a =>
    s.stStaged a != s.stActive a && (decide (a < 0x1000000) || !s.tieCut))

/-- Shaper `n` of a port is reset at the next refill tick; `old` reads the forme before the switch (R351). -/
def shaperResetDue (old : Nat → W32) (s : State) (w : WytheIx) (p n : Nat) : State :=
  let k := shaperKey p n
  if (sfind (s.wy w).press.shaperDue k).isSome then s
  else s.updPress w (fun x => { x with
    shaperDue := sins x.shaperDue k (old (pgPress w p + 0x180 + 4 * n), old (pgPress w p + 0x200 + 4 * n)) })

/-- A port whose MODE changed restarts: its queued frames are dropped, its link trains anew and its shapers are reset (R46, R351,
R408). -/
def portRestart (old : Nat → W32) (s : State) (w : WytheIx) (p : Nat) : State :=
  let s1 := (s.linkFalls w p false false).dropQueued w (fun c => !c.hostq && c.port == p) .portMode
  (s1.updPort w p (fun q => { q with speedMismatch := false })).each (List.range 17) (fun s n => shaperResetDue old s w p n)

/-- A port's gate settings changed (R45, R354). -/
def gateSwitch (s : State) (w : WytheIx) (p : Nat) : State :=
  let pg := pgPress w p
  let g := s.gate w p
  let put := fun (s : State) (g : Gate) => s.updPress w (fun x => { x with gates := sins x.gates p g })
  if !flag (s.stActive (pg + 0x100)) 31 then put s { g with running := false, pending := none }
  else
    let cyc := 8 * (s.stActive (pg + 0x108)).toNat
    let b := (s.stActive (pg + 0x110)).toNat + 2 ^ 32 * (s.stActive (pg + 0x114)).toNat
    let t := s.gptp w
    let b' := if t < b then b else b + cyc * ((t - b) / cyc + 1)
    let entries := (List.range (fld (s.stActive (pg + 0x10C)) 10 0)).map (fun i =>
      let v := s.stActive (pgGcl w (2 * p + i / 512) + 0x100 + 4 * (i % 512))
      (fld v 31 24, 8 * fld v 23 0))
    let s1 := put s { g with pending := some (b', cyc, entries) }
    if b' = b then s1
    else
      let set := fun (m : SMap W32) => sput regReset (sput regReset m (pg + 0x110) (w32 b')) (pg + 0x114) (w32 (b' / 2 ^ 32))
      { s1 with active := set s1.active, staged := set s1.staged }.noteClamp (pg + 0x110) 1

/-- Ports whose gate list changed: its enable, cycle, length, base or an entry in use (R45). -/
def gateKey (view : Nat → W32) (w : WytheIx) (p : Nat) : Bool × List W32 :=
  let pg := pgPress w p
  let n := fld (view (pg + 0x10C)) 10 0
  (flag (view (pg + 0x100)) 31, [view (pg + 0x108), view (pg + 0x10C), view (pg + 0x110), view (pg + 0x114)] ++
    (List.range n).map (fun i => view (pgGcl w (2 * p + i / 512) + 0x100 + 4 * (i % 512))))

/-- What one changed register brings at the switch; `old` reads the forme before it. -/
def switchReg (old : Nat → W32) (s : State) (a : Nat) : State :=
  let o := a % 0x1000
  match pageOf a with
  | none => s
  | some pg =>
    let w := pageWythe pg
    if pg.type = 0x40 ∧ ((0x180 ≤ o ∧ o < 0x1C4) ∨ 0x200 ≤ o) then
      shaperResetDue old s w pg.inst ((if 0x200 ≤ o then o - 0x200 else o - 0x180) / 4)
    else if pg.type = 0x44 then s.updPress w (fun x => { x with meterDue := sins x.meterDue (128 * pg.inst + (o - 0x100) / 16) true })
    else if pg.type = 0x38 ∧ o = 0x100 then portRestart old s w pg.inst
    else if pg.type = 0x30 then s.updCourse w (pg.inst / 8) (fun c => { c with pausing := true })
    else if pg.type = 0x4C then
      s.snapStream w true (128 * pg.inst + (o - 0x100) / 4) (fld (old a) 11 0)
    else s

/-- The images held become the forme's; courses whose Mason image changes pause (R47, R465). -/
def pauseCourses (s : State) (w : WytheIx) : State :=
  s.each (List.range 6) (fun s c =>
    (s.onlyIf ((List.range 8).any (fun k => (s.core w (8 * c + k)).staged != (s.core w (8 * c + k)).locked))
      (fun s => s.updCourse w c (fun k => { k with pausing := true, imageDue := true }))).each (List.range 8)
        (fun s k => s.updCore w (8 * c + k) (fun q => { q with locked := q.staged })))

/-- The FORME_LOCK record and the seal of a wythe (R43, R373). -/
def ledgerLock (s : State) (w : WytheIx) (n prev : W16) (digest : Bytes) : State :=
  (s.record w 1 0 (toBe 2 n.toNat ++ toBe 2 prev.toNat ++ toBe 4 s.forme.lockCount.toNat ++ digest.take 16)).sealReq w 1

/-- One wythe's part of the switch cycle. -/
def switchWythe (before : State) (n : W16) (digest : Bytes) (s : State) (w : WytheIx) : State :=
  let old := (before.wy w).forme
  let s1 := s.updWy w (fun y => { y with
    forme := n, previous := if old = 0 then none else some old, switchAt := s.now, drained := false })
  let s2 := s1.switchTrie w (before.staging w && !(before.tables w).copying)
  let s3 := s2.ledgerLock w n old digest
  let s4 := s3.each [false, true] (fun s d =>
    s.onlyIf (old == 0 || backingChanged w before.stActive before.stStaged d) (fun s => s.relaySwitch w d (old == 0)))
  let s5 := (s4.pauseCourses w).quoinSwitch w
  let s6 := s5.each (List.range 24) (fun s p =>
    s.onlyIf (gateKey before.stActive w p != gateKey before.stStaged w p) (fun s => s.gateSwitch w p))
  s6.updWy w (fun y => { y with sweep := if old == 0 || s6.flightOf w old == 0 then .sweeping else .draining })

/-- The switch cycle of a successful lock-up (R43–R49). -/
def lockUp (s : State) (n : W16) (persist : Bool) (digest : Bytes) : State :=
  let ws := s.joined
  let changed := s.changedRegs
  let s1 : State := { s with
    previous := s.takeCopy s.previous s.active
    active := s.takeCopy s.active s.staged
    forme := { s.forme with
      lockCount := s.forme.lockCount + 1, switchTime := s.gptp 0, lockResult := 0, session := .none, restored := false
      journal := [], refusedImages := [], sweepOn := ws } }
  let s2 := s1.each ws (switchWythe s n digest)
  let s3 := s2.each changed (switchReg s.stActive)
  let s4 := s3.each (changed.map pageBase).eraseDups (fun s pg => s.wr (pg + 0x2C) (w32 n.toNat))
  let s5 := (s4.count (pgForme + 0x40) 1).setForme (fun f => { f with ledgerWait := ws.any s.ledgering })
  let s6 := if wythes.any s.split && !s.tieCut then s5.rejoinComplete else s5
  s6.onlyIf persist (fun s => s.persistStarts n)

/-- LOCK_GO: the number and PERSIST as they stand (R40). -/
def lockWritten (s : State) : State :=
  if s.forme.locking.isSome || s.forme.ledgerWait || !s.enabled pgForme then s
  else
    let v := s.rd (pgForme + 0x108)
    s.setForme (fun f => { f with locking := some (v.setWidth 16, flag v 16) })

/-- LOCKUP_VALIDATION_END: the result, and on success the switch (R42, R43). -/
def validationEnds (s : State) : State :=
  match s.forme.locking with
  | none => s
  | some (n, persist) =>
    let code := s.validate n persist true
    let s1 := s.setForme (fun f => { f with locking := none })
    if code = 0 then (s1.each s1.joined (fun s w => s.flushSession w)).lockUp n persist (sha256 (s.journalBytes s.lockNumber))
    else (s1.setForme (fun f => { f with lockResult := code })).count (pgForme + 0x48) 1

/-! Image loads (R47, R148, R228). -/

/-- A slug's sequence slot still waits for its verdict. -/
def slugLive (s : State) (w : WytheIx) (g : SlugRec) : Bool :=
  match s.collSlot w g.slot with
  | none => false
  | some x => x.serial == g.serial && (x.state == .pending || x.state == .orphan)
/-- A slug of an earlier forme than the active one is with the course, or may still reach it. -/
def oldSlugs (s : State) (w : WytheIx) (c : CourseIx) : Bool :=
  let old := fun (g : SlugRec) => slugForme g != s.formeNo w && s.slugLive w g
  (s.course w c.val).dq.any old || (s.wy w).comp.entries.any (fun e => e.forme != s.formeNo w) ||
  (List.finRange 8).any (fun k => (ctxsOf ⟨w, c, k⟩).any (fun x => (s.slugsAt x).any old))

/-- Write the sections of a core's image: scratchpads of the core, banks of the course (R466). -/
def loadSections (s : State) (k : CoreId) (b : Bytes) : State :=
  s.each (imageSections b) (fun s (e : Nat × Nat × Nat) =>
    s.each (slice b e.2.2 e.2.1).zipIdx (fun s v =>
      let a := e.1 + v.2
      if a < 0x18000 then s.updCore k.w k.ix (fun c => { c with data := sput (undefByte c.undef 2) c.data a v.1 })
      else if a < 0x30000 then s.updCore k.w k.ix (fun c => { c with inst := sput (undefByte c.undef 3) c.inst (a - 0x20000) v.1 })
      else s.setBankBytes k.w k.c.val (a - 0x400000) [v.1]))

/-- A course loads the images its cores hold: every task and context ends, masters are reset, and each core starts (R47, R148, R228,
R323, R540). -/
def loadCourse (s : State) (w : WytheIx) (c : CourseIx) : State :=
  let ks : List CoreId := (List.finRange 8).map (fun k => ⟨w, c, k⟩)
  let s1 := s.each ks (fun s k => ((s.endTasks k).cpReset w c.val (ofCore c k.k)).quoinReset w (ofCore c k.k))
  let s2 := s1.closeOwned w c.val (fun _ => true)
  let s3 := s2.each ks (fun s k => s.updCore w k.ix (fun q => { q with image := q.locked }))
  let s4 := s3.each ks (fun s k => match (s.core w k.ix).image with
    | some m => s.loadSections k m.bytes
    | none => s)
  let s5 := s4.updCourse w c.val (fun q => { q with pausing := false, imageDue := false })
  s5.each ks (fun s k => (s.each (ctxsOf k) (fun s x => s.updCtx x (fun q => { q with bkpt := false }))).startCore k)

/-- COURSE_IMAGE_LOAD: the pause ends once no slug of the old forme is left; where the plan alone changed, nothing is loaded (R47, R175). -/
def imageLoads (s : State) (w : WytheIx) (c : CourseIx) : State :=
  if !(s.course w c.val).pausing || s.oldSlugs w c then s
  else if (s.course w c.val).imageDue then s.loadCourse w c
  else s.updCourse w c.val (fun q => { q with pausing := false })

/-! Drain and sweep (R49, R50). -/

/-- The drain limit expires on a wythe: what is left of the previous forme is discarded (R47, R50, R274). -/
def drainWythe (s : State) (w : WytheIx) (f : W16) : State :=
  let before := s.flightOf w f
  let s1 := s.each (List.range 6) (fun s c => s.updCourse w c (fun k => { k with dq := k.dq.filter (fun g => slugForme g != f) }))
  let pend := (s1.wy w).coll.slots.filter (fun e => e.2.forme == f && e.2.state == .pending)
  let s2 := s1.each pend (fun s e => (s.discardSlot w e.1 e.2.serial).drop w e.2.port .formeDrain)
  let s3 := s2.collDrain w f
  let p := (s3.wy w).press
  let mine := fun (c : Copy) => c.forme == f
  let s4 := s3.updPress w (fun x => { x with
    arrivals := x.arrivals.filter (fun c => !mine c), tieArrivals := x.tieArrivals.filter (fun c => !mine c)
    early := x.early.filter (fun c => !mine c) })
  let s5 := s4.each ((p.arrivals ++ p.tieArrivals ++ p.early).filter mine) (fun s c => s.dropCopy w c .formeDrain none)
  let s6 := s5.dropQueued w mine .formeDrain
  let k := (s6.wy w).tie
  let s7 := s6.updTie w (fun k => { k with txq := k.txq.filter (·.forme != f), rxq := k.rxq.filter (·.forme != f) })
  let s8 := s7.each (k.txq.filter (·.forme == f)) (fun s t => (s.tieOriginal t).drop w t.ingressPort .formeDrain)
  let s9 := s8.each (k.rxq.filter (·.forme == f)) (fun s t => ((s.tieOriginal t).tieFree w t).dropTargets w t .formeDrain)
  let left := s9.flightOf w f
  (s9.count (pgForme + 0x58) (before - left)).updWy w (fun y => { y with drained := true, sweep := .sweeping })

/-- DRAIN_LIMIT_EXPIRY. -/
def drainExpires (s : State) : State :=
  s.each wythes (fun s w =>
    let y := s.wy w
    match y.previous with
    | some f => if y.sweep = .draining ∧ y.switchAt + s.drainLimit ≤ s.now then s.drainWythe w f else s
    | none => s)

/-- SWEEP_START: the last frame of the previous forme has had its buffers freed. -/
def sweepStarts (s : State) (w : WytheIx) : State :=
  let y := s.wy w
  match y.previous with
  | some f => if y.sweep = .draining ∧ s.flightOf w f = 0 then s.updWy w (fun y => { y with sweep := .sweeping }) else s
  | none => s

/-- SWEEP_END: the previous forme ceases to be live; SWEEPS counts one when every wythe of the lock-up has swept. -/
def sweepEnds (s : State) (w : WytheIx) : State :=
  if (s.wy w).sweep ≠ .sweeping then s
  else
    let s1 := (s.sweepTables w).updWy w (fun y => { y with sweep := .idle, previous := none })
    let left := s1.forme.sweepOn.filter (· != w)
    (s1.setForme (fun f => { f with sweepOn := left })).onlyIf (left.isEmpty && s1.forme.sweepOn.contains w)
      (fun s => s.count (pgForme + 0x50) 1)

/-! Restoration (R58–R60, R467). -/

/-- One entry of a forme image enters the staged copies; what is left of the bytes, none when the entry is not known. -/
def applyEntry (s : State) (b : Bytes) : Option (Bytes × State) :=
  match beAt b 0 1 with
  | 1 => some (b.drop 9, s.stageWord (beAt b 1 4) (w32 (beAt b 5 4)))
  | 2 =>
    let tb := beAt b 1 1
    let w : WytheIx := if tb / 16 = 0 then 0 else 1
    let t := tb % 16
    let op := beAt b 2 1
    let n := beAt b 3 1
    let (k, _) := s.journalWords w t op
    let words := beWords (slice b 4 (4 * n))
    let c : WinCmd := ⟨op, 0, true, words.take k, words.drop k, .session⟩
    some (b.drop (4 + 4 * n), if windowOk t && s.staging w then (s.runCmd w t c).2 else s)
  | 3 => some (b.drop 35, s)
  | 4 =>
    let course := beAt b 1 1
    let len := beAt b 3 4
    let img := slice b 7 len
    let (r, s1) := s.verifyImage course img
    some (b.drop (7 + len),
      if r = 0 ∧ imageForm img then s1.holdImage course (beAt b 2 1) img
      else s1.setForme (fun f => { f with refusedImages := sins f.refusedImages course true }))
  | _ => none
def applyEntries : Nat → Bytes → State → State
  | 0, _, s => s
  | n + 1, b, s => match s.applyEntry b with
    | none => s
    | some (rest, s1) => applyEntries n rest s1

/-- Open a session with the slot's number and load its forme as staged writes (R60). -/
def restoreSlot (s : State) (b : Bytes) : State :=
  let img := slice b 0x100 (beAt b 0x0C 4)
  let s1 := (s.sessionOpens (BitVec.ofNat 16 (beAt b 4 2))).each s.joined (fun s w => s.rootCopied w)
  let s2 := applyEntries (beAt img 8 4) (img.drop 16) s1
  s2.setForme (fun f => { f with restored := true, journal := 5 :: slice b 0x10 32 })

/-- The newest valid slot: the larger lock-up count (R60). -/
def newestSlot (s : State) : Option FlashSlot :=
  let a := s.slotAt false
  let b := s.slotAt true
  match s.slotOk a.bytes, s.slotOk b.bytes with
  | true, true => some (if beAt a.bytes 8 4 < beAt b.bytes 8 4 then b else a)
  | true, false => some a
  | false, true => some b
  | false, false => none

end State

/-- OPEN: SESSION_CMD (R33, R65). -/
def execOpenSession (number : W16) (s : State) : Res := .next (s.openWritten number)

/-- PENDING_SESSION_OPEN (R33). -/
def execPendingSessionOpen (s : State) : Res := .next s.pendingOpens

/-- ABANDON (R38). -/
def execAbandon (s : State) : Res := .next s.abandonWritten

/-- CLAMP_CLEAR (R53). -/
def execClampClear (a : Agent) (s : State) : Res := .next (s.viaGlobal a (fun s => s.clampsCleared))

/-- LOCK_GO (R40). -/
def execLockGo (s : State) : Res := .next s.lockWritten

/-- LOCKUP_VALIDATION_END (R42, R43). -/
def execLockupValidationEnd (s : State) : Res := .next s.validationEnds

/-- COURSE_IMAGE_LOAD (R47). -/
def execCourseImageLoad (w : WytheIx) (c : CourseIx) (s : State) : Res := .next (s.imageLoads w c)

/-- DRAIN_LIMIT_EXPIRY (R50). -/
def execDrainLimitExpiry (s : State) : Res := .next s.drainExpires

/-- SWEEP_START (R49). -/
def execSweepStart (w : WytheIx) (s : State) : Res := .next (s.sweepStarts w)

/-- SWEEP_END (R49). -/
def execSweepEnd (w : WytheIx) (s : State) : Res := .next (s.sweepEnds w)

/-- PERSIST_END (R56). -/
def execPersistEnd (flashError : Bool) (s : State) : Res := .next (s.persistEnds flashError)

end Sys2Proof.Machine
end

