-- ==== Sys2Proof/Machine/March.lean ====
section
/-! DEFINITION. The march engines (R310–R315, R329, R332, R333). Engines 0–5 are the courses', engine 6 the block engine. -/

namespace Sys2Proof.Config

/-- UNVERIFIED, safe: what a TCB memory and a wythe's table memories hold after an aborted DESTRUCTIVE march (R329; log 5). -/
opaque freeTcb : Nat → Machine.Tcb
opaque freeTables : Nat → Machine.Tables
/-- UNVERIFIED, safe: what a pool's ring and reference counts in Galley memory hold then (R329; log 5). -/
opaque freePool : Nat → Machine.Pool

end Sys2Proof.Config

namespace Sys2Proof.Machine
namespace State

def march (s : State) (w : WytheIx) (e : Nat) : March := kget {} (s.wy w).marches e
def updMarch (s : State) (w : WytheIx) (e : Nat) (f : March → March) : State :=
  s.updWy w (fun y => { y with marches := kupd {} y.marches e f })

/-- Engine of a target; none for an undefined one (R311). -/
def marchEngine (t : Nat) : Option Nat :=
  if t < 6 then some t else if (0x10 ≤ t ∧ t ≤ 0x16) ∨ t = 0x1F then some 6 else none
/-- STATUSe (R333). -/
def marchWord (result target words : Nat) (lost : Bool) : W32 :=
  w32 (at' result 28 + at' (b2n lost) 27 + at' target 19 + min words 0xFFFF)

/-- A core is idle: disabled, and every context WAITING, STOPPED or FAULTED (R172). -/
def coreIdle (s : State) (w : WytheIx) (i : Nat) : Bool :=
  !s.enabled (pgCore w i) && (List.range 8).all (fun n =>
    let st := (kget {} (s.wy w).ctxs (8 * i + n)).state
    st == .waiting || st == .stopped || st == .faulted)
def banksOn (s : State) (w : WytheIx) (c : Nat) : Bool := (List.range 16).all (fun b => kget .on (s.course w c).bankState b == .on)
/-- May a march of this target begin (R312)? -/
def isolated (s : State) (w : WytheIx) (t : Nat) (preserving : Bool) : Bool :=
  if t < 6 then preserving || (s.banksOn w t && (List.range 8).all (fun k => s.coreIdle w (8 * t + k)))
  else preserving || (s.wy w).mode == .proof

/-- A march completes with a result: DONE, and FAIL for a failure (R315). -/
def marchResult (s : State) (w : WytheIx) (e : Nat) (st : W32) : State :=
  let r := fld st 31 28
  let s1 := (s.updMarch w e (fun m => { m with status := st })).count (pgMarch w + 0x40) 1
  let s2 := s1.raiseBit (pgMarch w) 0
  if r = 2 ∨ r = 3 then (s2.count (pgMarch w + 0x48) 1).raiseBit (pgMarch w) 1 else s2

/-- A march begins; what it finds comes at its end. -/
def marchBegin (s : State) (w : WytheIx) (e t : Nat) (preserving : Bool) : State :=
  s.updMarch w e (fun _ =>
    { running := true, preserving := preserving, target := w32 t, hold := fld (s.rd (pgMarch w + 0x104)) 7 0
      status := marchWord 0xF t 0 false, failAddr := 0 })
/-- A store to MARCH_CMD (R311, R312, R329). -/
def marchStore (s : State) (w : WytheIx) (v : W32) : State :=
  let t := fld v 4 0
  match marchEngine t with
  | none => s.marchResult w 6 (marchWord 7 t 0 false)
  | some e =>
    if !s.enabled (pgMarch w) then s.marchResult w e (marchWord 5 t 0 false)
    else if (s.march w e).running then s.marchResult w e (marchWord 6 t 0 false)
    else if !s.isolated w t (flag v 8) then s.marchResult w e (marchWord 4 t 0 false)
    else s.marchBegin w e t (flag v 8)

/-- The course's banks and the local memories of its cores hold 0 (R310). -/
def zeroCourse (s : State) (w : WytheIx) (c : Nat) : State :=
  (s.updCourse w c (fun k => { k with banks := [], undef := 0 })).each (List.range 8) (fun s k =>
    s.each (List.range 64) (fun s t => s.updTcb w (64 * (8 * c + k) + t) (fun _ => {})) |>.updCore w (8 * c + k) (fun q =>
      { q with data := [], inst := [], undef := 0, icache := [] }))
/-- The rings and reference counts of the pools of Galley memory hold what `v` gives: each of a pool's handles as many places. -/
def setRings (v : Nat → Pool) (pools : SMap Pool) : SMap Pool :=
  pools.map (fun e =>
    let q := e.2
    let held := fun (b : Nat) => let n := kget 0 (v e.1).refs b % 256; if n = 0 then none else some (b, n)
    if q.dram then e
    else (e.1, { q with
      ring := (List.range (q.ring.length + (q.count - q.fresh))).map (fun i => (v e.1).ring.getD i 0), fresh := q.count
      refs := (List.range q.count).filterMap held }))
/-- Galley memory holds 0, or free contents of number `n` (R310, R329); DRAM is no part of it. -/
def setGalleyMem (g : Galley) (n : Nat) : Galley :=
  let dram := fun (h : Nat) => match sfind g.pools (h / 0x1000000) with
    | some p => p.dram
    | none => false
  { g with
    buf := g.buf.filter (fun e => dram (e.1 / 16384)), wipedAt := if n = 0 then g.nextAlloc else g.wipedAt
    pools := setRings (fun p => if n = 0 then {} else Config.freePool (8 * n + p)) g.pools }
/-- A block memory holds 0, or free contents of number `n` where that is not 0 (R310, R329). -/
def setBlock (s : State) (w : WytheIx) (t n : Nat) : State :=
  let v : Tables := if n = 0 then {} else Config.freeTables n
  match t with
  | 0x10 => s.updGalley w (fun g => setGalleyMem g n)
  | 0x11 => s.updTables w (fun k => { k with trie := v.trie })
  | 0x12 => s.updTables w (fun k => { k with learn := v.learn })
  | 0x13 => s.updTables w (fun k => { k with index := v.index, overlay := v.overlay })
  | 0x14 => s.updTables w (fun k => { k with exact := v.exact, acts := v.acts })
  | 0x15 => s.updTables w (fun k => { k with ternary := v.ternary })
  | _ => (s.updColl w (fun k => { k with slots := [], order := [], headSince := [], held := none })).updPress w (fun k =>
      { k with store := [], early := [] })
def blockTargets (t : Nat) : List Nat := if t = 0x1F then (List.range 7).map (· + 0x10) else [t]

/-- A DESTRUCTIVE march has left its target 0. -/
def marchZero (s : State) (w : WytheIx) (t : Nat) : State :=
  if t < 6 then s.zeroCourse w t else s.each (blockTargets t) (fun s b => s.setBlock w b 0)
/-- An aborted DESTRUCTIVE march leaves undefined contents (R329): free values. -/
def marchUndef (s : State) (w : WytheIx) (t : Nat) : State :=
  let n := s.free + 1
  let s1 := { s with free := s.free + 2 }
  if t < 6 then
    (s1.updCourse w t (fun k => { k with banks := [], undef := n })).each (List.range 8) (fun s k =>
      s.each (List.range 64) (fun s i => s.updTcb w (64 * (8 * t + k) + i) (fun _ => Config.freeTcb (4096 * n + 64 * k + i)))
        |>.updCore w (8 * t + k) (fun q => { q with data := [], inst := [], undef := n, icache := [] }))
  else s1.each (blockTargets t) (fun s b => s.setBlock w b n)

/-- How the first bank that is not ON meets the march (R308). -/
def firstNotOn (s : State) (w : WytheIx) (c : Nat) : BankView :=
  match ((List.range 16).map (kget .on (s.course w c).bankState)).find? (· != .on) with
  | some .off => .off
  | some _ => .retained
  | none => .on
/-- Add the soft repairs that a march's failures need, in order: each where its macro has a spare row, of 4, or column, of 2, that neither
fuses nor soft repairs use, up to 256 on the wythe (R314). -/
def addRepairs (w : WytheIx) : List (Nat × Bool) → List (Nat × Bool) → List (Nat × Bool)
  | held, [] => held
  | held, r :: rs =>
    let used := (held.filter (· == r)).length + Config.fuseRepairs w.val r.1 r.2
    addRepairs w (if used < (if r.2 then 2 else 4) ∧ held.length < 256 then held ++ [r] else held) rs

/-- MARCH_END (R314, R315): a march that meets a bank that is not ON ends with NOT_ISOLATED (R308). -/
def marchEnds (s : State) (w : WytheIx) (e : Nat) (f : MarchFinding) : State :=
  let m := s.march w e
  if !m.running then s
  else
    let t := m.target.toNat
    let s1 := s.updMarch w e (fun m => { m with running := false })
    if t < 6 ∧ !s1.banksOn w t then (s1.bankRefused w t (s1.firstNotOn w t)).marchResult w e (marchWord 4 t 0 false)
    else
      let held := (s.wy w).repairs
      let after := addRepairs w held f.repairs
      let made := after.length - held.length
      let covered := made == f.repairs.length
      let bad := decide (0 < f.failWords) || f.lost
      let lost := f.lost && m.preserving
      let s2 := (s1.updWy w (fun y => { y with repairs := after })).onlyIf (made != 0) (fun s => s.count (pgMarch w + 0x50) made)
      let s3 := if m.preserving then s2 else s2.marchZero w t
      let s4 := s3.onlyIf bad (fun s => s.updMarch w e (fun m => { m with failAddr := f.failAddr }))
      s4.marchResult w e (marchWord (if !bad then 1 else if covered then 2 else 3) t f.failWords lost)

/-- CTRL.ABORT (R329). -/
def marchAbortAll (s : State) (w : WytheIx) : State :=
  s.each (List.range 7) (fun s e =>
    let m := s.march w e
    if !m.running then s
    else
      let s1 := s.updMarch w e (fun m => { m with running := false })
      let s2 := if m.preserving then s1 else s1.marchUndef w m.target.toNat
      s2.marchResult w e (marchWord 5 m.target.toNat 0 false))

end State

/-- MARCH_CMD (R311). -/
def execMarchCmd (a : Agent) (w : WytheIx) (value : W32) (s : State) : Res := .next (s.viaPage a w (fun s => s.marchStore w value))
/-- MARCH_END (R315). -/
def execMarchEnd (w : WytheIx) (e : Fin 7) (found : MarchFinding) (s : State) : Res := .next (s.marchEnds w e.val found)

end Sys2Proof.Machine
end

