-- ==== Sys2Proof/Machine/PageCtl.lean ====
section
/-! DEFINITION. CTRL and STATE of the register pages: disable, abort and freeze, by the universal rule and by each block's own
(R448, R449, R451, and R96, R139, R172, R249, R276, R277, R299, R328–R330, R360, R393, R408, R442, R461). -/

namespace Sys2Proof.Machine

/-- The course of a page instance that counts cores (R454). -/
def pageCore (pg : PageId) : CoreId := coreOf (State.pageWythe pg) pg.inst

/-- CTRL bits that hold what is written (R64, R393, R449): ABORT reads 0 once the abort is complete, which is at once (log 32). -/
def ctrlKept (type : Nat) : W32 := if type = 0x03 then 0x15 else if 0x48 ≤ type then 0 else 0xF5

namespace State

/-- Does an access by `a` reach a page? Firmware and JTAG by their own limits (R28, R187, R190, R541; R546's page). -/
def pageReach (s : State) (a : Agent) (pg : PageId) : Bool :=
  if pg.type = 0x07 then s.debugReach a
  else if pg.region = 0 then s.reachGlobal a
  else s.reach a (pageWythe pg)

/-- CTRL.ABORT of the FORME page by the universal rule (R451): a lock-up being validated fails and a persist stops, each counted; the
manual gives neither a result code, so both codes are free (log 5, log 32). -/
def formeAbort (s : State) : State :=
  let (f, s0) := s.draw
  let s1 := if s0.forme.locking.isSome then
      (s0.setForme (fun x => { x with locking := none, lockResult := f.toNat % 256 })).count (pgForme + 0x48) 1
    else s0
  match s1.forme.persist with
  | some p => s1.persistDone p.slotB (3 + f.toNat / 256 % 253)
  | none => s1
/-- CTRL.ABORT of PLINTH_MBOX by the universal rule: the request being served is discarded, and a further one with it. -/
def mboxAbort (s : State) : State := { s with plinth := { s.plinth with req := none, again := false } }

/-- CTRL.ABORT of a page: the work in flight is discarded. -/
def pageAbort (s : State) (pg : PageId) : State :=
  let w := pageWythe pg
  match pg.type with
  | 0x02 => s.mboxAbort
  | 0x03 => s.formeAbort
  | 0x08 => s.qpAbort (Fin.ofNat 64 pg.inst)
  | 0x10 => s.compAbort w
  | 0x13 => s.caseAbortAll w
  | 0x18 => s.tableAbortAll w 1
  | 0x19 => s.tableAbortAll w 2
  | 0x1A => s.tableAbortAll w 3
  | 0x1C => s.galleyAbortMoves w
  | 0x1D => s.collAbort w
  | 0x20 => s.marchAbortAll w
  | 0x21 => s.quoinAbortAll w
  | 0x29 => s.cpAbort w (Fin.ofNat 6 pg.inst)
  | 0x30 => s.abortCore (pageCore pg)
  | 0x38 => if pg.inst < 24 then s.portAbortFifo w pg.inst else s
  | 0x40 => s.dropQueued w (fun c => !c.hostq && c.port == pg.inst) .pressAbort
  | 0x41 => (s.count (pgPressMain w + 0x60) ((s.wy w).press.store.filter (fun c => !c.started)).length).dropQueued w (fun _ => true) .pressAbort
  | _ => s

/-- A write of CTRL of the page at `base` (R449, R451): the abort runs first, then ENABLE, FREEZE_COUNTERS and the block's own bits
are set. What BANKS counts of conflicts is counted first, under the old FREEZE_COUNTERS. A core that was aborted starts again at a later write of ENABLE (R171; DEDUCED, log 32). -/
def ctrlStore (s : State) (pg : PageId) (base : Nat) (v : W32) : State :=
  if 0x48 ≤ pg.type then s
  else
    let s1 := if flag v 1 then s.pageAbort pg else s
    let s2 := if pg.type = 0x03 && flag v 5 then s1.clampsCleared
      else if pg.type = 0x28 then s1.settleConflicts (pageWythe pg) pg.inst else s1
    let s3 := s2.wr (base + 8) (v &&& ctrlKept pg.type)
    if pg.type = 0x30 && flag v 0 && !flag v 1 then s3.enableCore (pageCore pg) else s3
/-- A write to the CTRL register at page base `base` by an agent that reaches it. -/
def ctrlWrite (s : State) (a : Agent) (base : Nat) (v : W32) : State :=
  match pageOf base with
  | some pg => if s.pageReach a pg then s.ctrlStore pg base v else s
  | none => s
/-- ENABLE cleared, with CTRL's other bits as they stand. -/
def ctrlDisable (s : State) (a : Agent) (base : Nat) : State := s.ctrlWrite a base (s.rd (base + 8) &&& 0xFFFFFFFE#32)
/-- ABORT set, with CTRL's other bits as they stand. -/
def ctrlAbort (s : State) (a : Agent) (base : Nat) : State := s.ctrlWrite a base (s.rd (base + 8) ||| 2)

/-- Work remains in flight on a page (R449, R451; DEDUCED where a chapter does not define IDLE, log 32). -/
def pageBusy (s : State) (pg : PageId) : Bool :=
  let w := pageWythe pg
  let y := s.wy w
  match pg.type with
  | 0x02 => s.plinth.req.isSome
  | 0x03 => s.forme.locking.isSome || s.forme.ledgerWait || s.forme.persist.isSome
  | 0x08 => (s.qp (Fin.ofNat 64 pg.inst)).waiting.isSome
  | 0x10 => !y.comp.entries.isEmpty
  | 0x1C => !y.galley.moves.isEmpty || y.galley.pools.any (fun e => e.2.refilling || e.2.spilling)
  | 0x1D => y.coll.slots.any (fun e => e.2.state != .orphan)
  | 0x20 => y.marches.any (fun e => e.2.running)
  | 0x21 => !y.quoin.waits.isEmpty
  | 0x29 => (s.course w pg.inst).places.any (fun e => e.2.state != .done)
  | 0x30 => !(ctxsOf (pageCore pg)).all (fun x =>
      let st := (s.ctx x).state
      st == .waiting || st == .stopped || st == .faulted)
  | 0x38 => (s.receiving w pg.inst).isSome || (sfind y.press.sending pg.inst).isSome
  | 0x40 => (sfind y.press.sending pg.inst).isSome
  | 0x41 => !y.press.store.isEmpty
  | 0x48 => !y.ds.intake.isEmpty || y.ds.sealing.isSome
  | _ => false

/-- Ethernet lanes that a DORMANT device keeps for signal detect (R484). -/
def wakeLane (s : State) (w : WytheIx) (p : Nat) : Bool := flag (s.rd (pgMode + 0x118 + 4 * w.val)) p
/-- POWER (R449; DEDUCED, log 32): memories in retention in DORMANT (R484), lanes powered down in DORMANT and in mode OFF (R399). -/
def pagePower (s : State) (pg : PageId) : Nat :=
  let w := pageWythe pg
  let dormant := (s.wy w).mode == .dormant
  if pg.type = 0x38 ∧ pg.inst < 24 then
    (if fld (s.portCfg w pg.inst) 27 24 = 0 ∨ (dormant ∧ !s.wakeLane w pg.inst) then 2 else 0)
  else if dormant && [0x18, 0x19, 0x1A, 0x1C, 0x28, 0x30, 0x31].contains pg.type then 1 else 0

/-- STATE of a page (R449). -/
def stateWord (s : State) (pg : PageId) (base : Nat) : W32 :=
  let off := !s.enabled base || decide (0x48 ≤ pg.type)
  w32 (at' (s.formeNo (pageWythe pg)).toNat 16 + at' (s.pagePower pg) 2 + at' (b2n (off && s.pageBusy pg)) 1 + b2n (off && !s.pageBusy pg))

end State

/-- FREEZE_COUNTERS (R449). -/
def execFreezeCounters (a : Agent) (addr : Nat) (on : Bool) (s : State) : Res :=
  let b := State.pageBase addr
  .next (s.ctrlWrite a b (setFld (s.rd (b + 8)) 2 2 (b2n on)))
/-- DISABLE (R451). -/
def execDisable (a : Agent) (addr : Nat) (s : State) : Res := .next (s.ctrlDisable a (State.pageBase addr))
/-- ABORT (R451). -/
def execAbort (a : Agent) (addr : Nat) (s : State) : Res := .next (s.ctrlAbort a (State.pageBase addr))
/-- COMPOSITOR_DISABLE (R96). -/
def execCompositorDisable (a : Agent) (w : WytheIx) (s : State) : Res := .next (s.ctrlDisable a (pgComp w))
/-- COMPOSITOR_ABORT (R96). -/
def execCompositorAbort (a : Agent) (w : WytheIx) (s : State) : Res := .next (s.ctrlAbort a (pgComp w))
/-- CASE_ENGINE_DISABLE: CTRL of COMPOSITOR_KEYS (R96). -/
def execCaseEngineDisable (a : Agent) (w : WytheIx) (s : State) : Res := .next (s.ctrlDisable a (pgKeys w))
/-- CASE_ENGINE_ABORT (R96). -/
def execCaseEngineAbort (a : Agent) (w : WytheIx) (s : State) : Res := .next (s.ctrlAbort a (pgKeys w))

/-- The page of table 0 TRIE, 1 LEARN, 2 INDEX. -/
def pgTable (w : WytheIx) (t : Fin 3) : Nat := if t = 0 then pgTrie w else if t = 1 then pgLearn w else pgIndex w
/-- TABLE_DISABLE (R139). -/
def execTableDisable (a : Agent) (w : WytheIx) (t : Fin 3) (s : State) : Res := .next (s.ctrlDisable a (pgTable w t))
/-- TABLE_ABORT (R139). -/
def execTableAbort (a : Agent) (w : WytheIx) (t : Fin 3) (s : State) : Res := .next (s.ctrlAbort a (pgTable w t))
/-- GALLEY_DISABLE (R276). -/
def execGalleyDisable (a : Agent) (w : WytheIx) (s : State) : Res := .next (s.ctrlDisable a (pgGalley w))
/-- GALLEY_ABORT (R276). -/
def execGalleyAbort (a : Agent) (w : WytheIx) (s : State) : Res := .next (s.ctrlAbort a (pgGalley w))
/-- COLLATOR_DISABLE (R277). -/
def execCollatorDisable (a : Agent) (w : WytheIx) (s : State) : Res := .next (s.ctrlDisable a (pgColl w))
/-- COLLATOR_ABORT (R277). -/
def execCollatorAbort (a : Agent) (w : WytheIx) (s : State) : Res := .next (s.ctrlAbort a (pgColl w))
/-- COPROC_DISABLE (R299). -/
def execCoprocDisable (a : Agent) (w : WytheIx) (c : CourseIx) (s : State) : Res := .next (s.ctrlDisable a (pgCoproc w c.val))
/-- COPROC_ABORT (R299). -/
def execCoprocAbort (a : Agent) (w : WytheIx) (c : CourseIx) (s : State) : Res := .next (s.ctrlAbort a (pgCoproc w c.val))
/-- MARCH_DISABLE (R329). -/
def execMarchDisable (a : Agent) (w : WytheIx) (s : State) : Res := .next (s.ctrlDisable a (pgMarch w))
/-- MARCH_ABORT (R329). -/
def execMarchAbort (a : Agent) (w : WytheIx) (s : State) : Res := .next (s.ctrlAbort a (pgMarch w))
/-- QUOIN_DISABLE (R330). -/
def execQuoinDisable (a : Agent) (w : WytheIx) (s : State) : Res := .next (s.ctrlDisable a (pgQuoin w))
/-- QUOIN_ABORT (R330). -/
def execQuoinAbort (a : Agent) (w : WytheIx) (s : State) : Res := .next (s.ctrlAbort a (pgQuoin w))
/-- PRESS_DISABLE: CTRL of PRESS_MAIN (R360). -/
def execPressDisable (a : Agent) (w : WytheIx) (s : State) : Res := .next (s.ctrlDisable a (pgPressMain w))
/-- PRESS_ABORT: CTRL of PRESS_MAIN (R360). -/
def execPressAbort (a : Agent) (w : WytheIx) (s : State) : Res := .next (s.ctrlAbort a (pgPressMain w))
/-- PRESS_PORT_DISABLE (R360). -/
def execPressPortDisable (a : Agent) (w : WytheIx) (p : EthIx) (s : State) : Res := .next (s.ctrlDisable a (pgPress w p.val))
/-- PRESS_PORT_ABORT (R360). -/
def execPressPortAbort (a : Agent) (w : WytheIx) (p : EthIx) (s : State) : Res := .next (s.ctrlAbort a (pgPress w p.val))
/-- PORT_DISABLE (R408). -/
def execPortDisable (a : Agent) (w : WytheIx) (p : EthIx) (s : State) : Res := .next (s.ctrlDisable a (pgPort w p.val))
/-- PORT_ABORT (R408). -/
def execPortAbort (a : Agent) (w : WytheIx) (p : EthIx) (s : State) : Res := .next (s.ctrlAbort a (pgPort w p.val))

end Sys2Proof.Machine
end

