-- ==== Sys2Proof/Machine/Lifecycle.lean ====
section
/-! DEFINITION. Lifecycle tokens, the lifecycle state and tamper (R366, R383, R387–R391, R543). -/

namespace Sys2Proof.Machine

/-- The 192 bytes of a token as written (R388). -/
def tokenBytes (d : Datestone) : Bytes := (List.range 192).map (fun i => sget (fun _ => 0) d.token i)
def tokenOp (t : Bytes) : Nat := beAt t 4 1
def tokenSlot (t : Bytes) : Nat := beAt t 5 1
def tokenMinutes (t : Bytes) : Nat := beAt t 6 2
/-- The public key and METERED_OK of the arguments. -/
def tokenKey (t : Bytes) : Bytes := slice t 0x28 65
def tokenMeteredOk (t : Bytes) : Bool := bitOf (beAt t 0x69 1) 0
/-- BAD_FORMAT: magic, operation, slot, validity, and a public key of the form 0x04 ‖ X ‖ Y (DEDUCED; log 28). -/
def tokenFormOk (t : Bytes) : Bool :=
  let op := tokenOp t
  beAt t 0 4 == 0x544B0001 && decide (1 ≤ op) && decide (op ≤ 6) && (!(op == 4 || op == 5) || decide (tokenSlot t < 8)) &&
    (op != 2 || (decide (1 ≤ tokenMinutes t) && decide (tokenMinutes t ≤ 10080))) &&
    (!(op == 1 || op == 4) || beAt t 0x28 1 == 4)
/-- Lifecycle states in which an operation may run (R387; DEDUCED for the keys and the mask, log 28). -/
def tokenStateOk (op : Nat) (lc : LifeCycle) : Bool :=
  match op with
  | 1 => lc == .blank
  | 2 => lc == .commissioned
  | _ => lc == .commissioned || lc == .service

namespace State

/-- The result code of a token submitted on wythe `w` (R389): the first check that fails. -/
def tokenResult (s : State) (w : WytheIx) (t : Bytes) : Nat :=
  let d := s.ds 0
  let c := d.challenge
  let key := if tokenOp t = 1 then d.rootKey else d.authkey
  if w ≠ 0 then 8
  else if s.tieCut then 7
  else if !tokenFormOk t then 1
  else if slice t 8 16 ≠ uidBytes then 2
  else if !c.valid || slice t 0x18 16 != c.bytes || decide (c.drawnAt + 600000000000 ≤ s.now) then 3
  else if key.isEmpty || !ecdsaVerify key (slice t 0 0x80) (slice t 0x80 64) then 4
  else if !tokenStateOk (tokenOp t) d.lc then 5
  else if tokenOp t = 4 && (sfind d.imageKeys (tokenSlot t)).isSome then 6
  else 0

/-! The lifecycle state (R387). -/

/-- A LIFECYCLE record: old state, new state, cause and digest. -/
def lifecycleRecord (s : State) (w : WytheIx) (old new : LifeCycle) (cause : Nat) (digest : Bytes) : State :=
  s.record w 7 0 (toBe 1 (lcCode old) ++ toBe 1 (lcCode new) ++ toBe 1 cause ++ slice digest 0 16)
/-- The state has changed: the event and the notice. -/
def lifecycleChanged (s : State) (w : WytheIx) : State := (s.raiseBit (pgDate w) 1).notice w 2
/-- SERVICE ends on a wythe (R387, R543). -/
def leaveService (s : State) (w : WytheIx) (cause : Nat) : State :=
  if (s.ds w).lc ≠ .service then s
  else
    let s1 := s.updDs w (fun d => { d with lc := .commissioned })
    ((((s1.lifecycleRecord w .service .commissioned cause []).sealReq w 4).lifecycleChanged w)).debugLeavesService w

/-! What an accepted token does. -/

/-- A Datestone is commissioned: its key pair is generated, its witness counters are cleared and its ledger starts at SEQUENCE 1
(R367, R376, R383, R387, R391). -/
def commissionOne (s : State) (w : WytheIx) (auth digest : Bytes) : State :=
  let (k, s0) := s.drawScalar
  let s1 := s0.each (witAll w) (fun s a => s.setCtr a 0)
  let s2 := s1.updDs w (fun d => { d with
    lc := .commissioned, privkey := k, pubkey := ecPub k, authkey := if w = 0 then auth else d.authkey
    nextSeq := 1, head := head0 w, sealFirst := 1, sealHead := [], sealSeq := 0, ring := [], used := 0, newest := 0, unacked := 0
    clampCount := 0, prevSnap := [], intake := [], missed := [], tamperCfg := 0x0F, fwFloor := 0, brace := {} })
  ((s2.lifecycleRecord w .blank .commissioned 1 digest).sealReq w 4).lifecycleChanged w
/-- SERVICE opens: DEBUG_UNLOCK in place of LIFECYCLE, and the seal. -/
def serviceOne (s : State) (w : WytheIx) (minutes : Nat) (digest : Bytes) : State :=
  let s1 := (s.record w 8 0 (slice digest 0 16 ++ toBe 2 minutes)).sealReq w 4
  (s1.updDs w (fun d => { d with lc := .service, serviceEnd := s.now + minutes * 60000000000 })).lifecycleChanged w
/-- A Datestone retires: after its seal it appends no more, and its private key goes (`attachSeal`). -/
def retireOne (s : State) (w : WytheIx) (digest : Bytes) : State :=
  let old := (s.ds w).lc
  let s1 := (s.lifecycleRecord w old .retired 1 digest).sealReq w 4
  (s1.updDs w (fun d => { d with lc := .retired })).lifecycleChanged w
/-- A change of the image keys, ledgered by a LIFECYCLE record with one state twice (DEDUCED; log 28). -/
def keyOne (s : State) (w : WytheIx) (f : SMap ImageKey → SMap ImageKey) (digest : Bytes) : State :=
  let lc := (s.ds w).lc
  (s.updDs w (fun d => { d with imageKeys := f d.imageKeys })).lifecycleRecord w lc lc 1 digest
/-- A revoked key stays revoked; revoking an empty slot changes no key (DESIGN CHOICE, log 28). -/
def revokeKey (m : SMap ImageKey) (n : Nat) : SMap ImageKey :=
  match sfind m n with
  | some k => sins m n { k with revoked := true }
  | none => m

/-- The effect of an accepted token. -/
def tokenActs (s : State) (t : Bytes) : State :=
  let dg := sha256 t
  match tokenOp t with
  | 1 => s.each wythes (fun s w => s.commissionOne w (tokenKey t) dg)
  | 2 => s.each wythes (fun s w => s.serviceOne w (tokenMinutes t) dg)
  | 3 => s.each wythes (fun s w => s.retireOne w dg)
  | 4 => s.each wythes (fun s w => s.keyOne w (fun m => sins m (tokenSlot t) ⟨tokenKey t, tokenMeteredOk t, false⟩) dg)
  | 5 => s.each wythes (fun s w => s.keyOne w (fun m => revokeKey m (tokenSlot t)) dg)
  | _ => s.each wythes (fun s w => s.updDs w (fun d => { d with tamperCfg := BitVec.ofNat 8 (beAt t 0x28 1) }))

/-- The token submitted on wythe `w` is judged (R389): its challenge is used up, and TOKEN_GO clears with the result. -/
def tokenJudged (s : State) (w : WytheIx) : State :=
  let t := tokenBytes (s.ds w)
  let r := s.tokenResult w t
  let s1 := s.onlyIf (w = 0 || !s.tieCut) (fun s => s.updDs 0 (fun d => { d with challenge := { d.challenge with valid := false } }))
  let s2 := if r = 0 then s1.tokenActs t else s1
  let s3 := s2.updDs w (fun d => { d with tokenGo := false, tokenStatus := r })
  (s3.count (pgDate 0 + if r = 0 then 0x68 else 0x70) 1).raiseBit (pgDate w) 2

/-- A token row: TOKEN_GO is set on a Datestone that has started, and the token is of this row's operation. -/
def tokenRow (s : State) (w : WytheIx) (p : Nat → Bool) : State :=
  let d := s.ds w
  if d.started && d.tokenGo && p (tokenOp (tokenBytes d)) then s.tokenJudged w else s

/-- A write of LC_CMD.LEAVE through the primary's page (R387); while the tie is lost it changes the primary alone. -/
def leaveWritten (s : State) : State :=
  if (s.ds 0).lc = .service then s.each s.joined (fun s w => s.leaveService w 3) else s
/-- The validity has ended; while the tie is lost each Datestone leaves by itself. -/
def serviceExpires (s : State) (w : WytheIx) : State :=
  if (s.ds w).lc = .service ∧ (s.ds w).serviceEnd ≤ s.now then
    s.each (if s.tieCut then [w] else wythes) (fun s v => s.leaveService v 2)
  else s

/-! Tamper (R390, R391). -/

/-- CLOSED_PORTS. -/
def closedPorts (s : State) (w : WytheIx) : Nat := ((List.range 24).map (fun p => at' (b2n (s.tamperClosed w p)) p)).sum
/-- The response to a source: every source acts as LEDGER in BLANK. -/
def closes (s : State) (w : WytheIx) (source : Nat) : Bool := (s.ds w).lc != .blank && (s.ds w).tamperCfg.getLsbD source
/-- A TAMPER record; in OFF it is latched for the next start. -/
def tamperRecord (s : State) (w : WytheIx) (source phase : Nat) (reading : W16) : State :=
  let p := toBe 1 phase ++ toBe 1 (b2n (s.closes w source)) ++ toBe 4 (s.closedPorts w) ++ toBe 2 reading.toNat
  if (s.wy w).mode = .off then
    if s.ledgering w then s.updDs w (fun d => { d with offEvents := d.offEvents ++ [.record 4 source 0 p true 0] }) else s
  else s.record w 4 source p
def sourceBit (source : Nat) : Byte := BitVec.ofNat 8 (2 ^ source)
/-- Every metered Ethernet port closes for a source; copies queued for it are dropped. -/
def closeMetered (s : State) (w : WytheIx) (source : Nat) : State :=
  let ps := (List.range 24).filter (s.meteredPort w)
  let s1 := s.updDs w (fun d => { d with closedBy := ps.foldl (fun m p => sput (fun _ => 0) m p (kget 0 m p ||| sourceBit source)) d.closedBy })
  s1.dropQueued w (fun c => !c.hostq && ps.contains c.port) .tamperClosed
/-- An assertion. -/
def tamperAsserts (s : State) (w : WytheIx) (source : Nat) (reading : W16) : State :=
  if !s.modes.vkeep || (s.ds w).tamperActive.getLsbD source then s
  else
    let s1 := s.updDs w (fun d => { d with
      tamperActive := d.tamperActive ||| sourceBit source, tamperLatched := d.tamperLatched ||| sourceBit source })
    let s2 := s1.onlyIf (s.closes w source) (fun s => s.closeMetered w source)
    ((s2.tamperRecord w source 1 reading).count (pgDate w + 0x78) 1).onlyIf ((s.wy w).mode != .off) (fun s => s.raiseBit (pgDate w) 0)
/-- A clearing. -/
def tamperClears (s : State) (w : WytheIx) (source : Nat) (reading : W16) : State :=
  if !s.modes.vkeep || !(s.ds w).tamperActive.getLsbD source then s
  else (s.updDs w (fun d => { d with tamperActive := d.tamperActive &&& ~~~sourceBit source })).tamperRecord w source 0 reading
/-- A reopening of one source whose condition has cleared; a port opens when no source keeps it closed. -/
def tamperReopens (s : State) (w : WytheIx) (source : Nat) : State :=
  if (s.ds w).tamperActive.getLsbD source
      || !((s.ds w).tamperLatched.getLsbD source || (List.range 24).any (fun p => (kget 0 (s.ds w).closedBy p).getLsbD source)) then s
  else
    let s1 := s.updDs w (fun d => { d with
      tamperLatched := d.tamperLatched &&& ~~~sourceBit source
      closedBy := (List.range 24).foldl (fun m p => sput (fun _ => 0) m p (kget 0 m p &&& ~~~sourceBit source)) d.closedBy })
    s1.tamperRecord w source 2 0
def tamperReopenAll (s : State) (w : WytheIx) (mask : Byte) : State :=
  s.each ((List.range 8).filter mask.getLsbD) (fun s n => s.tamperReopens w n)

/-- LINKED (R527), and what R543 asks when the secondary leaves SERVICE with it. -/
def linksUp (s : State) : State :=
  let s1 := s.tieLinks
  s1.onlyIf ((s.ds 1).lc == .service && (s1.ds 1).lc == .commissioned) (fun s => s.debugLeavesService 1)

end State

/-- COMMISSION (R387); a token whose operation is none of R388 fails here with BAD_FORMAT. -/
def execCommission (w : WytheIx) (s : State) : Res := .next (s.tokenRow w (fun op => op == 1 || op == 0 || decide (6 < op)))
/-- ENTER_SERVICE (R387). -/
def execEnterService (w : WytheIx) (s : State) : Res := .next (s.tokenRow w (fun op => op == 2))
/-- RETIRE (R387). -/
def execRetire (w : WytheIx) (s : State) : Res := .next (s.tokenRow w (fun op => op == 3))
/-- ADD_IMAGE_KEY (R383, R388). -/
def execAddImageKey (w : WytheIx) (s : State) : Res := .next (s.tokenRow w (fun op => op == 4))
/-- REVOKE_IMAGE_KEY (R383, R388). -/
def execRevokeImageKey (w : WytheIx) (s : State) : Res := .next (s.tokenRow w (fun op => op == 5))
/-- SET_TAMPER (R388, R391). -/
def execSetTamper (w : WytheIx) (s : State) : Res := .next (s.tokenRow w (fun op => op == 6))
/-- LEAVE (R387). -/
def execLeave (a : Agent) (s : State) : Res := .next (s.viaPage a 0 State.leaveWritten)
/-- SERVICE_EXPIRY (R387). -/
def execServiceExpiry (w : WytheIx) (s : State) : Res := .next (s.serviceExpires w)
/-- TAMPER_ASSERT (R390, R391). -/
def execTamperAssert (w : WytheIx) (source : Fin 8) (reading : W16) (s : State) : Res := .next (s.tamperAsserts w source.val reading)
/-- TAMPER_CLEAR (R390). -/
def execTamperClear (w : WytheIx) (source : Fin 8) (reading : W16) (s : State) : Res := .next (s.tamperClears w source.val reading)
/-- TAMPER_REOPEN (R391). -/
def execTamperReopen (a : Agent) (w : WytheIx) (mask : Byte) (s : State) : Res := .next (s.viaPage a w (fun s => s.tamperReopenAll w mask))
/-- LINKED (R527, R528, R543). -/
def execLinked (s : State) : Res := .next s.linksUp

end Sys2Proof.Machine
end

