-- ==== Sys2Proof/Machine/Reset.lean ====
section
/-! DEFINITION. Resets, what the VKEEP domain keeps across them, and kept settings (R59, R62, R479, R480, R551–R553). -/

namespace Sys2Proof.Machine

/-- What a Datestone keeps across a reset: its retention SRAM, its key store and its counters (R367, R480). TAMPER_STATE.LATCHED,
tokens, challenges and requests not yet appended go. -/
def keptDatestone (d : Datestone) : Datestone :=
  { d with
    started := false, fwRejected := false, fwVersion := 0, fwCopyB := false, fwARejected := false, rootKey := [], restored := false
    intake := [], missed := [], sealing := none, window := [], challenge := {}, token := [], tokenGo := false, tokenStatus := 0
    tamperLatched := 0 }

/-- Mode codes back to modes, as MODE.LAST is kept. -/
def forwards (m : DevMode) : Bool := m == .run || m == .plumb

/-- The DELAY registers, kept at each training and at large moves (R430, R433). -/
def isDelay (a : Nat) : Bool :=
  match pageOf a with
  | some pg => pg.type == 0x22 && decide (0x120 ≤ a % 0x1000) && decide (a % 0x1000 < 0x130)
  | none => false
/-- How a stored register is kept. -/
def accOf (a : Nat) : Option Acc := (regDesc a).map (·.acc)
/-- TIME_CFG, of which SRC alone is kept (R424). -/
def isTimeCfg (a : Nat) : Bool := a == pgTime 0 + 0x100 || a == pgTime 1 + 0x100

namespace State

/-! Kept settings (R59). -/

/-- The kept settings as they stand, for the Keep store: an unlisted one holds its default. -/
def keepNow (s : State) : SMap W32 :=
  let k0 := s.keep.filter (fun e => isDelay e.1)
  let k1 := s.regs.foldl (fun m (e : Nat × W32) =>
    if isTimeCfg e.1 then sput regReset m e.1 (setFld (regReset e.1) 30 30 (fld e.2 30 30))
    else if accOf e.1 = some .kept ∧ !datestonePage (pageBase e.1) then sput regReset m e.1 e.2 else m) k0
  s.active.foldl (fun m (e : Nat × W32) => if accOf e.1 = some .stKept then sput regReset m e.1 e.2 else m) k1
/-- Kept state is written to the Keep store (R486, R508). -/
def saveKeep (s : State) : State := { s with keep := s.keepNow, modes := { s.modes with keepLast := s.modes.last } }
/-- One kept setting returns to its register. -/
def restoreOne (s : State) (e : Nat × W32) : State :=
  if isTimeCfg e.1 || accOf e.1 = some .kept then s.wr e.1 e.2
  else if accOf e.1 = some .stKept then
    { s with staged := sput regReset s.staged e.1 e.2, active := sput regReset s.active e.1 e.2 }
  else s
/-- Bank power states and the clock sources follow their kept settings. -/
def applyKept (s : State) : State :=
  let s1 := s.each wythes (fun s w => s.updClock w (fun c => { c with srcActive := flag (s.rd (pgTime w + 0x100)) 30 }))
  s1.each wythes (fun s w => s.each (List.range 6) (fun s c =>
    let v := s.rd (pgBanks w c + 0x100)
    s.updCourse w c (fun k => { k with bankState := (List.range 16).filterMap (fun b => match fld v (2 * b + 1) (2 * b) with
      | 0 => none
      | 1 => some (b, BankState.retention)
      | _ => some (b, BankState.off)) })))
def restoreKept (s : State) : State := (s.each s.keep restoreOne).applyKept

/-! Resets (R479, R480). -/

/-- Counters that a reset keeps: the K counters of the Datestones (R367, R394, R396). -/
def keptCounter (a : Nat) : Bool := datestonePage (pageBase a) && a != pgLedger 0 + 0x48 && a != pgLedger 1 + 0x48
/-- A wythe after a reset: what the VKEEP domain holds for it; PROOF until the start has run. The active root is that of
the lock-up count's parity (R37). -/
def resetWythe (lockCount : W32) (now : Nat) (y : Wythe) : Wythe :=
  { ds := keptDatestone y.ds, repairs := y.repairs, tables := { root1 := flag lockCount 0, epochStart := now }, conflictAt := List.replicate 6 now }
/-- The device after a reset (R480): the VKEEP domain, the boot flash slots, and the pins' levels are kept. -/
def deviceReset (s : State) : State :=
  { pending := s.pending, free := s.free, now := s.now, out := s.out, readData := s.readData
    regs := s.regs.filter (fun e => e.1 == pgLedger 0 + 0x114 || e.1 == pgLedger 1 + 0x114)
    counters := s.counters.filter (fun e => keptCounter e.1)
    keep := s.keep
    forme := { flash := s.forme.flash, lockCount := s.forme.lockCount }
    modes := { keepLast := s.modes.keepLast, abandoned := s.modes.abandoned, gpioIn := s.modes.gpioIn, pwrfailN := s.modes.pwrfailN,
               railsUp := s.modes.railsUp, vkeep := s.modes.vkeep, keepValid := s.modes.keepValid, causes := s.modes.causes }
    proof := { record := s.proof.record, recordAon := s.proof.recordAon, recordSig := s.proof.recordSig, braceDone := s.proof.braceDone,
               powerReturned := s.proof.powerReturned, imageDone := s.proof.imageDone, braceMicros := s.proof.braceMicros
               braces := s.proof.braces }
    w0 := resetWythe s.forme.lockCount s.now s.w0, w1 := resetWythe s.forme.lockCount s.now s.w1 }
/-- A shut-down that has not reached DONE is abandoned (R487). -/
def shutdownCut (s : State) : State :=
  { s with modes := { s.modes with abandoned := s.modes.abandoned || (s.modes.shutdown != .idle && s.modes.shutdown != .done) } }
/-- The device is powered: its rails are up and it has not fallen to OFF. -/
def powered (s : State) : Bool := s.modes.railsUp && s.w0.mode != .off
/-- A reset with a cause code of R479; a Brace under way runs to its completion first (R508). -/
def resetWith (s : State) (code : Nat) : State :=
  if !s.powered || s.proof.bracing then s
  else
    let s1 := s.shutdownCut.deviceReset
    { s1 with modes := { s1.modes with causes := s1.modes.causes ||| 2 ^ (code - 1) } }

/-- The device in OFF: everything but the VKEEP domain and the flash has lost its power (R553). -/
def railsFall (s : State) : State :=
  if !s.modes.railsUp then s
  else
    let s1 := s.shutdownCut.deviceReset
    let s2 := s1.each wythes (fun s w => s.updWy w (fun y => { y with mode := .off }))
    { s2 with modes := { s2.modes with railsUp := false, startDue := false, causes := 0, pwrfailN := s.modes.pwrfailN } }
/-- The main rails rise (R479, R551): cause POWER_ON while VKEEP held; the start waits for RESET_N to be released. -/
def railsRise (s : State) : State :=
  if s.modes.railsUp then s
  else
    let s1 := s.each wythes (fun s w => s.updWy w (fun y => { y with mode := .proof }))
    { s1 with modes := { s1.modes with railsUp := true, startDue := true, vkeep := true, causes := if s.modes.keepValid then 2 else 0 } }

/-- What VKEEP's loss takes from a Datestone: its retention SRAM and ledger ring, and what is latched there. The OTP keys, the
lifecycle state and the monotonic counters stay (DEDUCED; log 30); TAMPER_CFG is then not stated (log 5). -/
def lostDatestone (d : Datestone) (cfg : Byte) (now : Nat) : Datestone :=
  { d with
    started := false, intake := [], missed := [], sealing := none, ring := [], used := 0, newest := 0, unacked := 0, nextSeq := 0
    head := [], sealFirst := 0, sealHead := [], sealSeq := 0, clampCount := 0, prevSnap := [], window := [], tamperCfg := cfg
    tamperActive := 0, tamperLatched := 0, offEvents := [], closedBy := [], aonZero := now }
/-- VKEEP_LOSS (R59, R367, R506, R552): the Keep store, the kept Proof record, the retention SRAM and the witness counters are lost. -/
def vkeepFalls (s : State) : State :=
  let (f0, s1) := s.draw
  let (f1, s2) := s1.draw
  let s3 := (s2.updDs 0 (fun d => lostDatestone d (f0.setWidth 8) s.now)).updDs 1 (fun d => lostDatestone d (f1.setWidth 8) s.now)
  let s4 := s3.each wythes (fun s w => s.updWy w (fun y => { y with repairs := [] }))
  { s4 with
    keep := [], counters := s4.counters.filter (fun e => !keptCounter e.1)
    regs := s4.regs.filter (fun e => e.1 != pgLedger 0 + 0x114 && e.1 != pgLedger 1 + 0x114)
    modes := { s4.modes with vkeep := false, keepValid := false, keepLast := .setting, abandoned := false }
    proof := { s4.proof with
      record := [], recordAon := 0, recordSig := [], braceDone := false, powerReturned := false, imageDone := false, braceMicros := 0
      braces := 0 } }

end State

/-- RESET_N (R479, R480, R483): asserted while the rails are in range. -/
def execResetN (s : State) : Res := .next (s.resetWith 5)
/-- RESET_CMD (R490): acts when KEY is 0xA55A and RESET is 1. -/
def execResetCmd (a : Agent) (value : W32) (s : State) : Res :=
  .next (s.viaGlobal a (fun s => if fld value 31 16 = 0xA55A ∧ flag value 0 then s.resetWith 6 else s))
/-- SUPPLY (R479, R549): a core rail below its minimum while PWRFAIL_N is high. -/
def execSupply (s : State) : Res := .next (if s.modes.pwrfailN then s.resetWith 4 else s)
/-- POWER_ON (R479, R551). -/
def execPowerOn (s : State) : Res := .next s.railsRise
/-- MAIN_RAILS_FALL (R553). -/
def execMainRailsFall (s : State) : Res := .next s.railsFall
/-- VKEEP_LOSS (R59, R552). -/
def execVkeepLoss (s : State) : Res := .next s.vkeepFalls

end Sys2Proof.Machine
end

