-- ==== Sys2Proof/Machine/Modes.lean ====
section
/-! DEFINITION. Modes: requests, closing the outputs, DORMANT, and orderly shut-down (R473–R478, R484–R491); the beginning and the
end of a Proof, and Brace (chapter 18). -/

namespace Sys2Proof.Machine

/-- Modes by their codes (R473). -/
def modeOf : Nat → DevMode
  | 0 => .off | 1 => .proof | 2 => .setting | 3 => .run | 4 => .plumb | 5 => .half | 6 => .brace | _ => .dormant

/-- The mode that a request leads to from the current one (R475); DORMANT's row is for the woken mode. -/
def legalStep (cur req : DevMode) (forme : Bool) : DevMode :=
  if req = .off ∨ req = .half ∨ req = .brace then cur
  else match cur with
    | .setting => if (req = .run ∨ req = .plumb) ∧ !forme then .setting else req
    | .run => if req = .proof then .setting else req
    | .plumb => if req = .proof then .setting else req
    | m => m

namespace State

def setModes (s : State) (f : Modes → Modes) : State := { s with modes := f s.modes }
def setProof (s : State) (f : Proof → Proof) : State := { s with proof := f s.proof }
/-- The device's mode as the table of R475 takes it: HALF while either wythe is in HALF. -/
def curMode (s : State) : DevMode := if s.w0.mode = .half ∨ s.w1.mode = .half then .half else s.w0.mode
/-- A mode change is in progress (R476, R489). -/
def changing (s : State) : Bool := s.modes.change != .none || s.modes.requestWaiting
/-- The GPIO of SHUTDN_CFG is driven high when ACK_EN is 1. -/
def driveAck (s : State) : State := s.setModes (fun m => { m with ackHigh := flag (s.rd (pgSystem + 0x110)) 7 })

/-! A Proof begins (R492, R499). -/

def proofBegins (s : State) (why : Occasion) (parts : Nat) : State :=
  let s1 := s.each wythes (fun s w => s.enterMode w .proof)
  s1.setProof (fun p => { p with running := true, occasion := why, parts := parts })

/-! Orderly shut-down (R486). -/

/-- Both attachments of the shut-down's seals are written, or none was asked for. -/
def sealsDone (s : State) : Bool :=
  wythes.all (fun w => (s.ds w).sealing.isNone && !(s.ds w).intake.any (fun r => match r with
    | .seal _ _ => true
    | .record _ _ _ _ _ _ => false))
/-- Step 4, once the attachments are written. -/
def shutdownProves (s : State) : State :=
  if s.modes.shutdown = .sealing ∧ s.sealsDone then
    (s.setModes (fun m => { m with shutdown := .proving })).proofBegins .shutdown 7
  else s
/-- Steps 2 and 3, once the outputs are closed. -/
def shutdownSaves (s : State) : State :=
  let s1 := s.saveKeep.each wythes (fun s w => s.sealReq w 3)
  (s1.setModes (fun m => { m with shutdown := .sealing })).shutdownProves
/-- Step 5. -/
def shutdownDone (s : State) : State :=
  ((s.setModes (fun m => { m with shutdown := .done })).driveAck.count (pgMode + 0x58) 1).raiseBit pgMode 2

/-! DORMANT (R484). -/

/-- A bank that BANK_POWER sets ON. -/
def bankSetOn (s : State) (w : WytheIx) (c b : Nat) : Bool := fld (s.rd (pgBanks w c + 0x100)) (2 * b + 1) (2 * b) == 0
/-- Banks set ON take a state; the others keep theirs. -/
def onBanks (s : State) (w : WytheIx) (st : BankState) : State :=
  s.each (List.range 6) (fun s c => s.each (List.range 16) (fun s b =>
    s.onlyIf (s.bankSetOn w c b) (fun s => s.updCourse w c (fun k => { k with
      bankState := if st = .on then kdel k.bankState b else sins k.bankState b st }))))
/-- Steps 2 to 5, the outputs closed: banks go to retention, DRAM to self-refresh, lanes and the tie power down. -/
def dormantEnters (s : State) : State :=
  let from_ := s.w0.mode
  let s1 := s.each wythes (fun s w =>
    let s1 := (s.enterMode w .dormant).onBanks w .retention
    let s2 := s1.each (List.range 4) (fun s c => s.updCh w c (fun h => { h with selfRefresh := true }))
    let s3 := s2.each (List.range 24) (fun s p => s.linkFalls w p false false)
    s3.updTie w (fun k => { k with state := .down, retraining := false }))
  (s1.setModes (fun m => { m with dormantFrom := from_ })).count (pgMode + 0x50) 1
/-- The outputs open (R477). -/
def openOutputs (s : State) (w : WytheIx) : State := s.updWy w (fun y => { y with outputsClosed := false })

/-! Closing the outputs (R477). -/

/-- Frames already taken in have completed their path, and the descriptor store is empty. -/
def pathEmpty (s : State) (w : WytheIx) : Bool :=
  let y := s.wy w
  y.coll.flights.isEmpty && y.comp.entries.isEmpty && y.rx.all (·.refused) && y.press.store.isEmpty && y.press.arrivals.isEmpty &&
    y.press.tieArrivals.isEmpty && y.press.early.isEmpty && y.tie.txq.isEmpty && y.tie.rxq.isEmpty
/-- A request was clamped (R475). -/
def requestClamped (s : State) (m : DevMode) : State :=
  (((s.wr (pgMode + 0x104) (w32 (modeCode m))).noteClamp (pgMode + 0x104) 1).count (pgMode + 0x48) 1).raiseBit pgMode 1
/-- Both wythes' outputs are closed: the change goes on to its target. A wythe that has fallen to HALF meanwhile returns to the target
later, and DORMANT is not entered (R485). -/
def closed (s : State) (target : DevMode) : State :=
  let s1 := s.setModes (fun m => { m with change := .none })
  match target with
  | .dormant =>
    if s1.curMode = .half then
      (s1.each wythes (fun s w => s.onlyIf (forwards (s.wy w).mode || forwards (s.wy w).returnMode) (fun s => s.openOutputs w))).requestClamped .half
    else s1.dormantEnters
  | .proof => s1.shutdownSaves
  | _ => s1.each wythes (fun s w => if (s.wy w).mode = .half then s.updWy w (fun y => { y with returnMode := .setting }) else s.enterMode w .setting)
/-- The outputs begin to close on the way to a mode. -/
def closeFor (s : State) (target : DevMode) : State :=
  if s.w0.outputsClosed && s.w1.outputsClosed then s.closed target
  else s.setModes (fun m => { m with change := .closing target s.now })

/-! Requests (R475, R476). -/

/-- The device moves one legal step from the mode it is in. -/
def goMode (s : State) (cur target : DevMode) : State :=
  if cur = target then s
  else match target with
    | .proof => s.proofBegins .request (fld (s.rd (pgProof + 0x100)) 2 0)
    | .run => s.each wythes (fun s w => (s.enterMode w .run).openOutputs w)
    | .plumb => s.each wythes (fun s w => (s.enterMode w .plumb).openOutputs w)
    | .setting => s.closeFor .setting
    | .dormant => s.closeFor .dormant
    | _ => s
/-- The request as REQUEST stands is applied; one that leads elsewhere is clamped, as is each while refused firmware holds the device
(R385). -/
def applyRequest (s : State) : State :=
  let req := modeOf (fld (s.rd (pgMode + 0x104)) 2 0)
  let cur := s.curMode
  let s1 := s.setModes (fun m => { m with requestWaiting := false })
  let t := if s.fwHeld then cur else legalStep cur req (s.formeNo 0 != 0)
  (if t = req then s1 else s1.requestClamped t).goMode cur t

/-- A shut-down begins: at once, or when the change, the Proof, the start or DORMANT under way has ended; a second start is ignored. -/
def shutdownStarts (s : State) : State :=
  let m := s.curMode
  if s.modes.shutdown ≠ .idle ∨ m = .off ∨ m = .brace then s
  else if s.modes.change ≠ .none ∨ s.proof.running ∨ s.modes.startDue ∨ m = .dormant then s.setModes (fun m => { m with shutdownDue := true })
  else (s.setModes (fun m => { m with shutdown := .closing, abandoned := false, shutdownDue := false, requestWaiting := false })).closeFor .proof
/-- A request written in DORMANT wakes the device where DOORBELL_WAKE allows that (R484). -/
def requestWakes (s : State) (code : Nat) : Bool := modeOf (code % 8) != .dormant && flag (s.rd (pgMode + 0x114)) 31
/-- A mode change, a Proof or a wake has ended: what waited for it is applied. -/
def changeEnds (s : State) : State :=
  if s.modes.shutdownDue then s.shutdownStarts
  else if !s.modes.requestWaiting || (s.w0.mode == .dormant && s.requestWakes (fld (s.rd (pgMode + 0x104)) 2 0)) then s
  else s.applyRequest
/-- A mode is requested by a write of REQUEST; it waits for a change in progress to end, and in DORMANT for the wake that it brings. -/
def requestMode (s : State) (code : Nat) : State :=
  let s1 := s.wr (pgMode + 0x104) (w32 (code % 8))
  if s.changing || (s.w0.mode == .dormant && s.requestWakes code) then s1.setModes (fun m => { m with requestWaiting := true }) else s1.applyRequest
/-- OUTPUTS_CLOSED: a wythe's path is empty, or DRAIN_LIMIT has expired and the remaining copies are dropped (R477). -/
def outputsClose (s : State) (w : WytheIx) : State :=
  match s.modes.change with
  | .none => s
  | .closing target since =>
    if (s.wy w).outputsClosed || !(s.pathEmpty w || decide (since + s.drainLimit ≤ s.now)) then s
    else
      let s1 := (s.dropQueued w (fun _ => true) .portDown).updWy w (fun y => { y with outputsClosed := true })
      if s1.w0.outputsClosed && s1.w1.outputsClosed then (s1.closed target).changeEnds else s1

/-! Waking (R484, R520). -/

/-- The event of a wake cause may wake the device. -/
def wakeAllowed (s : State) (cause index : Nat) : Bool :=
  match cause with
  | 1 => decide (index < 48) && flag (s.rd (pgMode + 0x118 + 4 * (index / 24))) (index % 24)
  | 2 => flag (s.rd (pgMode + 0x114)) 31
  | 3 => decide (index < 16) && flag (s.rd (pgMode + 0x114)) index && fld (s.rd (pgSystem + 0x12C)) (2 * index + 1) (2 * index) != 0
  | 4 => s.modes.shutdownDue
  | 5 => s.modes.requestWaiting
  | _ => false
/-- WAKE: the device re-enters the mode from which it came; a tie that fails to train puts each wythe in HALF. -/
def wakes (s : State) (cause index : Nat) (tieTrains : Bool) : State :=
  if s.w0.mode ≠ .dormant || !s.wakeAllowed cause index then s
  else
    let m := s.modes.dormantFrom
    let s1 := s.each wythes (fun s w =>
      let s1 := (s.onBanks w .on).each (List.range 4) (fun s c => s.updCh w c (fun h => { h with selfRefresh := false }))
      let s2 := s1.enterMode w m
      (if forwards m then s2.openOutputs w else s2).updTie w (fun k => { k with state := .up }))
    let s2 := s1.onlyIf (!tieTrains) (fun s => s.each wythes (fun s w => s.loseTie w .tieLost))
    let i := if cause = 1 ∨ cause = 3 then index else 0
    ((s2.setModes (fun m => { m with wakeCause := cause, wakeIndex := i })).raiseBit pgMode 3).changeEnds

/-! GPIO (R490). -/

/-- GPIO_EDGE selects this edge. -/
def edgeSelected (s : State) (g : Nat) (rising : Bool) : Bool :=
  bitOf (fld (s.rd (pgSystem + 0x12C)) (2 * g + 1) (2 * g)) (if rising then 0 else 1)
/-- An edge on a pin. -/
def gpioMoves (s : State) (g : Nat) (rising : Bool) : State :=
  if !s.powered || s.modes.gpioIn.getLsbD g == rising then s
  else
    let bit := BitVec.ofNat 16 (2 ^ g)
    let s1 := s.setModes (fun m => { m with gpioIn := if rising then m.gpioIn ||| bit else m.gpioIn &&& ~~~bit })
    if !s1.edgeSelected g rising then s1
    else (s1.raiseBit pgSystem 0).each s1.joined (fun s w => (s.postBindings w 4 g).interruptEnabled w 5)

end State

/-- REQUEST_PROOF (R475). -/
def execRequestProof (a : Agent) (s : State) : Res := .next (s.viaGlobal a (fun s => s.requestMode 1))
/-- REQUEST_SETTING (R475). -/
def execRequestSetting (a : Agent) (s : State) : Res := .next (s.viaGlobal a (fun s => s.requestMode 2))
/-- REQUEST_RUN (R475). -/
def execRequestRun (a : Agent) (s : State) : Res := .next (s.viaGlobal a (fun s => s.requestMode 3))
/-- REQUEST_PLUMB (R475). -/
def execRequestPlumb (a : Agent) (s : State) : Res := .next (s.viaGlobal a (fun s => s.requestMode 4))
/-- REQUEST_DORMANT (R475). -/
def execRequestDormant (a : Agent) (s : State) : Res := .next (s.viaGlobal a (fun s => s.requestMode 7))
/-- REQUEST_OFF (R475). -/
def execRequestOff (a : Agent) (s : State) : Res := .next (s.viaGlobal a (fun s => s.requestMode 0))
/-- REQUEST_HALF (R475). -/
def execRequestHalf (a : Agent) (s : State) : Res := .next (s.viaGlobal a (fun s => s.requestMode 5))
/-- REQUEST_BRACE (R475). -/
def execRequestBrace (a : Agent) (s : State) : Res := .next (s.viaGlobal a (fun s => s.requestMode 6))
/-- OUTPUTS_CLOSED (R477). -/
def execOutputsClosed (w : WytheIx) (s : State) : Res := .next (s.outputsClose w)
/-- WAKE (R484). -/
def execWake (cause : BitVec 4) (index : BitVec 6) (tieTrains : Bool) (s : State) : Res := .next (s.wakes cause.toNat index.toNat tieTrains)
/-- SHUTDN_REQ: a rising edge held high for 10 µs (R486, R554). -/
def execShutdnReq (s : State) : Res := .next (if s.powered then s.shutdownStarts else s)
/-- SHUTDOWN_START: a write of 1 to MODE.SHUTDOWN.START (R486). -/
def execShutdownStart (a : Agent) (s : State) : Res := .next (s.viaGlobal a (fun s => s.shutdownStarts))
/-- GPIO_EDGE (R490). -/
def execGpioEdge (g : Fin 16) (rising : Bool) (s : State) : Res := .next (s.gpioMoves g.val rising)

end Sys2Proof.Machine
end

