-- ==== Sys2Proof/Machine/ProofBrace.lean ====
section
/-! DEFINITION. Proof and Brace (chapter 18), and what a Proof's end and a seal's attachment bring to a shut-down (R486). -/

namespace Sys2Proof.Machine

/-- Bits of the failed-block mask (R504): a quad's failure shows in bit 13 of its wythe. -/
def failedMask (f : ProofFinding) : W32 :=
  (f.failed &&& 0xDFFFDFFF#32) ||| (if f.quads.toNat % 64 = 0 then 0 else 0x2000) ||| (if f.quads.toNat / 64 = 0 then 0 else 0x20000000)
/-- The block logic of a wythe has failed: bits 6 to 11 or 15 (R504). -/
def logicFailed (m : W32) (w : WytheIx) : Bool := fld m (16 * w.val + 11) (16 * w.val + 6) != 0 || flag m (16 * w.val + 15)
def courseFailed (m : W32) (w : WytheIx) (c : Nat) : Bool := flag m (16 * w.val + c)
def dramFailed (m : W32) (w : WytheIx) : Bool := flag m (16 * w.val + 12)
/-- The parts of a Proof that have ended when its `v`-th part is cut short: they run in the order of their bits (R492, R497). -/
def partsRun (parts v : Nat) : Nat :=
  let ps := (List.range 3).filter (bitOf parts)
  parts % 2 ^ ps.getD (v % max 1 ps.length) 0
/-- Results of R503. -/
def proofResult (f : ProofFinding) : Nat := if failedMask f != 0 then 2 else if f.repaired then 1 else 0

namespace State

/-! The end of a Proof (R500–R505). -/

/-- Seconds that the always-on counter shows (R505). -/
def aonSeconds (s : State) : Nat := (s.now - (s.ds 0).aonZero) / 1000000000
/-- The payload of a PROOF record (R503). -/
def proofPayload (result occasion parts : Nat) (mask : W32) (duration : W32) (temp : W16) : Bytes :=
  let logic := parts % 2 == 1
  toBe 1 result ++ toBe 1 occasion ++ toBe 4 mask.toNat ++ toBe 2 (if logic then 960 else 0) ++ toBe 2 (if logic then 820 else 0) ++
    toBe 4 duration.toNat ++ toBe 2 temp.toNat
def occasionCode : Occasion → Nat
  | .start => 0 | .request => 1 | .shutdown => 2
/-- Failed blocks are held in reset until the next start (R501). -/
def holdFailed (s : State) (mask : W32) (quads : BitVec 12) : State :=
  let s1 := s.setProof (fun p => { p with quadFail := p.quadFail ||| quads })
  let s2 := s1.each wythes (fun s w => s.each (List.range 6) (fun s c =>
    s.onlyIf (courseFailed mask w c || logicFailed mask w) (fun s => s.updCourse w c (fun k => { k with held := true }))))
  let s3 := s2.each wythes (fun s w => s.each ((List.range 24).filter (s.quadHeld w)) (fun s p => s.linkFalls w p false false))
  s3.each wythes (fun s w => s.onlyIf (dramFailed mask w) (fun s => s.updDram w (fun d => { d with available := false })))
/-- The kept record of a Proof in BLANK: no ledger takes it, and its signature is zero (R505). -/
def keepUnsigned (s : State) (payload : Bytes) : State :=
  let d := s.ds 0
  let r := s.recordBytes 0 d.nextSeq d.head 6 0 (s.gptp 0) payload false 0
  s.setProof (fun p => { p with record := r, recordAon := s.aonSeconds, recordSig := List.replicate 64 0 })
/-- A Proof ends: its results, its record in both ledgers, and the record to be kept (R503, R505). -/
def proofMeasured (s : State) (why : Occasion) (parts result : Nat) (mask : W32) (quads : BitVec 12) (duration : W32) (temp : W16) : State :=
  let pl := proofPayload result (occasionCode why) parts mask duration temp
  let keeps := parts % 2 == 1 && parts / 4 == 1 && decide (result ≤ 1) && (s.ds 0).lc != .retired
  let s1 := s.setProof (fun p => { p with
    running := false, occasion := why, parts := parts, result := result, failedMask := mask
    keepDue := p.keepDue || (keeps && s.ledgering 0) })
  let s2 := (s1.each wythes (fun s w => s.record w 6 0 pl)).onlyIf (keeps && !s.ledgering 0) (fun s => s.keepUnsigned pl)
  let s3 := (s2.count (pgProof + 0x40) 1).onlyIf (result == 2) (fun s => (s.count (pgProof + 0x50) 1).raiseBit pgProof 1)
  (s3.onlyIf (result == 3) (fun s => s.count (pgProof + 0x48) 1)).raiseBit pgProof 0 |>.holdFailed mask quads

/-- A wythe's blocks as logic Proof leaves them: reset (R494). The Datestone, the clock, the links, the tie's state, the DRAM's training
and the results that hold until the next start stay. -/
def testedWythe (lockCount : W32) (now : Nat) (y : Wythe) : Wythe :=
  { mode := y.mode, returnMode := y.returnMode, outputsClosed := true, clock := y.clock, ports := y.ports, nextFrame := y.nextFrame
    tie := { y.tie with txq := [], rxq := [] }, ds := y.ds, dram := y.dram, repairs := y.repairs
    tables := { root1 := flag lockCount 0, epochStart := now }, conflictAt := List.replicate 6 now
    courses := (y.courses.filter (·.2.held)).map (fun e => (e.1, { held := true })) }
/-- Pages whose registers a logic Proof does not reset: the global ones but for Plinth's, the DRAM, TIME and TIE pages and the
Datestones'. -/
def untestedPage (a : Nat) : Bool :=
  match pageOf a with
  | none => false
  | some pg => (pg.region == 0 && pg.type != 1 && pg.type != 2 && pg.type != 8) || pg.type == 0x22 || pg.type == 0x23 || pg.type == 0x24 || decide (0x48 ≤ pg.type)
/-- The forme in force goes, and with it every copy of the ST registers but for the kept settings (R500). -/
def formeGone (s : State) : State :=
  let k := (s.active.filter (fun e => accOf e.1 == some .stKept))
  let s1 := { s with staged := k, active := k, previous := [] }
  (s1.setForme (fun f => { flash := f.flash, lockCount := f.lockCount, persistStatus := f.persistStatus, persist := f.persist })).each
    wythes (fun s w => s.updWy w (fun y => { y with forme := 0, previous := none, sweep := .idle }))
/-- The tested blocks are reset and re-initialised from kept settings, and a march clears every SRAM it tests (R494, R500). -/
def proofResets (s : State) (parts : Nat) : State :=
  let s1 := s.onlyIf (parts / 4 % 2 == 1) (fun s => s.each wythes (fun s w => s.each [0, 1, 2, 3, 4, 5, 0x1F] (fun s t => s.marchZero w t)))
  let s2 := if parts % 2 = 1 then
      let regs := s1.regs.filter (fun e => untestedPage e.1 || accOf e.1 == some .kept)
      let ctrs := s1.counters.filter (fun e => untestedPage e.1)
      ({ s1 with regs := regs, counters := ctrs, w0 := testedWythe s1.forme.lockCount s1.now s1.w0, w1 := testedWythe s1.forme.lockCount s1.now s1.w1 }).applyKept.plinthReset
    else s1
  s2.formeGone

/-- Steps 8 and 9 of the start-up sequence as if LAST held SETTING: the newest valid slot enters the staged copies (R60, R500). -/
def restoreNewest (s : State) : State :=
  match s.newestSlot with
  | some v => s.restoreSlot v.bytes
  | none => s
/-- Each wythe enters a mode; one that has lost the tie enters HALF in its place (R520, R522). -/
def enterOrHalf (s : State) (m : DevMode) : State :=
  s.each wythes (fun s w => if s.split w then (s.updWy w (fun y => { y with returnMode := m })).enterMode w .half else s.enterMode w m)
/-- What follows a Proof by its occasion: SETTING with the newest forme staged, or the end of the shut-down (R486, R500). -/
def afterProof (s : State) (why : Occasion) (parts : Nat) : State :=
  let s1 := s.proofResets parts
  match why with
  | .shutdown => if s1.proof.keepDue then s1.setModes (fun m => { m with shutdown := .keeping }) else s1.shutdownDone
  | _ => (s1.restoreNewest.enterOrHalf .setting).changeEnds
/-- PROOF_END (R500–R505). -/
def proofEnds (s : State) (f : ProofFinding) : State :=
  let p := s.proof
  if !p.running then s
  else (s.proofMeasured p.occasion p.parts (proofResult f) (failedMask f) f.quads f.duration f.temperature).afterProof p.occasion p.parts
/-- OUT_OF_RANGE (R497, R498): the part then running is discarded, and which part that is the row does not say (log 5). -/
def proofRefused (s : State) (duration : W32) (temp : W16) : State :=
  let p := s.proof
  if !p.running then s
  else
    let ran := partsRun p.parts s.draw.1.toNat
    (s.draw.2.proofMeasured p.occasion ran 3 0 0 duration temp).afterProof p.occasion ran

/-! The kept record (R505). -/

/-- The next request of the primary's queue is a PROOF record. -/
def proofNext (s : State) : Bool :=
  match (s.ds 0).intake with
  | .record t _ _ _ _ _ :: _ => t == 6
  | _ => false
/-- The PROOF record just appended is kept with its time and the primary's signature. -/
def keepRecord (s : State) : State :=
  let r := kget [] (s.ds 0).ring (s.ds 0).newest
  let aon := s.aonSeconds
  let (k, s1) := s.drawScalar
  let sig := ecdsaSign (s.ds 0).privkey k (sha256 (r ++ toBe 8 aon))
  let s2 := s1.setProof (fun p => { p with record := r, recordAon := aon, recordSig := sig, keepDue := false })
  if s2.modes.shutdown = .keeping then s2.shutdownDone else s2

/-! Brace (R508–R513). -/

/-- The BRACE record of a request queue with byte 6 set. -/
def markReturned (r : Intake) : Intake :=
  match r with
  | .record 5 sub t p off m => .record 5 sub t (patch p 6 [1]) off m
  | r => r
/-- Both ledgers are drained and their seals attached: Brace is complete (R508 step 8). -/
def braceCompletes (s : State) : State :=
  let quiet := wythes.all (fun w => !(s.ds w).started || ((s.ds w).intake.isEmpty && (s.ds w).missed.isEmpty && (s.ds w).sealing.isNone))
  if !s.proof.bracing || s.proof.braceDone || !quiet then s
  else
    let t := (s.now - s.proof.braceStart) / 1000
    (s.setProof (fun p => { p with braceDone := true, braceMicros := BitVec.ofNat 16 (min t 0xFFFF), braces := p.braces + 1 })).driveAck
/-- Steps 1 and 3 on one wythe: frames arriving end in error after a number of bytes that is not stated (log 5); frames in transmission
are cut. -/
def braceLines (s : State) (w : WytheIx) : State :=
  let s1 := s.each ((s.wy w).rx.filter (fun f => !f.ended)) (fun s f =>
    let (n, s1) := s.draw
    ((s1.updRx w f.id (fun r => { r with data := r.data.take (n.toNat % (r.data.length + 1)), err := 1 }))).frameEnds w f.port false)
  let s2 := s1.updPress w (fun x => { x with sending := [], store := x.store.filter (fun c => !c.started) })
  s2.each (List.range 24) (fun s p => s.updPort w p (fun q => { q with up := false }))
/-- Step 4 on one wythe: queued copies are dropped, and a march stops. -/
def bracePress (s : State) (w : WytheIx) : State :=
  let p := (s.wy w).press
  let s1 := s.updPress w (fun x => { x with arrivals := [], tieArrivals := [], early := [] })
  let s2 := s1.each (p.arrivals ++ p.tieArrivals ++ p.early) (fun s c => s.dropCopy w c .portDown none)
  (s2.dropQueued w (fun _ => true) .portDown).marchAbortAll w
/-- What Brace overrides (R513): a persist, a lock-up, a Proof, a shut-down, a token. -/
def braceOverrides (s : State) : State :=
  let s1 := match s.forme.persist with
    | some p => s.persistDone p.slotB 5
    | none => s
  let s2 := (s1.setForme (fun f => { f with locking := none })).shutdownCut
  let s3 := (s2.setProof (fun p => { p with running := false })).setModes (fun m => { m with
    change := .none, requestWaiting := false, shutdownDue := false, shutdown := .idle })
  s3.each wythes (fun s w =>
    if !(s.ds w).tokenGo then s
    else
      let (f, s1) := s.draw
      ((s1.updDs w (fun d => { d with tokenGo := false, tokenStatus := f.toNat % 256 })).updDs 0 (fun d => { d with
        challenge := { d.challenge with valid := false } })).count (pgDate 0 + 0x70) 1)
/-- Step 5: kept state, and the BRACE record with its seal; how many bytes of kept state there are is not stated (log 5). -/
def braceRecords (s : State) (waiting : WytheIx → Nat) : State :=
  let (f, s1) := s.draw
  s1.saveKeep.each wythes (fun s w =>
    (s.record w 5 0 (toBe 2 (waiting w) ++ slice (toBe 8 f.toNat) 0 4 ++ [0])).sealReq w 2)
/-- PWRFAIL_N falls (R483, R508): Brace, once the Datestones have started; before that, nothing is written. -/
def powerFails (s : State) : State :=
  if !s.modes.pwrfailN || s.proof.bracing then s
  else
    let s0 := s.setModes (fun m => { m with pwrfailN := false })
    if !s.powered || s.modes.startDue then s0
    else
      let waiting := fun (w : WytheIx) => (s.ds w).intake.length
      let s1 := s0.setProof (fun p => { p with
        bracing := true, braceDone := false, powerReturned := false, imageDone := false, braceStart := s.now })
      let s2 := s1.braceOverrides.each wythes (fun s w => (s.braceLines w).bracePress w)
      let s3 := s2.each wythes (fun s w => (s.enterMode w .brace).updWy w (fun y => { y with outputsClosed := true }))
      ({ s3 with plinth := { s3.plinth with linkUp := false } }).braceRecords waiting |>.braceCompletes
/-- POWER_RETURN (R512): Brace goes on; the BRACE record says so while it waits. -/
def powerReturns (s : State) : State :=
  let s1 := s.setModes (fun m => { m with pwrfailN := true })
  if !s.proof.bracing || s.proof.braceDone then s1
  else (s1.setProof (fun p => { p with powerReturned := true })).each wythes (fun s w =>
    s.updDs w (fun d => { d with intake := d.intake.map markReturned }))
/-- BRACE_IMAGE_WRITTEN (R509, R512): the counter images and the marker; a device whose power returned then starts warm. -/
def imageWritten (s : State) : State :=
  if !s.proof.braceDone || s.proof.imageDone || !s.modes.vkeep then s
  else
    let s1 := s.each wythes (fun s w => s.updDs w (fun d => { d with brace := { d.brace with
      marker := true, image := (witAll w).foldl (fun m a => sput (fun _ => 0) m a (s.ctr a)) [] } }))
    let s2 := s1.setProof (fun p => { p with imageDone := true, bracing := false })
    if s.proof.bracing && s.proof.powerReturned then s2.resetWith 3 else s2

end State

/-- RECORD_APPEND (R374–R377): LOCK_GO clears with the last FORME_LOCK record (R43); a PROOF record to be kept is (R505); Brace may be
complete with it. -/
def execRecordAppend (w : WytheIx) (s : State) : Res :=
  let keeps := w == 0 && s.proof.keepDue && (s.ds 0).started && s.proofNext
  let s1 := s.appendNext w
  let s2 := if s.lockPending && !s1.lockPending then { s1 with forme := { s1.forme with ledgerWait := false } } else s1
  .next (s2.onlyIf keeps (fun s => s.keepRecord)).braceCompletes
/-- SEAL_ATTACHMENT (R377, R378), with which a shut-down goes on and Brace may be complete (R486, R508). -/
def execSealAttachment (w : WytheIx) (s : State) : Res := .next (s.attachSeal w).shutdownProves.braceCompletes
/-- PROOF_END (R500–R505). -/
def execProofEnd (found : ProofFinding) (s : State) : Res := .next (s.proofEnds found)
/-- OUT_OF_RANGE (R497, R498). -/
def execOutOfRange (duration : W32) (temperature : W16) (s : State) : Res := .next (s.proofRefused duration temperature)
/-- PWRFAIL (R483, R508, R513). -/
def execPwrfail (s : State) : Res := .next s.powerFails
/-- BRACE_IMAGE_WRITTEN (R509, R512). -/
def execBraceImageWritten (s : State) : Res := .next s.imageWritten
/-- POWER_RETURN (R512). -/
def execPowerReturn (s : State) : Res := .next s.powerReturns

end Sys2Proof.Machine
end

