-- ==== Sys2Proof/Machine/StartUp.lean ====
section
/-! DEFINITION. The start-up sequence (R379, R385, R386, R430–R432, R479, R481–R483, R498, R501, R502, R506, R520), run as one command
from the release of RESET_N to the mode entered (log 31). -/

namespace Sys2Proof.Machine

/-- A copy of Datestone firmware is accepted (R386). -/
def fwAccepted (d : Datestone) (auth : Bytes) (b : Bytes) : Bool :=
  let body := beAt b 0x0C 4
  let dig := slice b 0x10 32
  let root := slice b 0x30 65
  beAt b 0 4 == 0x44534657 && beAt b 4 2 == 1 && decide (body ≤ 131072) && b.length == 256 + body && sha256 (b.drop 256) == dig &&
    sha256 root == toBe 32 Config.rootKeyHash.toNat && ecdsaVerify root dig (slice b 0x80 64) &&
    (d.lc == .blank || (ecdsaVerify auth (sha256 (slice b 0 0xC0)) (slice b 0xC0 64) && decide (d.fwFloor.toNat ≤ beAt b 8 4)))
/-- The firmware loaded: copy A, or copy B, or none (R386). -/
def fwLoaded (d : Datestone) (auth a b : Bytes) : Option (Bool × Bytes) :=
  if fwAccepted d auth a then some (false, a) else if fwAccepted d auth b then some (true, b) else none

/-- Windows narrower than 24 steps fail training (R430). -/
def eyeFails (e : Nat × Nat) : Bool := decide (e.1 < 24) || decide (e.2 < 24)

namespace State

/-! Step 2: the Datestones (R379, R385, R386). -/

/-- Causes of this start, VKEEP_LOST among them when the checks fail, and the one highest in the table (R479). -/
def startCauses (s : State) (intact : Bool) : Nat := if intact then s.modes.causes else s.modes.causes ||| 1
def topCause (causes : Nat) : Nat := ((List.range 6).find? (bitOf causes)).elim 0 (· + 1)
/-- The ledger of a Datestone whose retention SRAM is lost: witness counters from the Brace store, and the chain from its seal; the
answer tells an unclean start (R379). -/
def resumeLost (s : State) (w : WytheIx) : Bool × State :=
  let b := (s.ds w).brace
  let s1 := s.each (witAll w) (fun s a => s.setCtr a (sget (fun _ => 0) b.image a))
  let n := max 1 (if b.marker then b.sealSeq + 1 else b.ceiling)
  (!b.marker, s1.updDs w (fun d => { d with
    restored := true, head := if b.sealHead.isEmpty then head0 w else b.sealHead, nextSeq := n, sealFirst := n, sealHead := b.sealHead
    sealSeq := b.sealSeq, ring := [], used := 0, newest := 0, unacked := 0, clampCount := 0, prevSnap := [] }))
/-- TAMPER events latched in OFF are ledgered (R390). -/
def ledgerOff (s : State) (w : WytheIx) : State :=
  let evs := (s.ds w).offEvents
  let s1 := s.updDs w (fun d => { d with offEvents := [] })
  (s1.each evs (fun s e => match e with
    | .record t _ _ _ _ _ => s.enterIntake w t e
    | .seal _ _ => s.enterIntake w 0x10 e)).onlyIf (!evs.isEmpty) (fun s => s.raiseBit (pgDate w) 0)
/-- One Datestone starts with its firmware: BOOT, the ledger continued with RESET_CAUSE, the firmware's acceptance ledgered. One that
retired and was reset before the seal of it destroys its private key now (DESIGN CHOICE; log 28). -/
def startDatestone (s : State) (w : WytheIx) (intact copyB : Bool) (fw : Bytes) (cause : Nat) : State :=
  let s1 := s.updDs w (fun d => { d with
    started := true, boot := d.boot + 1, startedAt := s.now, snapAt := s.now, fwVersion := w32 (beAt fw 8 4), fwCopyB := copyB, fwARejected := copyB
    privkey := if d.lc = .retired then 0 else d.privkey
    rootKey := slice fw 0x30 65, fwFloor := if d.lc = .blank then d.fwFloor else w32 (max d.fwFloor.toNat (beAt fw 8 4)) })
  let (unclean, s2) := if intact then (false, s1) else s1.resumeLost w
  let pl := toBe 1 cause ++ toBe 1 ((if intact then 0 else 2) + b2n unclean) ++ (if unclean then toBe 6 (s2.ds w).sealSeq else [])
  let s3 := s2.onlyIf (s2.ledgering w) (fun s => (s.appendRecord w 0x0D 0 (s.gptp w) pl false 0).periodicSeal w)
  let s4 := s3.updDs w (fun d => { d with brace := { d.brace with marker := false } })
  (s4.record w 0x0C 0xFFFF (slice fw 0x10 16)).ledgerOff w
/-- Both Datestones: none starts where one refuses the firmware (R385, R483). -/
def startDatestones (s : State) (i : StartInput) (intact : Bool) (cause : Nat) : Bool × State :=
  let auth := (s.ds 0).authkey
  match fwLoaded (s.ds 0) auth i.fwA i.fwB, fwLoaded (s.ds 1) auth i.fwA i.fwB with
  | some (b0, f0), some (b1, f1) => (true, (s.startDatestone 0 intact b0 f0 cause).startDatestone 1 intact b1 f1 cause)
  | r0, r1 =>
    let held := fun (s : State) (w : WytheIx) (r : Option (Bool × Bytes)) =>
      s.updDs w (fun d => { d with fwRejected := r.isNone, fwARejected := match r with
        | some (b, _) => b
        | none => true })
    (false, held (held s 0 r0) 1 r1)

/-! Step 3: freshness (R506). -/

/-- The kept record's signature verifies; a zero one only in BLANK (R505). -/
def recordSigned (s : State) : Bool :=
  let p := s.proof
  if p.record.isEmpty then false
  else if p.recordSig = List.replicate 64 0 then (s.ds 0).lc == .blank
  else ecdsaVerify (s.ds 0).pubkey (sha256 (p.record ++ toBe 8 p.recordAon)) p.recordSig
/-- The tests of R506: FRESH_STATUS, and the start is warm when none fails. -/
def freshness (s : State) (temp : W16) : Bool × State :=
  let p := s.proof
  let cfg := s.rd (pgProof + 0x108)
  let none_ := !s.recordSigned
  let hours := (s.aonSeconds - p.recordAon) / 3600
  let aged := !none_ && decide (fld cfg 15 0 * 3600 ≤ s.aonSeconds - p.recordAon)
  let was := signed 16 (beAt p.record (0x20 + 14) 2)
  let hot := !none_ && decide ((4 * fld cfg 31 24 : Nat) < (signed 16 temp.toNat - was).natAbs)
  let fresh := !none_ && !aged && !hot
  (fresh, s.setProof (fun p => { p with
    freshFresh := fresh, freshNoRecord := none_, freshAged := aged, freshTemp := hot, ageHours := if none_ then 0 else min hours 0xFFFFF }))

/-! Step 7: DRAM training (R430–R432). -/

/-- One wythe: enabled channels load kept delays that pass, or take the centres found; a lane that fails makes the DRAM unavailable. -/
def trainDram (s : State) (w : WytheIx) (warm : Bool) (i : StartInput) (failed : Bool) : State :=
  let cfg := s.rd (pgDram w + 0x100)
  let chans := dramSet cfg
  let at_ := fun (c : Nat) => 4 * w.val + c
  let eye := fun (c : Nat) => i.eyes.getD (at_ c) (0, 0)
  let kept := warm && i.keptDelaysPass && chans.all (fun c => (sfind s.keep (pgDram w + 0x120 + 4 * c)).isSome)
  let bad := chans.filter (fun c => !kept && eyeFails (eye c))
  let delay := fun (c : Nat) => if kept then kget 0 s.keep (pgDram w + 0x120 + 4 * c) else i.centres.getD (at_ c) 0
  let s1 := s.updDram w (fun _ => {
    active := cfg, available := !chans.isEmpty && bad.isEmpty && !failed, restored := kept && !chans.isEmpty, lastPoll := s.now })
  let s2 := s1.each chans (fun s c => s.updCh w c (fun _ => {
    trained := !bad.contains c, failed := bad.contains c, nextRefresh := s.now + 1950, delay := delay c, eye0 := (eye c).1, eye1 := (eye c).2
    trainTemp := i.temperature, lastRetrain := s.now }))
  let s3 := if kept then s2 else { s2 with keep := (chans.filter (fun c => !bad.contains c)).foldl (fun m c =>
    sput regReset m (pgDram w + 0x120 + 4 * c) (delay c)) s2.keep }
  s3.onlyIf (!bad.isEmpty) (fun s => s.raiseBit (pgDram w) 1)

/-! Steps 8 to 10 (R58, R60, R482, R501, R502). -/

/-- The failures are tolerable by DEGRADE of the forme loaded (R501). -/
def tolerable (s : State) (mask : W32) (quads : BitVec 12) : Bool :=
  let deg := s.stStaged (pgProof + 0x110)
  wythes.all (fun w =>
    let courses := (List.range 6).filter (courseFailed mask w)
    !logicFailed mask w && (courses.isEmpty || (flag deg 0 && decide (courses.length < 6))) &&
      (!dramFailed mask w || (flag deg 2 && (List.range 8).all (fun q =>
        let f := s.stStaged (pgGalley w + 0x100 + 4 * q)
        !(flag f 31 && flag f 30))))) &&
    (quads == 0 || flag deg 1)
/-- The lock-up of R60, which needs no digest; its images load at once. -/
def lockRestored (s : State) : Bool × State :=
  let n := s.lockNumber
  let code := s.validate n false false
  if code = 0 then
    let s1 := s.lockUp n false (sha256 (s.journalBytes n))
    (true, s1.each wythes (fun s w => s.each (List.finRange 6) (fun s c => s.imageLoads w c)))
  else (false, (s.setForme (fun f => { f with lockResult := code })).count (pgForme + 0x48) 1)
/-- The forme enters, and the mode with it. -/
def startForme (s : State) (last : DevMode) (inRange : Bool) (mask : W32) (quads : BitVec 12) : State :=
  match s.newestSlot with
  | none => s.enterOrHalf .setting
  | some v =>
    let s1 := s.restoreSlot v.bytes
    if forwards last && inRange && s1.tolerable mask quads then
      let (ok, s2) := s1.lockRestored
      if ok then
        let s3 := s2.setModes (fun m => { m with startAuto := true })
        (s3.enterOrHalf last).each wythes (fun s w => s.openOutputs w)
      else s2.enterOrHalf .setting
    else s1.enterOrHalf .setting

/-- Steps 3 to 10, the Datestones having started; the part at which the preconditions fail is not given (R498; log 5). -/
def startRest (s : State) (i : StartInput) (intact : Bool) : State :=
  let slot := s.newestSlot
  let s1 := if intact then s else match slot with
    | some v => { s with keep := v.keep, modes := { s.modes with keepLast := v.last } }
    | none => { s with keep := [], modes := { s.modes with keepLast := .setting } }
  let last := s1.modes.keepLast
  let s2 := (s1.restoreKept).setModes (fun m => { m with last := last })
  let (warm, s3) := s2.freshness i.temperature
  let parts := if warm then 2 else 7
  let mask := if i.inRange then failedMask i.proof else 0
  let quads : BitVec 12 := if i.inRange then i.proof.quads else 0
  let result := if i.inRange then proofResult i.proof else 3
  let (v, s3') := s3.draw
  let s4 := s3'.proofMeasured .start (if i.inRange then parts else partsRun parts v.toNat) result mask quads i.proof.duration i.proof.temperature
  let s5 := s4.each wythes (fun s w => s.trainDram w warm i (dramFailed mask w))
  let s6 := s5.setModes (fun m => { m with startCold := !warm, startTime := i.micros })
  s6.startForme last i.inRange mask quads

/-- START_UP (R481): once RESET_N is released with the rails in range and PWRFAIL_N high. -/
def startUp (s : State) (i : StartInput) : State :=
  if !s.modes.railsUp || !s.modes.startDue || !s.modes.pwrfailN then s
  else
    let intact := s.modes.keepValid && i.retentionIntact
    let causes := s.startCauses intact
    let cause := topCause causes
    let s0 := s.setModes (fun m => { m with startDue := false, causes := 0, keepValid := true, vkeep := true, resetCause := cause, resetSeen := causes })
    let s1 := s0.each wythes (fun s w => s.updWy w (fun y => { y with
      outputsClosed := true, tables := { y.tables with epochStart := s.now } }))
    let (ok, s2) := s1.startDatestones i intact cause
    let s3 := s2.each wythes (fun s w =>
      if i.tieTrains then s.updTie w (fun k => { k with state := .up }) else s.tieFalls w .tieLost)
    (if ok then s3.startRest i intact else s3.each wythes (fun s w => s.enterMode w .setting)).changeEnds

end State

/-- START_UP (R481). -/
def execStartUp (i : StartInput) (s : State) : Res := .next (s.startUp i)

end Sys2Proof.Machine
end

