-- ==== Sys2Proof/Machine/BusViews.lean ====
section
/-! DEFINITION. Registers that show a unit's state: for each page type the word at a page offset, none where the page has no such
view (R63, R66, R67, R140–R143, R173, R174, R250, R251, R278–R281, R300, R301, R315, R331–R335, R361, R362, R364, R394–R396, R409,
R420–R424, R443, R444, R470–R472, R488–R491, R514, R515, R530, R531, R536, R546). -/

namespace Sys2Proof.Machine

/-- Word `i` of a byte array shown with its byte 0 as the top byte of word 0. -/
def arrWord (b : Bytes) (i : Nat) : W32 := w32 (beAt b (4 * i) 4)
/-- Offset `o` lies among `n` words from `base`. -/
def inWords (o base n : Nat) : Bool := decide (base ≤ o) && decide (o < base + 4 * n) && o % 4 == 0
/-- Bit `i` from a Bool. -/
def bitAt (b : Bool) (i : Nat) : Nat := at' (b2n b) i
/-- A signed number as a two's complement word. -/
def intWord (i : Int) : W32 := BitVec.ofInt 32 i

/-- Codes of a context's state (R145). -/
def ctxCode : CtxState → Nat
  | .stopped => 0 | .running => 1 | .waiting => 2 | .halted => 3 | .faulted => 4 | .swapping => 5 | .entry => 6
/-- Codes of a task's state (R227). -/
def taskCode : TaskState → Nat
  | .free => 0 | .ready => 1 | .running => 2 | .waiting => 3 | .saved => 4 | .halted => 5 | .faulted => 6 | .moving => 7
/-- Codes of a bank's state (R331). -/
def bankCode : BankState → Nat
  | .on => 0 | .retention => 1 | .off => 2 | .changing _ => 3
/-- Codes of an end of the tie (R531). -/
def tieCode : TieState → Nat
  | .down => 0 | .training => 1 | .up => 2 | .held => 3 | .linked => 4
/-- Codes of a Proof's occasion (R503). -/
def occasionCode : Occasion → Nat
  | .start => 0 | .request => 1 | .shutdown => 2
/-- Class and identity of a Quoin master (R335). -/
def holderWord : Holder → Nat
  | .task c k t => at' c.val 10 + at' k.val 7 + t.val
  | .master c k x => at' 1 13 + at' c.val 10 + at' k.val 7 + x.val
  | .host => at' 2 13
  | .datestone => at' 3 13
  | .dma => at' 4 13
/-- MASTER, CORE and the TCB or context of a course's owner (R251, R301). -/
def ownerWord (core : Nat) (master : Bool) (id : Nat) : Nat := bitAt master 30 + at' core 27 + at' id 21
def holderOwner : Holder → Nat
  | .task _ k t => ownerWord k.val false t.val
  | .master _ k x => ownerWord k.val true x.val
  | .host => 0
  | .datestone => 0
  | .dma => 0

namespace State

/-- PLINTH (R455, R470). -/
def summaryWord (s : State) (i : Nat) : W32 :=
  let r := i / 3
  let base := 0x800000 * r
  if r = 2 && s.tieCut then 0
  else w32 (((if r = 0 then globalPages else wythePages).map (fun row =>
    if row.type / 32 = i % 3 && (List.range row.count).any (fun n =>
        let pg := base + row.base + 0x1000 * n
        s.rd (pg + 0x10) &&& s.rd (pg + 0x14) != 0) then 2 ^ (row.type % 32) else 0)).sum)
def plinthView (s : State) (o : Nat) : Option W32 :=
  let p := s.plinth
  if o = 0x100 then some (w32 (at' (p.width % 16) 4 + at' (p.rate % 8) 1 + b2n p.linkUp))
  else if o = 0x10C then some (w32 (bitAt p.version.isSome 2 + p.version.getD 0 % 4))
  else if inWords o 0x110 9 then some (s.summaryWord ((o - 0x110) / 4))
  else none
/-- PLINTH_QP (R471). -/
def qpView (s : State) (q : Fin 64) (o : Nat) : Option W32 :=
  let word := fun (r : Ring) => r.tail ++ r.head
  if o = 0x11C then some (word (s.qp q).tx) else if o = 0x120 then some (word (s.qp q).rx) else none
/-- PLINTH_MBOX (R472). -/
def mboxView (s : State) (o : Nat) : Option W32 :=
  if o = 0x100 then some (w32 (b2n s.plinth.req.isSome))
  else if o = 0x104 then some (w32 (b2n s.plinth.again))
  else if inWords o 0x300 64 then some (sget (fun _ => 0) s.plinth.resp ((o - 0x300) / 4))
  else none
/-- FORME (R63, R66, R67). -/
def formeView (s : State) (o : Nat) : Option W32 :=
  let f := s.forme
  match o with
  | 0x104 =>
    let (n, p, op) : W16 × Bool × Bool := match f.session with
      | .none => (0, false, false)
      | .pending n => (n, true, false)
      | .open_ n => (n, false, true)
    some (w32 (at' n.toNat 16 + bitAt f.restored 4 + bitAt f.persist.isSome 3 + bitAt (!f.sweepOn.isEmpty) 2 + bitAt p 1 + b2n op))
  | 0x10C => some (w32 (b2n (f.locking.isSome || f.ledgerWait)))
  | 0x130 => some (w32 f.lockResult)
  | 0x134 => some (w32 (at' ((s.w0.previous.getD 0).toNat) 16 + (s.formeNo 0).toNat))
  | 0x138 => some f.lockCount
  | 0x13C => some (w32 f.switchTime)
  | 0x140 => some (w32 (f.switchTime / 2 ^ 32))
  | 0x148 => some (w32 (4 + f.journal.length))
  | 0x158 => some f.persistStatus
  | _ => none
/-- MODE (R488, R489). -/
def modeView (s : State) (o : Nat) : Option W32 :=
  let m := s.modes
  let lost := s.tieCut
  match o with
  | 0x100 => some (w32 (bitAt lost 11 + at' (modeCode (if lost then m.w1Last else s.w1.mode)) 8 + bitAt s.changing 3 + modeCode s.w0.mode))
  | 0x108 => some (w32 (modeCode m.last))
  | 0x110 => some (w32 (bitAt m.abandoned 2 + bitAt (m.shutdown != .idle && m.shutdown != .done) 1 + b2n (m.shutdown == .done)))
  | 0x120 => some (w32 (at' m.wakeCause 28 + m.wakeIndex))
  | _ => none
/-- Levels of the GPIO pins: an output shows what it drives (R490). -/
def gpioLevels (s : State) : W16 :=
  let dir := (s.rd (pgSystem + 0x120)).setWidth 16
  let cfg := s.rd (pgSystem + 0x110)
  let bit := fun (g : Nat) => if flag cfg 7 && fld cfg 3 0 == g then s.modes.ackHigh else flag (s.rd (pgSystem + 0x124)) g
  let drives : W16 := BitVec.ofNat 16 (((List.range 16).map (fun g => if bit g then 2 ^ g else 0)).sum)
  (s.modes.gpioIn &&& ~~~dir) ||| (drives &&& dir)
/-- SYSTEM (R490, R491). -/
def systemView (s : State) (o : Nat) : Option W32 :=
  let m := s.modes
  match o with
  | 0x100 => some (w32 (at' m.resetSeen 8 + m.resetCause))
  | 0x108 => some m.startTime
  | 0x10C => some (w32 (bitAt m.startCold 1 + b2n m.startAuto))
  | 0x128 => some (s.gpioLevels.setWidth 32)
  | _ => none
/-- PROOF (R514, R515), but for PROOF_STATUS while a Proof runs. -/
def proofView (s : State) (o : Nat) : Option W32 :=
  let p := s.proof
  if o = 0x104 then some (w32 (at' p.result 24 + at' (occasionCode p.occasion) 16 + bitAt p.running 15))
  else if o = 0x10C then some p.failedMask
  else if o = 0x114 then some (p.quadFail.setWidth 32)
  else if o = 0x118 then
    some (w32 (bitAt p.freshFresh 31 + bitAt p.freshNoRecord 30 + bitAt p.freshAged 29 + bitAt p.freshTemp 28 + min p.ageHours 0xFFFFF))
  else if o = 0x11C then
    some (w32 (bitAt p.braceDone 31 + bitAt p.powerReturned 30 + bitAt p.imageDone 29 + p.braceMicros.toNat))
  else if inWords o 0x140 16 then some (arrWord p.record ((o - 0x140) / 4))
  else if o = 0x180 then some (w32 p.recordAon)
  else if o = 0x184 then some (w32 (p.recordAon / 2 ^ 32))
  else if inWords o 0x1C0 16 then some (arrWord p.recordSig ((o - 0x1C0) / 4))
  else none
/-- DEBUG (R546): BUSY while a halt or a step has contexts still to halt. -/
def debugBusy (s : State) : Bool :=
  wythes.any (fun w => (s.wy w).ctxs.any (fun e => e.2.haltDue || (e.2.stepping && e.2.state != .halted)))
def debugView (s : State) (o : Nat) : Option W32 :=
  match o with
  | 0x110 => some (w32 (bitAt s.debugBusy 31 + fld s.dbgUnit.status 7 0))
  | 0x114 =>
    let metered := ((List.range 12).map (fun k => bitAt (s.meteredCourse (if k < 6 then 0 else 1) (k % 6)) k)).sum
    some (w32 (at' (lcCode (s.ds 0).lc) 30 + bitAt s.jtagDebug 29 + metered))
  | _ => none
/-- TRIE, LEARN and INDEX (R140–R143). -/
def tableView (s : State) (w : WytheIx) (type o : Nat) : Option W32 :=
  let t := s.tables w
  let prefixes := fun (v6 : Bool) => ((t.trie.filter (reaches t.root1)).filter (fun p => p.v6 == v6)).length
  match type, o with
  | 0x18, 0x108 => some (w32 (trieWeight t.trie))
  | 0x18, 0x10C => some (w32 (prefixes false))
  | 0x18, 0x110 => some (w32 (prefixes true))
  | 0x18, 0x114 => some (w32 (bitAt t.copying 1 + b2n t.root1))
  | 0x19, 0x104 => some (t.epoch.setWidth 32)
  | 0x19, 0x10C => some (w32 t.learn.length)
  | 0x19, 0x110 => some (w32 t.learnQ.length)
  | 0x1A, 0x100 =>
    let born := fun (k : Nat) => (sfind t.overlay k).isSome
    some (w32 (if s.bornView w (s.formeNo w) then
        (t.index.filter (fun e => !e.2.dying && !born e.1)).length + t.overlay.length
      else t.index.length))
  | 0x1A, 0x104 => some (w32 t.overlay.length)
  | 0x19, o => if inWords o 0x200 25 then some (w32 (learnPortCount t.learn ((o - 0x200) / 4))) else none
  | _, _ => none
/-- GALLEY (R278, R279). -/
def galleyView (s : State) (w : WytheIx) (o : Nat) : Option W32 :=
  let pools := fun (f : Pool → Bool) => ((List.range 8).map (fun p => bitAt (f (s.pool w p)) p)).sum
  if inWords o 0x140 8 then some (w32 (poolFree (s.pool w ((o - 0x140) / 4))))
  else if o = 0x160 then some (w32 (at' (pools (·.retiring)) 8 + pools (fun p => p.retiring || (p.open_ && poolFree p == 0))))
  else none
/-- State of the slot at the head of a domain (R281). -/
def headCode : SlotState → Nat
  | .pending => 1 | .ready _ => 2 | .discarded => 3 | .orphan => 0
/-- COLLATOR (R280, R281). -/
def collView (s : State) (w : WytheIx) (o : Nat) : Option W32 :=
  let c := (s.wy w).coll
  let d := fld (s.rd (pgColl w + 0x150)) 11 0
  let mine := (c.slots.filter (fun e => e.2.domain == d)).length
  let cap := fun (n : Nat) => w32 (min n 0xFFFFFF)
  match o with
  | 0x100 => some (w32 (at' (c.slots.filter (fun e => e.2.state == .orphan)).length 16 + c.slots.length))
  | 0x108 => some (cap (s.flightOf w (s.formeNo w)))
  | 0x10C => some (match (s.wy w).previous with
      | some n => cap (s.flightOf w n)
      | none => 0)
  | 0x154 =>
    let (seq, st) : Nat × Nat := match s.collHead w d with
      | some (_, x) => (x.seq.toNat, headCode x.state)
      | none => ((kget 0 c.nextSeq d).toNat, 0)
    some (w32 (at' seq 16 + at' st 14 + min mine 16383))
  | 0x158 => some (w32 mine)
  | _ => none
/-- MARCH (R315, R332). -/
def marchView (s : State) (w : WytheIx) (o : Nat) : Option W32 :=
  if o = 0x108 then some (w32 (s.wy w).repairs.length)
  else if inWords o 0x110 7 then some (s.march w ((o - 0x110) / 4)).status
  else if inWords o 0x130 7 then some (s.march w ((o - 0x130) / 4)).failAddr
  else none
/-- QUOIN (R334, R335). -/
def quoinView (s : State) (w : WytheIx) (o : Nat) : Option W32 :=
  let q := (s.wy w).quoin
  let obj := fld (s.rd (pgQuoin w + 0x110)) 10 0
  match o with
  | 0x10C => some (w32 q.holds.length)
  | 0x114 =>
    let latest := match sfind q.latest obj with
      | some h => holderWord h
      | none => 0
    some (w32 (bitAt (kget false q.abandoned obj) 31 + at' (s.quoinMax w obj - quoinUsed q obj) 24 +
      at' (min 255 (q.waits.filter (fun r => r.object == obj)).length) 16 + latest))
  | _ => none
/-- DRAM (R443, R444). -/
def chStatus (s : State) (w : WytheIx) (c : Nat) : W32 :=
  let h := s.dramCh w c
  w32 (at' (if h.trained then 1 else if h.failed then 2 else 0) 30 + bitAt (s.dramTwice w c) 29 + bitAt h.hot 28 +
    at' (h.mr4 % 32) 16 + at' (h.eye1 % 256) 8 + h.eye0 % 256)
def dramView (s : State) (w : WytheIx) (o : Nat) : Option W32 :=
  let d := s.dram w
  if o = 0x104 then some (w32 (bitAt d.available 31 + bitAt d.restored 30 + fld d.active 27 0))
  else if inWords o 0x120 4 then some (s.dramCh w ((o - 0x120) / 4)).delay
  else if inWords o 0x130 4 then some (s.chStatus w ((o - 0x130) / 4))
  else none
/-- TIME (R423, R424). -/
def timeView (s : State) (w : WytheIx) (o : Nat) : Option W32 :=
  let c := s.clock w
  if o = 0x130 then some (w32 (bitAt c.valid 31 + bitAt c.slewing 30 + bitAt c.srcActive 29 + bitAt (s.following w) 28)) else none
/-- TIE (R530, R531). -/
def tieView (s : State) (w : WytheIx) (o : Nat) : Option W32 :=
  let t := (s.wy w).tie
  match o with
  | 0x100 =>
    let ms := if t.split then min 0xFFFFFF ((s.now - t.splitSince) / 1000000) else 0
    some (w32 (at' (tieCode t.state) 29 + at' (tieCause t.cause) 24 + ms))
  | 0x10C => some t.skewInfo
  | 0x110 => some (w32 (min 2048 (s.txDepth w)))
  | _ => none
/-- BANKS (R331). -/
def banksView (s : State) (w : WytheIx) (c o : Nat) : Option W32 :=
  if o = 0x104 then
    some (w32 (((List.range 16).map (fun b => at' (bankCode (kget .on (s.course w c).bankState b)) (2 * b))).sum))
  else none
/-- COPROC (R300, R301). WAITERS shows at most 64, the end of its range (DESIGN CHOICE; log 12). -/
def cpView (s : State) (w : WytheIx) (c o : Nat) : Option W32 :=
  let places := (s.course w c).places
  if o = 0x100 then some (w32 (at' places.length 16 + (places.map (fun e => 2 ^ e.1)).sum))
  else if inWords o 0x110 4 then
    let u := s.cpUnit w c ((o - 0x110) / 4)
    some (match u.holder with
      | some h => w32 (at' 1 31 + holderOwner h + at' (min 64 u.waiters.length) 14)
      | none => w32 (at' (min 64 u.waiters.length) 14))
  else none
/-- CORE (R173, R174). -/
def coreView (s : State) (k : CoreId) (o : Nat) : Option W32 :=
  let c := s.core k.w k.ix
  match o with
  | 0x100 => some (w32 (((ctxsOf k).map (fun x => at' (ctxCode (s.ctx x).state) (4 * x.x.val))).sum))
  | 0x110 => some (w32 (s.pendingInts k))
  | 0x120 => some c.lastEntry
  | _ => none
/-- CHASE (R250, R251): the wait, mode and timer of a resident task, and of one being saved, are its context's; those of one being loaded
are its TCB's. -/
def chaseView (s : State) (k : CoreId) (o : Nat) : Option W32 :=
  let pg := pgChase k.w k.ix
  let t : TcbIx := Fin.ofNat 64 (fld (s.rd (pg + 0x110)) 5 0)
  let tc := s.taskOn k t
  let x := s.ctxOf k t
  let loading := match s.swapIn x with
    | some p => p.load == some t
    | none => false
  let here := (s.ctx x).task == some t && !loading
  let first := k.k.val == 0
  match o with
  | 0x104 => some (w32 (s.core k.w k.ix).taskStatus)
  | 0x114 => some (w32 (at' (taskCode tc.state) 28 + at' tc.prio.toNat 24 + bitAt (if here then (s.ctx x).evAll else tc.evAll) 23 +
      bitAt tc.taker 22 + bitAt tc.pin 21 + bitAt (here && (s.ctx x).slug.isSome && (s.ctx x).slugEnds.isNone) 20 +
      bitAt (if here then (s.ctx x).armed else tc.armed) 19 + (if here || tc.state == .moving then at' tc.ctx.val 16 else 0)))
  | 0x118 => some tc.flags
  | 0x11C => some (if here then (s.ctx x).evw else tc.evw)
  | 0x120 => some tc.waitLast
  | 0x12C => some (s.core k.w k.ix).load
  | 0x1C4 => some (w32 (b2n (s.course k.w k.c.val).recovery))
  | 0x1DC =>
    if !first then some 0
    else
      let h := s.chan k.w k.c.val (fld (s.rd (pg + 0x1D8)) 5 0)
      some (w32 (chanPlaces h + match h.owner with
        | some p => at' 1 31 + ownerWord p.core.val p.master p.id
        | none => 0))
  | _ => none
/-- PERF (R544, R545). -/
def perfView (s : State) (k : CoreId) (o : Nat) : Option W32 :=
  let c := s.core k.w k.ix
  match o with
  | 0x140 => some (w32 (s.pmcOvf k.w k.ix))
  | 0x148 => some (w32 c.samples.length)
  | 0x154 => some (c.sampleLatch.getD 1 0)
  | 0x158 => some (c.sampleLatch.getD 2 0)
  | 0x15C => some (c.sampleLatch.getD 3 0)
  | _ => none
/-- PORT (R409, R420–R422). -/
def portView (s : State) (w : WytheIx) (p o : Nat) : Option W32 :=
  let q := s.port w p
  match o with
  | 0x108 => some (w32 (bitAt q.up 31 + bitAt q.localFault 30 + bitAt q.remoteFault 29 + bitAt q.fecLock 28 + bitAt q.anDone 27 +
      bitAt q.speedMismatch 26))
  | 0x110 => some q.rxBw.bytesLast
  | 0x114 => some q.rxBw.framesLast
  | 0x128 => some q.txBw.bytesLast
  | 0x12C => some q.txBw.framesLast
  | 0x144 => some (w32 q.txtsTime)
  | 0x148 => some (w32 (q.txtsTime / 2 ^ 32))
  | _ => none
/-- PRESS (R361, R362). -/
def shapeLevel (s : State) (w : WytheIx) (p n : Nat) : W32 :=
  if flag (s.shaperCfg w p n).1 31 then intWord ((s.shaper w p n).level.fdiv 65536) else 0
/-- GATE_OPER.STATES shows the states of the list that operates, and its reset value 0 while none does (DESIGN CHOICE; log 12). -/
def pressView (s : State) (w : WytheIx) (p o : Nat) : Option W32 :=
  let g := s.gate w p
  if o = 0x118 then
    some (w32 (bitAt g.running 31 + bitAt g.pending.isSome 30 + at' (if g.running then s.gateStates w p % 256 else 0) 16 + g.entry % 1024))
  else if inWords o 0x160 8 then some (w32 (s.queuedBytes w false p ((o - 0x160) / 4)))
  else if inWords o 0x280 17 then some (s.shapeLevel w p ((o - 0x280) / 4))
  else none
/-- PRESS_MAIN (R364). -/
def pressMainView (s : State) (w : WytheIx) (o : Nat) : Option W32 :=
  let f := fld (s.rd (pgPressMain w + 0x10C)) 11 0
  let a := s.filterA w (s.formeNo w) f
  if o = 0x100 then some (w32 (s.wy w).press.store.length)
  else if o = 0x110 then
    let charged := flag (s.filterB w (s.formeNo w) f) 31
    some (w32 (bitAt (kget false (s.wy w).press.blocked f) 31 + bitAt (charged && (s.meter w (fld a 11 0)).markRed) 30))
  else if inWords o 0x200 32 then some (w32 (s.queuedBytes w true ((o - 0x200) / 4) 0))
  else none
/-- DATESTONE (R394, R395); a read of the primary's registers is one of the primary's page. -/
def dateView (s : State) (w : WytheIx) (o : Nat) : Option W32 :=
  let d := s.ds w
  let byte := fun (v : Byte) => v.setWidth 32
  if o = 0x100 then
    some (w32 (at' (lcCode d.lc) 30 + bitAt (w == 0) 29 + bitAt d.fwRejected 28 + bitAt d.restored 27 + bitAt d.sealing.isSome 26 + d.boot.toNat))
  else if inWords o 0x104 4 then some (arrWord uidBytes ((o - 0x104) / 4))
  else if inWords o 0x120 17 then some (arrWord d.pubkey ((o - 0x120) / 4))
  else if inWords o 0x180 17 then some (arrWord d.authkey ((o - 0x180) / 4))
  else if o = 0x1D8 then
    some (w32 (if d.lc = .service then (d.serviceEnd - s.now + 59999999999) / 60000000000 else 0))
  else if inWords o 0x1E4 3 then some (arrWord d.challenge.bytes ((o - 0x1E0) / 4))
  else if o = 0x2C0 then some (w32 (b2n d.tokenGo))
  else if o = 0x2C4 then some (w32 d.tokenStatus)
  else if o = 0x300 then some (byte d.tamperCfg)
  else if o = 0x304 then some (w32 (at' d.tamperLatched.toNat 8 + d.tamperActive.toNat))
  else if o = 0x30C then some (w32 (s.closedPorts w))
  else if o = 0x310 then
    some (w32 ((d.imageKeys.map (fun e => at' (bitAt e.2.revoked 2 + bitAt e.2.meteredOk 1 + 1) (4 * e.1))).sum))
  else if o = 0x318 || o = 0x31C then some (Config.fuseReg (pgDate w + o))
  else if o = 0x320 then some d.fwVersion
  else if o = 0x324 then some (w32 (bitAt d.fwCopyB 1 + b2n d.fwARejected))
  else none
/-- LEDGER (R396). -/
def ledgerView (s : State) (w : WytheIx) (o : Nat) : Option W32 :=
  let d := s.ds w
  if o = 0x100 then some (w32 d.nextSeq)
  else if o = 0x104 then some (w32 (d.nextSeq / 2 ^ 32))
  else if o = 0x108 then some (w32 (at' (if d.used = 0 then d.newest else oldestSlot d) 16 + d.newest))
  else if o = 0x110 then some (w32 d.window.length)
  else if inWords o 0x120 8 then some (arrWord d.sealHead ((o - 0x120) / 4))
  else if o = 0x140 then some (w32 d.sealSeq)
  else if o = 0x144 then some (w32 (d.sealSeq / 2 ^ 32))
  else if inWords o 0x800 512 then some (arrWord (d.window.getD ((o - 0x800) / 64) []) ((o - 0x800) % 64 / 4))
  else none

/-- The view at offset `o` of a page, if the page has one there. -/
def pageView (s : State) (pg : PageId) (o : Nat) : Option W32 :=
  let w := pageWythe pg
  match pg.type with
  | 0x01 => s.plinthView o
  | 0x02 => s.mboxView o
  | 0x03 => s.formeView o
  | 0x04 => s.modeView o
  | 0x05 => s.proofView o
  | 0x06 => s.systemView o
  | 0x07 => s.debugView o
  | 0x08 => s.qpView (Fin.ofNat 64 pg.inst) o
  | 0x18 => s.tableView w 0x18 o
  | 0x19 => s.tableView w 0x19 o
  | 0x1A => s.tableView w 0x1A o
  | 0x1C => s.galleyView w o
  | 0x1D => s.collView w o
  | 0x20 => s.marchView w o
  | 0x21 => s.quoinView w o
  | 0x22 => s.dramView w o
  | 0x23 => s.timeView w o
  | 0x24 => s.tieView w o
  | 0x28 => s.banksView w pg.inst o
  | 0x29 => s.cpView w pg.inst o
  | 0x30 => s.coreView (pageCore pg) o
  | 0x31 => s.chaseView (pageCore pg) o
  | 0x32 => s.perfView (pageCore pg) o
  | 0x38 => if pg.inst < 24 then s.portView w pg.inst o else none
  | 0x40 => s.pressView w pg.inst o
  | 0x41 => s.pressMainView w o
  | 0x48 => s.dateView w o
  | 0x49 => s.ledgerView w o
  | _ => none

end State
end Sys2Proof.Machine
end

