-- ==== Sys2Proof/Machine/BusRead.lean ====
section
/-! DEFINITION. A read of one register by an agent: which agents reach it, the common header, counters and latched pairs, the reads
that have an effect, the views, and the copies of ST registers (R5, R6, R9, R28, R32, R190, R447–R449, R523). -/

namespace Sys2Proof.Machine

/-! Counters (R9 and each chapter's table). -/

/-- The counters of a page type: offset of the first LO and how many follow, eight bytes apart. -/
def ctrLists (type : Nat) : List (Nat × Nat) :=
  match type with
  | 0x01 => [(0x40, 4)] | 0x03 => [(0x40, 6)] | 0x04 => [(0x40, 4)] | 0x05 => [(0x40, 4)] | 0x07 => [(0x40, 3)] | 0x08 => [(0x40, 4)]
  | 0x10 => [(0x40, 24)] | 0x18 => [(0x40, 9)] | 0x19 => [(0x40, 14)] | 0x1A => [(0x40, 8)] | 0x1C => [(0x40, 16)]
  | 0x1D => [(0x40, 13)] | 0x20 => [(0x40, 3)] | 0x21 => [(0x40, 6)] | 0x22 => [(0x40, 10)] | 0x23 => [(0x40, 3)]
  | 0x24 => [(0x40, 7)] | 0x28 => [(0x40, 4), (0x200, 64)] | 0x29 => [(0x40, 13)] | 0x30 => [(0x40, 10)] | 0x31 => [(0x40, 9)]
  | 0x32 => [(0x40, 10)] | 0x38 => [(0x40, 11), (0x400, 29)] | 0x40 => [(0x40, 24)] | 0x41 => [(0x40, 9)] | 0x48 => [(0x40, 8)]
  | 0x49 => [(0x40, 2)] | 0x4A => [(0x100, 125), (0x500, 1)]
  | 0x4B => (List.range 13).map (fun p => (0x100 + 0x100 * p, 29))
  | 0x4C => [(0x300, 384)]
  | _ => []
/-- Counters that one instance alone has: wythe 0's tie end, core 0 of a course, the primary (R250, R394, R530). -/
def ctrHere (pg : PageId) (lo : Nat) : Bool :=
  if pg.type = 0x24 ∧ lo = 0x70 then pg.region == 1
  else if pg.type = 0x31 ∧ (lo = 0x70 ∨ lo = 0x78) then pg.inst % 8 == 0
  else if pg.type = 0x48 ∧ (lo = 0x68 ∨ lo = 0x70) then pg.region == 1
  else true
/-- The LO of the counter that holds the word at page offset `o`. -/
def ctrLo (pg : PageId) (o : Nat) : Option Nat :=
  match (ctrLists pg.type).find? (fun e => decide (e.1 ≤ o) && decide (o < e.1 + 8 * e.2)) with
  | none => none
  | some _ => if o % 4 = 0 ∧ ctrHere pg (o - o % 8) then some (o - o % 8) else none
/-- Counters of port conflicts, which are brought up to date when they are read (R306; log 5). -/
def ctrConflict (pg : PageId) (lo : Nat) : Bool := pg.type == 0x28 && decide (0x200 ≤ lo)
/-- Counters that only a rule of the Datestone clears: their OVERFLOW ignores writes (R9, R367). -/
def ctrSealed (pg : PageId) (lo : Nat) : Bool := decide (0x48 ≤ pg.type) && !(pg.type == 0x49 && lo == 0x48)

namespace State

/-- What the counter with LO at `base + lo` holds, and the state after a read of it. -/
def ctrNow (s : State) (pg : PageId) (base lo : Nat) : BitVec 49 × State :=
  let w := pageWythe pg
  if ctrConflict pg lo then
    let s1 := s.settleConflicts w pg.inst
    (s1.ctr (base + lo), s1)
  else if pg.type = 0x05 ∧ lo = 0x58 then (BitVec.ofNat 49 s.proof.braces, s)
  else if pg.type = 0x31 ∧ lo = 0x80 then
    ((s.taskOn (pageCore pg) (Fin.ofNat 64 (fld (s.rd (base + 0x110)) 5 0))).waitSum, s)
  else if pg.type = 0x41 ∧ 0x68 ≤ lo then
    (sget (fun _ => 0) (s.wy w).press.sel (4 * fld (s.rd (base + 0x10C)) 11 0 + (lo - 0x68) / 8), s)
  else (s.ctr (base + lo), s)

/-- A read of one half of a counter (R9). -/
def readCtr (s : State) (a : Agent) (pg : PageId) (base lo : Nat) (hi : Bool) : W32 × State :=
  let (v, s1) := s.ctrNow pg base lo
  let n := v.toNat % 2 ^ 48
  if hi then (w32 (s1.latchedUpper a (base + lo) (n / 2 ^ 32) + bitAt v.msb 31), s1)
  else (w32 n, s1.latch a (base + lo) (n / 2 ^ 32))

/-- A time of day shown as nanoseconds and, latched by their read, seconds; or as gPTP time (R423). -/
def readTime (s : State) (a : Agent) (w : WytheIx) (o : Nat) : Option (W32 × State) :=
  let pg := pgTime w
  let c := s.clock w
  let ns := fun (t lo : Nat) => (w32 (t % 1000000000), s.latch a (pg + lo) (t / 1000000000))
  let sec := fun (t lo sh : Nat) => (w32 (s.latchedUpper a (pg + lo) (t / 1000000000) / sh), s)
  match o with
  | 0x104 => some (ns c.ns 0x104)
  | 0x108 => some (sec c.ns 0x104 1)
  | 0x10C => some (sec c.ns 0x104 (2 ^ 32))
  | 0x110 => some (w32 (s.gptp w), s.latch a (pg + 0x110) (s.gptp w / 2 ^ 32))
  | 0x114 => some (w32 (s.latchedUpper a (pg + 0x110) (s.gptp w / 2 ^ 32)), s)
  | 0x13C => some (ns c.ppsCap 0x13C)
  | 0x140 => some (sec c.ppsCap 0x13C 1)
  | 0x144 => some (sec c.ppsCap 0x13C (2 ^ 32))
  | _ => none

/-- PROOF_STATUS while a Proof runs: which of its parts is in progress is not a time the model holds (R515; log 5). -/
def readProofStatus (s : State) : Option (W32 × State) :=
  if !s.proof.running then none
  else
    let (v, s1) := s.draw
    let ps := (List.range 3).filter (bitOf s.proof.parts)
    let part := 2 ^ ps.getD (v.toNat % max 1 ps.length) 0
    some (w32 (at' s.proof.result 24 + at' (occasionCode s.proof.occasion) 16 + bitAt true 15 + at' part 12), s1)

/-- WAIT_MAX, READY_DEPTHn and DQ_DEPTH (R250, R251): a largest value read is cleared to 0. -/
def readChase (s : State) (k : CoreId) (o : Nat) : Option (W32 × State) :=
  let t : TcbIx := Fin.ofNat 64 (fld (s.rd (pgChase k.w k.ix + 0x110)) 5 0)
  if o = 0x124 then some ((s.taskOn k t).waitMax, s.updTask k t (fun c => { c with waitMax := 0 }))
  else if inWords o 0x140 16 then
    let n := (o - 0x140) / 4
    some (w32 (at' (kget 0 (s.core k.w k.ix).readyMax n) 16 + s.readyCount k n),
      s.updCore k.w k.ix (fun c => { c with readyMax := sins c.readyMax n 0 }))
  else if o = 0x1CC ∧ k.k.val = 0 then
    let co := s.course k.w k.c.val
    some (w32 (at' co.dqMax 16 + co.dq.length), s.updCourse k.w k.c.val (fun c => { c with dqMax := 0 }))
  else none

/-- BW minima and maxima and TXTS_INFO (R409, R420). -/
def readPort (s : State) (w : WytheIx) (p o : Nat) : Option (W32 × State) :=
  let q := s.port w p
  if p = 24 then none
  else if inWords o 0x118 4 then
    let (v, b) := bwTake q.rxBw ((o - 0x118) / 4)
    some (v, s.updPort w p (fun q => { q with rxBw := b }))
  else if inWords o 0x130 4 then
    let (v, b) := bwTake q.txBw ((o - 0x130) / 4)
    some (v, s.updPort w p (fun q => { q with txBw := b }))
  else if o = 0x140 then some (s.txtsRead w p)
  else none

/-- A read of CHALLENGE0 on the primary draws a challenge (R389). -/
def readChallenge (s : State) (o : Nat) : Option (W32 × State) :=
  if o ≠ 0x1E0 then none
  else
    let s1 := s.drawChallenge
    some (arrWord (s1.ds 0).challenge.bytes 0, s1)

/-- Who asks the Quoin with an access. -/
def busAsker : Agent → Asker
  | .mason x => .mason x
  | .host => .host
  | .jtag => .host

/-- Reads that do more than show a value. -/
def sideRead (s : State) (a : Agent) (pg : PageId) (o : Nat) : Option (W32 × State) :=
  let w := pageWythe pg
  match pg.type with
  | 0x05 => if o = 0x104 then s.readProofStatus else none
  | 0x1C =>
    if inWords o 0x400 256 then some (s.allocLoad w ((o - 0x400) / 4 + 1) true)
    else if inWords o 0x800 256 then some (s.allocLoad w ((o - 0x800) / 4 + 1) false)
    else if o = 0x1E4 then some (s.readStatus w a)
    else none
  | 0x1D =>
    if o = 0x104 then some (w32 (s.wy w).coll.slotsMax, s.updColl w (fun c => { c with slotsMax := 0 })) else none
  | 0x21 => if o = 0x104 then some (quoinResult (s.wy w).quoin (s.askerHolder (busAsker a)), s) else none
  | 0x23 => s.readTime a w o
  | 0x29 =>
    let u := (o - 0x200) / 0x80
    let f := o % 0x80 / 4
    if inWords o 0x200 126 ∧ f < 30 then some (s.cpClaim a w (Fin.ofNat 6 pg.inst) u f) else none
  | 0x31 => s.readChase (pageCore pg) o
  | 0x32 => if o = 0x150 then some (s.readSample0 w pg.inst) else none
  | 0x38 => s.readPort w pg.inst o
  | 0x41 => if o = 0x104 then some (s.rd (pgPressMain w + 0x104), s.wr (pgPressMain w + 0x104) 0) else none
  | 0x48 => s.readChallenge o
  | _ => none

/-- The common header (R448, R449). -/
def headerWord (s : State) (pg : PageId) (base o : Nat) : W32 :=
  match o with
  | 0x00 => w32 (at' pg.type 24 + at' pg.inst 16 + at' 1 8 + fld (Config.fuseReg base) 7 0)
  | 0x08 => if 0x48 ≤ pg.type then 0 else s.rd (base + 8)
  | 0x0C => s.stateWord pg base
  | 0x18 => s.rd (base + 0x10) &&& s.rd (base + 0x14)
  | 0x1C => 0
  | o => if o < 0x30 ∧ o ≠ 0x04 then s.rd (base + o) else 0

/-- A register as it is stored: firmware reads the active copy of an ST register, the host by CTRL.READ_VIEW of FORME (R32, R64). -/
def heldWord (s : State) (a : Agent) (addr : Nat) : W32 :=
  match regDesc addr with
  | none => 0
  | some d =>
    if d.acc = .st ∨ d.acc = .stKept then
      (if a = .host ∧ !s.readActive then s.stStaged addr else s.stActive addr)
    else s.rd addr

/-- A stored register as it reads: COURSE_CFG.PLUMB is 1 in mode PLUMB (R174). -/
def storedWord (s : State) (a : Agent) (addr : Nat) : W32 :=
  let v := s.heldWord a addr
  match pageOf addr with
  | some pg =>
    if pg.type = 0x30 ∧ pg.inst % 8 = 0 ∧ addr % 0x1000 = 0x124 ∧ (s.wy (pageWythe pg)).mode = .plumb then v ||| 1 else v
  | none => v

/-- Registers of a DATESTONE page that are the primary's on both wythes: the token counters, AUTHKEY and CHALLENGE (R394). -/
def primaryReg (pg : PageId) (o : Nat) : Bool :=
  pg.type == 0x48 && pg.region == 2 && ((decide (0x68 ≤ o) && decide (o < 0x78)) || inWords o 0x180 17 || inWords o 0x1E0 4)

/-- A read of a page's own register. -/
def ownRead (s : State) (a : Agent) (pg : PageId) (base o : Nat) : W32 × State :=
  if o < 0x40 then (s.headerWord pg base o, s)
  else match ctrLo pg o with
    | some lo => s.readCtr a pg base lo (o % 8 == 4)
    | none => match s.sideRead a pg o with
      | some r => r
      | none => match s.pageView pg o with
        | some v => (v, s)
        | none => (s.storedWord a (base + o), s)
/-- What a read that reaches nothing returns while the tie is lost (R28, R523). -/
def deadWord : W32 := 0xDEAD0001
/-- A read of a page's register; over a lost tie the secondary's firmware does not reach the primary's (DESIGN CHOICE; log 25). -/
def pageRead (s : State) (a : Agent) (pg : PageId) (base o : Nat) : W32 × State :=
  if primaryReg pg o then (if s.tieCut then (deadWord, s) else s.ownRead a { pg with region := 1 } (pgDate 0) o)
  else s.ownRead a pg base o

/-! The command windows of BAR2 (R124–R127), wythe `w`'s at 0x200_0000 + 0x1_0000 × w, window t at 0x1000 × t in it. -/

/-- The wythe, table and offset of a BAR2 address that lies in a window. -/
def windowAt (addr : Nat) : Option (WytheIx × Nat × Nat) :=
  if 0x2000000 ≤ addr ∧ addr < 0x2020000 then
    let t := addr / 0x1000 % 16
    if windowOk t then some (Fin.ofNat 2 ((addr - 0x2000000) / 0x10000), t, addr % 0x1000) else none
  else none

/-- A word of a window. -/
def windowWord (s : State) (w : WytheIx) (t o : Nat) : W32 :=
  let x := s.window w t
  let head := fun (f : WinResp → W32) => match x.resps with
    | [] => 0
    | r :: _ => f r
  if o = 0x004 then
    w32 (bitAt (!x.fifo.isEmpty) 31 + bitAt x.rejected 30 + bitAt (s.fifoHeld w t) 29 + at' (x.fifo.length + x.resps.length) 16 + x.resps.length)
  else if o = 0x008 then head (fun r => w32 (at' 1 31 + at' r.tag.toNat 16 + at' (r.op % 256) 8 + r.code % 256))
  else if inWords o 0x040 20 then sget (fun _ => 0) x.keys ((o - 0x040) / 4)
  else if inWords o 0x090 8 then sget (fun _ => 0) x.datas ((o - 0x090) / 4)
  else if inWords o 0x0C0 20 then head (fun r => r.keys.getD ((o - 0x0C0) / 4) 0)
  else if inWords o 0x110 8 then head (fun r => r.datas.getD ((o - 0x110) / 4) 0)
  else 0

/-- Does an access by `a` reach the region of a BAR0 or BAR2 address (R28, R190, R523)? -/
def regionReach (s : State) (a : Agent) (addr : Nat) : Bool :=
  if addr < 0x800000 then s.reachGlobal a
  else if addr < 0x1000000 then s.reach a 0
  else if addr < 0x1800000 then s.reach a 1
  else if addr < 0x2000000 then true
  else match windowAt addr with
    | some (w, _, _) => a == .host && s.reach a w
    | none => true

/-- A read of the word at `addr` by `a`: the register pages at their BAR0 offsets, and BAR2 above them. Firmware reads 0 from the
DEBUG page, and JTAG reaches that page alone (R541, R546). -/
def busRead (s : State) (a : Agent) (addr : Nat) : W32 × State :=
  let addr := addr - addr % 4
  match pageOf addr with
  | some pg =>
    if pg.type = 0x07 && s.debugReach a then s.pageRead a pg (pageBase addr) (addr % 0x1000)
    else if !s.regionReach a addr then (deadWord, s)
    else if pg.type = 0x07 then (0, s)
    else s.pageRead a pg (pageBase addr) (addr % 0x1000)
  | none =>
    if !s.regionReach a addr then (deadWord, s)
    else match windowAt addr with
      | some (w, t, o) => (s.windowWord w t o, s)
      | none => (0, s)

end State
end Sys2Proof.Machine
end

