-- ==== Sys2Proof/Machine/BusWrite.lean ====
section
/-! DEFINITION. A write of one register by an agent: byte enables, the header, clamps of RW fields, and the writes that are actions
(R5, R8, R9, R31, R52, R53, R190, R447–R450, and each chapter's register tables). -/

namespace Sys2Proof.Machine

/-- A write with these byte enables writes some byte of bits [hi:lo]. -/
def touches (be : BitVec 4) (hi lo : Nat) : Bool := (List.range 4).any (fun i => be.getLsbD i && decide (8 * i ≤ hi) && decide (lo ≤ 8 * i + 7))
/-- The nearer of 0 and 1,000 for a QUIET_LIMIT that is neither 0 nor at least 1,000 (R8, R250). DESIGN CHOICE (log 32): 500, midway
between the two, becomes 1,000. -/
def clampQuiet (v : W32) : W32 := if v.toNat < 500 then 0 else if v.toNat < 1000 then 1000 else v
/-- The register of a 6-bit number (R180). -/
def regOfNo (n : Nat) : Reg :=
  if n < 0x10 then .d (Fin.ofNat 16 n)
  else if n < 0x18 then .a (Fin.ofNat 8 n)
  else if n < 0x1C then .x (Fin.ofNat 4 n)
  else if 0x25 ≤ n ∧ n ≤ 0x28 then .tnow (Fin.ofNat 4 (n - 0x25))
  else if 0x29 ≤ n ∧ n ≤ 0x2C then .tcmp (Fin.ofNat 4 (n - 0x29))
  else match n with
    | 0x20 => .mlo | 0x21 => .mhi | 0x22 => .sr | 0x23 => .pcx | 0x24 => .ctx | 0x2D => .polyl | 0x2E => .polyh
    | 0x2F => .evwl | 0x30 => .evwh | 0x31 => .spcx | 0x32 => .ssr | 0x33 => .sa0 | 0x34 => .sd0
    | _ => .reserved (BitVec.ofNat 6 n)
/-- PPS_OUT_OFFSET clamped to ±500,000,000 (R423). -/
def clampPps (v : W32) : W32 := intWord (min (max (signed 32 v.toNat) (-500000000)) 500000000)

namespace State

/-- EV_EN is written: a bit that EV_PEND gains so sends MSI-X vector 64 (R455). -/
def writeEvEn (s : State) (pg : PageId) (base : Nat) (v : W32) : State :=
  let raw := s.rd (base + 0x10)
  let old := s.rd (base + 0x14)
  let new := v &&& w32 (eventBits pg.type)
  let s1 := s.wr (base + 0x14) new
  if raw &&& new &&& ~~~old = 0 then s1 else s1.emit (.msix 64)
/-- Bits of EV_RAW are cleared by ones (R448). -/
def clearEvents (s : State) (base : Nat) (v : W32) : State := s.wr (base + 0x10) (s.rd (base + 0x10) &&& ~~~v)
/-- EV_FORCE (R450). -/
def forceEvents (s : State) (pg : PageId) (base : Nat) (v : W32) : State := s.raise base (v &&& w32 (eventBits pg.type))
/-- The header's writable registers. -/
def headerWrite (s : State) (pg : PageId) (base o : Nat) (v : W32) (be : BitVec 4) : State :=
  match o with
  | 0x08 => s.ctrlStore pg base (mergeBytes (s.rd (base + 8)) v be)
  | 0x10 => s.clearEvents base (mergeBytes 0 v be)
  | 0x14 => s.writeEvEn pg base (mergeBytes (s.rd (base + 0x14)) v be)
  | 0x1C => s.forceEvents pg base (mergeBytes 0 v be)
  | _ => s

/-- OVERFLOW of the counter with LO at `base + lo` is cleared, unless it is a sealed one (R9). -/
def clearOverflow (s : State) (pg : PageId) (base lo : Nat) : State :=
  let low := fun (v : BitVec 49) => BitVec.ofNat 49 (v.toNat % 2 ^ 48)
  if ctrSealed pg lo then s
  else if pg.type = 0x31 ∧ lo = 0x80 then
    s.updTask (pageCore pg) (Fin.ofNat 64 (fld (s.rd (base + 0x110)) 5 0)) (fun c => { c with waitSum := low c.waitSum })
  else if pg.type = 0x41 ∧ 0x68 ≤ lo then
    let k := 4 * fld (s.rd (base + 0x10C)) 11 0 + (lo - 0x68) / 8
    s.updPress (pageWythe pg) (fun x => { x with sel := sput (fun _ => 0) x.sel k (low (sget (fun _ => 0) x.sel k)) })
  else if ctrConflict pg lo then (s.settleConflicts (pageWythe pg) pg.inst).clearOvf (base + lo)
  else s.clearOvf (base + lo)

/-! Stored registers. -/

/-- A word entered into an RW register: its fields clamped, each clamp noted (R8, R53). -/
def enterWord (s : State) (addr : Nat) (flds : List Fld) (v : W32) : State :=
  (s.wr addr (w32 (clampWord flds v.toNat))).noteClamp addr (clampsIn flds v.toNat)
/-- A register whose nearest legal value is `v'`, given that `v` was written. -/
def enterAs (s : State) (addr : Nat) (v v' : W32) : State := (s.wr addr v').noteClamp addr (b2n (v != v'))
/-- PMC_SELn: an EVENT that R532 does not list is clamped to 0; SAMPLE_EN becoming 1 loads the countdown (R532, R534). -/
def pmcSelWrite (s : State) (k : CoreId) (n addr : Nat) (flds : List Fld) (v : W32) : State :=
  let on := flag v 29 && !flag (s.rd addr) 29
  let bad := decide (0x19 < fld v 7 0)
  let s1 := (s.enterWord addr flds (if bad then setFld v 7 0 0 else v)).noteClamp addr (b2n bad)
  s1.onlyIf on (fun s => s.updCore k.w k.ix (fun c => { c with
    countdown := sins c.countdown n (max 1 (s.rd (pgPerf k.w k.ix + 0x120 + 4 * n)).toNat) }))
/-- TIME_CFG: FOLLOW is wythe 1's and PPS_OUT_EN wythe 0's; SRC takes effect at once (R411, R416, R424). -/
def timeCfgWrite (s : State) (w : WytheIx) (addr : Nat) (flds : List Fld) (v : W32) : State :=
  let v' := if w = 0 then setFld v 31 31 0 else setFld v 29 29 0
  (s.enterWord addr flds v').onlyIf (flag v 30 != flag (s.rd addr) 30) (fun s => s.updClock w (fun c => { c with srcActive := flag v 30 }))

/-- A write to an RW or kept register. -/
def storedWrite (s : State) (pg : PageId) (addr : Nat) (d : RegDesc) (v : W32) (be : BitVec 4) : State :=
  let w := pageWythe pg
  let o := addr % 0x1000
  let raw := mergeBytes (s.rd addr) v be
  match pg.type with
  | 0x05 => if o = 0x100 ∧ fld raw 2 0 = 0 then (s.wr addr 7).noteClamp addr 1 else s.enterWord addr d.flds raw
  | 0x19 =>
    let s1 := s.enterWord addr d.flds raw
    if o = 0x100 then s1.ageCfgWritten w else s1
  | 0x22 => if o = 0x100 then s.dramCfgStore w raw else s.enterWord addr d.flds raw
  | 0x23 =>
    if o = 0x100 then s.timeCfgWrite w addr d.flds raw
    else if 0x118 ≤ o ∧ o < 0x12C ∧ s.following w then s
    else if o = 0x138 then s.enterAs addr raw (clampPps raw)
    else s.enterWord addr d.flds raw
  | 0x28 => s.bankPower w pg.inst raw
  | 0x31 =>
    if o = 0x1C0 then s.enterAs addr raw (clampQuiet raw)
    else if inWords o 0x180 16 then s.bindStore (pageCore pg) ((o - 0x180) / 4) raw
    else s.enterWord addr d.flds raw
  | 0x32 => if inWords o 0x100 8 then s.pmcSelWrite (pageCore pg) ((o - 0x100) / 4) addr d.flds raw else s.enterWord addr d.flds raw
  | 0x38 =>
    if touches be 19 0 then
      (s.bwWindowWrite w pg.inst (w32 (clampWord d.flds raw.toNat))).noteClamp addr (clampsIn d.flds raw.toNat)
    else s
  | 0x49 =>
    if !touches be 11 0 then s
    else if o = 0x10C then s.exportFrom w (fld raw 11 0)
    else s.exportAcked w (fld raw 11 0)
  | _ => s.enterWord addr d.flds raw

/-! Writes that are actions: `m` holds the enabled bytes and 0 elsewhere. -/

/-- DBG_CMD by its OP (R546, R547). -/
def dbgCmd (s : State) (a : Agent) (m : W32) : State :=
  let r := regOfNo (fld m 13 8)
  match fld m 7 0 with
  | 1 => s.dbgCommand a dbgHalt
  | 2 => s.dbgCommand a dbgResume
  | 3 => s.dbgCommand a (fun s => s.dbgStep (flag m 16))
  | 4 => s.dbgCommand a (fun s => s.dbgReadReg r)
  | 5 => s.dbgCommand a (fun s => s.dbgWriteReg r)
  | 6 => s.dbgCommand a dbgReadMem
  | 7 => s.dbgCommand a dbgWriteMem
  | 8 => s.dbgCommand a (fun s => s.dbgBreak true)
  | 9 => s.dbgCommand a (fun s => s.dbgBreak false)
  | _ => s
/-- SESSION_CMD (R33, R65). -/
def sessionCmd (s : State) (m : W32) : State :=
  match fld m 1 0 with
  | 1 => s.openWritten (BitVec.ofNat 16 (fld m 31 16))
  | 2 => s.abandonWritten
  | _ => s
/-- TIE_CMD: ISOLATE, then REJOIN (R526, R530). -/
def tieCmd (s : State) (w : WytheIx) (m : W32) : State :=
  (s.onlyIf (flag m 0) (fun s => s.loseTie w .hostIsolate)).onlyIf (flag m 1) (fun s => s.rejoinWritten w)
/-- RECOVERY (R247, R251). -/
def recoveryWrite (s : State) (k : CoreId) (m : W32) : State :=
  (s.onlyIf (flag m 2) (fun s => s.quietAck k.w k.ix)).onlyIf (flag m 1) (fun s => s.recoveryEnds k.w k.c.val)
/-- UNBLOCK (R364). -/
def unblock (s : State) (w : WytheIx) (m : W32) : State :=
  let i := fld m 11 0
  if flag m 31 then s.updPress w (fun x => { x with meters := kupd {} x.meters i (fun k => { k with markRed := false }) })
  else s.updPress w (fun x => { x with blocked := sins x.blocked i false })
/-- TOKENn: four bytes, the top one first (R388, R394). -/
def tokenWrite (s : State) (w : WytheIx) (i : Nat) (m : W32) : State :=
  s.updDs w (fun d => { d with token := (toBe 4 m.toNat).zipIdx.foldl (fun t e => sput (fun _ => 0) t (4 * i + e.2) e.1) d.token })
/-- A DATESTONE page's actions (R377, R387–R391, R394). -/
def dateWrite (s : State) (w : WytheIx) (o : Nat) (m : W32) : State :=
  if o = 0x1D0 then s.onlyIf (flag m 0) (fun s => s.sealReq w 3)
  else if o = 0x1D4 then s.onlyIf (w == 0 && flag m 0) leaveWritten
  else if inWords o 0x200 48 then s.tokenWrite w ((o - 0x200) / 4) m
  else if o = 0x2C0 then s.onlyIf (flag m 0 && (s.ds w).started) (fun s => s.updDs w (fun d => { d with tokenGo := true }))
  else if o = 0x308 then s.tamperReopenAll w (m.setWidth 8)
  else s

/-- A write that is an action; none where the page has none at `o`. -/
def actionWrite (s : State) (a : Agent) (pg : PageId) (o : Nat) (m : W32) (be : BitVec 4) : Option State :=
  let w := pageWythe pg
  let k := pageCore pg
  match pg.type, o with
  | 0x02, 0x100 => some (s.onlyIf (flag m 0) mboxGo)
  | 0x03, 0x100 => some (s.sessionCmd m)
  | 0x03, 0x10C => some (s.onlyIf (flag m 0) lockWritten)
  | 0x04, 0x104 => some (s.onlyIf (touches be 2 0) (fun s => s.requestMode (fld m 2 0)))
  | 0x04, 0x10C => some (s.onlyIf (flag m 0) shutdownStarts)
  | 0x06, 0x104 => some (s.onlyIf (fld m 31 16 == 0xA55A && flag m 0) (fun s => s.resetWith 6))
  | 0x07, 0x104 => some (s.dbgCmd a m)
  | 0x1C, 0x1E0 => some (s.moveStore w a m)
  | 0x1C, 0x1E8 => some (s.refDown w (fld m 26 0))
  | 0x1C, 0x1EC => some (s.refUp w (fld m 26 0) (fld m 31 28))
  | 0x20, 0x100 => some (s.marchStore w m)
  | 0x21, 0x100 => some (s.quoinAcquire w (s.askerHolder (busAsker a)) m)
  | 0x21, 0x108 => some (s.quoinRelease w (s.askerHolder (busAsker a)) m)
  | 0x23, 0x12C => some (s.timeCmd w (fld m 1 0))
  | 0x24, 0x108 => some (s.tieCmd w m)
  | 0x29, 0x104 => some (s.cpReleaseStore a w (Fin.ofNat 6 pg.inst) (fld m 1 0))
  | 0x30, 0x118 => some (s.each (List.range 4) (fun s n => s.onlyIf (flag m n) (fun s => s.interrupt w pg.inst n)))
  | 0x31, 0x100 => some (s.taskCmd k (fld m 15 8) (Fin.ofNat 64 (fld m 5 0)))
  | 0x31, 0x1C4 => some (s.recoveryWrite k m)
  | 0x32, 0x140 => some (s.each (List.range 8) (fun s n => s.onlyIf (flag m n) (fun s => s.clearOvf (pmcCtr w pg.inst n))))
  | 0x32, 0x144 => some (s.clearPmc w pg.inst (fld m 7 0))
  | 0x41, 0x108 => some (s.unblock w m)
  | 0x48, o => some (s.dateWrite w o m)
  | _, _ => none

/-- A write of a page's register: a firmware or JTAG write does not reach ST copies (R190). -/
def pageWrite (s : State) (a : Agent) (pg : PageId) (base o : Nat) (v : W32) (be : BitVec 4) : State :=
  let m := mergeBytes 0 v be
  if be = 0 then s
  else if o < 0x40 then s.headerWrite pg base o v be
  else match ctrLo pg o with
    | some lo => if o % 8 = 4 ∧ flag m 31 then s.clearOverflow pg base lo else s
    | none => match s.actionWrite a pg o m be with
      | some s1 => s1
      | none => match regDesc (base + o) with
        | none => s
        | some d =>
          if d.acc = .st ∨ d.acc = .stKept then (if a = .host then s.stWrite (base + o) v be else s)
          else s.storedWrite pg (base + o) d v be

/-- A write of a window's word (R124, R125, R127). -/
def windowWrite (s : State) (w : WytheIx) (t o : Nat) (v : W32) (be : BitVec 4) : State :=
  let m := mergeBytes 0 v be
  let x := s.window w t
  let merged := fun (k : SMap W32) (i : Nat) => sput (fun _ => 0) k i (mergeBytes (sget (fun _ => 0) k i) v be)
  if be = 0 then s
  else if o = 0x000 then s.acceptCmd w t (fld m 7 0) (BitVec.ofNat 8 (fld m 31 24)) (flag m 16)
  else if o = 0x004 then s.onlyIf (flag m 30) (fun s => s.updWindow w t (fun x => { x with rejected := false }))
  else if o = 0x00C then s.updWindow w t (fun x => { x with resps := x.resps.drop 1 })
  else if inWords o 0x040 20 then s.updWindow w t (fun y => { y with keys := merged x.keys ((o - 0x040) / 4) })
  else if inWords o 0x090 8 then s.updWindow w t (fun y => { y with datas := merged x.datas ((o - 0x090) / 4) })
  else s

/-- A write of the word at `addr` by `a`; one that reaches nothing is ignored (R28, R190, R523). -/
def busWrite (s : State) (a : Agent) (addr : Nat) (v : W32) (be : BitVec 4) : State :=
  let addr := addr - addr % 4
  match pageOf addr with
  | some pg =>
    let go := if pg.type = 0x07 then s.debugReach a else s.regionReach a addr
    if go then s.pageWrite a pg (pageBase addr) (addr % 0x1000) v be else s
  | none => match windowAt addr with
    | some (w, t, o) => if s.regionReach a addr then s.windowWrite w t o v be else s
    | none => s

end State

/-- REGISTER_WRITE: any write of a register by the host, firmware or JTAG (R5, R8, R190, R447). -/
def execRegisterWrite (a : Agent) (addr : Nat) (value : W32) (be : BitVec 4) (s : State) : Res := .next (s.busWrite a addr value be)
/-- EVENT_CLEAR: ones written to EV_RAW of the page (R448). -/
def execEventClear (a : Agent) (addr : Nat) (mask : W32) (s : State) : Res := .next (s.busWrite a (addr + 0x10) mask 0xF)
/-- EV_FORCE (R448, R450). -/
def execEvForce (a : Agent) (addr : Nat) (mask : W32) (s : State) : Res := .next (s.busWrite a (addr + 0x1C) mask 0xF)
/-- COUNTER_LO_READ: the LO of a counter is read, and its upper bits are latched (R9). -/
def execCounterLoRead (a : Agent) (addr : Nat) (s : State) : Res :=
  let (v, s1) := s.busRead a (addr - addr % 8)
  .next (s1.answer v)
/-- OVERFLOW_CLEAR: a 1 is written to bit 31 of a counter's HI (R9). -/
def execOverflowClear (a : Agent) (addr : Nat) (s : State) : Res := .next (s.busWrite a (addr - addr % 8 + 4) 0x80000000 0xF)
/-- RC_READ: a register is read, and a field that is cleared by reading clears (R5). -/
def execRcRead (a : Agent) (addr : Nat) (s : State) : Res :=
  let (v, s1) := s.busRead a addr
  .next (s1.answer v)

/-- DBG_ACCESS (R541, R542): Update-DR makes the access, and Capture-DR shows what the previous read returned; a read's data is held
for the next access. -/
def execDbgAccess (write : Bool) (offset : BitVec 12) (data : W32) (s : State) : Res :=
  let s1 := s.setIr 0x10
  if s1.tapActs ≠ 0x10 then .next s1
  else
    let s2 := s1.answer s.dbgUnit.jtagData
    let at_ := pgDebug + offset.toNat
    if write then .next (s2.busWrite .jtag at_ data 0xF)
    else
      let (v, s3) := s2.busRead .jtag at_
      .next (s3.setDebug (fun d => { d with jtagData := v }))
/-- PROOF of the TAP: an Update-DR with 1 writes PROOF to MODE.REQUEST (R475, R541). -/
def execJtagProof (bit : Bool) (s : State) : Res :=
  let s1 := s.setIr 0x08
  .next (if bit then s1.requestMode 1 else s1)

end Sys2Proof.Machine
end

