-- ==== Sys2Proof/Machine/Flow.lean ====
section
/-! DEFINITION. Eoren control flow, system and context control (R147, R156, R213–R216). -/

namespace Sys2Proof.Machine
namespace State

/-! Branches (R156). -/

/-- Prediction runs: RUN timing and PREDICT_EN. -/
def predicts (s : State) (x : CtxId) : Bool := !s.plumb x.w x.core.ix && flag (s.coreCfg x.w (8 * x.c.val) 0x124) 2
/-- Place of a branch in the 256-entry target buffer. -/
def btbIndex (pc : Nat) : Nat := pc / 2 % 256
/-- The target that the buffer holds for the branch at `pc`, where prediction runs. -/
def btbHit (s : State) (x : CtxId) (pc : Nat) : Option Nat :=
  if s.predicts x then match sfind (s.core x.w x.core.ix).btb (btbIndex pc) with
    | some (a, t) => if a = pc then some t else none
    | none => none
  else none
/-- The branch at `pc` to `target` was mispredicted: the buffer held another target, or it was not taken; not in the buffer, a conditional
one went the other way than its direction says; with PREDICT_EN 0 every taken one was. -/
def mispredicted (s : State) (x : CtxId) (pc target : Nat) (cond taken : Bool) : Bool :=
  if s.plumb x.w x.core.ix then false
  else if !s.predicts x then taken
  else match s.btbHit x pc with
    | some t => !taken || t != target
    | none => cond && taken != decide (target < pc)
/-- Cycles from a branch to its context's next instruction; `miss` for an unconditional one that is not in the buffer (R156, R213). -/
def branchRun (s : State) (x : CtxId) (pc target : Nat) (cond taken : Bool) (miss : Nat) : Nat :=
  if s.mispredicted x pc target cond taken then max 5 miss
  else if (s.btbHit x pc).isSome || !taken then 1 else miss
/-- The branch's successors on the path it was predicted to take may have issued before it resolves in X1: the prediction came from the
buffer or was that it falls through, not at DC. -/
def killsPath (s : State) (x : CtxId) (pc target : Nat) (cond taken : Bool) : Bool :=
  s.mispredicted x pc target cond taken && (!s.predicts x || (s.btbHit x pc).isSome || taken)
/-- A branch resolves: its cost, on a plumb core `own` slots, its counts, and the buffer learns a taken one. -/
def resolve (s : State) (x : CtxId) (target : Nat) (cond taken : Bool) (miss : Nat := 3) (own : Nat := 1) : State :=
  let i := x.core.ix
  let pc := (s.ctx x).pcx.toNat
  let s1 := s.onlyIf (s.mispredicted x pc target cond taken) (fun s => (s.count (pgCore x.w i + 0x58) 1).pmc x.w i 0x08 (some x.x) 1)
  let s2 := ((s1.onlyIf taken (fun s => s.pmc x.w i 0x07 (some x.x) 1)).cost x (s.branchRun x pc target cond taken miss) own).onlyIf
    (s.killsPath x pc target cond taken) (fun s => s.killsAfter x 2)
  if taken && !s.plumb x.w i then s2.updCore x.w i (fun k => { k with btb := sins k.btb (btbIndex pc) (pc, target) }) else s2
/-- A taken branch. -/
def goTo (s : State) (x : CtxId) (target : W24) (cond : Bool) (miss : Nat := 3) (own : Nat := 1) : Effect :=
  let t := target &&& 0xFFFFFE#24
  .jump t (s.resolve x t.toNat cond true miss own)
/-- The absolute target of L-J. -/
def absTarget (t : BitVec 22) : W24 := BitVec.ofNat 24 (2 * t.toNat)

/-! The stack (R214). -/

/-- An address of the stack: in the data scratchpad or the own course banks. -/
def onStack (s : State) (x : CtxId) (p : Nat) : Bool :=
  match areaOf x (s.ctx x).sr p with
  | .data _ => true
  | .bank _ _ => true
  | _ => false
/-- Why a stack access faults: its first half that does, with that half's address (R167). -/
def stackFault (s : State) (x : CtxId) (a : Nat) : Option (Nat × Nat) :=
  (accessParts a 4).findSome? (fun p => (if s.onStack x p then s.partFault x p 4 else some fUNMAPPED).map (fun c => (c, p)))
/-- CALL and CALLR: push the following instruction's address and jump. The store of fewer than 8 bytes is dropped where the rest of
its word cannot be read (R309). -/
def call (s : State) (x : CtxId) (len : Nat) (target : W24) (miss : Nat) (ecc : EccReport) : Effect :=
  let c := s.ctx x
  let a := c.a[7] - 4#24
  match s.stackFault x a.toNat with
  | some (code, p) => .fault code p (if code = 1 then s.accessNotes x a.toNat 4 else s)
  | none =>
    if s.storeFull x then .wait
    else
      let (bad, s0) := s.accessCheck x a.toNat 4 ecc
      let s1 := (s0.splitNote x a.toNat 4).onlyIf bad.isNone (fun s => s.storeMem x a.toNat 4 (c.pcx.toNat + len))
      (s1.updCtx x (fun c => c.setA 7 a)).goTo x target false miss
/-- RET. -/
def ret (s : State) (x : CtxId) (ecc : EccReport) : Effect :=
  let a := (s.ctx x).a[7]
  match s.stackFault x a.toNat with
  | some (code, p) => .fault code p (if code = 1 then s.accessNotes x a.toNat 4 else s)
  | none =>
    match s.accessCheck x a.toNat 4 ecc with
    | (some (code, p), s1) => .fault code p s1
    | (none, s1) =>
      let t := BitVec.ofNat 24 ((s.seenBy x).memValue x a.toNat 4)
      let inBank := (areaBank (areaOf x (s.ctx x).sr a.toNat)).isSome
      ((s1.splitNote x a.toNat 4).updCtx x (fun c => c.setA 7 (a + 4#24))).goTo x t false 6 (if inBank then 3 else 2)
/-- RETI: PCX, SR, A0 and D0 come back from the shadow registers, and the innermost entry's handler has ended (R153, R162, R170, R182). -/
def reti (s : State) (x : CtxId) : Effect :=
  if x.x ≠ 0 then s.illegal x
  else
    let k := s.core x.w x.core.ix
    let s1 := s.updCtx x (fun c => { (c.setA 0 k.sa0).setD 0 k.sd0 with sr := k.ssr &&& srMask })
    .jump k.spcx ((s1.updCore x.w x.core.ix (fun k => { k with handlers := k.handlers.drop 1 })).cost x 5 1)

/-! Context control (R147). -/

/-- A CTX instruction outside context 0 is ILLEGAL; one that acts sets Z, one that does not clears it. -/
def ctxCmd (s : State) (i : Issue) (reads : List Reg) (ok acts : State → Bool) (f : State → State) : State :=
  s.issue i true reads (fun s =>
    if i.id.x ≠ 0 || !ok s then s.illegal i.id
    else
      let z := acts s
      .done ((s.onlyIf z f).updCtx i.id (fun c => { c with sr := setZ c.sr z })))
/-- The context that a CTX instruction names. -/
def ctxTarget (i : Issue) (c : CtxIx) : CtxId := CtxId.sib i.id c
/-- It is STOPPED or FAULTED. -/
def ctxIdle (s : State) (x : CtxId) : Bool := (s.ctx x).state == .stopped || (s.ctx x).state == .faulted
/-- Products of another context that are due have landed. -/
def settleOne (s : State) (x : CtxId) : State := s.updCtx x (settleCtx (s.core x.w x.core.ix).cycle)
/-- A register of another context: the shadow registers are context 0's alone. -/
def sibRegOk (c : CtxIx) (r : Reg) : Bool := !Reg.reservedNo r && (!Reg.shadow r || c == 0)

end State

/-- Bcc (R197, R213). -/
def execBcc (i : Issue) (cc : BitVec 4) (d : BranchDisp) (s : State) : Res :=
  let (long, disp) := match d with
    | .short v => (false, v.signExtend 24)
    | .long v => (true, v.signExtend 24)
  .next (s.issue i long [] (fun s =>
    let c := s.ctx i.id
    let t := c.pcx + disp + disp
    if cc = 0xF then s.illegal i.id
    else if condHolds cc c.sr then s.goTo i.id t (cc != 0xE)
    else .done (s.resolve i.id (t &&& 0xFFFFFE#24).toNat true false)))
/-- JMP (R213). -/
def execJmp (i : Issue) (t : BitVec 22) (s : State) : Res := .next (s.issue i true [] (fun s => s.goTo i.id (State.absTarget t) false))
/-- CALL (R214). -/
def execCall (i : Issue) (t : BitVec 22) (s : State) : Res := .next (s.issue i true [.a 7] (addrs := [.a 7]) (fun s => s.call i.id 4 (State.absTarget t) 3 i.dataEcc))
/-- JMPR (R213). -/
def execJmpr (i : Issue) (n : Fin 8) (s : State) : Res :=
  .next (s.issue i false [.a n] (addrs := [.a n]) (fun s => s.goTo i.id (s.ctx i.id).a[n.val] false 5))
/-- CALLR (R214). -/
def execCallr (i : Issue) (n : Fin 8) (s : State) : Res :=
  .next (s.issue i false [.a n, .a 7] (addrs := [.a n, .a 7]) (fun s => s.call i.id 2 (s.ctx i.id).a[n.val] 5 i.dataEcc))
/-- RET (R214). -/
def execRet (i : Issue) (s : State) : Res := .next (s.issue i false [.a 7] (addrs := [.a 7]) (fun s => s.ret i.id i.dataEcc))
/-- RETI (R162, R214). -/
def execReti (i : Issue) (s : State) : Res := .next (s.issue i false [] (fun s => s.reti i.id))
/-- NOP (R213). -/
def execNop (i : Issue) (s : State) : Res := .next (s.issue i false [] (fun s => .done s))
/-- ISYNC (R165): the fetch buffer it discards is not part of the state (log 9). -/
def execIsync (i : Issue) (s : State) : Res := .next (s.issue i false [] (fun s => .done (s.cost i.id 3 1)))
/-- ICINV of the whole cache: it takes 64 cycles (R166). -/
def execIcinv (i : Issue) (s : State) : Res :=
  .next (s.issue i false [] (fun s => .done ((s.updCore i.id.w i.id.core.ix (fun k => { k with icache := [] })).cost i.id 64 8)))
/-- ICINV of the line that holds an address: modes 0 and 6 (R166, R215). -/
def execIcinvMem (i : Issue) (m : MemOp) (s : State) : Res :=
  .next (s.issue i true (memReads m) (addrs := [.a m.an]) (fun s =>
    let ok := match m.mode with
      | .disp _ => m.long
      | .index _ => m.long
      | _ => false
    match ok, effAddr (s.ctx i.id) m 1 with
    | true, some e => .done (s.updCore i.id.w i.id.core.ix (fun k => { k with icache := k.icache.filter (fun l => l != e.addr.toNat / 32) }))
    | _, _ => s.illegal i.id))
/-- TDISARM (R220). -/
def execTdisarm (i : Issue) (s : State) : Res :=
  .next (s.issue i false [] (fun s => .done (s.updCtx i.id (fun c => { c with armed := false }))))
/-- BKPT (R216, R540). -/
def execBkpt (i : Issue) (s : State) : Res :=
  .next (if s.mayIssue i [] && (s.ctx i.id).bkpt && s.debugAllowed i.id.w i.id.c.val then
    ((s.updCtx i.id (fun c => { c with stepping := false })).setCtxState i.id .halted).count (pgDebug + 0x40) 1
  else s.issue i false [] (fun s => .done s))
/-- CTXSET (R147, R211): PCX, as the other registers that are read only, is no target (R202). -/
def execCtxset (i : Issue) (c : CtxIx) (r src : Reg) (s : State) : Res :=
  let x := State.ctxTarget i c
  .next (s.ctxCmd i [src] (fun _ => State.sibRegOk c r && !Reg.readOnly r && regOk i.id src false false) (fun s => s.ctxIdle x)
    (fun s =>
      let (v, s1) := s.readReg i.id src
      (s1.settleOne x).writeReg x r false v))
/-- CTXGET (R147, R211): its result is usable two cycles on (R215). -/
def execCtxget (i : Issue) (dst : Reg) (c : CtxIx) (r : Reg) (s : State) : Res :=
  let x := State.ctxTarget i c
  .next (s.ctxCmd i [] (fun _ => State.sibRegOk c r && regOk i.id dst true false) (fun s => s.ctxIdle x)
    (fun s =>
      let (v, s1) := (s.settleOne x).readReg x r
      (s1.writeReg i.id dst false v).resultAt i.id [dst] false (s.cycleOf i.id + 2)))
/-- CTXGO (R147). -/
def execCtxgo (i : Issue) (c : CtxIx) (s : State) : Res :=
  let x := State.ctxTarget i c
  .next (s.ctxCmd i [] (fun _ => true) (fun s => s.ctxIdle x) (fun s => s.setCtxState x .running))
/-- CTXSTOP: the context is STOPPED when the instructions it has issued have completed (R147). -/
def execCtxstop (i : Issue) (c : CtxIx) (s : State) : Res :=
  let x := State.ctxTarget i c
  .next (s.ctxCmd i [] (fun _ => true)
    (fun s => !s.chaseOwned x && ((s.ctx x).state == .running || (s.ctx x).state == .waiting))
    (fun s => (s.updCtx x (fun c => { c with stopDue := true })).stopIfDone x))

end Sys2Proof.Machine
end

