-- ==== Sys2Proof/Machine/Events.lean ====
section
/-! DEFINITION. Eoren table lookups, events, channels, coprocessor and verdict instructions (R132–R138, R217–R224, R287–R298). -/

namespace Sys2Proof.Machine
namespace State

/-! TLOOK (R132–R137, R217). -/

/-- Bytes of the key block that a table reads (R132). -/
def keyLen : LookTable → Nat
  | .trie4 => 4
  | .trie6 => 8
  | .learn => 14
  | .index => 2
/-- The key block must be aligned, in the data scratchpad, the slug window or a course bank. -/
def keyFault (s : State) (x : CtxId) (a n : Nat) : Option (Nat × Nat) :=
  if a % 2 ≠ 0 then some (0x06, a)
  else match ((List.range (n / 2)).map (fun i => (a + 2 * i) % 0x1000000)).find? (fun p => match areaOf x (s.ctx x).sr p with
    | .inst _ => true
    | .device _ => true
    | _ => false) with
    | some p => some (fUNMAPPED, p)
    | none => s.blockFault x a n
/-- The forme number of a lookup: the FORME field in the window, or the active forme's when it holds no slug (R133). -/
def lookForme (s : State) (x : CtxId) : W16 :=
  match (s.ctx x).slug with
  | some g => BitVec.ofNat 16 (beAt g.bytes 0x90 2)
  | none => s.formeNo x.w

def tlook (s : State) (x : CtxId) (ecc : EccReport) (d : Fin 16) (tag : Fin 4) (t : LookTable) (learn refresh : Bool) (n : Fin 8) : Effect :=
  let c := s.ctx x
  let a := c.a[n.val].toNat
  let len := keyLen t
  if !evenReg d || ((learn || refresh) && t != .learn) then s.illegal x
  else if c.looks.any (fun l => l.tag == tag) || areaAwaited c a len then .wait
  else match s.keyFault x a len with
    | some (code, p) => .fault code p (if code = 1 then s.accessNotes x p 2 else s)
    | none =>
      let b := (s.seenBy x).memBytes x a len
      let first := ((List.range (len / 2)).find? (fun i => s.areaView x (areaOf x c.sr ((a + 2 * i) % 0x1000000)) != .on)).getD 0
      let p : PendingLook :=
        { tag := tag, dest := d, table := t, key := BitVec.ofNat 64 (if t = .trie4 then beAt b 0 4 * 2 ^ 32 else if t = .index then beAt b 0 2 else beAt b 0 8)
          data := w32 (beAt b 8 4), flags := BitVec.ofNat 8 (beAt b 12 1), port := learnPort (BitVec.ofNat 8 (beAt b 13 1)), learn := learn, refresh := refresh
          forme := s.lookForme x, issued := s.cycleOf x }
      match s.accessCheck x ((a + 2 * first) % 0x1000000) 2 ecc with
      | (some (code, q), s1) => .fault code q s1
      | (none, s1) => .done ((s1.updCtx x (fun c => { c with looks := c.looks ++ [p] })).pmc x.w x.core.ix 0x09 (some x.x) 1)

/-- PLUMB_LATE of a table page: its counter and event (R137). -/
def lookLate (s : State) (x : CtxId) (t : LookTable) : State :=
  let a := match t with
    | .learn => pgLearn x.w + 0xA0
    | .index => pgIndex x.w + 0x78
    | _ => pgTrie x.w + 0x80
  ((s.count a 1).raiseBit (pageBase a) 1).pmc x.w x.core.ix 0x19 (some x.x) 1
/-- Cycles from a TLOOK to its deadline on a plumb core: 21 own slots for the trie, 15 for the other tables (R136; the core clock is taken
as 1.5 GHz, log 9). -/
def lookDeadline : LookTable → Nat
  | .trie4 => 168
  | .trie6 => 168
  | .learn => 120
  | .index => 120
/-- TLOOK_RESULT: the result of a tag arrives, `after` cycles after the core's latest issue: on a plumb course not before its deadline
(R136), and one that misses it is late (R137). -/
def lookArrives (s : State) (x : CtxId) (tag : Fin 4) (ecc : EccReport) (after : Nat) : State :=
  match (s.ctx x).looks.find? (fun l => l.tag == tag) with
  | none => s
  | some p =>
    let t := s.cycleOf x + after
    let own := s.plumbAt x.w x.core.ix p.issued
    let due := p.issued + lookDeadline p.table
    if own && decide (t < due) then s
    else
      let (v, b, s1) := s.lookWord x p ecc
      let fill := fun (c : Ctx) => match b with
        | some e => (padTo 32 e).zipIdx.foldl (fun c e => setWindowByte c (0xC0 + 0x20 * tag.val + e.2) e.1) c
        | none => c
      let s2 := (s1.updCtx x (fun c => fill { c.setPair p.dest v with looks := c.looks.erase p })).resultAt x (pairRegs p.dest) false t
      (s2.onlyIf (own && decide (due < t)) (fun s => s.lookLate x p.table)).stopIfDone x

/-! Events (R218, R219). -/

/-- EVPOST, made after every earlier store of its core (R193). -/
def evpost (s : State) (x : CtxId) (t : Fin 16) (f : Fin 32) : Effect :=
  let v := ((s.ctx x).d[t.val]).toNat
  let c := bitsOf v 11 9
  if 6 ≤ c ∨ bitsOf v 15 12 ≠ 0 then .fault 0x0A (s.ctx x).pcx.toNat s
  else if s.storesHeld x then .wait
  else .done (s.postTask x.w (8 * c + bitsOf v 8 6) (Fin.ofNat 64 (bitsOf v 5 0)) (w32 (2 ^ f.val)))
/-- EVWAIT: the copy and clear at once, or the context waits. -/
def evwait (s : State) (x : CtxId) (d : Fin 16) (all : Bool) : Effect :=
  let c := s.ctx x
  if !evenReg d then s.illegal x
  else match c.task with
    | none => .fault 0x0B c.pcx.toNat s
    | some t =>
      let k := s.taskOn x.core t
      let s1 := s.updCtx x (fun c => { c with evAll := all })
      if satisfied k.flags c.evw all then
        .done ((s1.updCtx x (fun q => q.setPair d (k.flags &&& c.evw))).updTask x.core t (fun k => { k with flags := k.flags &&& ~~~c.evw }))
      else
        let (n, s2) := s1.stamp x.core
        .done (((s2.updTask x.core t (fun k => { k with since := n })).updCtx x (fun c => { c with waitDest := some d })).setCtxState x .waiting)
/-- EVPOLL: as EVWAIT, without waiting; Z tells that it failed, or that EVW is 0. -/
def evpoll (s : State) (x : CtxId) (d : Fin 16) (all : Bool) : Effect :=
  let c := s.ctx x
  if !evenReg d then s.illegal x
  else match c.task with
    | none => .fault 0x0B c.pcx.toNat s
    | some t =>
      let k := s.taskOn x.core t
      let hit := satisfied k.flags c.evw all
      let fl : Nzcv := ⟨false, !hit || c.evw == 0, false, false⟩
      let s1 := s.updCtx x (fun q => { q.setPair d (if hit then k.flags &&& c.evw else 0) with sr := setFlags q.sr fl })
      .done (if hit then s1.updTask x.core t (fun k => { k with flags := k.flags &&& ~~~c.evw }) else s1)

/-! Channel writers (R221, R222). -/

/-- A context as a writer: its task, or itself. -/
def writerOf (s : State) (x : CtxId) : ChOwner :=
  match (s.ctx x).task with
  | some t => ⟨x.k, false, t.val⟩
  | none => ⟨x.k, true, x.x.val⟩
def chanFault (s : State) (x : CtxId) : Effect := .fault 0x09 (s.ctx x).pcx.toNat s
/-- CHOPEN; as the other channel writes, it waits for the core's earlier stores (R193; log 35). -/
def chopen (s : State) (x : CtxId) (ch : Nat) : Effect :=
  if s.storesHeld x then .wait
  else match (s.chan x.w x.c.val ch).owner with
  | none => .done (s.updChan x.w x.c.val ch (fun h => { h with owner := some (s.writerOf x), words := [], progress := s.now, stalled := none }))
  | some o => if o = s.writerOf x then s.chanFault x else .wait
/-- CHPUT has no free place. -/
def chputWaits (s : State) (x : CtxId) (ch : Nat) : Bool :=
  let h := s.chan x.w x.c.val ch
  h.owner == some (s.writerOf x) && decide (h.words.length < 32) && decide (32 ≤ chanPlaces h)
def chput (s : State) (x : CtxId) (d : Fin 16) (ch : Nat) : Effect :=
  let h := s.chan x.w x.c.val ch
  let c := s.ctx x
  if !evenReg d then s.illegal x
  else if h.owner ≠ some (s.writerOf x) ∨ 32 ≤ h.words.length then s.chanFault x
  else if s.storesHeld x || decide (32 ≤ chanPlaces h) then .wait
  else .done (s.updChan x.w x.c.val ch (fun h => { h with
    words := h.words ++ [(c.pair d).extractLsb' 16 16, (c.pair d).extractLsb' 0 16], progress := s.now, stalled := none }))
def chclose (s : State) (x : CtxId) (ch : Nat) : Effect :=
  if (s.chan x.w x.c.val ch).owner ≠ some (s.writerOf x) then s.chanFault x
  else if s.storesHeld x then .wait
  else .done (s.chanDeliver x.w x.c.val ch false)

/-! Coprocessor instructions (R224, R287, R291, R298). -/

/-- The context's master holds unit `u`. -/
def claimed (s : State) (x : CtxId) (u : Nat) : Bool := (s.cpUnit x.w x.c.val u).holder == some (s.holderOf x)
def notClaimed (s : State) (x : CtxId) : Effect := .fault 0x0C (s.ctx x).pcx.toNat s
def cpcmd (s : State) (x : CtxId) (ecc : EccReport) (d : Fin 16) (u : Fin 4) (n : Fin 8) : Effect :=
  if !s.claimed x u.val then s.notClaimed x
  else
    let (found, block, s1) := s.cpBlock x.w x.c.val (s.ctx x).a[n.val].toNat ecc
    match s1.cpTake x.w x.c (s.holderOf x) x.k u.val found block with
    | none => .wait
    | some (_, tag, s2) => .done (s2.updCtx x (fun c => c.setD d (BitVec.ofNat 16 tag)))
/-- In cycle `t` the context issues what will be killed: the path of a branch that goes another way, or what follows a fault (R293). -/
def wrongPath (s : State) (x : CtxId) (t : Nat) : Bool :=
  let c := s.ctx x
  decide (t ≤ (s.timing x).squash) && (c.state == .faulted || (c.state == .running && decide (t < (s.timing x).next)))
/-- The state as the issue stage sees it there: the context goes on. -/
def goesOn (s : State) (x : CtxId) : State :=
  (s.updCore x.w x.core.ix (fun k => { k with timing := kupd {} k.timing x.x.val (fun t => { t with next := 0 }) })).updCtx x
    (fun c => { c with state := .running })
/-- A CPCMD that will be killed: it takes a cycle, a place and a tag, and KILL frees both; nothing else changes (R293). -/
def cpSquash (s : State) (i : Issue) (u : Fin 4) (n : Fin 8) : State :=
  let x := i.id
  let t := s.issueCycle i
  if i.pair || !(s.goesOn x).mayIssue i [.a n] (addrs := [.a n]) then s
  else
    let s1 := s.takeCycle x t i.gap
    if !s.claimed x u.val then s1
    else match s1.cpTake x.w x.c (s.holderOf x) x.k u.val 2 [] with
      | none => s1
      | some (_, _, s2) => s2.cpKill x.w x.c.val (fun p => p.order == (s1.course x.w x.c.val).nextOrder)
def cpstat (s : State) (x : CtxId) (d t : Fin 16) : Effect :=
  let tag := ((s.ctx x).d[t.val]).toNat % 256
  let co := s.course x.w x.c.val
  let put := fun (s : State) (status : Nat) => s.updCtx x (fun c =>
    { c.setD d (BitVec.ofNat 16 (256 * status + tag)) with sr := setFlags c.sr ⟨false, status == 0, false, false⟩ })
  match sfind co.places (tag % 16) with
  | none => .done (put s 0xFF)
  | some p =>
    if kget 15 co.gens (tag % 16) ≠ tag / 16 ∨ p.owner ≠ s.holderOf x then .done (put s 0xFF)
    else if p.state ≠ .done then .wait
    else .done (put (s.updCourse x.w x.c.val (fun k => { k with places := kdel k.places (tag % 16) })) p.status)
/-- CPSAVE and CPREST (R298): the unit must be claimed and idle, and the block 8-byte aligned in the own banks. A CPREST that reads an
uncorrectable error faults as a core's load does (DESIGN CHOICE; log 32). -/
def cpMove (s : State) (x : CtxId) (ecc : EccReport) (u : Fin 4) (n : Fin 8) (save : Bool) : Effect :=
  let a := (s.ctx x).a[n.val].toNat
  let size := stateSize u.val
  let h := s.holderOf x
  if !s.claimed x u.val then s.notClaimed x
  else if s.cpOutstanding x.w x.c.val (fun p => p.unit == u.val && p.owner == h) then .wait
  else if a % 8 ≠ 0 ∨ a < 0x400000 ∨ 0x800000 ≤ a ∨ 0x800000 < a + size then .fault fUNMAPPED a s
  else
    let o := a - 0x400000
    let v := if size = 0 then BankView.on else s.bankRange x.w x.c.val o size
    let s1 := s.bankRefused x.w x.c.val v
    match v with
    | .retained => .fault 0x01 a s1
    | _ =>
      let s2 := if v = .off then s1.offBank x a else s1
      let ecc := if save || size == 0 || v == .off then .good else ecc
      match ecc with
      | .uncorrectable => .fault 0x0E a (s2.bankUncorrectable x.w x.c.val o)
      | e =>
        let s3 := s2.onlyIf (e == .corrected) (fun s => s.bankCorrected x.w x.c.val)
        .done ((if save then s3.cpSave x.w x.c.val u.val o else s3.cpRest x.w x.c.val u.val o).cost x 1 4)

/-! VERD (R17, R224, R242, R267, R268). -/

/-- Bytes of the descriptor block. -/
def verdLen (s : State) (x : CtxId) (k : VerdKind) (a : Nat) : Nat :=
  match k with
  | .forward => 32
  | .multi => 36 + 4 * min 16 (s.memByte x ((a + 32) % 0x1000000)).toNat
  | _ => 0
def verd (s : State) (x : CtxId) (ecc : EccReport) (k : VerdKind) (n : Fin 8) : Effect :=
  let c := s.ctx x
  let a := c.a[n.val].toNat
  match c.slug with
  | none => .fault 0x0D c.pcx.toNat s
  | some g =>
    let m := s.seenBy x
    let len := m.verdLen x k a
    if areaAwaited c a len then .wait
    else
    let addrs := (List.range len).map (fun i => (a + i) % 0x1000000)
    match addrs.findSome? (fun p => s.accessFault x p 1) with
    | some (code, p) => .fault code p (if code = 1 then s.accessNotes x p 1 else s)
    | none =>
      let b := m.memBytes x a len
      let v := match k with
        | .forward => Verdict.forward b
        | .drop => .drop
        | .multi => .multi b
        | .hold => .hold
      let bank := (addrs.find? (fun p => s.areaView x (areaOf x c.sr p) != .on)).getD a
      match if len = 0 then (none, s) else s.accessCheck x bank 1 ecc with
      | (some (code, p), s1) => .fault code p s1
      | (none, s1) =>
        let s2 := s1.updColl x.w (fun q => { q with verdicts := q.verdicts ++ [⟨some (g.slot, g.serial), v, w32 (beAt g.bytes 0x84 4)⟩] })
        let t := (s.core x.w x.core.ix).cycle
        .done ((s2.updCtx x (fun c => { c with slugEnds := some (c.slugEnds.getD (t + 5)) })).pmc x.w x.core.ix 0x16 (some x.x) 1)

end State

/-- TLOOK (R217). -/
def execTlook (i : Issue) (d : Fin 16) (tag : Fin 4) (t : LookTable) (learn refresh : Bool) (n : Fin 8) (s : State) : Res :=
  .next (s.issue i true [.a n] (addrs := [.a n]) (fun s => s.tlook i.id i.dataEcc d tag t learn refresh n))
/-- TLOOK_RESULT (R134). -/
def execTlookResult (x : CtxId) (tag : Fin 4) (ecc : EccReport) (after : Nat) (s : State) : Res := .next (s.lookArrives x tag ecc after)
/-- EVPOST (R218). -/
def execEvpost (i : Issue) (t : Fin 16) (f : Fin 32) (s : State) : Res := .next (s.issue i true [.d t] (fun s => s.evpost i.id t f))
/-- EVWAIT (R218, R219). -/
def execEvwait (i : Issue) (d : Fin 16) (all : Bool) (s : State) : Res := .next (s.issue i true [] (fun s => s.evwait i.id d all))
/-- EVPOLL (R218, R219). -/
def execEvpoll (i : Issue) (d : Fin 16) (all : Bool) (s : State) : Res := .next (s.issue i true [] (fun s => s.evpoll i.id d all))
/-- CHOPEN (R221, R222). -/
def execChopen (i : Issue) (ch : Fin 64) (s : State) : Res := .next (s.issue i true [] (fun s => s.chopen i.id ch.val))
/-- CHPUT (R221, R222): while it waits for a free place, the hold limit's clock stands (R244). -/
def execChput (i : Issue) (d : Fin 16) (ch : Fin 64) (s : State) : Res :=
  .next (if s.mayIssue i (pairRegs d) && evenReg d && s.chputWaits i.id ch.val then
    s.updChan i.id.w i.id.c.val ch.val (fun h => { h with stalled := some (h.stalled.getD s.now) })
  else s.issue i true (pairRegs d) (fun s => s.chput i.id d ch.val))
/-- CHCLOSE (R221, R222). -/
def execChclose (i : Issue) (ch : Fin 64) (s : State) : Res := .next (s.issue i true [] (fun s => s.chclose i.id ch.val))
/-- CPCMD (R224). -/
def execCpcmd (i : Issue) (d : Fin 16) (u : Fin 4) (n : Fin 8) (s : State) : Res :=
  .next (if s.wrongPath i.id (s.issueCycle i) then s.cpSquash i u n else s.issue i true [.a n] (addrs := [.a n]) (fun s => s.cpcmd i.id i.dataEcc d u n))
/-- CPSTAT (R224). -/
def execCpstat (i : Issue) (d t : Fin 16) (s : State) : Res := .next (s.issue i true [.d t] (fun s => s.cpstat i.id d t))
/-- CPSAVE (R298). -/
def execCpsave (i : Issue) (u : Fin 4) (n : Fin 8) (s : State) : Res := .next (s.issue i true [.a n] (addrs := [.a n]) (fun s => s.cpMove i.id i.dataEcc u n true))
/-- CPREST (R298). -/
def execCprest (i : Issue) (u : Fin 4) (n : Fin 8) (s : State) : Res := .next (s.issue i true [.a n] (addrs := [.a n]) (fun s => s.cpMove i.id i.dataEcc u n false))
/-- The register a verdict reads: DROP and HOLD ignore An (R224). -/
def verdReads (k : VerdKind) (n : Fin 8) : List Reg :=
  match k with
  | .forward => [.a n]
  | .multi => [.a n]
  | _ => []
/-- VERD (R224). -/
def execVerd (i : Issue) (k : VerdKind) (n : Fin 8) (s : State) : Res := .next (s.issue i true (verdReads k n) (addrs := verdReads k n) (fun s => s.verd i.id i.dataEcc k n))

end Sys2Proof.Machine
end

