-- ==== Sys2Proof/Machine/Loads.lean ====
section
/-! DEFINITION. Loads, stores and CHGET (R160, R167, R177, R178, R185–R193, R212, R221–R223, R233). -/

namespace Sys2Proof.Machine

/-- The registers a load or store of `size` bytes accepts (R178, R212): a D register, for 32 bits an even one, or an A register
for 16 and 32 bits. -/
def memRegOk (r : Reg) (size : Nat) : Bool :=
  match r with
  | .d n => size != 4 || evenReg n
  | .a _ => size != 1
  | _ => false
/-- The registers that a store reads, or a load writes, beside its operand's. -/
def dataRegs (r : Reg) (size : Nat) : List Reg :=
  match r, size with
  | .d n, 4 => pairRegs n
  | r, _ => [r]
/-- What a load of `size` bytes leaves in its register (R177, R178, R192). -/
def loadInto (c : Ctx) (r : Reg) (size v : Nat) : Ctx :=
  match r with
  | .d n => if size = 4 then c.setPair n (w32 v) else c.setD n (BitVec.ofNat 16 v)
  | .a n => c.setA n (BitVec.ofNat 24 v)
  | _ => c
/-- What a store of `size` bytes takes from its register (R177). -/
def storeFrom (c : Ctx) (r : Reg) (size : Nat) : Nat :=
  match r with
  | .d n => if size = 4 then (c.pair n).toNat else c.d[n.val].toNat % 2 ^ (8 * size)
  | .a n => c.a[n.val].toNat % 2 ^ (8 * size)
  | _ => 0
/-- The half of a register word that a 16-bit access at a device address names: bits [31:16] at the lower address (R178, R190). -/
def upperHalf (addr : Nat) : Bool := addr % 4 < 2
/-- The part of a register word that a device load returns (R190). -/
def devicePart (v : W32) (addr size : Nat) : Nat :=
  if size = 4 then v.toNat else if upperHalf addr then fld v 31 16 else fld v 15 0

namespace State

/-- A device load reads its register (R190). -/
def deviceLoad (s : State) (x : CtxId) (addr size : Nat) : Nat × State :=
  let (v, s1) := s.busRead (.mason x) addr
  (devicePart v addr size, s1)
/-- A device store writes its register, or the half of it that it names (R190). -/
def deviceStore (s : State) (x : CtxId) (addr size v : Nat) : State :=
  if size = 4 then s.busWrite (.mason x) addr (w32 v) 0xF
  else if upperHalf addr then s.busWrite (.mason x) addr (w32 (v * 65536)) 0xC
  else s.busWrite (.mason x) addr (w32 v) 0x3

/-- A load of MOVE_STATUS waits at the register until the context's moves have ended (R264). -/
def loadWaits (s : State) (x : CtxId) (addr : Nat) : Bool :=
  addr - addr % 4 == pgGalley x.w + 0x1E4 && s.moveWaits x.w (moveOwner (.mason x))

/-- A device load follows the context's device stores that are held (R193). -/
def loadHeld (s : State) (x : CtxId) (a : Nat) : Bool :=
  let device := fun (sr : W16) (p : Nat) => match areaOf x sr p with
    | .device _ => true
    | _ => false
  device (s.ctx x).sr a && ((s.core x.w x.core.ix).storeQ.any (fun q => q.ctx == x.x && device q.sr q.addr) ||
    (!(areaOf x (s.ctx x).sr a == .device (pgGalley x.w + 0x1E4)) && (s.wy x.w).galley.heldMoves.any (fun m => m.owner == some (ctxNo x))))

/-- A load that is answered later is on its way to its register. -/
def loadOut (s : State) (x : CtxId) (r : Reg) (a size : Nat) (v : Option Nat) : State :=
  s.updCtx x (fun c => { c with loads := c.loads ++ [⟨r, a, size, c.pcx, v, s.cycleOf x⟩] })
/-- A near load's result is usable `n` cycles on; one into an A register as an address a cycle later where `late` (R150). -/
def loadedAt (s : State) (x : CtxId) (r : Reg) (size n : Nat) (late : Bool) : State :=
  let t := s.cycleOf x + n
  let s1 := s.resultAt x (dataRegs r size) false t
  match r with
  | .a _ => s1.onlyIf late (fun s => s.resultAt x [r] true (t + 1))
  | _ => s1
/-- A checked load of `size` bytes at data address `a`: memory near the core answers by R150, a course bank on a plumb core at the cost of
two own slots (R160); a far bank and a device register are read in program order and their answer arrives later (R160, R189, R193). -/
def loadFrom (s : State) (x : CtxId) (r : Reg) (a size : Nat) : State :=
  let i := x.core.ix
  let now := fun (s : State) => s.updCtx x (fun c => loadInto c r size ((s.seenBy x).memValue x a size))
  match areaOf x (s.ctx x).sr a with
  | .far _ _ => (s.loadOut x r a size (some ((s.seenBy x).memValue x a size))).pmc x.w i 0x0D (some x.x) 1
  | .device d =>
    let s1 := s.pmc x.w i 0x0E (some x.x) 1
    if s.loadWaits x d then s1.loadOut x r a size none
    else
      let (v, s2) := s1.deviceLoad x d size
      s2.loadOut x r a size (some v)
  | .bank _ _ => ((((now s).loadedAt x r size 6 false).cost x 1 2)).pmc x.w i 0x0B (some x.x) 1
  | _ => (now s).loadedAt x r size 2 true
/-- A checked store is made, or goes behind those that are held. -/
def storeTo (s : State) (x : CtxId) (a size v : Nat) : State :=
  match areaOf x (s.ctx x).sr a with
  | .device d => if s.storesHeld x then s.queueStore x a size v else s.deviceStore x d size v
  | _ => s.storeMem x a size v
/-- A held store is made. -/
def makeStore (s : State) (k : CoreId) (q : QStore) : State :=
  let x : CtxId := ⟨k.w, k.c, k.k, q.ctx⟩
  match areaOf x q.sr q.addr with
  | .device d => s.deviceStore x d q.size q.value
  | _ => s.withSr x q.sr (fun s => s.setMemValue x q.addr q.size q.value)
/-- Held stores are made in order, up to one to MOVE_POST that still finds no place (R263). -/
def drainList (s : State) (k : CoreId) : List QStore → State
  | [] => s.updCore k.w k.ix (fun c => { c with storeQ := [] })
  | q :: r =>
    if s.heldByMove ⟨k.w, k.c, k.k, 0⟩ != 0 then s.updCore k.w k.ix (fun c => { c with storeQ := q :: r })
    else (s.makeStore k q).drainList k r
/-- The stores that the cores of a wythe hold go on. -/
def drainStores (s : State) (w : WytheIx) : State :=
  s.each (List.range 48) (fun s i => s.onlyIf (!(s.core w i).storeQ.isEmpty) (fun s => s.drainList (coreOf w i) (s.core w i).storeQ))

/-- The far banks' check bits are reported with the answer. -/
def loadEcc (s : State) (x : CtxId) (a : Nat) (ecc : EccReport) : EccReport :=
  match areaOf x (s.ctx x).sr a with
  | .far _ _ => .good
  | _ => ecc
/-- The registers that an access changes through its operand's addressing mode (R185). -/
def modeWrites (m : MemOp) : List Reg :=
  match m.mode with
  | .disp _ => []
  | .index _ => []
  | _ => [.a m.an]
/-- An access that is split issues alone (R155, R167). -/
def splits (s : State) (x : CtxId) (m : MemOp) (size : Nat) : Bool :=
  match effAddr (s.ctx x) m size with
  | some e => splitAccess e.addr.toNat size
  | none => false
/-- A load or a store as a half of a pair. -/
def accessHalf (s : State) (x : CtxId) (rs : List Reg) (m : MemOp) (size : Nat) : Option Half :=
  if s.splits x m size then none else addrHalf (rs ++ modeWrites m)
/-- LD.B, LD and LD.L: the base register is updated, and the load's own result wins where they name one register. -/
def load (s : State) (i : Issue) (r : Reg) (m : MemOp) (size : Nat) : State :=
  let x := i.id
  s.issue i m.long (memReads m) (half := s.accessHalf x (dataRegs r size) m size) (addrs := [.a m.an]) (fun s =>
    if !memRegOk r size then s.illegal x
    else match effAddr (s.ctx x) m size with
      | none => s.illegal x
      | some e =>
        let a := e.addr.toNat
        if (s.accessFault x a size).isNone && (areaAwaited (s.ctx x) a size || s.loadHeld x a) then .wait
        else match s.accessCheck x a size (s.loadEcc x a i.dataEcc) with
          | (some (code, p), s1) => .fault code p s1
          | (none, s1) => .done (((s1.splitNote x a size).updCtx x (fun c => c.setA m.an e.base)).loadFrom x r a size))
/-- ST.B, ST and ST.L: a store whose word's other bytes cannot be read is dropped and counted (R309). -/
def store (s : State) (i : Issue) (r : Reg) (m : MemOp) (size : Nat) : State :=
  let x := i.id
  s.issue i m.long (dataRegs r size ++ memReads m) (half := s.accessHalf x [] m size) (addrs := [.a m.an]) (fun s =>
    if !memRegOk r size then s.illegal x
    else match effAddr (s.ctx x) m size with
      | none => s.illegal x
      | some e =>
        let a := e.addr.toNat
        match s.accessFault x a size with
        | some (code, p) => .fault code p (if code = 1 then s.accessNotes x a size else s)
        | none =>
          if s.storeFull x then .wait
          else
          let (bad, s1) := s.accessCheck x a size i.dataEcc
          let s2 := (s1.splitNote x a size).onlyIf bad.isNone (fun s1 => s1.storeTo x a size (storeFrom (s.ctx x) r size))
          .done (s2.updCtx x (fun c => c.setA m.an e.base)))

/-- The earliest cycle of an answer: on a plumb core 32 own slots after the load, otherwise 20 cycles, 14 from a far bank (R150, R160,
R189). -/
def loadEarliest (s : State) (x : CtxId) (l : PendingLoad) : Nat :=
  l.issued + if s.plumbAt x.w x.core.ix l.issued then 256 else if farLoad l then 14 else 20
/-- The answer to a window or far-bank load arrives, `after` cycles after the core's latest issue (R160, R189): on a plumb course not
before its deadline, and past it, it is counted and raises PLUMB_LATE; an uncorrectable far word faults at the load, whose register keeps
its value (R309). -/
def loadArrives (s : State) (x : CtxId) (i after : Nat) (ecc : EccReport) : State :=
  let k := x.core.ix
  let pg := pgCore x.w k
  let t := s.cycleOf x + after
  match (s.ctx x).loads[i]? with
  | none => s
  | some l =>
    let ar := areaOf x (s.ctx x).sr l.addr
    let device := match ar with
      | .device d => d
      | _ => 0
    if decide (t < s.loadEarliest x l) || (l.value.isNone && s.loadWaits x device) then s
    else
      let (v, s1) := match l.value with
        | some v => (v, s)
        | none => s.deviceLoad x device l.size
      let s2 := (s1.updCtx x (fun c => { c with loads := c.loads.eraseIdx i })).resultAt x (dataRegs l.reg l.size) false t
      let late := s.plumbAt x.w x.core.ix l.issued && decide (s.loadEarliest x l < t)
      let s3 := (s2.onlyIf late (fun s =>
        (((s.count (pg + 0x78) 1).raiseBit pg 1).interrupt x.w k 6).pmc x.w k 0x19 (some x.x) 1)).onlyIf (farLoad l) (fun s => s.notBefore x t)
      let put := fun (s : State) => (s.updCtx x (fun c => loadInto c l.reg l.size v)).stopIfDone x
      match farLoad l, ecc, areaBank ar with
      | true, .corrected, some (c, _) => put (s3.bankCorrected x.w c)
      | true, .uncorrectable, some (c, o) =>
        ((s3.bankUncorrectable x.w c o).updCtx x (fun c => { c with pcx := l.pc })).fault x 0x0E l.addr
      | _, _, _ => put s3

/-! CHGET (R221, R223). -/

/-- An empty channel makes CHGET wait (R223). -/
def chgetBlocks (s : State) (x : CtxId) (block : Bool) : Bool :=
  let m := (s.wy x.w).mode
  block && (m == .setting || m == .proof || (s.course x.w x.c.val).recovery)
/-- The oldest message leaves the channel: a place is free, and a CHPUT's wait for one has ended (R222, R233, R244). -/
def chanTake (s : State) (w : WytheIx) (c ch : Nat) : State :=
  (s.updChan w c ch (fun h => { h with
    msgs := h.msgs.drop 1, stalled := none
    progress := match h.stalled with
      | some t => h.progress + (s.now - t)
      | none => h.progress })).postCourseBindings w c 1 ch
/-- CHGET. -/
def chget (s : State) (x : CtxId) (d : Fin 16) (ch : Nat) (n : Fin 8) (block : Bool) (ecc : EccReport) : Effect :=
  let a := (s.ctx x).a[n.val].toNat
  let a := a - a % 4
  let put := fun (s : State) (v : Nat) (z : Bool) => s.updCtx x (fun c =>
    { c.setD d (BitVec.ofNat 16 v) with sr := setFlags c.sr ⟨false, z, false, false⟩ })
  if s.storesHeld x then .wait
  else match (s.chan x.w x.c.val ch).msgs with
  | [] => if s.chgetBlocks x block then .wait else .done ((put s 0x8000 true).cost x 1 2)
  | m :: _ =>
    let words := (List.range (m.words.length / 2)).map (fun i =>
      ((a + 4 * i) % 0x1000000, (m.words.getD (2 * i) 0).toNat * 65536 + (m.words.getD (2 * i + 1) 0).toNat))
    match words.findSome? (fun e => s.accessFault x e.1 4) with
    | some (code, p) => .fault code p (if code = 1 then s.accessNotes x p 2 else s)
    | none =>
      let s1 := s.each words (fun s e =>
        let (bad, s1) := s.accessCheck x e.1 4 (if e.1 = a then ecc else .good)
        s1.onlyIf bad.isNone (fun s => s.storeTo x e.1 4 e.2))
      .done ((put (s1.chanTake x.w x.c.val ch) (bitAt m.aborted 14 + words.length) false).cost x 1 2)

end State

/-- LD.B (R212). -/
def execLdB (i : Issue) (r : Reg) (m : MemOp) (s : State) : Res := .next (s.load i r m 1)
/-- LD (R212). -/
def execLd (i : Issue) (r : Reg) (m : MemOp) (s : State) : Res := .next (s.load i r m 2)
/-- LD.L (R212). -/
def execLdL (i : Issue) (r : Reg) (m : MemOp) (s : State) : Res := .next (s.load i r m 4)
/-- ST.B (R212). -/
def execStB (i : Issue) (r : Reg) (m : MemOp) (s : State) : Res := .next (s.store i r m 1)
/-- ST (R212). -/
def execSt (i : Issue) (r : Reg) (m : MemOp) (s : State) : Res := .next (s.store i r m 2)
/-- ST.L (R212). -/
def execStL (i : Issue) (r : Reg) (m : MemOp) (s : State) : Res := .next (s.store i r m 4)
/-- CHGET (R221, R223). -/
def execChget (i : Issue) (d : Fin 16) (ch : Fin 64) (n : Fin 8) (block : Bool) (s : State) : Res :=
  .next (s.issue i true [.a n] (addrs := [.a n]) (fun s => s.chget i.id d ch.val n block i.dataEcc))
/-- WINDOW_LOAD_RESPONSE (R160). -/
def execWindowLoadResponse (x : CtxId) (i after : Nat) (ecc : EccReport) (s : State) : Res := .next (s.loadArrives x i after ecc)
/-- MOVE_END (R264): a place is free, and stores that waited for one go on (R263). -/
def execMoveEnd (w : WytheIx) (ecc dst : EccReport) (s : State) : Res := .next ((s.moveFinish w ecc dst).drainStores w)

end Sys2Proof.Machine
end

