-- ==== Sys2Proof/Machine/Dispatch.lean ====
section
/-! DEFINITION. What each command does: one arm per constructor, each one call of its meaning (R10–R565). -/

namespace Sys2Proof.Machine

/-- A command's effect on everything but the queue. -/
def exec (i : Instr) (s : State) : Host.Outcome State Fault Refusal :=
  match i with
  | .frameArrival w p data => Sys2Proof.Machine.execFrameArrival w p data s
  | .bufferAllocation w p => Sys2Proof.Machine.execBufferAllocation w p s
  | .frameEnd w p codeError => Sys2Proof.Machine.execFrameEnd w p codeError s
  | .compositorIntake w p => Sys2Proof.Machine.execCompositorIntake w p s
  | .spreadingEnd w p parity corrected => Sys2Proof.Machine.execSpreadingEnd w p parity corrected s
  | .recirculation w p => Sys2Proof.Machine.execRecirculation w p s
  | .slugRelease w p => Sys2Proof.Machine.execSlugRelease w p s
  | .takerSelection w c => Sys2Proof.Machine.execTakerSelection w c s
  | .slugDelivery x => Sys2Proof.Machine.execSlugDelivery x s
  | .verdictArrival w j => Sys2Proof.Machine.execVerdictArrival w j s
  | .descriptorRelease w d => Sys2Proof.Machine.execDescriptorRelease w d s
  | .skip w d => Sys2Proof.Machine.execSkip w d s
  | .tieCopyArrival w => Sys2Proof.Machine.execTieCopyArrival w s
  | .tieCopyComplete w => Sys2Proof.Machine.execTieCopyComplete w s
  | .pressAdmission w fromTie => Sys2Proof.Machine.execPressAdmission w fromTie s
  | .frameStart w p => Sys2Proof.Machine.execFrameStart w p s
  | .transmissionEnd w p ecc => Sys2Proof.Machine.execTransmissionEnd w p ecc s
  | .refillTick w => Sys2Proof.Machine.execRefillTick w s
  | .gateEvent w p => Sys2Proof.Machine.execGateEvent w p s
  | .gateListChange w p => Sys2Proof.Machine.execGateListChange w p s
  | .openSession number => Sys2Proof.Machine.execOpenSession number s
  | .pendingSessionOpen => Sys2Proof.Machine.execPendingSessionOpen s
  | .abandon => Sys2Proof.Machine.execAbandon s
  | .stFieldWrite addr value be => Sys2Proof.Machine.execStFieldWrite addr value be s
  | .registerWrite a addr value be => Sys2Proof.Machine.execRegisterWrite a addr value be s
  | .clampClear a => Sys2Proof.Machine.execClampClear a s
  | .lockGo => Sys2Proof.Machine.execLockGo s
  | .lockupValidationEnd => Sys2Proof.Machine.execLockupValidationEnd s
  | .courseImageLoad w c => Sys2Proof.Machine.execCourseImageLoad w c s
  | .drainLimitExpiry => Sys2Proof.Machine.execDrainLimitExpiry s
  | .sweepStart w => Sys2Proof.Machine.execSweepStart w s
  | .sweepEnd w => Sys2Proof.Machine.execSweepEnd w s
  | .persistEnd flashError => Sys2Proof.Machine.execPersistEnd flashError s
  | .trieRootCopyEnd w => Sys2Proof.Machine.execTrieRootCopyEnd w s
  | .poolRelayBuild w dram => Sys2Proof.Machine.execPoolRelayBuild w dram s
  | .poolOpen w dram => Sys2Proof.Machine.execPoolOpen w dram s
  | .read w t tag quiet => Sys2Proof.Machine.execRead w t tag quiet s
  | .write w t tag quiet => Sys2Proof.Machine.execWrite w t tag quiet s
  | .insert w t tag quiet => Sys2Proof.Machine.execInsert w t tag quiet s
  | .delete w t tag quiet => Sys2Proof.Machine.execDelete w t tag quiet s
  | .search w t tag quiet => Sys2Proof.Machine.execSearch w t tag quiet s
  | .nextCmd w t tag quiet => Sys2Proof.Machine.execNextCmd w t tag quiet s
  | .commandExecution w t ecc => Sys2Proof.Machine.execCommandExecution w t ecc s
  | .respNext w t => Sys2Proof.Machine.execRespNext w t s
  | .tlookResult x tag ecc after => Sys2Proof.Machine.execTlookResult x tag ecc after s
  | .learnRequestService w ecc => Sys2Proof.Machine.execLearnRequestService w ecc s
  | .epochChange w => Sys2Proof.Machine.execEpochChange w s
  | .agerVisit w ecc => Sys2Proof.Machine.execAgerVisit w ecc s
  | .create a k t => Sys2Proof.Machine.execCreate a k t s
  | .kill a k t => Sys2Proof.Machine.execKill a k t s
  | .setPrio a k t => Sys2Proof.Machine.execSetPrio a k t s
  | .post a k t => Sys2Proof.Machine.execPost a k t s
  | .postApply w j => Sys2Proof.Machine.execPostApply w j s
  | .waitSatisfied k t => Sys2Proof.Machine.execWaitSatisfied k t s
  | .taskLoad k => Sys2Proof.Machine.execTaskLoad k s
  | .taskExchange k => Sys2Proof.Machine.execTaskExchange k s
  | .swapEnd x => Sys2Proof.Machine.execSwapEnd x s
  | .bindWrite a k n value => Sys2Proof.Machine.execBindWrite a k n value s
  | .timerCompareFire t => Sys2Proof.Machine.execTimerCompareFire t s
  | .quiescence w c => Sys2Proof.Machine.execQuiescence w c s
  | .recoveryEnd a k => Sys2Proof.Machine.execRecoveryEnd a k s
  | .recoveryAck a k => Sys2Proof.Machine.execRecoveryAck a k s
  | .channelForcedClose w c ch => Sys2Proof.Machine.execChannelForcedClose w c ch s
  | .loadWindowEnd k => Sys2Proof.Machine.execLoadWindowEnd k s
  | .alloc a w u => Sys2Proof.Machine.execAlloc a w u s
  | .allocExact a w u => Sys2Proof.Machine.execAllocExact a w u s
  | .free a w value => Sys2Proof.Machine.execFree a w value s
  | .refAdd a w value => Sys2Proof.Machine.execRefAdd a w value s
  | .poolRefillEnd w p ecc => Sys2Proof.Machine.execPoolRefillEnd w p ecc s
  | .poolSpillEnd w p => Sys2Proof.Machine.execPoolSpillEnd w p s
  | .movePost a w value => Sys2Proof.Machine.execMovePost a w value s
  | .moveStart w ecc => Sys2Proof.Machine.execMoveStart w ecc s
  | .moveEnd w ecc dst => Sys2Proof.Machine.execMoveEnd w ecc dst s
  | .moveStatus a w => Sys2Proof.Machine.execMoveStatus a w s
  | .claim a w c u f => Sys2Proof.Machine.execClaim a w c u f s
  | .coprocRelease a w c u => Sys2Proof.Machine.execCoprocRelease a w c u s
  | .commit w c place => Sys2Proof.Machine.execCommit w c place s
  | .coprocCompletion w c place ecc => Sys2Proof.Machine.execCoprocCompletion w c place ecc s
  | .bankPowerWrite a w c value => Sys2Proof.Machine.execBankPowerWrite a w c value s
  | .bankTransitionEnd w c b => Sys2Proof.Machine.execBankTransitionEnd w c b s
  | .marchCmd a w value => Sys2Proof.Machine.execMarchCmd a w value s
  | .marchEnd w e found => Sys2Proof.Machine.execMarchEnd w e found s
  | .acquire a w value => Sys2Proof.Machine.execAcquire a w value s
  | .quoinRelease a w value => Sys2Proof.Machine.execQuoinRelease a w value s
  | .filterUnblock a w f => Sys2Proof.Machine.execFilterUnblock a w f s
  | .markRedClear a w m => Sys2Proof.Machine.execMarkRedClear a w m s
  | .recordAppend w => Sys2Proof.Machine.execRecordAppend w s
  | .sealReq a w => Sys2Proof.Machine.execSealReq a w s
  | .sealAttachment w => Sys2Proof.Machine.execSealAttachment w s
  | .exportBase a w slot => Sys2Proof.Machine.execExportBase a w slot s
  | .exportAck a w slot => Sys2Proof.Machine.execExportAck a w slot s
  | .witnessSnapRound w => Sys2Proof.Machine.execWitnessSnapRound w s
  | .challengeRead a => Sys2Proof.Machine.execChallengeRead a s
  | .commission w => Sys2Proof.Machine.execCommission w s
  | .enterService w => Sys2Proof.Machine.execEnterService w s
  | .retire w => Sys2Proof.Machine.execRetire w s
  | .addImageKey w => Sys2Proof.Machine.execAddImageKey w s
  | .revokeImageKey w => Sys2Proof.Machine.execRevokeImageKey w s
  | .setTamper w => Sys2Proof.Machine.execSetTamper w s
  | .leave a => Sys2Proof.Machine.execLeave a s
  | .serviceExpiry w => Sys2Proof.Machine.execServiceExpiry w s
  | .tamperAssert w source reading => Sys2Proof.Machine.execTamperAssert w source reading s
  | .tamperClear w source reading => Sys2Proof.Machine.execTamperClear w source reading s
  | .tamperReopen a w mask => Sys2Proof.Machine.execTamperReopen a w mask s
  | .linkUp w p partnerSpeed => Sys2Proof.Machine.execLinkUp w p partnerSpeed s
  | .linkDown w p localFault remoteFault => Sys2Proof.Machine.execLinkDown w p localFault remoteFault s
  | .bwWindowEnd w p => Sys2Proof.Machine.execBwWindowEnd w p s
  | .timeSet a w => Sys2Proof.Machine.execTimeSet a w s
  | .stepTime a w => Sys2Proof.Machine.execStepTime a w s
  | .slew a w => Sys2Proof.Machine.execSlew a w s
  | .slewEnd w => Sys2Proof.Machine.execSlewEnd w s
  | .followStep => Sys2Proof.Machine.execFollowStep s
  | .srcLost w => Sys2Proof.Machine.execSrcLost w s
  | .ptpclkReturn w => Sys2Proof.Machine.execPtpclkReturn w s
  | .ppsIn => Sys2Proof.Machine.execPpsIn s
  | .ppsOut => Sys2Proof.Machine.execPpsOut s
  | .txtsInfoRead a w p => Sys2Proof.Machine.execTxtsInfoRead a w p s
  | .mr4Poll w codes => Sys2Proof.Machine.execMr4Poll w codes s
  | .refresh w ch => Sys2Proof.Machine.execRefresh w ch s
  | .retrainPeriod w ch lane window readDelay writeDelay => Sys2Proof.Machine.execRetrainPeriod w ch lane window readDelay writeDelay s
  | .retrainDrift w ch lane window readDelay writeDelay temperature => Sys2Proof.Machine.execRetrainDrift w ch lane window readDelay writeDelay temperature s
  | .dramRequest w u => Sys2Proof.Machine.execDramRequest w u s
  | .dramCfgWrite a w value => Sys2Proof.Machine.execDramCfgWrite a w value s
  | .sendTailDoorbell q value => Sys2Proof.Machine.execSendTailDoorbell q value s
  | .receiveTailDoorbell q value => Sys2Proof.Machine.execReceiveTailDoorbell q value s
  | .firmwareDoorbell w d => Sys2Proof.Machine.execFirmwareDoorbell w d s
  | .sendDescriptor q dmaError => Sys2Proof.Machine.execSendDescriptor q dmaError s
  | .receiveDescriptor q dmaError => Sys2Proof.Machine.execReceiveDescriptor q dmaError s
  | .hello => Sys2Proof.Machine.execHello s
  | .getInfo => Sys2Proof.Machine.execGetInfo s
  | .imageStage dmaError => Sys2Proof.Machine.execImageStage dmaError s
  | .ledgerDma dmaError => Sys2Proof.Machine.execLedgerDma dmaError s
  | .slotRead dmaError => Sys2Proof.Machine.execSlotRead dmaError s
  | .linkReset => Sys2Proof.Machine.execLinkReset s
  | .eventClear a addr mask => Sys2Proof.Machine.execEventClear a addr mask s
  | .evForce a addr mask => Sys2Proof.Machine.execEvForce a addr mask s
  | .counterLoRead a addr => Sys2Proof.Machine.execCounterLoRead a addr s
  | .overflowClear a addr => Sys2Proof.Machine.execOverflowClear a addr s
  | .rcRead a addr => Sys2Proof.Machine.execRcRead a addr s
  | .freezeCounters a addr on => Sys2Proof.Machine.execFreezeCounters a addr on s
  | .disable a addr => Sys2Proof.Machine.execDisable a addr s
  | .abort a addr => Sys2Proof.Machine.execAbort a addr s
  | .compositorDisable a w => Sys2Proof.Machine.execCompositorDisable a w s
  | .compositorAbort a w => Sys2Proof.Machine.execCompositorAbort a w s
  | .caseEngineDisable a w => Sys2Proof.Machine.execCaseEngineDisable a w s
  | .caseEngineAbort a w => Sys2Proof.Machine.execCaseEngineAbort a w s
  | .tableDisable a w t => Sys2Proof.Machine.execTableDisable a w t s
  | .tableAbort a w t => Sys2Proof.Machine.execTableAbort a w t s
  | .coreDisable a k => Sys2Proof.Machine.execCoreDisable a k s
  | .coreAbort a k => Sys2Proof.Machine.execCoreAbort a k s
  | .coreEnable a k => Sys2Proof.Machine.execCoreEnable a k s
  | .galleyDisable a w => Sys2Proof.Machine.execGalleyDisable a w s
  | .galleyAbort a w => Sys2Proof.Machine.execGalleyAbort a w s
  | .collatorDisable a w => Sys2Proof.Machine.execCollatorDisable a w s
  | .collatorAbort a w => Sys2Proof.Machine.execCollatorAbort a w s
  | .coprocDisable a w c => Sys2Proof.Machine.execCoprocDisable a w c s
  | .coprocAbort a w c => Sys2Proof.Machine.execCoprocAbort a w c s
  | .marchDisable a w => Sys2Proof.Machine.execMarchDisable a w s
  | .marchAbort a w => Sys2Proof.Machine.execMarchAbort a w s
  | .quoinDisable a w => Sys2Proof.Machine.execQuoinDisable a w s
  | .quoinAbort a w => Sys2Proof.Machine.execQuoinAbort a w s
  | .pressDisable a w => Sys2Proof.Machine.execPressDisable a w s
  | .pressAbort a w => Sys2Proof.Machine.execPressAbort a w s
  | .pressPortDisable a w p => Sys2Proof.Machine.execPressPortDisable a w p s
  | .pressPortAbort a w p => Sys2Proof.Machine.execPressPortAbort a w p s
  | .portDisable a w p => Sys2Proof.Machine.execPortDisable a w p s
  | .portAbort a w p => Sys2Proof.Machine.execPortAbort a w p s
  | .qpDisable a q => Sys2Proof.Machine.execQpDisable a q s
  | .qpAbort a q => Sys2Proof.Machine.execQpAbort a q s
  | .requestProof a => Sys2Proof.Machine.execRequestProof a s
  | .requestSetting a => Sys2Proof.Machine.execRequestSetting a s
  | .requestRun a => Sys2Proof.Machine.execRequestRun a s
  | .requestPlumb a => Sys2Proof.Machine.execRequestPlumb a s
  | .requestDormant a => Sys2Proof.Machine.execRequestDormant a s
  | .requestOff a => Sys2Proof.Machine.execRequestOff a s
  | .requestHalf a => Sys2Proof.Machine.execRequestHalf a s
  | .requestBrace a => Sys2Proof.Machine.execRequestBrace a s
  | .outputsClosed w => Sys2Proof.Machine.execOutputsClosed w s
  | .wake cause index tieTrains => Sys2Proof.Machine.execWake cause index tieTrains s
  | .resetN => Sys2Proof.Machine.execResetN s
  | .resetCmd a value => Sys2Proof.Machine.execResetCmd a value s
  | .supply => Sys2Proof.Machine.execSupply s
  | .powerOn => Sys2Proof.Machine.execPowerOn s
  | .startUp j => Sys2Proof.Machine.execStartUp j s
  | .shutdnReq => Sys2Proof.Machine.execShutdnReq s
  | .shutdownStart a => Sys2Proof.Machine.execShutdownStart a s
  | .gpioEdge g rising => Sys2Proof.Machine.execGpioEdge g rising s
  | .proofEnd found => Sys2Proof.Machine.execProofEnd found s
  | .outOfRange duration temperature => Sys2Proof.Machine.execOutOfRange duration temperature s
  | .pwrfail => Sys2Proof.Machine.execPwrfail s
  | .braceImageWritten => Sys2Proof.Machine.execBraceImageWritten s
  | .powerReturn => Sys2Proof.Machine.execPowerReturn s
  | .regionSkew regionA regionB temperature diffs => Sys2Proof.Machine.execRegionSkew regionA regionB temperature diffs s
  | .tieRetrain w => Sys2Proof.Machine.execTieRetrain w s
  | .tieLost w => Sys2Proof.Machine.execTieLost w s
  | .isolate a w => Sys2Proof.Machine.execIsolate a w s
  | .rejoin a w => Sys2Proof.Machine.execRejoin a w s
  | .rejoinAttempt w => Sys2Proof.Machine.execRejoinAttempt w s
  | .linked => Sys2Proof.Machine.execLinked s
  | .halt a => Sys2Proof.Machine.execHalt a s
  | .resume a => Sys2Proof.Machine.execResume a s
  | .step a takeInt => Sys2Proof.Machine.execStep a takeInt s
  | .readReg a r => Sys2Proof.Machine.execReadReg a r s
  | .writeReg a r => Sys2Proof.Machine.execWriteReg a r s
  | .readMem a => Sys2Proof.Machine.execReadMem a s
  | .writeMem a => Sys2Proof.Machine.execWriteMem a s
  | .bkptOn a => Sys2Proof.Machine.execBkptOn a s
  | .bkptOff a => Sys2Proof.Machine.execBkptOff a s
  | .extest => Sys2Proof.Machine.execExtest s
  | .idcode => Sys2Proof.Machine.execIdcode s
  | .samplePreload => Sys2Proof.Machine.execSamplePreload s
  | .clampJtag => Sys2Proof.Machine.execClampJtag s
  | .highz => Sys2Proof.Machine.execHighz s
  | .jtagProof bit => Sys2Proof.Machine.execJtagProof bit s
  | .dbgAccess write offset data => Sys2Proof.Machine.execDbgAccess write offset data s
  | .bypass => Sys2Proof.Machine.execBypass s
  | .trstN => Sys2Proof.Machine.execTrstN s
  | .pmcClear a k mask => Sys2Proof.Machine.execPmcClear a k mask s
  | .pmcOvfClear a k mask => Sys2Proof.Machine.execPmcOvfClear a k mask s
  | .sampleTaken k n => Sys2Proof.Machine.execSampleTaken k n s
  | .sample0Read a k => Sys2Proof.Machine.execSample0Read a k s
  | .intSoft a k mask => Sys2Proof.Machine.execIntSoft a k mask s
  | .interruptEntry k gap ready => Sys2Proof.Machine.execInterruptEntry k gap ready s
  | .mov j f => Sys2Proof.Machine.execMov j f s
  | .add j f => Sys2Proof.Machine.execAdd j f s
  | .sub j f => Sys2Proof.Machine.execSub j f s
  | .and j f => Sys2Proof.Machine.execAnd j f s
  | .or j f => Sys2Proof.Machine.execOr j f s
  | .xor j f => Sys2Proof.Machine.execXor j f s
  | .cmp j f => Sys2Proof.Machine.execCmp j f s
  | .tst j d sr => Sys2Proof.Machine.execTst j d sr s
  | .neg j d sr => Sys2Proof.Machine.execNeg j d sr s
  | .not j d sr => Sys2Proof.Machine.execNot j d sr s
  | .adc j f => Sys2Proof.Machine.execAdc j f s
  | .sbc j f => Sys2Proof.Machine.execSbc j f s
  | .movi j f => Sys2Proof.Machine.execMovi j f s
  | .addi j f => Sys2Proof.Machine.execAddi j f s
  | .cmpi j f => Sys2Proof.Machine.execCmpi j f s
  | .andi j r imm => Sys2Proof.Machine.execAndi j r imm s
  | .ori j r imm => Sys2Proof.Machine.execOri j r imm s
  | .xori j r imm => Sys2Proof.Machine.execXori j r imm s
  | .lsl j f => Sys2Proof.Machine.execLsl j f s
  | .lsr j f => Sys2Proof.Machine.execLsr j f s
  | .asr j f => Sys2Proof.Machine.execAsr j f s
  | .lsli j d n => Sys2Proof.Machine.execLsli j d n s
  | .lsri j d n => Sys2Proof.Machine.execLsri j d n s
  | .asri j d n => Sys2Proof.Machine.execAsri j d n s
  | .bfx j d sr pair p w => Sys2Proof.Machine.execBfx j d sr pair p w s
  | .bfi j d sr pair p w => Sys2Proof.Machine.execBfi j d sr pair p w s
  | .sat j d sr => Sys2Proof.Machine.execSat j d sr s
  | .crcs j d sr => Sys2Proof.Machine.execCrcs j d sr s
  | .crcb j d sr => Sys2Proof.Machine.execCrcb j d sr s
  | .par j d sr => Sys2Proof.Machine.execPar j d sr s
  | .parw j d sr => Sys2Proof.Machine.execParw j d sr s
  | .brev j d sr => Sys2Proof.Machine.execBrev j d sr s
  | .brev8 j d sr => Sys2Proof.Machine.execBrev8 j d sr s
  | .mul j long s1 s2 => Sys2Proof.Machine.execMul j long s1 s2 s
  | .muls j long s1 s2 => Sys2Proof.Machine.execMuls j long s1 s2 s
  | .mac j x s1 s2 => Sys2Proof.Machine.execMac j x s1 s2 s
  | .movh j n imm => Sys2Proof.Machine.execMovh j n imm s
  | .movr j dst src p => Sys2Proof.Machine.execMovr j dst src p s
  | .lea j n m => Sys2Proof.Machine.execLea j n m s
  | .ldB j r m => Sys2Proof.Machine.execLdB j r m s
  | .ld j r m => Sys2Proof.Machine.execLd j r m s
  | .ldL j r m => Sys2Proof.Machine.execLdL j r m s
  | .stB j r m => Sys2Proof.Machine.execStB j r m s
  | .st j r m => Sys2Proof.Machine.execSt j r m s
  | .stL j r m => Sys2Proof.Machine.execStL j r m s
  | .bcc j cc d => Sys2Proof.Machine.execBcc j cc d s
  | .jmp j target => Sys2Proof.Machine.execJmp j target s
  | .call j target => Sys2Proof.Machine.execCall j target s
  | .jmpr j n => Sys2Proof.Machine.execJmpr j n s
  | .callr j n => Sys2Proof.Machine.execCallr j n s
  | .ret j => Sys2Proof.Machine.execRet j s
  | .reti j => Sys2Proof.Machine.execReti j s
  | .nop j => Sys2Proof.Machine.execNop j s
  | .isync j => Sys2Proof.Machine.execIsync j s
  | .icinv j => Sys2Proof.Machine.execIcinv j s
  | .icinvMem j m => Sys2Proof.Machine.execIcinvMem j m s
  | .tdisarm j => Sys2Proof.Machine.execTdisarm j s
  | .bkpt j => Sys2Proof.Machine.execBkpt j s
  | .ctxset j c r src => Sys2Proof.Machine.execCtxset j c r src s
  | .ctxget j dst c r => Sys2Proof.Machine.execCtxget j dst c r s
  | .ctxgo j c => Sys2Proof.Machine.execCtxgo j c s
  | .ctxstop j c => Sys2Proof.Machine.execCtxstop j c s
  | .tlook j d tag t learn refresh n => Sys2Proof.Machine.execTlook j d tag t learn refresh n s
  | .evpost j t f => Sys2Proof.Machine.execEvpost j t f s
  | .evwait j d all => Sys2Proof.Machine.execEvwait j d all s
  | .evpoll j d all => Sys2Proof.Machine.execEvpoll j d all s
  | .chopen j ch => Sys2Proof.Machine.execChopen j ch s
  | .chput j d ch => Sys2Proof.Machine.execChput j d ch s
  | .chclose j ch => Sys2Proof.Machine.execChclose j ch s
  | .chget j d ch n block => Sys2Proof.Machine.execChget j d ch n block s
  | .cpcmd j d u n => Sys2Proof.Machine.execCpcmd j d u n s
  | .cpstat j d t => Sys2Proof.Machine.execCpstat j d t s
  | .cpsave j u n => Sys2Proof.Machine.execCpsave j u n s
  | .cprest j u n => Sys2Proof.Machine.execCprest j u n s
  | .verd j k n => Sys2Proof.Machine.execVerd j k n s
  | .tieRetrainEnd w => Sys2Proof.Machine.execTieRetrainEnd w s
  | .flitRetry w => Sys2Proof.Machine.execFlitRetry w s
  | .sequenceExchange => Sys2Proof.Machine.execSequenceExchange s
  | .windowLoadResponse x j after ecc => Sys2Proof.Machine.execWindowLoadResponse x j after ecc s
  | .mainRailsFall => Sys2Proof.Machine.execMainRailsFall s
  | .vkeepLoss => Sys2Proof.Machine.execVkeepLoss s
  | .perstNRelease => Sys2Proof.Machine.execPerstNRelease s

end Sys2Proof.Machine
end

