-- ==== Sys2Proof/Machine/Tick.lean ====
section
/-! DEFINITION. What the passing of 1 ns does: time, and the effects that follow it alone (log 7). -/

namespace Sys2Proof.Machine

/-- 1 ns passes on a wythe: the Compositor counts a stalled cycle (R72), every DRAM channel serves one unit (R436, R437), the courses'
quiescence detectors count (R246), and stores that waited for a move's place go on (R263). -/
def wytheTick (s : State) (w : WytheIx) : State :=
  let s1 := s.stallTick w
  let s2 := s1.each (List.range 4) (fun s c => (s.refreshLate w c).dramServe w c)
  (s2.each (List.finRange 6) (fun s c => s.quietTick w c)).drainStores w

/-- 1 ns passes: the clocks advance (R410–R413), and the wythes' effects follow. Everything else that takes time is a command. -/
def tick (s : State) : State :=
  let s1 := { s with now := s.now + 1 }.clocksTick
  s1.each wythes wytheTick

end Sys2Proof.Machine
end

