-- ==== Sys2Proof/Safety.lean ====
section
/-! DEFINITION. What claims are stated in: a safe run, what a command answers, and what an issued instruction leaves alone. -/

namespace Sys2Proof

/-- The next `k` steps from `s` stop at no fault and no refusal. -/
def Safe : Nat → Machine.State → Prop
  | 0, _ => True
  | k + 1, s => ∃ t, Machine.step s = .next t ∧ Safe k t

/-- The command `c` completes in `s` with a next state that satisfies `P`. -/
def Completes (c : Instr) (s : Machine.State) (P : Machine.State → Prop) : Prop :=
  ∃ t, Machine.exec c s = .next t ∧ P t

namespace Machine.State

/-- The registers and counters are in canonical form, so that what is written is what is read (log 1). -/
def Canon (s : State) : Prop :=
  swf regReset s.regs = true ∧ swf regReset s.staged = true ∧ swf regReset s.active = true ∧ swf regReset s.previous = true ∧
    swf (fun _ => (0 : BitVec 49)) s.counters = true

/-- One more event is counted in the counter at `a`, unless its page's counters are frozen (R9, R449). -/
def Counted (s t : State) (a : Nat) : Prop := t.ctr a = if s.frozen (pageBase a) && !datestonePage a then s.ctr a else ctrAdd (s.ctr a) 1

/-- The registers of the context with the products that are due when it issues (R157). -/
def settled (s : State) (i : Issue) : Ctx := settleCtx (s.issueCycle i) (s.ctx i.id)

/-- The context may issue (R149, R155, R189), and an instruction of `len` bytes can be fetched at its PCX (R191, R194, R309); `half` is
the instruction as a half of a pair, `addrs` the registers that it reads as addresses (R150). -/
def Ready (s : State) (i : Issue) (reads : List Reg) (len : Nat) (half : Option Half := none) (addrs : List Reg := []) : Prop :=
  s.mayIssue i reads half addrs = true ∧
    s.fetchFault (s.plumbAt i.id.w i.id.core.ix (s.issueCycle i)) i.id (s.ctx i.id).pcx.toNat len = none ∧ i.fetchEcc ≠ .uncorrectable

/-- What the end of an instruction makes of a context: a stepped one halts (R538). -/
def afterStep (c : Ctx) : Ctx := if c.stepping then { c with stepping := false, state := .halted } else c

/-- An instruction of `len` bytes has changed its context's registers by `g`, and the context goes on at the next instruction. -/
def Advanced (s t : State) (i : Issue) (len : Nat) (g : Ctx → Ctx) : Prop :=
  t.ctx i.id = afterStep { g (s.settled i) with pcx := (s.ctx i.id).pcx + BitVec.ofNat 24 len }

/-- Contexts other than `x`, the scratchpads, the shadow registers and the course banks are as before. -/
def Elsewhere (s t : State) (x : CtxId) : Prop :=
  (∀ y, y ≠ x → t.ctx y = s.ctx y ∧ ∀ a, t.memByte y a = s.memByte y a) ∧
    ∀ w k, (t.core w k).spcx = (s.core w k).spcx ∧ (t.core w k).ssr = (s.core w k).ssr ∧
      (t.core w k).sa0 = (s.core w k).sa0 ∧ (t.core w k).sd0 = (s.core w k).sd0

/-- An instruction of `len` bytes has jumped to `target`, its context's registers changed by `g` (R191). -/
def Jumped (s t : State) (i : Issue) (target : W24) (g : Ctx → Ctx) : Prop :=
  t.ctx i.id = afterStep { g (s.settled i) with pcx := target &&& 0xFFFFFE#24 }

/-- A fault of the context is a fault of its own, not the second one of context 0 that stops the core (R170, R171). -/
abbrev FaultsOnce (s : State) (x : CtxId) : Prop := x.x = 0 → (s.core x.w x.core.ix).inFault = false

/-- The context faults at its PCX with `code` and an address, recorded on its CORE page (R170). -/
def Faulted (s t : State) (i : Issue) (code addr : Nat) : Prop :=
  (t.ctx i.id).state = .faulted ∧ (t.ctx i.id).pcx = (s.ctx i.id).pcx ∧
    t.rd (pgCore i.id.w i.id.core.ix + 0x20) = w32 (at' code 24 + s.masterId i.id) ∧
    t.rd (pgCore i.id.w i.id.core.ix + 0x24) = w32 addr

/-- A two-operand or three-operand instruction gives what `r` gives of its operands and the carry, at the form's width (R204): its
result, discarded where `write` is false, and its flags. -/
def AluDoes (s t : State) (i : Issue) (f : AluForm) (write : Bool) (r : (w : Nat) → BitVec w → BitVec w → Bool → BitVec w × Nzcv) : Prop :=
  Elsewhere s t i.id ∧
    match f with
    | .short d b => Advanced s t i 2 (fun c =>
        let v := r 16 c.d[d.val] c.d[b.val] (flagC c.sr)
        { (if write then c.setD d v.1 else c) with sr := setFlags c.sr v.2 })
    | .w d a b => Advanced s t i 4 (fun c =>
        let v := r 16 c.d[a.val] c.d[b.val] (flagC c.sr)
        { (if write then c.setD d v.1 else c) with sr := setFlags c.sr v.2 })
    | .l d a b => Advanced s t i 4 (fun c =>
        let v := r 32 (c.pair a) (c.pair b) (flagC c.sr)
        { (if write then c.setPair d v.1 else c) with sr := setFlags c.sr v.2 })
    | .x d a b => Advanced s t i 4 (fun c =>
        let v := r 40 c.x[a.val] c.x[b.val] (flagC c.sr)
        { (if write then c.setX d v.1 else c) with sr := setFlags c.sr v.2 })

/-- A shift gives what `r` gives of its operand and count, at the form's width (R206). -/
def ShiftDoes (s t : State) (i : Issue) (f : ShiftForm) (r : (w : Nat) → BitVec w → Nat → BitVec w × Nzcv) : Prop :=
  Elsewhere s t i.id ∧
    match f with
    | .short d b => Advanced s t i 2 (fun c =>
        let v := r 16 c.d[d.val] (c.d[b.val].toNat % 32)
        { c.setD d v.1 with sr := setFlags c.sr v.2 })
    | .w d a n => Advanced s t i 4 (fun c =>
        let v := r 16 c.d[a.val] (c.d[n.val].toNat % 64)
        { c.setD d v.1 with sr := setFlags c.sr v.2 })
    | .l d a n => Advanced s t i 4 (fun c =>
        let v := r 32 (c.pair a) (c.d[n.val].toNat % 64)
        { c.setPair d v.1 with sr := setFlags c.sr v.2 })
    | .x d a n => Advanced s t i 4 (fun c =>
        let v := r 40 c.x[a.val] (c.d[n.val].toNat % 64)
        { c.setX d v.1 with sr := setFlags c.sr v.2 })

/-- An instruction of `len` bytes changes its context's registers by `g` and nothing else. -/
def RegsOnly (s t : State) (i : Issue) (len : Nat) (g : Ctx → Ctx) : Prop := Advanced s t i len g ∧ Elsewhere s t i.id

/-- The memories are in canonical form, so that the byte written is the byte read (log 1). -/
def MemCanon (s : State) : Prop :=
  (∀ w k, swf (undefByte (s.core w k).undef 2) (s.core w k).data = true ∧ swf (undefByte (s.core w k).undef 3) (s.core w k).inst = true) ∧
    (∀ w c, swf (undefByte (s.course w c).undef (16 + c)) (s.course w c).banks = true) ∧
    ∀ x, swf (fun _ => (0 : Byte)) (s.ctx x).areas = true

/-- `s` with the products due landed and a window whose VERD retired empty, as the instruction finds it. -/
def ripe (s : State) (i : Issue) : State := s.updCtx i.id (fun _ => s.settled i)

/-- The place that a data address of context `y` names: the far window and the own window of one course name the same banks (R187). -/
def cell (s : State) (y : CtxId) (a : Nat) : WytheIx × Nat × Area :=
  match areaOf y (s.ctx y).sr a with
  | .bank c o => (y.w, c, .bank c o)
  | .far c o => (y.w, c, .bank c o)
  | .slug o => (y.w, y.ix, .slug o)
  | ar => (y.w, y.core.ix, ar)

/-- A byte that a store changes: scratchpad, instruction alias, a bank that is ON, a slug window with a slug, or its result areas
(R187, R188, R308). -/
def Writable (s : State) (x : CtxId) (a : Nat) : Prop :=
  match areaOf x (s.ctx x).sr a with
  | .data _ => True
  | .inst _ => True
  | .slug o => 0xC0 ≤ o ∨ (s.ctx x).slug.isSome = true
  | .bank c o => s.bankView x.w c (o / 0x40000) = .on
  | .far c o => s.bankView x.w c (o / 0x40000) = .on
  | _ => False

/-- An access of `size` bytes at `a` that raises no fault and meets no bank that is not ON, with nothing outstanding in it. -/
def Sound (s : State) (i : Issue) (a size : Nat) : Prop :=
  s.accessFault i.id a size = none ∧ (∀ p ∈ accessParts a size, s.areaView i.id (areaOf i.id (s.ctx i.id).sr p) = .on) ∧
    areaAwaited (s.settled i) a size = false ∧ i.dataEcc = .good

/-- The `size` bytes at `a` read as `v`, big-endian, and every other byte of memory reads as before (R178, R192). -/
def Stored (s t : State) (x : CtxId) (a size v : Nat) : Prop :=
  t.memValue x a size = v % 2 ^ (8 * size) ∧
    ∀ y b, (∀ c ∈ accessBytes a size, s.cell y b ≠ s.cell x c) → t.memByte y b = s.memByte y b

/-- The state without its registers, counters, latches, lines, free values drawn and latest answer. -/
def essence (s : State) : State := { s with regs := [], counters := [], latches := [], out := [], free := 0, readData := 0 }

/-- Nothing but what `g` forgets, registers and counters has changed. -/
def Only (s t : State) (g : State → State) : Prop := (g t).essence = (g s).essence

end Machine.State
end Sys2Proof
end

