-- ==== Sys2Proof/Certificates/Slice0/Obligations.lean ====
section
/-! DEFINITION. The statements for the provers. Each says which rules it takes from spec/; hypotheses are on the state and the operands
alone, and each clause about a command says that the command completes and what its next state holds. -/

section
open Sys2Proof Sys2Proof.Machine Sys2Proof.Machine.State

/-- Addition and subtraction at every width (R204, R205): ADD, ADC, SUB, SBC and CMP complete on every form whose pairs are even; C is the carry or
borrow out, V signed overflow, CMP keeps its destination, and nothing else changes. Logic at every width (R204, R205): AND, OR, XOR, TST and NOT set
N and Z from the result and clear C and V; NEG subtracts from 0. -/
def Obligations.ArithmeticAndLogic : Prop :=
  (∀ (s : State) (i : Issue) (f : AluForm), State.aluOk f = true →
    (s.Ready i (State.aluReads f) (if State.aluIsLong f then 4 else 2) (State.aluHalf true f) →
    (Completes (.add i (.alu f)) s (fun t => AluDoes s t i f true (fun w a b _ =>
      (a + b, ⟨(a + b).msb, a + b == 0, decide (2 ^ w ≤ a.toNat + b.toNat), decide ((a + b).toInt ≠ a.toInt + b.toInt)⟩)))) ∧
    (Completes (.adc i f) s (fun t => AluDoes s t i f true (fun w a b c =>
      let v := a + b + BitVec.ofNat w (b2n c)
      (v, ⟨v.msb, v == 0, decide (2 ^ w ≤ a.toNat + b.toNat + b2n c), decide (v.toInt ≠ a.toInt + b.toInt + (b2n c : Nat))⟩)))) ∧
    (Completes (.sub i (.alu f)) s (fun t => AluDoes s t i f true (fun _ a b _ =>
      (a - b, ⟨(a - b).msb, a - b == 0, decide (a.toNat < b.toNat), decide ((a - b).toInt ≠ a.toInt - b.toInt)⟩)))) ∧
    (Completes (.sbc i f) s (fun t => AluDoes s t i f true (fun w a b c =>
      let v := a - b - BitVec.ofNat w (b2n c)
      (v, ⟨v.msb, v == 0, decide (a.toNat < b.toNat + b2n c), decide (v.toInt ≠ a.toInt - b.toInt - (b2n c : Nat))⟩))))) ∧
    (s.Ready i (State.aluReads f) (if State.aluIsLong f then 4 else 2) (State.aluHalf false f) → State.noDest f = true →
      Completes (.cmp i f) s (fun t => AluDoes s t i f false (fun _ a b _ =>
      (a - b, ⟨(a - b).msb, a - b == 0, decide (a.toNat < b.toNat), decide ((a - b).toInt ≠ a.toInt - b.toInt)⟩))))) ∧
  ((∀ (s : State) (i : Issue) (f : AluForm), State.aluOk f = true →
    s.Ready i (State.aluReads f) (if State.aluIsLong f then 4 else 2) (State.aluHalf true f) →
    (Completes (.and i f) s (fun t => AluDoes s t i f true (fun _ a b _ => (a &&& b, ⟨(a &&& b).msb, a &&& b == 0, false, false⟩)))) ∧
    (Completes (.or i f) s (fun t => AluDoes s t i f true (fun _ a b _ => (a ||| b, ⟨(a ||| b).msb, a ||| b == 0, false, false⟩)))) ∧
    (Completes (.xor i f) s (fun t => AluDoes s t i f true (fun _ a b _ => (a ^^^ b, ⟨(a ^^^ b).msb, a ^^^ b == 0, false, false⟩))))) ∧
  ∀ (s : State) (i : Issue) (d r : Fin 16),
    (s.Ready i [.d d, .d r] 2 (dataHalf []) → Completes (.tst i d r) s (fun t => RegsOnly s t i 2 (fun c =>
      { c with sr := setFlags c.sr ⟨(c.d[d.val] &&& c.d[r.val]).msb, c.d[d.val] &&& c.d[r.val] == 0, false, false⟩ }))) ∧
    (s.Ready i [.d r] 2 (dataHalf [.d d]) →
      (Completes (.not i d r) s (fun t => RegsOnly s t i 2 (fun c =>
        { c.setD d (~~~c.d[r.val]) with sr := setFlags c.sr ⟨(~~~c.d[r.val]).msb, ~~~c.d[r.val] == 0, false, false⟩ }))) ∧
      (Completes (.neg i d r) s (fun t => RegsOnly s t i 2 (fun c =>
        let v := 0 - c.d[r.val]
        { c.setD d v with sr := setFlags c.sr ⟨v.msb, v == 0, decide (c.d[r.val] ≠ 0), decide (c.d[r.val] = 0x8000#16)⟩ })))))

/-- Immediates (R204, R211): MOVI, ADDI, CMPI, ANDI, ORI and XORI on D, A and X registers; those of 7 bits are sign-extended; MOVI to an A register
zero-extends and to an X register sign-extends; what an A register receives changes no flag. Moves and address arithmetic (R177, R210, R211): MOV,
ADD and SUB of A registers, MOVH, LEA and MOVR change their destination alone, and no flag. -/
def Obligations.ImmediatesAndMoves : Prop :=
  (∀ (s : State) (i : Issue),
    (∀ (d : Fin 16) (imm : BitVec 7), s.Ready i [] 2 (dataHalf [.d d]) →
      Completes (.movi i (.short d imm)) s (fun t => RegsOnly s t i 2 (fun c => c.setD d (imm.signExtend 16)))) ∧
    (∀ (d : Fin 16) (n : Fin 8) (x : Fin 4) (imm : W16),
      (s.Ready i [] 4 (dataHalf [.d d]) → Completes (.movi i (.long (.d d) imm)) s (fun t => RegsOnly s t i 4 (fun c => c.setD d imm))) ∧
      (s.Ready i [] 4 (addrHalf [.a n]) → Completes (.movi i (.long (.a n) imm)) s (fun t => RegsOnly s t i 4 (fun c => c.setA n (imm.setWidth 24)))) ∧
      (s.Ready i [] 4 (dataHalf [.x x]) → Completes (.movi i (.long (.x x) imm)) s (fun t => RegsOnly s t i 4 (fun c => c.setX x (imm.signExtend 40)))) ∧
      (s.Ready i [] 4 → Completes (.movi i (.long .sr imm)) s (fun t => RegsOnly s t i 4 (fun c => { c with sr := imm &&& 0x80EF#16 })))) ∧
    (∀ (d : Fin 16), (∀ imm : BitVec 7,
        (s.Ready i [.d d] 2 (dataHalf [.d d]) → Completes (.addi i (.short d imm)) s (fun t => RegsOnly s t i 2 (fun c =>
          { c.setD d (c.d[d.val] + imm.signExtend 16) with sr := setFlags c.sr (addFlags c.d[d.val] (imm.signExtend 16) false).2 }))) ∧
        (s.Ready i [.d d] 2 (dataHalf []) → Completes (.cmpi i (.short d imm)) s (fun t => RegsOnly s t i 2 (fun c =>
          { c with sr := setFlags c.sr (subFlags c.d[d.val] (imm.signExtend 16) false).2 })))) ∧
      (∀ imm : W16,
        (s.Ready i [.d d] 4 (dataHalf [.d d]) → Completes (.addi i (.long (.d d) imm)) s (fun t => RegsOnly s t i 4 (fun c =>
          { c.setD d (c.d[d.val] + imm) with sr := setFlags c.sr (addFlags c.d[d.val] imm false).2 }))) ∧
        (s.Ready i [.d d] 4 (dataHalf []) → Completes (.cmpi i (.long (.d d) imm)) s (fun t => RegsOnly s t i 4 (fun c =>
          { c with sr := setFlags c.sr (subFlags c.d[d.val] imm false).2 }))) ∧
        (s.Ready i [.d d] 4 (dataHalf [.d d]) → Completes (.andi i (.d d) imm) s (fun t => RegsOnly s t i 4 (fun c =>
          { c.setD d (c.d[d.val] &&& imm) with sr := setFlags c.sr ⟨(c.d[d.val] &&& imm).msb, c.d[d.val] &&& imm == 0, false, false⟩ }))) ∧
        (s.Ready i [.d d] 4 (dataHalf [.d d]) → Completes (.ori i (.d d) imm) s (fun t => RegsOnly s t i 4 (fun c =>
          { c.setD d (c.d[d.val] ||| imm) with sr := setFlags c.sr ⟨(c.d[d.val] ||| imm).msb, c.d[d.val] ||| imm == 0, false, false⟩ }))) ∧
        (s.Ready i [.d d] 4 (dataHalf [.d d]) → Completes (.xori i (.d d) imm) s (fun t => RegsOnly s t i 4 (fun c =>
          { c.setD d (c.d[d.val] ^^^ imm) with sr := setFlags c.sr ⟨(c.d[d.val] ^^^ imm).msb, c.d[d.val] ^^^ imm == 0, false, false⟩ }))))) ∧
    (∀ (n : Fin 8), (s.Ready i [.a n] 2 (addrHalf [.a n]) → ∀ imm : BitVec 7,
        Completes (.addi i (.shortA n imm)) s (fun t => RegsOnly s t i 2 (fun c => c.setA n (c.a[n.val] + imm.signExtend 24)))) ∧
      (s.Ready i [.a n] 4 (addrHalf [.a n]) → ∀ imm : W16,
        Completes (.addi i (.long (.a n) imm)) s (fun t => RegsOnly s t i 4 (fun c => c.setA n (c.a[n.val] + imm.signExtend 24))))) ∧
    (∀ (n : Fin 4), s.Ready i [.x n] 4 (dataHalf [.x n]) → ∀ imm : W16,
      Completes (.addi i (.long (.x n) imm)) s (fun t => RegsOnly s t i 4 (fun c =>
        { c.setX n (c.x[n.val] + imm.signExtend 40) with sr := setFlags c.sr (addFlags c.x[n.val] (imm.signExtend 40) false).2 })))) ∧
  (∀ (s : State) (i : Issue) (d r : Fin 16) (n m : Fin 8) (x y : Fin 4),
    ((s.Ready i [.d r] 2 (dataHalf [.d d]) → Completes (.mov i (.dd d r)) s (fun t => RegsOnly s t i 2 (fun c => c.setD d c.d[r.val]))) ∧
      (s.Ready i [.d r] 2 (addrHalf [.a n]) → Completes (.mov i (.ad n r)) s (fun t => RegsOnly s t i 2 (fun c => c.setA n (c.d[r.val].setWidth 24))))) ∧
    ((s.Ready i [.a m] 2 (addrHalf [.a n]) → Completes (.mov i (.aa n m)) s (fun t => RegsOnly s t i 2 (fun c => c.setA n c.a[m.val]))) ∧
      (s.Ready i [.a m] 2 (dataHalf [.d d]) → Completes (.mov i (.da d m)) s (fun t => RegsOnly s t i 2 (fun c => c.setD d (c.a[m.val].setWidth 16))))) ∧
    (s.Ready i [.a n, .a m] 2 (addrHalf [.a n]) →
      (Completes (.add i (.aa n m)) s (fun t => RegsOnly s t i 2 (fun c => c.setA n (c.a[n.val] + c.a[m.val])))) ∧
      (Completes (.sub i (.aa n m)) s (fun t => RegsOnly s t i 2 (fun c => c.setA n (c.a[n.val] - c.a[m.val]))))) ∧
    (s.Ready i [.a n, .d r] 2 (addrHalf [.a n]) →
      Completes (.add i (.ad n r)) s (fun t => RegsOnly s t i 2 (fun c => c.setA n (c.a[n.val] + c.d[r.val].signExtend 24)))) ∧
    (s.Ready i [.a n] 4 (addrHalf [.a n]) → ∀ imm : Byte,
      Completes (.movh i n imm) s (fun t => RegsOnly s t i 4 (fun c => c.setA n (imm ++ c.a[n.val].extractLsb' 0 16)))) ∧
    (s.Ready i [.a m] 4 (addrHalf [.a n]) [.a m] → ∀ disp : BitVec 10,
      Completes (.lea i n ⟨m, .disp disp, true⟩) s (fun t => RegsOnly s t i 4 (fun c => c.setA n (c.a[m.val] + disp.signExtend 24)))) ∧
    (s.Ready i [.a m, .d r] 4 (addrHalf [.a n]) [.a m] →
      Completes (.lea i n ⟨m, .index r, true⟩) s (fun t => RegsOnly s t i 4 (fun c => c.setA n (c.a[m.val] + c.d[r.val].signExtend 24)))) ∧
    (s.Ready i [.d r] 4 →
      (Completes (.movr i (.d d) (.d r) false) s (fun t => RegsOnly s t i 4 (fun c => c.setD d c.d[r.val]))) ∧
      (Completes (.movr i (.a n) (.d r) false) s (fun t => RegsOnly s t i 4 (fun c => c.setA n (c.d[r.val].setWidth 24)))) ∧
      (Completes (.movr i (.x x) (.d r) false) s (fun t => RegsOnly s t i 4 (fun c => c.setX x (c.d[r.val].signExtend 40)))) ∧
      (Completes (.movr i .sr (.d r) false) s (fun t => RegsOnly s t i 4 (fun c => { c with sr := c.d[r.val] &&& 0x80EF#16 }))) ∧
      (Completes (.movr i .polyl (.d r) false) s (fun t => RegsOnly s t i 4 (fun c => { c with poly := c.poly.extractLsb' 16 16 ++ c.d[r.val] }))) ∧
      (Completes (.movr i (.tcmp 0) (.d r) false) s (fun t => RegsOnly s t i 4 (fun c => { c with tcmp := c.tcmpHold ++ c.d[r.val], armed := true })))) ∧
    (s.Ready i [.x y] 4 →
      (Completes (.movr i (.x x) (.x y) false) s (fun t => RegsOnly s t i 4 (fun c => c.setX x c.x[y.val]))) ∧
      (Completes (.movr i (.d d) (.x y) false) s (fun t => RegsOnly s t i 4 (fun c => c.setD d (c.x[y.val].setWidth 16)))) ∧
      (evenReg d = true → Completes (.movr i (.d d) (.x y) true) s (fun t => RegsOnly s t i 4 (fun c => c.setPair d (c.x[y.val].setWidth 32))))) ∧
    (s.Ready i [.a m] 4 → Completes (.movr i (.x x) (.a m) false) s (fun t => RegsOnly s t i 4 (fun c => c.setX x (c.a[m.val].setWidth 40)))) ∧
    (s.Ready i (pairRegs r) 4 → evenReg r = true →
      Completes (.movr i (.x x) (.d r) true) s (fun t => RegsOnly s t i 4 (fun c => c.setX x ((c.pair r).signExtend 40)))))

/-- Shifts at every width (R206): a count of the width or more gives 0, or copies of the sign; C is the last bit shifted out, 0 when the count is 0;
V is cleared; an immediate count above 15 is ILLEGAL. -/
def Obligations.Shifts : Prop :=
  (∀ (s : State) (i : Issue) (f : ShiftForm), State.shiftOk f = true →
    s.Ready i (State.shiftReads f) (if State.shiftIsLong f then 4 else 2) (State.shiftHalf f) →
    (Completes (.lsl i f) s (fun t => ShiftDoes s t i f (fun w a n =>
      (a <<< n, ⟨(a <<< n).msb, a <<< n == 0, decide (0 < n) && decide (n ≤ w) && a.getLsbD (w - n), false⟩)))) ∧
    (Completes (.lsr i f) s (fun t => ShiftDoes s t i f (fun _ a n =>
      (a >>> n, ⟨(a >>> n).msb, a >>> n == 0, decide (0 < n) && a.getLsbD (n - 1), false⟩)))) ∧
    (Completes (.asr i f) s (fun t => ShiftDoes s t i f (fun w a n =>
      (a.sshiftRight n, ⟨(a.sshiftRight n).msb, a.sshiftRight n == 0, decide (0 < n) && (if n ≤ w then a.getLsbD (n - 1) else a.msb), false⟩))))) ∧
  (∀ (s : State) (i : Issue) (d : Fin 16) (n : BitVec 7), s.Ready i [.d d] 2 (dataHalf [.d d]) → n.toNat ≤ 15 →
    (Completes (.lsli i d n) s (fun t => RegsOnly s t i 2 (fun c =>
      let v := c.d[d.val] <<< n.toNat
      { c.setD d v with sr := setFlags c.sr ⟨v.msb, v == 0, decide (0 < n.toNat) && c.d[d.val].getLsbD (16 - n.toNat), false⟩ }))) ∧
    (Completes (.lsri i d n) s (fun t => RegsOnly s t i 2 (fun c =>
      let v := c.d[d.val] >>> n.toNat
      { c.setD d v with sr := setFlags c.sr ⟨v.msb, v == 0, decide (0 < n.toNat) && c.d[d.val].getLsbD (n.toNat - 1), false⟩ }))) ∧
    (Completes (.asri i d n) s (fun t => RegsOnly s t i 2 (fun c =>
      let v := c.d[d.val].sshiftRight n.toNat
      { c.setD d v with sr := setFlags c.sr ⟨v.msb, v == 0, decide (0 < n.toNat) && c.d[d.val].getLsbD (n.toNat - 1), false⟩ })))) ∧
  (∀ (s : State) (i : Issue) (d : Fin 16) (n : BitVec 7), s.Ready i [.d d] 2 (dataHalf [.d d]) → 15 < n.toNat → s.Canon →
    (s.FaultsOnce i.id → (Completes (.lsli i d n) s (fun t => Faulted s t i 0x04 (s.ctx i.id).pcx.toNat)) ∧
      (Completes (.lsri i d n) s (fun t => Faulted s t i 0x04 (s.ctx i.id).pcx.toNat)) ∧
      (Completes (.asri i d n) s (fun t => Faulted s t i 0x04 (s.ctx i.id).pcx.toNat))))

/-- Bit fields, saturation, CRC, parity and bit reversal (R206–R208). -/
def Obligations.FieldsAndCharacters : Prop :=
  ∀ (s : State) (i : Issue) (d r : Fin 16),
    (∀ (p : Fin 32) (w : Fin 16), p.val + w.val + 1 ≤ 16 →
      (s.Ready i [.d r] 4 (dataHalf [.d d]) → Completes (.bfx i d r false p w) s (fun t => RegsOnly s t i 4 (fun c =>
        let v : W16 := BitVec.ofNat 16 (c.d[r.val].toNat / 2 ^ p.val % 2 ^ (w.val + 1))
        { c.setD d v with sr := setFlags c.sr ⟨v.msb, v == 0, false, false⟩ }))) ∧
      (s.Ready i [.d r, .d d] 4 (dataHalf [.d d]) → Completes (.bfi i d r false p w) s (fun t => RegsOnly s t i 4 (fun c =>
        let old := c.d[d.val].toNat
        c.setD d (BitVec.ofNat 16 (old - (old / 2 ^ p.val % 2 ^ (w.val + 1)) * 2 ^ p.val + (c.d[r.val].toNat % 2 ^ (w.val + 1)) * 2 ^ p.val)))))) ∧
    (∀ (p : Fin 32) (w : Fin 16), p.val + w.val + 1 ≤ 32 → evenReg r = true → s.Ready i (pairRegs r) 4 (dataHalf [.d d]) →
      Completes (.bfx i d r true p w) s (fun t => RegsOnly s t i 4 (fun c =>
        let v : W16 := BitVec.ofNat 16 ((c.pair r).toNat / 2 ^ p.val % 2 ^ (w.val + 1))
        { c.setD d v with sr := setFlags c.sr ⟨v.msb, v == 0, false, false⟩ }))) ∧
    (∀ (p : Fin 32) (w : Fin 16), p.val + w.val + 1 ≤ 32 → evenReg d = true → s.Ready i (.d r :: pairRegs d) 4 (dataHalf (pairRegs d)) →
      Completes (.bfi i d r true p w) s (fun t => RegsOnly s t i 4 (fun c =>
        let old := (c.pair d).toNat
        c.setPair d (w32 (old - (old / 2 ^ p.val % 2 ^ (w.val + 1)) * 2 ^ p.val + (c.d[r.val].toNat % 2 ^ (w.val + 1)) * 2 ^ p.val))))) ∧
    (∀ x : Fin 4, evenReg d = true → s.Ready i [.x x] 4 (dataHalf (pairRegs d)) → Completes (.sat i d x) s (fun t => RegsOnly s t i 4 (fun c =>
      let n := c.x[x.val].toInt
      let v : W32 := if n < -2147483648 then 0x80000000 else if 2147483647 < n then 0x7FFFFFFF else c.x[x.val].setWidth 32
      { c.setPair d v with sr := setFlags c.sr ⟨v.msb, v == 0, false, decide (n < -2147483648 ∨ 2147483647 < n)⟩ }))) ∧
    (evenReg d = true → s.Ready i (.d r :: pairRegs d) 2 (dataHalf (pairRegs d)) →
      (Completes (.crcs i d r) s (fun t => RegsOnly s t i 2 (fun c => c.setPair d
        (crcStep c.poly 8 (crcStep c.poly 8 (c.pair d ^^^ (c.d[r.val].extractLsb' 8 8).setWidth 32) ^^^ (c.d[r.val].extractLsb' 0 8).setWidth 32))))) ∧
      (Completes (.crcb i d r) s (fun t => RegsOnly s t i 2 (fun c => c.setPair d
        (crcStep c.poly 8 (c.pair d ^^^ (c.d[r.val].extractLsb' 0 8).setWidth 32)))))) ∧
    (s.Ready i [.d r] 2 (dataHalf [.d d]) →
      (Completes (.par i d r) s (fun t => RegsOnly s t i 2 (fun c =>
        let v := parityOf c.d[r.val].toNat 8
        { c.setD d v with sr := setFlags c.sr ⟨false, v == 0, false, false⟩ }))) ∧
      (Completes (.parw i d r) s (fun t => RegsOnly s t i 2 (fun c =>
        let v := parityOf c.d[r.val].toNat 16
        { c.setD d v with sr := setFlags c.sr ⟨false, v == 0, false, false⟩ }))) ∧
      (Completes (.brev i d r) s (fun t => RegsOnly s t i 2 (fun c => c.setD d c.d[r.val].reverse))) ∧
      (Completes (.brev8 i d r) s (fun t => RegsOnly s t i 2 (fun c =>
        c.setD d ((c.d[r.val].extractLsb' 8 8).reverse ++ (c.d[r.val].extractLsb' 0 8).reverse)))))

/-- Multiplies (R157, R209): the product is on its way to MHI:MLO or to the X register, and lands for a read two cycles after the next one; what the
X register holds with the products already on their way is what MAC adds to. A product that lands is what a later instruction reads (R157): at its
cycle MHI:MLO, or the X register, hold it. -/
def Obligations.Multiplies : Prop :=
  (∀ (s : State) (i : Issue) (a b : Fin 16) (x : Fin 4) (long : Bool),
    (s.Ready i [.d a, .d b] (if long then 4 else 2) (dataHalf [.mlo, .mhi]) →
      (Completes (.mul i long a b) s (fun t => RegsOnly s t i (if long then 4 else 2) (fun c =>
        { c with products := c.products ++ [⟨.pair, BitVec.ofNat 40 (c.d[a.val].toNat * c.d[b.val].toNat), s.issueCycle i + 3⟩] }))) ∧
      (Completes (.muls i long a b) s (fun t => RegsOnly s t i (if long then 4 else 2) (fun c =>
        { c with products := c.products ++
          [⟨.pair, (BitVec.ofInt 32 (c.d[a.val].toInt * c.d[b.val].toInt)).setWidth 40, s.issueCycle i + 3⟩] })))) ∧
    (s.Ready i [.d a, .d b] 4 (dataHalf [.x x]) → Completes (.mac i x a b) s (fun t => RegsOnly s t i 4 (fun c =>
      { c with products := c.products ++
        [⟨.acc x, State.accNow c x + BitVec.ofInt 40 (c.d[a.val].toInt * c.d[b.val].toInt), s.issueCycle i + 3⟩] })))) ∧
  (∀ (c : Ctx) (t : Nat) (p : Product), c.products = [p] →
    (p.lands ≤ t → (settleCtx t c).products = [] ∧ match p.dest with
      | .pair => (settleCtx t c).mhi ++ (settleCtx t c).mlo = p.value.setWidth 32
      | .acc x => (settleCtx t c).x[x.val] = p.value) ∧
    (t < p.lands → (settleCtx t c).mhi = c.mhi ∧ (settleCtx t c).mlo = c.mlo ∧ (settleCtx t c).x = c.x))

/-- Control flow (R156, R183, R197, R213): Bcc, JMP and JMPR go to their target or the next instruction and change nothing else; the reserved
condition is ILLEGAL; NOP and ISYNC only advance. The stack (R214): CALL and CALLR push the address of the following instruction through −(A7) and
jump; RET pops it through (A7)+, as the core's own stores have left it (R193); where the stack lies outside the data scratchpad and the own banks
they fault with A7 unchanged. RETI (R162, R170, R182, R214): context 0 goes on at SPCX with IE, FC and the flags from SSR and A0 and D0 from their
shadows, and the innermost entry's handler has ended; another context faults with ILLEGAL. -/
def Obligations.ControlFlow : Prop :=
  (∀ (s : State) (i : Issue),
    (∀ (cc : BitVec 4) (d : BitVec 7), s.Ready i [] 2 → cc ≠ 0xF →
      Completes (.bcc i cc (.short d)) s (fun t => Elsewhere s t i.id ∧
        (condHolds cc (s.ctx i.id).sr = true → Jumped s t i ((s.ctx i.id).pcx + d.signExtend 24 + d.signExtend 24) id) ∧
        (condHolds cc (s.ctx i.id).sr = false → Advanced s t i 2 id))) ∧
    (∀ (cc : BitVec 4) (d : BitVec 18), s.Ready i [] 4 → cc ≠ 0xF →
      Completes (.bcc i cc (.long d)) s (fun t => Elsewhere s t i.id ∧
        (condHolds cc (s.ctx i.id).sr = true → Jumped s t i ((s.ctx i.id).pcx + d.signExtend 24 + d.signExtend 24) id) ∧
        (condHolds cc (s.ctx i.id).sr = false → Advanced s t i 4 id))) ∧
    (∀ d : BitVec 7, s.Ready i [] 2 → s.Canon → s.FaultsOnce i.id →
      Completes (.bcc i 0xF (.short d)) s (fun t => Faulted s t i 0x04 (s.ctx i.id).pcx.toNat)) ∧
    (∀ target : BitVec 22, s.Ready i [] 4 →
      Completes (.jmp i target) s (fun t => Jumped s t i (BitVec.ofNat 24 (2 * target.toNat)) id ∧ Elsewhere s t i.id)) ∧
    (∀ n : Fin 8, s.Ready i [.a n] 2 none [.a n] →
      Completes (.jmpr i n) s (fun t => Jumped s t i (s.ctx i.id).a[n.val] id ∧ Elsewhere s t i.id)) ∧
    (s.Ready i [] 2 →
      (Completes (.nop i) s (fun t => RegsOnly s t i 2 id)) ∧
      (Completes (.isync i) s (fun t => RegsOnly s t i 2 id)))) ∧
  (∀ (s : State) (i : Issue), s.MemCanon →
    let a := (s.ctx i.id).a[7] - 4#24
    (∀ target : BitVec 22, s.Ready i [.a 7] 4 none [.a 7] → s.stackFault i.id a.toNat = none → s.storesHeld i.id = false → s.Sound i a.toNat 4 →
      Completes (.call i target) s (fun t => Jumped s t i (BitVec.ofNat 24 (2 * target.toNat)) (fun c => c.setA 7 a) ∧
        Stored s t i.id a.toNat 4 ((s.ctx i.id).pcx.toNat + 4))) ∧
    (∀ n : Fin 8, s.Ready i [.a n, .a 7] 2 none [.a n, .a 7] → s.stackFault i.id a.toNat = none → s.storesHeld i.id = false → s.Sound i a.toNat 4 →
      Completes (.callr i n) s (fun t => Jumped s t i (s.ctx i.id).a[n.val] (fun c => c.setA 7 a) ∧
        Stored s t i.id a.toNat 4 ((s.ctx i.id).pcx.toNat + 2))) ∧
    (s.Ready i [.a 7] 2 none [.a 7] → s.stackFault i.id (s.ctx i.id).a[7].toNat = none → s.Sound i (s.ctx i.id).a[7].toNat 4 →
      Completes (.ret i) s (fun t =>
        Jumped s t i (BitVec.ofNat 24 ((s.seenBy i.id).memValue i.id (s.ctx i.id).a[7].toNat 4)) (fun c => c.setA 7 ((s.ctx i.id).a[7] + 4#24)) ∧
        Elsewhere s t i.id)) ∧
    (∀ target : BitVec 22, s.Ready i [.a 7] 4 none [.a 7] → s.Canon → s.FaultsOnce i.id →
      (∃ o, areaOf i.id (s.ctx i.id).sr (a.toNat - a.toNat % 2) = .slug o) →
      Completes (.call i target) s (fun t => Faulted s t i 0x07 (a.toNat - a.toNat % 2) ∧ (t.ctx i.id).a[7] = (s.ctx i.id).a[7]))) ∧
  (∀ (s : State) (i : Issue), s.Ready i [] 2 →
    (i.id.x = 0 → Completes (.reti i) s (fun t =>
      let k := s.core i.id.w i.id.core.ix
      Jumped s t i k.spcx (fun c => { (c.setA 0 k.sa0).setD 0 k.sd0 with sr := k.ssr &&& 0x80EF#16 }) ∧ Elsewhere s t i.id ∧
        (t.core i.id.w i.id.core.ix).handlers = k.handlers.drop 1)) ∧
    (s.Canon → i.id.x ≠ 0 → Completes (.reti i) s (fun t => Faulted s t i 0x04 (s.ctx i.id).pcx.toNat)))

/-- Instruction-cache, timer and breakpoint instructions (R166, R215, R216, R220): ICINV empties the cache, or drops one line; TDISARM disarms the
compare; BKPT halts at itself where halting is enabled and permitted, and is a NOP otherwise. Context control (R147, R202, R215): in context 0,
CTXSET, CTXGET and CTXGO act on a STOPPED or FAULTED context and CTXSTOP on a RUNNING or WAITING master-owned one, which is STOPPED once the loads
and lookups it has issued have been answered, with Z set; on another they do nothing and clear Z; CTXSET to PCX, which is read only, is ILLEGAL. -/
def Obligations.SystemAndContexts : Prop :=
  (∀ (s : State) (i : Issue),
    (s.Ready i [] 2 →
      (Completes (.icinv i) s (fun t => RegsOnly s t i 2 id ∧ (t.core i.id.w i.id.core.ix).icache = [])) ∧
      (Completes (.tdisarm i) s (fun t => RegsOnly s t i 2 (fun c => { c with armed := false }))) ∧
      ((s.ctx i.id).bkpt = false → Completes (.bkpt i) s (fun t => RegsOnly s t i 2 id)) ∧
      ((s.ctx i.id).bkpt = true → s.debugAllowed i.id.w i.id.c.val = false → Completes (.bkpt i) s (fun t => RegsOnly s t i 2 id)) ∧
      ((s.ctx i.id).bkpt = true → s.debugAllowed i.id.w i.id.c.val = true → Completes (.bkpt i) s (fun t =>
        (t.ctx i.id).state = .halted ∧ (t.ctx i.id).pcx = (s.ctx i.id).pcx ∧ (t.ctx i.id).a = (s.ctx i.id).a ∧
          (t.ctx i.id).d = (s.ctx i.id).d ∧ Elsewhere s t i.id))) ∧
    (∀ (n : Fin 8) (disp : BitVec 10), s.Ready i [.a n] 4 none [.a n] →
      Completes (.icinvMem i ⟨n, .disp disp, true⟩) s (fun t => RegsOnly s t i 4 id ∧
        ((s.ctx i.id).a[n.val] + disp.signExtend 24).toNat / 32 ∉ (t.core i.id.w i.id.core.ix).icache))) ∧
  (∀ (s : State) (i : Issue) (c : CtxIx) (n m : Fin 16), i.id.x = 0 → c ≠ 0 →
    let y := CtxId.sib i.id c
    let own := fun (t : State) (z : Bool) (g : Ctx → Ctx) => Advanced s t i 4 (fun c => { g c with sr := setZ c.sr z })
    (s.Ready i [.d m] 4 → s.ctxIdle y = true → Completes (.ctxset i c (.d n) (.d m)) s (fun t => own t true id ∧
      (t.ctx y).d[n.val] = (s.ctx i.id).d[m.val] ∧ (t.ctx y).a = (s.ctx y).a ∧ (t.ctx y).pcx = (s.ctx y).pcx)) ∧
    (s.Ready i [.d m] 4 → s.Canon → s.FaultsOnce i.id → Completes (.ctxset i c .pcx (.d m)) s (fun t =>
      Faulted s t i 0x04 (s.ctx i.id).pcx.toNat ∧ t.ctx y = s.ctx y)) ∧
    (s.Ready i [.d m] 4 → s.ctxIdle y = false → Completes (.ctxset i c (.d n) (.d m)) s (fun t => own t false id ∧ t.ctx y = s.ctx y)) ∧
    (s.Ready i [] 4 → s.ctxIdle y = true → Completes (.ctxget i (.d n) c (.d m)) s (fun t =>
      own t true (fun k => k.setD n (s.ctx y).d[m.val]))) ∧
    (s.Ready i [] 4 → s.ctxIdle y = true → Completes (.ctxgo i c) s (fun t => own t true id ∧ t.ctx y = { s.ctx y with state := .running })) ∧
    (s.Ready i [] 4 → s.ctxIdle y = false → Completes (.ctxgo i c) s (fun t => own t false id ∧ t.ctx y = s.ctx y)) ∧
    (s.Ready i [] 4 → s.chaseOwned y = false → (s.ctx y).state = .running ∨ (s.ctx y).state = .waiting → Completes (.ctxstop i c) s (fun t =>
      own t true id ∧ (if (s.ctx y).loads = [] ∧ (s.ctx y).looks = [] then (t.ctx y).state = .stopped
        else (t.ctx y).state = (s.ctx y).state ∧ (t.ctx y).stopDue = true) ∧ (t.ctx y).pcx = (s.ctx y).pcx ∧ (t.ctx y).d = (s.ctx y).d ∧ (t.ctx y).a = (s.ctx y).a)) ∧
    (s.Ready i [] 4 → s.chaseOwned y = true → Completes (.ctxstop i c) s (fun t => own t false id ∧ t.ctx y = s.ctx y)))

/-- Loads (R177, R178, R185, R192, R193, R212): from a scratchpad, the alias, the slug window or an own bank the register holds the bytes,
zero-extended, as the context's earlier stores leave them, and the base register its update; a far-bank load is on its way and is written when its
answer comes. The answer to a far-bank or window load is written to its register, not before its time (R150, R160, R189); the last one that a context
CTXSTOP has met waits for leaves it STOPPED (R147). -/
def Obligations.Loads : Prop :=
  (∀ (s : State) (i : Issue) (r : Reg) (m : MemOp) (size : Nat) (e : EffAddr), memRegOk r size = true →
    effAddr (s.ctx i.id) m size = some e →
    s.Ready i (memReads m) (if m.long then 4 else 2) (s.accessHalf i.id (dataRegs r size) m size) [.a m.an] → s.Sound i e.addr.toNat size →
    let v := ((s.ripe i).seenBy i.id).memValue i.id e.addr.toNat size
    let cmd := fun (c : Instr) => (c = .ldB i r m ∧ size = 1) ∨ (c = .ld i r m ∧ size = 2) ∨ (c = .ldL i r m ∧ size = 4)
    let ar := areaOf i.id (s.ctx i.id).sr e.addr.toNat
    ∀ c, cmd c →
      ((∃ o, ar = .data o ∨ ar = .inst o ∨ ar = .slug o ∨ ar = .bank i.id.c.val o) →
        Completes c s (fun t => RegsOnly s t i (if m.long then 4 else 2) (fun c => loadInto (c.setA m.an e.base) r size v))) ∧
      ((∃ k o, ar = .far k o) → Completes c s (fun t => RegsOnly s t i (if m.long then 4 else 2) (fun c =>
        { c.setA m.an e.base with loads := c.loads ++ [⟨r, e.addr.toNat, size, c.pcx, some v, s.issueCycle i⟩] })))) ∧
  (∀ (s : State) (x : CtxId) (n after : Nat) (l : PendingLoad) (v : Nat), (s.ctx x).loads[n]? = some l → l.value = some v →
    (s.cycleOf x + after < s.loadEarliest x l → Completes (.windowLoadResponse x n after .good) s (fun t => t = s)) ∧
    (s.loadEarliest x l ≤ s.cycleOf x + after →
    let c := loadInto { s.ctx x with loads := (s.ctx x).loads.eraseIdx n } l.reg l.size v
    Completes (.windowLoadResponse x n after .good) s (fun t => Elsewhere s t x ∧ (t.ctx x).d = c.d ∧ (t.ctx x).a = c.a ∧
      (t.ctx x).loads = c.loads ∧
      if (s.ctx x).stopDue && ((s.ctx x).loads.eraseIdx n).isEmpty && (s.ctx x).looks.isEmpty then (t.ctx x).state = .stopped
      else t.ctx x = c)))

/-- Stores (R177, R178, R185, R192, R212): the bytes at the effective address take the register's, big-endian, every other byte of memory stays, and
of the registers the base alone is updated; behind a store to MOVE_POST that waits for a place one waits its turn in the core's store queue (R193,
R263), but for the slug window's. -/
def Obligations.Stores : Prop :=
  ∀ (s : State) (i : Issue) (r : Reg) (m : MemOp) (size : Nat) (e : EffAddr), s.MemCanon → (s.ctx i.id).slugEnds = none →
    memRegOk r size = true → effAddr (s.ctx i.id) m size = some e →
    s.Ready i (dataRegs r size ++ memReads m) (if m.long then 4 else 2) (s.accessHalf i.id [] m size) [.a m.an] → s.Sound i e.addr.toNat size →
    (∀ b ∈ accessBytes e.addr.toNat size, s.Writable i.id b) →
    let v := match r with
      | .a n => (s.ctx i.id).a[n.val].toNat
      | .d n => if size = 4 then ((s.ctx i.id).pair n).toNat else (s.ctx i.id).d[n.val].toNat
      | _ => 0
    let done := fun (t : State) => (if s.storesHeld i.id && !s.windowStore i.id e.addr.toNat then
        (∀ y b, t.memByte y b = s.memByte y b) ∧ (t.core i.id.w i.id.core.ix).storeQ = (s.core i.id.w i.id.core.ix).storeQ ++
          [⟨i.id.x, (s.ctx i.id).sr, e.addr.toNat, size, v % 2 ^ (8 * size)⟩]
      else Stored s t i.id e.addr.toNat size v) ∧ (t.ctx i.id).a = (s.ctx i.id).a.set m.an.val e.base ∧
      (t.ctx i.id).d = (s.ctx i.id).d ∧ (t.ctx i.id).sr = (s.ctx i.id).sr ∧
      (t.ctx i.id).pcx = (s.ctx i.id).pcx + (if m.long then 4 else 2) ∧ ∀ y, y ≠ i.id → t.ctx y = s.ctx y
    s.storeFull i.id = false →
    (size = 1 → Completes (.stB i r m) s done) ∧ (size = 2 → Completes (.st i r m) s done) ∧ (size = 4 → Completes (.stL i r m) s done)

/-- Accesses that fault (R169, R170, R187, R190, R202): an unmapped address, a byte access to a device window, a misaligned window access and a
reserved mode set the context FAULTED with nothing else changed. -/
def Obligations.AccessFaults : Prop :=
  ∀ (s : State) (i : Issue) (r : Reg) (m : MemOp) (e : EffAddr), s.Canon → s.FaultsOnce i.id →
    (effAddr (s.ctx i.id) m 2 = some e → memRegOk r 2 = true →
      s.Ready i (memReads m) (if m.long then 4 else 2) (s.accessHalf i.id (dataRegs r 2) m 2) [.a m.an] →
      (areaOf i.id (s.ctx i.id).sr (e.addr.toNat - e.addr.toNat % 2) = .unmapped → areaOf i.id (s.ctx i.id).sr e.addr.toNat = .unmapped →
        Completes (.ld i r m) s (fun t => Faulted s t i 0x07 (e.addr.toNat - e.addr.toNat % 2) ∧ (t.ctx i.id).a = (s.ctx i.id).a ∧
          (t.ctx i.id).d = (s.ctx i.id).d)) ∧
      (e.addr.toNat % 2 = 1 → (∃ d, areaOf i.id (s.ctx i.id).sr e.addr.toNat = .device d) →
        Completes (.ld i r m) s (fun t => Faulted s t i 0x03 e.addr.toNat ∧ (t.ctx i.id).a = (s.ctx i.id).a ∧
          (t.ctx i.id).d = (s.ctx i.id).d))) ∧
    (effAddr (s.ctx i.id) m 1 = some e → memRegOk r 1 = true →
      s.Ready i (memReads m) (if m.long then 4 else 2) (s.accessHalf i.id (dataRegs r 1) m 1) [.a m.an] →
      (∃ d, areaOf i.id (s.ctx i.id).sr e.addr.toNat = .device d) →
        Completes (.ldB i r m) s (fun t => Faulted s t i 0x03 e.addr.toNat ∧ (t.ctx i.id).a = (s.ctx i.id).a ∧
          (t.ctx i.id).d = (s.ctx i.id).d)) ∧
    (s.Ready i (memReads ⟨m.an, .reserved, true⟩) 4 (s.accessHalf i.id (dataRegs r 2) ⟨m.an, .reserved, true⟩ 2) [.a m.an] → memRegOk r 2 = true →
      Completes (.ld i r ⟨m.an, .reserved, true⟩) s (fun t => Faulted s t i 0x04 (s.ctx i.id).pcx.toNat))

/-- Events (R193, R218, R219, R231, R232): EVPOST puts a post to a task of the wythe on its way, none for flag 30, once the core's earlier stores are
made; EVWAIT and EVPOLL hand over the flags that EVW names and clear them, or wait, or say so in Z; a master-owned context faults with NO_TASK and a
bad task number with BAD_POST. -/
def Obligations.Events : Prop :=
  ∀ (s : State) (i : Issue) (d : Fin 16) (all : Bool),
    let x := i.id
    let evw := (s.ctx x).evw
    let met := fun (k : Tcb) => evw = 0 ∨ (if all = true then k.flags &&& evw = evw else k.flags &&& evw ≠ 0)
    (∀ f : Fin 32, s.Ready i [.d d] 4 → s.storesHeld x = false → ((s.ctx x).d[d.val]).toNat / 4096 = 0 → ((s.ctx x).d[d.val]).toNat / 512 % 8 < 6 →
      Completes (.evpost i d f) s (fun t => RegsOnly s t i 4 id ∧
        (t.wy x.w).posts = (s.wy x.w).posts ++ (if f = 30 then [] else
          [⟨((s.ctx x).d[d.val]).toNat / 64 % 64, Fin.ofNat 64 (((s.ctx x).d[d.val]).toNat % 64), w32 (2 ^ f.val)⟩]))) ∧
    (∀ f : Fin 32, s.Ready i [.d d] 4 → s.FaultsOnce x → s.Canon →
      ((s.ctx x).d[d.val]).toNat / 4096 ≠ 0 ∨ 6 ≤ ((s.ctx x).d[d.val]).toNat / 512 % 8 →
      Completes (.evpost i d f) s (fun t => Faulted s t i 0x0A (s.ctx x).pcx.toNat ∧ (t.wy x.w).posts = (s.wy x.w).posts)) ∧
    (s.Ready i [] 4 → evenReg d = true → ∀ n, (s.ctx x).task = some n →
      let k := s.taskOn x.core n
      (met k → Completes (.evpoll i d all) s (fun t =>
        RegsOnly s t i 4 (fun c => { c.setPair d (k.flags &&& evw) with sr := setFlags c.sr ⟨false, evw == 0, false, false⟩ }) ∧
          (t.taskOn x.core n).flags = k.flags &&& ~~~evw)) ∧
      (¬ met k → Completes (.evpoll i d all) s (fun t =>
        RegsOnly s t i 4 (fun c => { c.setPair d 0 with sr := setFlags c.sr ⟨false, true, false, false⟩ }) ∧
          (t.taskOn x.core n).flags = k.flags)) ∧
      (met k → Completes (.evwait i d all) s (fun t =>
        RegsOnly s t i 4 (fun c => { c.setPair d (k.flags &&& evw) with evAll := all }) ∧
          (t.taskOn x.core n).flags = k.flags &&& ~~~evw)) ∧
      (¬ met k → Completes (.evwait i d all) s (fun t =>
        (t.ctx x).state = .waiting ∧ (t.ctx x).waitDest = some d ∧ (t.ctx x).evAll = all ∧ (t.ctx x).pcx = (s.ctx x).pcx + 4 ∧
          (t.ctx x).d = (s.ctx x).d ∧ (t.ctx x).a = (s.ctx x).a ∧ Elsewhere s t x ∧
          (t.taskOn x.core n).state = .waiting ∧ (t.taskOn x.core n).flags = k.flags))) ∧
    (s.Ready i [] 4 → evenReg d = true → s.FaultsOnce x → s.Canon → (s.ctx x).task = none →
      Completes (.evwait i d all) s (fun t => Faulted s t i 0x0B (s.ctx x).pcx.toNat) ∧
      Completes (.evpoll i d all) s (fun t => Faulted s t i 0x0B (s.ctx x).pcx.toNat))

/-- Channel writers (R221, R222): CHOPEN takes an unowned channel and waits for one that another owns; CHPUT appends a pair of the message while a
place is free; CHCLOSE delivers the message and gives the channel up; without ownership, or with a seventeenth place, they fault with CHAN_OWNER;
they act once the core's earlier stores are made (R193). Channel readers (R221, R223): CHGET takes the oldest message into memory at An, gives its
length in pairs and ABORTED in Dd and clears Z; with none it sets Z, or waits where its course may wait. It acts once the core's earlier stores are
made (R193). -/
def Obligations.Channels : Prop :=
  (∀ (s : State) (i : Issue) (ch : Fin 64) (d : Fin 16),
    let x := i.id
    let h := s.chan x.w x.c.val ch.val
    let after := fun (t : State) => t.chan x.w x.c.val ch.val
    (s.storesHeld x = true → s.Ready i [] 4 → Completes (.chopen i ch) s (fun t => t = s)) ∧
    (s.storesHeld x = false →
    (s.Ready i [] 4 →
      (h.owner = none → Completes (.chopen i ch) s (fun t => RegsOnly s t i 4 id ∧
        after t = { h with owner := some (s.writerOf x), words := [], progress := s.now, stalled := none })) ∧
      (∀ o, h.owner = some o → o ≠ s.writerOf x → Completes (.chopen i ch) s (fun t => t = s)) ∧
      (h.owner = some (s.writerOf x) → Completes (.chclose i ch) s (fun t => RegsOnly s t i 4 id ∧ (after t).owner = none ∧
        (after t).words = [] ∧ (after t).msgs = h.msgs ++ (if h.words = [] then [] else [⟨h.words, false⟩]))) ∧
      (s.Canon → s.FaultsOnce x →
        (h.owner = some (s.writerOf x) → Completes (.chopen i ch) s (fun t => Faulted s t i 0x09 (s.ctx x).pcx.toNat ∧ after t = h)) ∧
        (h.owner ≠ some (s.writerOf x) → Completes (.chclose i ch) s (fun t => Faulted s t i 0x09 (s.ctx x).pcx.toNat ∧ after t = h)))) ∧
    (s.Ready i (pairRegs d) 4 → evenReg d = true →
      (h.owner = some (s.writerOf x) → h.words.length < 32 →
        (chanPlaces h < 32 → Completes (.chput i d ch) s (fun t => RegsOnly s t i 4 id ∧ after t = { h with
          words := h.words ++ [((s.ctx x).pair d).extractLsb' 16 16, ((s.ctx x).pair d).extractLsb' 0 16], progress := s.now, stalled := none })) ∧
        (32 ≤ chanPlaces h → Completes (.chput i d ch) s (fun t => (∀ y, t.ctx y = s.ctx y) ∧
          after t = { h with stalled := some (h.stalled.getD s.now) }))) ∧
      (s.Canon → s.FaultsOnce x → (h.owner ≠ some (s.writerOf x) ∨ 32 ≤ h.words.length) →
        Completes (.chput i d ch) s (fun t => Faulted s t i 0x09 (s.ctx x).pcx.toNat ∧ after t = h))))) ∧
  (∀ (s : State) (i : Issue) (ch : Fin 64) (d : Fin 16) (n : Fin 8) (block : Bool), s.Ready i [.a n] 4 none [.a n] → s.storesHeld i.id = false →
    let x := i.id
    let h := s.chan x.w x.c.val ch.val
    let mode := (s.wy x.w).mode
    let stops := block = true ∧ (mode = .setting ∨ mode = .proof ∨ (s.course x.w x.c.val).recovery = true)
    (h.msgs = [] → ¬ stops → Completes (.chget i d ch n block) s (fun t =>
      RegsOnly s t i 4 (fun c => { c.setD d 0x8000#16 with sr := setFlags c.sr ⟨false, true, false, false⟩ }))) ∧
    (h.msgs = [] → stops → Completes (.chget i d ch n block) s (fun t => t = s)) ∧
    (∀ m r, h.msgs = m :: r → m.words = [] → Completes (.chget i d ch n block) s (fun t =>
      RegsOnly s t i 4 (fun c => { c.setD d (BitVec.ofNat 16 (if m.aborted then 0x4000 else 0)) with
        sr := setFlags c.sr ⟨false, false, false, false⟩ }) ∧ (t.chan x.w x.c.val ch.val).msgs = r)) ∧
    (∀ m r u v, h.msgs = m :: r → m.words = [u, v] → s.MemCanon → (s.ctx x).slugEnds = none →
      let a := (s.ctx x).a[n.val].toNat - (s.ctx x).a[n.val].toNat % 4
      s.Sound i a 4 → (∀ b ∈ accessBytes a 4, s.Writable x b) →
      Completes (.chget i d ch n block) s (fun t => Stored s t x a 4 (65536 * u.toNat + v.toNat) ∧
        (t.ctx x).d = (s.ctx x).d.set d.val (BitVec.ofNat 16 ((if m.aborted then 0x4000 else 0) + 1)) ∧
        (t.ctx x).a = (s.ctx x).a ∧ (t.ctx x).pcx = (s.ctx x).pcx + 4 ∧ (t.chan x.w x.c.val ch.val).msgs = r)))

/-- Table lookups by a core (R117, R132–R134, R136, R217): TLOOK reads its key block and is outstanding until TLOOK_RESULT writes the pair, on a
plumb course not before its deadline. Coprocessor commands from a core (R224, R287, R291, R298): CPCMD takes a place and gives its tag; CPSTAT gives
the status of a completed command and frees its place; CPSAVE stores a claimed unit's state and CPREST takes it back; without the claim they fault. -/
def Obligations.LooksAndCoprocessors : Prop :=
  ((∀ (s : State) (i : Issue) (d : Fin 16) (tag : Fin 4) (tb : LookTable) (learn refresh : Bool) (n : Fin 8),
    let x := i.id
    let a := (s.ctx x).a[n.val].toNat
    s.Ready i [.a n] 4 none [.a n] → i.dataEcc = .good → evenReg d = true → (learn = true ∨ refresh = true → tb = .learn) →
    (∀ l ∈ (s.ctx x).looks, l.tag ≠ tag) → areaAwaited (s.ctx x) a (keyLen tb) = false → s.keyFault x a (keyLen tb) = none →
    Completes (.tlook i d tag tb learn refresh n) s (fun t => ∃ p, RegsOnly s t i 4 (fun c => { c with looks := c.looks ++ [p] }) ∧
      p.tag = tag ∧ p.dest = d ∧ p.table = tb ∧ p.learn = learn ∧ p.refresh = refresh ∧ p.forme = (s.ripe i).lookForme x ∧
      p.issued = s.issueCycle i ∧
      let key := ((s.ripe i).seenBy x).memBytes x a (keyLen tb)
      (tb = .index → p.key = BitVec.ofNat 64 (beAt key 0 2)) ∧ (tb = .trie4 → p.key = BitVec.ofNat 64 (beAt key 0 4 * 2 ^ 32)) ∧
      (tb = .trie6 → p.key = BitVec.ofNat 64 (beAt key 0 8)) ∧
      (tb = .learn → p.key = BitVec.ofNat 64 (beAt key 0 8) ∧ p.data = w32 (beAt key 8 4) ∧ p.flags = key.getD 12 0 ∧
        p.port = if (key.getD 13 0).toNat < 25 then key.getD 13 0 else 0xFF))) ∧
  ∀ (s : State) (x : CtxId) (p : PendingLook) (ecc : EccReport) (after : Nat),
    (s.ctx x).looks.find? (fun l => l.tag == p.tag) = some p → evenReg p.dest = true →
    (s.plumbAt x.w x.core.ix p.issued = true → p.issued + lookDeadline p.table ≤ s.cycleOf x + after) →
    Completes (.tlookResult x p.tag ecc after) s (fun t => (t.ctx x).pair p.dest = (s.lookWord x p ecc).1 ∧
      (t.ctx x).looks = (s.ctx x).looks.erase p ∧ (t.ctx x).a = (s.ctx x).a ∧ (t.ctx x).sr = (s.ctx x).sr ∧
      (t.ctx x).pcx = (s.ctx x).pcx ∧ ((s.ctx x).stopDue = false → (t.ctx x).x = (s.ctx x).x ∧ (t.ctx x).state = (s.ctx x).state) ∧ ∀ y, y ≠ x → t.ctx y = s.ctx y)) ∧
  (∀ (s : State) (i : Issue) (d r : Fin 16) (u : Fin 4) (n : Fin 8),
    let x := i.id
    let a := (s.ctx x).a[n.val].toNat
    let o := a - 0x400000
    let co := s.course x.w x.c.val
    let tag := ((s.ctx x).d[r.val]).toNat % 256
    (s.Ready i [.a n] 4 none [.a n] → i.dataEcc = .good → (s.cpUnit x.w x.c.val u.val).holder = some (s.holderOf x) →
      (∀ p, (List.range 16).find? (fun n => (sfind co.places n).isNone) = some p → s.enabled (pgCoproc x.w x.c) = true →
        a % 4 = 0 → 0x400000 ≤ a → a + 32 ≤ 0x800000 → s.bankRange x.w x.c.val o 32 = .on →
        Completes (.cpcmd i d u n) s (fun t =>
          RegsOnly s t i 4 (fun c => c.setD d (BitVec.ofNat 16 (16 * ((kget 15 co.gens p + 1) % 16) + p))) ∧
          ∃ q, sfind (t.course x.w x.c.val).places p = some q ∧ q.owner = s.holderOf x ∧ q.unit = u.val ∧ q.state = .queued ∧
            q.cancelled = none ∧ q.found = 0 ∧ q.block = s.bankBytes x.w x.c.val o 32)) ∧
      (s.cpOutstanding x.w x.c.val (fun p => p.unit == u.val && p.owner == s.holderOf x) = false → a % 8 = 0 → 0x400000 ≤ a →
        a + 80 ≤ 0x800000 → s.bankRange x.w x.c.val o (stateSize u.val) = .on → 0 < stateSize u.val →
        (s.MemCanon → (s.cpUnit x.w x.c.val u.val).state.length ≤ stateSize u.val → Completes (.cpsave i u n) s (fun t => Advanced s t i 4 id ∧
          (∀ k < stateSize u.val, t.bankByte x.w x.c.val (o + k) = (padTo (stateSize u.val) (s.cpUnit x.w x.c.val u.val).state).getD k 0) ∧
          ∀ c b, (c ≠ x.c.val ∨ b < o ∨ o + stateSize u.val ≤ b) → t.bankByte x.w c b = s.bankByte x.w c b)) ∧
        (Completes (.cprest i u n) s (fun t => RegsOnly s t i 4 id ∧
          (t.cpUnit x.w x.c.val u.val).state = (let v := s.bankBytes x.w x.c.val o (stateSize u.val)
            if stateLegal u.val v = true then stateOf u.val v else []))))) ∧
    (s.Ready i [.d r] 4 →
      (∀ p, sfind co.places (tag % 16) = some p → kget 15 co.gens (tag % 16) = tag / 16 → p.owner = s.holderOf x → p.state = .done →
        Completes (.cpstat i d r) s (fun t => RegsOnly s t i 4 (fun c =>
          { c.setD d (BitVec.ofNat 16 (256 * p.status + tag)) with sr := setFlags c.sr ⟨false, p.status == 0, false, false⟩ }) ∧
          sfind (t.course x.w x.c.val).places (tag % 16) = none)) ∧
      (sfind co.places (tag % 16) = none → Completes (.cpstat i d r) s (fun t => RegsOnly s t i 4 (fun c =>
        { c.setD d (BitVec.ofNat 16 (0xFF00 + tag)) with sr := setFlags c.sr ⟨false, false, false, false⟩ })))) ∧
    (s.Ready i [.a n] 4 none [.a n] → s.Canon → s.FaultsOnce x → (s.cpUnit x.w x.c.val u.val).holder ≠ some (s.holderOf x) →
      Completes (.cpcmd i d u n) s (fun t => Faulted s t i 0x0C (s.ctx x).pcx.toNat) ∧
      Completes (.cpsave i u n) s (fun t => Faulted s t i 0x0C (s.ctx x).pcx.toNat) ∧
      Completes (.cprest i u n) s (fun t => Faulted s t i 0x0C (s.ctx x).pcx.toNat)))

/-- Verdicts (R17, R224, R242): VERD hands the verdict of the slug in its window to the Collator, FORWARD and MULTI with the descriptor at An, which
DROP and HOLD ignore, and the window is empty five cycles later; with an empty window it faults with NO_SLUG. -/
def Obligations.Verdicts : Prop :=
  ∀ (s : State) (i : Issue) (n : Fin 8),
    let x := i.id
    let a := (s.ctx x).a[n.val].toNat
    let m := (s.ripe i).seenBy x
    let sent := fun (k : VerdKind) (v : Verdict) => ∀ g, (s.settled i).slug = some g →
      Completes (.verd i k n) s (fun t =>
        (t.wy x.w).coll.verdicts = (s.wy x.w).coll.verdicts ++ [⟨some (g.slot, g.serial), v, w32 (beAt g.bytes 0x84 4)⟩] ∧
        RegsOnly s t i 4 (fun c => { c with slugEnds := some (c.slugEnds.getD (s.issueCycle i + 5)) }))
    (s.Ready i [] 4 → sent .drop .drop ∧ sent .hold .hold) ∧
    (s.Ready i [.a n] 4 none [.a n] → areaAwaited (s.ctx x) a 32 = false → (∀ k < 32, s.accessFault x ((a + k) % 0x1000000) 1 = none ∧ s.areaView x (areaOf x (s.ctx x).sr ((a + k) % 0x1000000)) = .on) →
      i.dataEcc = .good → sent .forward (.forward (m.memBytes x a 32))) ∧
    (s.Ready i [.a n] 4 none [.a n] → areaAwaited (s.ctx x) a 100 = false → (∀ k < 100, s.accessFault x ((a + k) % 0x1000000) 1 = none ∧ s.areaView x (areaOf x (s.ctx x).sr ((a + k) % 0x1000000)) = .on) →
      i.dataEcc = .good → (m.memByte x ((a + 32) % 0x1000000)).toNat ≤ 16 →
      sent .multi (.multi (m.memBytes x a (36 + 4 * (m.memByte x ((a + 32) % 0x1000000)).toNat)))) ∧
    (s.Ready i [] 4 → (s.settled i).slug = none → s.Canon → s.FaultsOnce x →
      Completes (.verd i .drop n) s (fun t => Faulted s t i 0x0D (s.ctx x).pcx.toNat ∧ (t.wy x.w).coll = (s.wy x.w).coll))

/-- Buffers (R252, R257–R262): ALLOC and ALLOC_EXACT answer the oldest cached handle of the first pool that fits and give it the count 1; a disabled
Galley answers the null handle; FREE lowers a valid handle's count and frees it at 0; REF_ADD raises it, to 255 at most. The pools' rings (R255): a
refill moves 32 handles, or what the ring holds, to the end of the cache; a spill moves the 32 handles longest in the cache to the ring; neither
loses or doubles a handle. -/
def Obligations.Buffers : Prop :=
  (∀ (s : State) (a : Agent) (w : WytheIx), s.reach a w = true →
    (∀ (u : Fin 256) p b r, s.enabled (pgGalley w) = true →
      ((s.poolRank w).filter (fun p => bitOf 0xFF p && decide (64 * (u.val + 1) ≤ s.rankSize w p))).head? = some p →
      s.poolNone w p .firmware = false → (s.pool w p).cache = b :: r →
      let got := fun (t : State) => t.readData = w32 (mkHandle p b) ∧ (t.pool w p).cache = r ∧ kget 0 (t.pool w p).refs b = 1 ∧
        (∀ q c, (q ≠ p ∨ c ≠ b) → kget 0 (t.pool w q).refs c = kget 0 (s.pool w q).refs c) ∧ Only s t (·.updGalley w (fun _ => {}))
      Completes (.alloc a w u) s got ∧ Completes (.allocExact a w u) s got) ∧
    (∀ u : Fin 256, s.enabled (pgGalley w) = false →
      Completes (.alloc a w u) s (fun t => t.readData = 0x80FFFFFF#32 ∧ Only s t id) ∧
      Completes (.allocExact a w u) s (fun t => t.readData = 0x80FFFFFF#32 ∧ Only s t id)) ∧
    (∀ v : W32,
      let h := fld v 26 0
      let others := fun (t : State) => (∀ g, (handlePool g ≠ handlePool h ∨ handleBuf g ≠ handleBuf h) → t.refCount w g = s.refCount w g) ∧
        Only s t (·.updGalley w (fun _ => {}))
      s.badHandle w h = false →
        (s.refCount w h = 1 → Completes (.free a w v) s (fun t => t.refCount w h = 0 ∧
          (t.pool w (handlePool h)).cache = (s.pool w (handlePool h)).cache ++ [handleBuf h] ∧ others t)) ∧
        (1 < s.refCount w h → Completes (.free a w v) s (fun t => t.refCount w h = s.refCount w h - 1 ∧ others t)) ∧
        (s.refCount w h = 0 → Completes (.free a w v) s (fun t => Only s t id)) ∧
        (0 < s.refCount w h → s.refCount w h + fld v 31 28 ≤ 255 →
          Completes (.refAdd a w v) s (fun t => t.refCount w h = s.refCount w h + fld v 31 28 ∧ others t)) ∧
        (0 < s.refCount w h → 255 < s.refCount w h + fld v 31 28 → Completes (.refAdd a w v) s (fun t => Only s t id)))) ∧
  (∀ (s : State) (w : WytheIx) (p : PoolIx),
    let q := s.pool w p.val
    let ring := q.ring.length + (q.count - q.fresh)
    (q.refilling = true → Completes (.poolRefillEnd w p .good) s (fun t =>
      (∃ l, (t.pool w p.val).cache = q.cache ++ l ∧ l.length = min 32 ring) ∧ poolFree (t.pool w p.val) = poolFree q ∧
        (t.pool w p.val).refs = q.refs ∧ (∀ r, r ≠ p.val → t.pool w r = s.pool w r) ∧ Only s t (·.updGalley w (fun _ => {})))) ∧
    (q.spilling = true → Completes (.poolSpillEnd w p) s (fun t =>
      (t.pool w p.val).cache = q.cache.drop 32 ∧ (t.pool w p.val).ring = q.ring ++ q.cache.take 32 ∧
        poolFree (t.pool w p.val) = poolFree q ∧ (t.pool w p.val).refs = q.refs ∧
        (∀ r, r ≠ p.val → t.pool w r = s.pool w r) ∧ Only s t (·.updGalley w (fun _ => {})))))

/-- Moves (R263, R264): MOVE_POST queues a move of the poster, or is held while its core, or the host, has eight outstanding; MOVE_START reads its
block; MOVE_END copies the bytes between banks and buffer and gives the status OK; MOVE_STATUS answers it once the reader's moves have ended, and
waits until then. Re-laying a backing (R256): at the drain limit the build begins and no buffer of the retiring pools stays allocated; at its end the
pools of the settings it began with open with every handle free, the first 128 cached. -/
def Obligations.MovesAndRelaying : Prop :=
  (∀ (s : State) (w : WytheIx),
    let g := (s.wy w).galley
    (∀ (a : Agent) (v : W32), s.reach a w = true → Completes (.movePost a w v) s (fun t =>
      ∃ m, (if moveFull g (moveOwner a) = false ∧ g.heldMoves = [] then (t.wy w).galley.moves = g.moves ++ [m] ∧ (t.wy w).galley.heldMoves = []
          else moveFull g (moveOwner a) = true → (t.wy w).galley.moves = g.moves ∧ (t.wy w).galley.heldMoves = g.heldMoves ++ [m]) ∧ m.owner = moveOwner a ∧ m.desc = none ∧
        (∀ x, a = .mason x → 0x400000 ≤ fld v 23 0 → fld v 23 0 + 16 ≤ 0x800000 → m.course = x.c.val ∧ m.block = some (fld v 23 0 - 0x400000)) ∧
        Only s t (·.updGalley w (fun _ => {})))) ∧
    (∀ m r o, g.moves = m :: r → m.desc = none → m.block = some o → s.bankRange w m.course o 16 = .on →
      Completes (.moveStart w .good) s (fun t => (t.wy w).galley.moves = { m with desc := some (s.bankBytes w m.course o 16), bad := false } :: r ∧
        Only s t (·.updGalley w (fun _ => {})))) ∧
    (∀ m r d, g.moves = m :: r → m.desc = some d → d.length = 16 → m.bad = false → s.MemCanon → (∀ n < 48, (s.core w n).storeQ = []) →
      let w0 := beAt d 0 4
      let w2 := beAt d 8 4
      let h := bitsOf w0 26 0
      let off := beAt d 4 2
      let len := beAt d 6 2
      let course := bitsOf w2 31 29
      let bank := bitsOf w2 21 0
      bitsOf w0 30 27 = 0 → bitsOf w2 28 22 = 0 → beAt d 12 4 = 0 → course < 6 → bank + len ≤ 0x400000 → s.bankRange w course bank len = .on →
      s.goodHandle w h = true → s.bufRetained w h = false → off + len ≤ s.poolSize w (handlePool h) → 0 < len → len ≤ 2048 →
      Completes (.moveEnd w .good .good) s (fun t => (g.heldMoves = [] → (t.wy w).galley.moves = r) ∧ kget 0 (t.wy w).galley.moveStatus (moveKey m.owner) = 0 ∧
        (bitOf w0 31 = true → (∀ k < len, t.bufByte w h (off + k) = s.bankByte w course (bank + k)) ∧
          Only s t (·.updGalley w (fun _ => {}))) ∧
        (bitOf w0 31 = false → (∀ k < len, t.bankByte w course (bank + k) = s.bufByte w h (off + k)) ∧
          (∀ c b, (c ≠ course ∨ b < bank ∨ bank + len ≤ b) → t.bankByte w c b = s.bankByte w c b) ∧
          Only s t (·.updWy w (fun y => { y with galley := {}, courses := [] }))))) ∧
    (∀ a : Agent, s.reach a w = true →
      (s.moveWaits w (moveOwner a) = false → Completes (.moveStatus a w) s (fun t =>
        t.readData = w32 (kget 0 g.moveStatus (moveKey (moveOwner a))) ∧ Only s t id)) ∧
      (s.moveWaits w (moveOwner a) = true → Completes (.moveStatus a w) s (fun t => t.readData = s.readData ∧
        (t.wy w).galley.statusWaits = g.statusWaits ++ [a] ∧ (t.wy w).galley.moves = g.moves ∧ Only s t (·.updGalley w (fun _ => {})))))) ∧
  (∀ (s : State) (w : WytheIx) (dram : Bool),
    (∀ since, s.relay w dram = .draining since → since + s.drainLimit ≤ s.now →
      Completes (.poolRelayBuild w dram) s (fun t => t.relay w dram = .building false (s.poolWords w) ∧ t.relay w (!dram) = s.relay w (!dram) ∧
        (∀ p < 8, (s.pool w p).retiring = true → (s.pool w p).dram = dram → (t.pool w p).refs = [] ∧
          ∀ b, kget 0 (s.pool w p).refs b ≠ 0 → b ∈ (t.pool w p).stale) ∧ Only s t (·.updGalley w (fun _ => {})))) ∧
    (∀ cfg, s.relay w dram = .building false cfg → Completes (.poolOpen w dram) s (fun t => t.relay w dram = .none ∧
      (∀ p < 8,
        let c := cfg.getD p 0
        let n := fld (cfg.getD (8 + p) 0) 23 0
        flag c 30 = dram → flag c 31 = true → n ≠ 0 →
          let q := t.pool w p
          q.open_ = true ∧ q.retiring = false ∧ q.size = 64 * fld c 8 0 ∧ q.count = n ∧ q.refs = [] ∧
            q.cache = List.range (min n 128) ∧ poolFree q = n) ∧
      Only s t (·.updGalley w (fun _ => {})))))

/-- Reception (R11, R12, R257, R397, R404, R405): the first byte of a frame starts a frame of its port; a buffer is allocated and filled; its good
end keeps it; one in error is discarded and counted as FCS_ERROR; every end counts a frame received by the witness. Links and windows (R400, R407,
R409, R420): a link that trains at its speed is up; one that falls is down and raises LINK; at the end of a bandwidth window LAST, MIN and MAX take
its counts; reading TXTS_INFO takes the oldest timestamp. -/
def Obligations.ReceptionAndLinks : Prop :=
  (∀ (s : State) (w : WytheIx) (p : EthIx),
    (∀ data : Bytes, s.rxAlive w p.val = true → s.receiving w p.val = none → s.rxRefusal w p.val = none →
      Completes (.frameArrival w p data) s (fun t => ∃ f, (t.wy w).rx = (s.wy w).rx ++ [f] ∧ (t.wy w).nextFrame = (s.wy w).nextFrame + 1 ∧
        f.id = (s.wy w).nextFrame ∧ f.port = p.val ∧ f.data = data.take (maxFrame (s.portCfg w p.val)) ∧ f.refused = false ∧ f.ended = false ∧
        f.handle = none ∧ (f.err = 0 ↔ (4 ≤ data.length ∧ data.drop (data.length - 4) = fcsBytes (data.take (data.length - 4))) ∧
          64 ≤ data.length ∧ data.length ≤ maxFrame (s.portCfg w p.val)) ∧ Only s t (·.updWy w (fun y => { y with rx := [], nextFrame := 0 })))) ∧
    (∀ data : Bytes, s.rxAlive w p.val = false → Completes (.frameArrival w p data) s (fun t => t = s)) ∧
    (∀ f h s1, (s.wy w).rx.find? (fun f => f.port == p.val && f.handle.isNone && !f.refused) = some f → f.ended = true →
      s.alloc w (fld (s.galleyPortCfg w p.val) 23 16) (s.headroom w p.val + f.data.length) true .ingress = (.got h, s1) →
      Completes (.bufferAllocation w ⟨p.val, by omega⟩) s (fun t => t.bufBytes w h (s.headroom w p.val) f.data.length = f.data ∧
        (∀ r ∈ (t.wy w).rx, r.id = f.id → r.handle = some h) ∧ Only s t (·.updWy w (fun y => { y with rx := [], galley := {} })))) ∧
    (∀ f, s.receiving w p.val = some f → s.Canon → f.refused = false → f.released = false →
      (f.err = 0 → Completes (.frameEnd w p false) s (fun t => (t.wy w).rx = (s.wy w).rx.map (fun r => if r.id = f.id then { r with ended := true, endAt := s.now } else r) ∧
        Counted s t (witRx w p.val) ∧ Only s t (·.updWy w (fun y => { y with rx := [], ports := [] })))) ∧
      (Completes (.frameEnd w p true) s (fun t => (∀ r ∈ (t.wy w).rx, r.id ≠ f.id) ∧
        (∀ e ∈ (t.wy w).comp.entries, e.frame ≠ f.id) ∧ Counted s t (witRx w p.val) ∧
        (f.cause = none → Counted s t (witDrop w p.val 0)) ∧
        Only s t (·.updWy w (fun y => { y with rx := [], comp := {}, galley := {}, ports := [] })))))) ∧
  (∀ (s : State) (w : WytheIx) (p : EthIx),
    let v := s.portCfg w p.val
    let q := s.port w p.val
    (∀ speed : BitVec 2, laneInUse v = true → s.quadHeld w p.val = false → (s.wy w).mode ≠ .dormant → (s.wy w).mode ≠ .brace →
      (speedMatters v = false ∨ fld v 21 20 = speed.toNat) →
      Completes (.linkUp w p speed) s (fun t => (t.port w p.val).up = true ∧ (t.port w p.val).localFault = false ∧
        (t.port w p.val).speedMismatch = false ∧ (∀ r, r ≠ p.val → t.port w r = s.port w r) ∧ Only s t (·.updWy w (fun y => { y with ports := [] })))) ∧
    (∀ speed : BitVec 2, laneInUse v = true → s.quadHeld w p.val = false → (s.wy w).mode ≠ .dormant → (s.wy w).mode ≠ .brace →
      speedMatters v = true → fld v 21 20 ≠ speed.toNat →
      Completes (.linkUp w p speed) s (fun t => t.port w p.val = { q with speedMismatch := true })) ∧
    (∀ lf rf : Bool, q.up = true → s.Canon → Completes (.linkDown w p lf rf) s (fun t =>
      (t.port w p.val).up = false ∧ (t.port w p.val).localFault = lf ∧ (t.port w p.val).remoteFault = rf ∧
        flag (t.rd (pgPort w p.val + 0x10)) 0 = true ∧ Counted s t (pgPort w p.val + 0x88) ∧
        (∀ r, r ≠ p.val → t.port w r = s.port w r) ∧ Only s t (·.updWy w (fun y => { y with ports := [] })))) ∧
    (s.bwEnd w p.val ≤ s.bwTime w → s.bwLen w p.val ≠ 0 → q.bwCut = false → Completes (.bwWindowEnd w p) s (fun t =>
      let r := t.port w p.val
      r.rxBw.bytesLast = w32 (q.rxBw.bytes / 4) ∧ r.rxBw.framesLast = w32 q.rxBw.frames ∧ r.rxBw.bytes = 0 ∧ r.rxBw.frames = 0 ∧
        r.txBw.bytesLast = w32 (q.txBw.bytes / 4) ∧ r.txBw.framesLast = w32 q.txBw.frames ∧ r.txBw.bytes = 0 ∧
        (q.rxBw.skipBytesMax = false → r.rxBw.bytesMax.toNat = max q.rxBw.bytesMax.toNat (w32 (q.rxBw.bytes / 4)).toNat) ∧
        (q.rxBw.skipBytesMin = false → r.rxBw.bytesMin.toNat = min q.rxBw.bytesMin.toNat (w32 (q.rxBw.bytes / 4)).toNat) ∧
        r.up = q.up ∧ Only s t (·.updWy w (fun y => { y with ports := [] })))) ∧
    (∀ (a : Agent) (e : TxStamp) (l : List TxStamp), s.reach a w = true → q.txts = e :: l → Completes (.txtsInfoRead a w p) s (fun t =>
      flag t.readData 31 = true ∧ fld t.readData 15 0 = e.seqId % 65536 ∧ fld t.readData 27 24 = e.msgType % 16 ∧
        fld t.readData 23 16 = e.domain % 256 ∧ flag t.readData 30 = q.txtsOverflow ∧
        t.port w p.val = { q with txts := l, txtsOverflow := false, txtsTime := e.time } ∧ Only s t (·.updWy w (fun y => { y with ports := [] })))))

/-- The Compositor (R68–R72, R79, R92–R95): intake takes the oldest frame in under the active forme, in the rotation of ports; RECIRCULATION returns
it to the pipeline; SPREADING_END leaves a port's frame held with its hash, or recirculating; SLUG_RELEASE gives the earliest ready slug the next
number of its domain and queues it; while it is stopped nothing is taken in or released. -/
def Obligations.CompositorPath : Prop :=
  ∀ (s : State) (w : WytheIx) (p : PortIx),
    let es := (s.wy w).comp.entries
    (s.compStopped w = true → Completes (.compositorIntake w p) s (fun t => t = s) ∧ Completes (.slugRelease w p) s (fun t => t = s)) ∧
    (∀ f, s.intakeReady w p.val = some f → s.enabled (pgComp w) = true →
      (s.wy w).outputsClosed = false → s.compStopped w = false → s.intakeTurn w p.val = true →
      Completes (.compositorIntake w p) s (fun t => ∃ e, (t.wy w).comp.entries = es ++ [e] ∧ e.frame = f.id ∧ e.port = p.val ∧
        e.forme = s.formeNo w ∧ e.stage = .pipeline ∧ e.parsed = false ∧ e.fields = [] ∧ e.except_ = 0 ∧
        (∀ r ∈ (t.wy w).rx, r.id = f.id → r.taken = true) ∧ Only s t (·.updWy w (fun y => { y with rx := [], comp := {} })))) ∧
    (∀ e, es.find? (fun e => e.port == p.val && e.stage == .recirculating) = some e → s.compStopped w = false →
      Completes (.recirculation w p) s (fun t =>
        (t.wy w).comp.entries = es.map (fun x => if x.frame = e.frame then { e with stage := .pipeline } else x) ∧
        Only s t (·.updComp w (fun _ => {})))) ∧
    (∀ e f (parity corrected : Byte), es.find? (fun e => e.port == p.val && e.stage == .pipeline) = some e →
      (s.wy w).rx.find? (fun f => f.id == e.frame) = some f → es.any (fun e => e.port == p.val && e.stage == .held) = false → e.parsed = true → 8 ≤ e.nextSlot → earlyPort w (s.stOf w e.forme) p.val = false →
      Completes (.spreadingEnd w p parity corrected) s (fun t =>
        (t.wy w).comp.entries = es.map (fun x => if x.frame = e.frame then { e with
          stage := .held, hitmap := 0, tablesRun := 0, heldAt := s.now, hash := s.spreadHash w { e with hitmap := 0, tablesRun := 0 } } else x) ∧
        Only s t (·.updComp w (fun _ => {})))) ∧
    (∀ e f (parity corrected : Byte), es.find? (fun e => e.port == p.val && e.stage == .pipeline) = some e →
      (s.wy w).rx.find? (fun f => f.id == e.frame) = some f → es.any (fun e => e.port == p.val && e.stage == .held) = false → e.parsed = false → earlyPort w (s.stOf w e.forme) p.val = false →
      let r := parseFrame (s.stOf w e.forme) w p.val f.data
      8 ≤ r.entry → Completes (.spreadingEnd w p parity corrected) s (fun t => ∃ e', e' ∈ (t.wy w).comp.entries ∧ e'.frame = e.frame ∧ e'.stage = .held ∧
        e'.parsed = true ∧ e'.fields = r.fields ∧ e'.offsets = r.offsets ∧ e'.proto = r.proto ∧ e'.forme = e.forme ∧
        e'.lastNode = BitVec.ofNat 16 (256 * r.done + r.last) ∧ Only s t (·.updComp w (fun _ => {})))) ∧
    (∀ e f, es.find? (fun e => e.port == p.val && e.stage == .held) = some e → (s.wy w).rx.find? (fun f => f.id == e.frame) = some f →
      s.heldReady w e = true → f.ended = true → (s.placeOf w e).1 = false →
      let course := (s.placeOf w e).2.1
      let dom := (s.placeOf w e).2.2
      (s.course w course).held = false → s.compStopped w = false → s.releaseTurn w e = true →
      Completes (.slugRelease w p) s (fun t => ∃ slot g sl,
        (risingFrom 0 (s.wy w).coll.slots = true → sfind (s.wy w).coll.slots slot = none) ∧ sfind (t.wy w).coll.slots slot = some sl ∧ sl.state = .pending ∧ sl.domain = dom ∧
        sl.seq = kget 0 (s.wy w).coll.nextSeq dom ∧ kget 0 (t.wy w).coll.nextSeq dom = kget 0 (s.wy w).coll.nextSeq dom + 1 ∧
        sl.handle = w32 (f.handle.getD 0) ∧ sl.port = e.port ∧ sl.forme = e.forme ∧
        kget [] (t.wy w).coll.order dom = kget [] (s.wy w).coll.order dom ++ [slot] ∧
        (t.course w course).dq = (s.course w course).dq ++ [g] ∧ g.slot = slot ∧ g.bytes.take 128 = padTo 128 (f.data.take 128) ∧
        (∀ x ∈ (t.wy w).comp.entries, x.frame ≠ e.frame) ∧ (∀ r ∈ (t.wy w).rx, r.id ≠ f.id) ∧
        Only s t (·.updWy w (fun y => { y with rx := [], comp := {}, coll := {}, courses := [] })))) ∧
    (∀ e f, es.find? (fun e => e.port == p.val && e.stage == .held) = some e → (s.wy w).rx.find? (fun f => f.id == e.frame) = some f →
      s.heldReady w e = true → f.ended = true → (s.course w (s.placeOf w e).2.1).held = true → s.compStopped w = false → s.releaseTurn w e = true →
      Completes (.slugRelease w p) s (fun t => (∀ x ∈ (t.wy w).comp.entries, x.frame ≠ e.frame) ∧ (∀ r ∈ (t.wy w).rx, r.id ≠ f.id) ∧
        (t.wy w).coll = (s.wy w).coll))

/-- Verdicts at the Collator (R17, R267, R272, R273): a verdict whose slot awaits it makes the slot READY; one for a slot READY already is a
duplicate and one for a slot that is gone or taken anew is stale: both are counted and change no slot. Releases in order (R19, R265–R271): the READY
head of a domain is released and its slot freed, DROP counted as VERDICT_DROP and FORWARD handed to the Press as one copy; a head that stays PENDING
past its hold limit is an ORPHAN and its turn passes. -/
def Obligations.VerdictsAndReleases : Prop :=
  (∀ (s : State) (w : WytheIx) (i : Nat) (m : VerdMsg), (s.wy w).coll.verdicts[i]? = some m → s.Canon →
    let gone := fun (t : State) => (t.wy w).coll.verdicts = (s.wy w).coll.verdicts.eraseIdx i
    let same := fun (t : State) => (t.wy w).coll.slots = (s.wy w).coll.slots ∧ Only s t (·.updColl w (fun _ => {}))
    (∀ k x, m.slot = some (k, x.serial) → s.collSlot w k = some x →
      (x.state = .pending → Completes (.verdictArrival w i) s (fun t => gone t ∧ t.collSlot w k = some { x with state := .ready m.verdict } ∧
        (∀ j, j ≠ k → t.collSlot w j = s.collSlot w j) ∧ (t.wy w).coll.order = (s.wy w).coll.order ∧ Only s t (·.updColl w (fun _ => {})))) ∧
      (∀ v, x.state = .ready v → Completes (.verdictArrival w i) s (fun t => gone t ∧ same t ∧ Counted s t (pgColl w + 0x80))) ∧
      (x.state = .discarded → Completes (.verdictArrival w i) s (fun t => gone t ∧ same t ∧ Counted s t (pgColl w + 0x78))) ∧
      (x.state = .orphan → Completes (.verdictArrival w i) s (fun t => gone t ∧ t.collSlot w k = none ∧ Counted s t (pgColl w + 0x70) ∧
        (x.port ≤ 24 → Counted s t (witDrop w x.port 7)) ∧ Only s t (·.updWy w (fun y => { y with coll := {}, galley := {} }))))) ∧
    (m.slot = none ∨ (∃ k n, m.slot = some (k, n) ∧ ∀ x, s.collSlot w k = some x → x.serial ≠ n) →
      Completes (.verdictArrival w i) s (fun t => gone t ∧ same t ∧ Counted s t (pgColl w + 0x78)))) ∧
  (∀ (s : State) (w : WytheIx) (d : DomainIx) (i : Nat) (x : SeqSlot), s.collHead w d.val = some (i, x) → s.Canon →
    (x.state = .ready .drop → s.heldBefore w d.val = false → Completes (.descriptorRelease w d) s (fun t => t.collSlot w i = none ∧
      Counted s t (pgColl w + 0x48) ∧ Counted s t (pgColl w + 0x50) ∧ (x.port ≤ 24 → Counted s t (witDrop w x.port 6)) ∧
      Only s t (·.updWy w (fun y => { y with coll := {}, galley := {} })))) ∧
    (x.state = .ready .hold → s.heldBefore w d.val = false → Completes (.descriptorRelease w d) s (fun t => t.collSlot w i = none ∧
      Counted s t (pgColl w + 0x48) ∧ Counted s t (pgColl w + 0x58) ∧ Only s t (·.updWy w (fun y => { y with coll := {}, galley := {} })))) ∧
    (∀ b, x.state = .ready (.forward b) → s.heldBefore w d.val = false → s.badDescriptor w (.forward b) = false → targetW (beAt b 0 4) = w →
      s.refsTooHigh w (segsOf b) 0 = false → x.frame = none →
      Completes (.descriptorRelease w d) s (fun t => t.collSlot w i = none ∧ Counted s t (pgColl w + 0x48) ∧
        (∃ c, (t.wy w).press.arrivals = (s.wy w).press.arrivals ++ [c] ∧ c.port = bitsOf (beAt b 0 4) 28 24 ∧ c.hostq = bitOf (beAt b 0 4) 30 ∧
          c.cls = bitsOf (beAt b 0 4) 23 21 ∧ c.stream = BitVec.ofNat 16 (beAt b 0 4) ∧ c.segs = segsOf b ∧ c.forme = x.forme ∧
          c.len = max (((segsOf b).map (·.len)).sum + 4) 64) ∧
        Only s t (·.updWy w (fun y => { y with coll := {}, galley := {}, press := {} })))) ∧
    (x.state = .pending → s.holdLimit w x.forme d.val ≠ 0 → kget 0 (s.wy w).coll.headSince d.val + s.holdLimit w x.forme d.val ≤ s.now →
      Completes (.skip w d) s (fun t => t.collSlot w i = some { x with state := .orphan } ∧ Counted s t (witSkips w) ∧
        Counted s t (pgColl w + 0x68) ∧ flag (t.rd (pgColl w + 0x10)) 0 = true ∧
        Only s t (·.updWy w (fun y => { y with coll := {}, galley := {} })))))

/-- Admission (R337, R338): a copy that passes every test stands at the end of the descriptor store; one that its queue's limit does not hold is
dropped and counted as QUEUE_FULL. -/
def Obligations.Admission : Prop :=
  ∀ (s : State) (w : WytheIx) (tie : Bool) (c : Copy) (r : List Copy),
    (if tie = true then (s.wy w).press.tieArrivals else (s.wy w).press.arrivals) = c :: r →
    s.enabled (pgPressMain w) = true → s.egressUp w c = true → (s.wy w).outputsClosed = false → (c.hostq = true ∨ s.tamperClosed w c.port = false) →
    s.filterOf w c = none → (s.wy w).press.store.length < 65536 →
    let used := s.queuedBytes w c.hostq c.port c.cls + s.admitLen w c
    let taken := fun (t : State) => (if tie = true then (t.wy w).press.tieArrivals else (t.wy w).press.arrivals) = r
    (used ≤ (s.queueLimit w c).1 → Completes (.pressAdmission w tie) s (fun t => taken t ∧
      (t.wy w).press.store = (s.wy w).press.store ++ [{ c with queued := s.admitLen w c, yellow := false }] ∧ (t.wy w).press.sending = (s.wy w).press.sending ∧
      (t.wy w).coll = (s.wy w).coll ∧ (t.wy w).galley = (s.wy w).galley ∧ Only s t (·.updPress w (fun _ => {})))) ∧
    ((s.queueLimit w c).1 < used → s.Canon → c.hostq = false → Completes (.pressAdmission w tie) s (fun t => taken t ∧
      (t.wy w).press.store = (s.wy w).press.store ∧ Counted s t (witDrop w c.port 0x17) ∧ Counted s t (pgPress w c.port + 0xC0) ∧
      Only s t (·.updWy w (fun y => { y with coll := {}, galley := {}, press := {} }))))

/-- Transmission (R20, R345–R347, R359, R406): the head copy of the selected class starts, in PLUMB of the highest eligible class; at its end the
frame is on the line with its FCS, counted by the witness, and its copy has left the store. -/
def Obligations.Transmission : Prop :=
  ∀ (s : State) (w : WytheIx) (p : EthIx),
    (∀ c h r, (s.wy w).outputsClosed = false → s.enabled (pgPress w p.val) = true → sfind (s.wy w).press.sending p.val = none →
      s.tamperClosed w p.val = false → ((s.wy w).mode = .plumb → s.gptp w % 8 = 0) → s.queueOf w false p.val c = h :: r →
      (s.port w p.val).up = true → s.enabled (pgPort w p.val) = true →
      ((s.selectClass w p.val (s.gptp w)).1 = some c ∨
        ((s.wy w).mode = .plumb ∧ c < 8 ∧ s.eligible w p.val c (s.gptp w) = true ∧ ∀ e < 8, c < e → s.eligible w p.val e (s.gptp w) = false)) →
      Completes (.frameStart w p) s (fun t => (∃ x, sfind (t.wy w).press.sending p.val = some x ∧ x.copy = { h with started := true } ∧ x.cutBad = false) ∧
        (t.wy w).press.store = replaceFirst h { h with started := true } (s.wy w).press.store ∧
        (∀ q, q ≠ p.val → sfind (t.wy w).press.sending q = sfind (s.wy w).press.sending q) ∧ Only s t (·.updPress w (fun _ => {})))) ∧
    (∀ x, sfind (s.wy w).press.sending p.val = some x → x.copy.early = none → x.cutBad = false → x.copy.cls < 8 → s.Canon →
      let body := padTo 60 (s.segBytes w x.copy)
      Completes (.transmissionEnd w p .good) s (fun t => Output.tx w p.val (body ++ fcsBytes body) true ∈ t.out ∧
        sfind (t.wy w).press.sending p.val = none ∧ (t.wy w).press.store = (s.wy w).press.store.erase x.copy ∧ Counted s t (witTx w p.val) ∧
        Only s t (·.updWy w (fun y => { y with coll := {}, galley := {}, press := {}, ports := [] }))))

/-- Shapers, meters and gates (R340, R342, R348–R354): a refill tick adds to every enabled shaper and meter; a running gate list shows the entry of
its time; a pending list that is due replaces it; UNBLOCK frees a filter or a meter. -/
def Obligations.ShapersMetersGates : Prop :=
  ∀ (s : State) (w : WytheIx) (p : EthIx),
    ((s.wy w).press.shaperDue = [] → (s.wy w).press.meterDue = [] → risingFrom 0 (s.wy w).press.meters = true → Completes (.refillTick w) s (fun t =>
      (∀ n, n < 8 ∨ n = 16 → flag (s.stActive (pgPress w p.val + 0x180 + 4 * n)) 31 = true →
        let x := s.shaper w p.val n
        let e := x.rem + (s.stActive (pgPress w p.val + 0x200 + 4 * n)).toNat * 4194304
        (t.shaper w p.val n).level = min (x.level + (e / 1000000000 : Nat)) ((65536 * fld (s.stActive (pgPress w p.val + 0x180 + 4 * n)) 24 0 : Nat) : Int) ∧
          (t.shaper w p.val n).rem = e % 1000000000) ∧
      (∀ n < 17, flag (s.stActive (pgPress w p.val + 0x180 + 4 * n)) 31 = false → t.shaper w p.val n = s.shaper w p.val n) ∧
      (∀ m, (sfind (s.wy w).press.meters m).isSome = true → t.meter w m = meterRefill (s.meterCfg w m) (s.meter w m)) ∧
      Only s t (·.updPress w (fun _ => {})))) ∧
    ((s.gate w p.val).running = true → Completes (.gateEvent w p) s (fun t =>
      let g := s.gate w p.val
      let now := gateAt (g.base, g.cycle, g.entries) (s.gptp w)
      t.gate w p.val = { g with entry := now.1, states := BitVec.ofNat 8 now.2 } ∧ (∀ q, q ≠ p.val → t.gate w q = s.gate w q) ∧
        Only s t (·.updPress w (fun _ => {})))) ∧
    (∀ l, (s.gate w p.val).pending = some l → l.1 ≤ s.gptp w → Completes (.gateListChange w p) s (fun t =>
      (t.gate w p.val).running = true ∧ (t.gate w p.val).base = l.1 ∧ (t.gate w p.val).cycle = l.2.1 ∧ (t.gate w p.val).entries = l.2.2 ∧
        (t.gate w p.val).pending = none ∧ (t.gate w p.val).states = BitVec.ofNat 8 (gateAt l (s.gptp w)).2 ∧
        (∀ q, q ≠ p.val → t.gate w q = s.gate w q) ∧ Only s t (·.updPress w (fun _ => {})))) ∧
    (∀ (a : Agent) (n : BitVec 12), s.reach a w = true →
      Completes (.filterUnblock a w n) s (fun t => kget false (t.wy w).press.blocked n.toNat = false ∧
        (∀ m, m ≠ n.toNat → kget false (t.wy w).press.blocked m = kget false (s.wy w).press.blocked m) ∧ Only s t (·.updPress w (fun _ => {}))) ∧
      Completes (.markRedClear a w n) s (fun t => t.meter w n.toNat = { s.meter w n.toNat with markRed := false } ∧
        (∀ m, m ≠ n.toNat → t.meter w m = s.meter w m) ∧ Only s t (·.updPress w (fun _ => {}))))

/-- Command windows (R125–R128, R131): each of the six operations joins the window's FIFO with its tag and the KEY and DATA words as they stand; a
sixteenth in the FIFO and the responses together is the last, and one more is rejected; a read of the response queue's NEXT drops its head. Command
execution (R102, R121–R123, R126, R127, R129, R131): the engine takes the oldest command of a window and answers it with its operation and tag,
unless it is a quiet success; on the index table, for what is no staged write, WRITE sets its entry and DELETE clears it, INSERT refuses one that
exists, and READ answers it. -/
def Obligations.TableCommands : Prop :=
  (∀ (s : State) (w : WytheIx) (tb : Fin 16) (tag : Byte) (quiet : Bool), s.reach .host w = true → windowOk tb.val = true →
    let x := s.window w tb.val
    let room := x.fifo.length + x.resps.length < 16
    let joins := fun (op : Nat) (t : State) =>
      (t.window w tb.val).fifo = x.fifo ++ [⟨op, tag, quiet, (List.range 20).map (sget (fun _ => 0) x.keys), (List.range 8).map (sget (fun _ => 0) x.datas),
        if s.sessionOpen = true then .session else if s.sessionPending = true then .pending else .plain⟩] ∧ (t.window w tb.val).resps = x.resps ∧ (∀ j, j ≠ tb.val → t.window w j = s.window w j) ∧
        (s.forme.session = .none → t.forme = s.forme) ∧
        Only s t (fun s => { s.updTables w (fun _ => {}) with forme := {} })
    let refused := fun (t : State) => (t.window w tb.val).fifo = x.fifo ∧ (t.window w tb.val).resps = x.resps ∧ (t.window w tb.val).rejected = true ∧
      Only s t (·.updTables w (fun _ => {}))
    (room → Completes (.read w tb tag quiet) s (joins 1) ∧ Completes (.write w tb tag quiet) s (joins 2) ∧ Completes (.insert w tb tag quiet) s (joins 3) ∧
      Completes (.delete w tb tag quiet) s (joins 4) ∧ Completes (.search w tb tag quiet) s (joins 5) ∧ Completes (.nextCmd w tb tag quiet) s (joins 6)) ∧
    (¬ room → Completes (.read w tb tag quiet) s refused ∧ Completes (.write w tb tag quiet) s refused ∧ Completes (.insert w tb tag quiet) s refused ∧
      Completes (.delete w tb tag quiet) s refused ∧ Completes (.search w tb tag quiet) s refused ∧ Completes (.nextCmd w tb tag quiet) s refused) ∧
    (∀ a r, x.resps = a :: r → Completes (.respNext w tb) s (fun t => (t.window w tb.val).resps = r ∧ (t.window w tb.val).fifo = x.fifo ∧
      Only s t (·.updTables w (fun _ => {}))))) ∧
  (∀ (s : State) (w : WytheIx) (tb : Fin 16) (c : WinCmd) (rest : List WinCmd),
    (s.window w tb.val).fifo = c :: rest → s.fifoHeld w tb.val = false → s.enabled (enginePage w tb.val) = true →
    let resps := (s.window w tb.val).resps
    let answered := fun (t : State) (p : WinResp → Prop) => (t.window w tb.val).fifo = rest ∧ ∃ r, (t.window w tb.val).resps = resps ++ [r] ∧
      r.op = c.op ∧ r.tag = c.tag ∧ p r
    (c.quiet = false → Completes (.commandExecution w tb .good) s (fun t => answered t (fun _ => True))) ∧
    (Completes (.commandExecution w tb .uncorrectable) s (fun t => answered t (fun r => r.code = 8))) ∧
    ((c.op = 0 ∨ 6 < c.op) → Completes (.commandExecution w tb .good) s (fun t => answered t (fun r => r.code = 5))) ∧
    (tb = 3 → s.stages w c = false → kw c 0 < 65536 →
      let i := kw c 0
      let b := wordBytes ((List.range 8).map (fun j => w32 (dw c j)))
      let held := (sfind (s.tables w).overlay i).isSome = true ∨ (sfind (s.tables w).index i).isSome = true
      let others := fun (t : State) => ∀ j, j ≠ i → sfind (t.tables w).index j = sfind (s.tables w).index j
      (c.op = 2 → Completes (.commandExecution w tb .good) s (fun t => sfind (t.tables w).index i = some ⟨false, b⟩ ∧
        sfind (t.tables w).overlay i = none ∧ others t ∧ (c.quiet = true → (t.window w 3).resps = resps))) ∧
      (c.op = 3 → held → Completes (.commandExecution w tb .good) s (fun t => answered t (fun r => r.code = 2) ∧
        (t.tables w).index = (s.tables w).index)) ∧
      (c.op = 4 → held → Completes (.commandExecution w tb .good) s (fun t => sfind (t.tables w).index i = none ∧
        sfind (t.tables w).overlay i = none ∧ others t)) ∧
      (c.op = 1 → ∀ e, indexSee (s.tables w) (s.hostBorn w) i = some e → Completes (.commandExecution w tb .good) s (fun t =>
        answered t (fun r => r.code = 0 ∧ r.keys = [w32 i] ∧ r.datas = beWords e) ∧ (t.tables w).index = (s.tables w).index))))

/-- The learn table's own events (R110, R115, R118–R120): a queued request that no entry answers is learned under the current epoch; the epoch
advances when its period has passed; the ager drops from a bucket what has aged and goes on to the next. -/
def Obligations.LearningAndAgeing : Prop :=
  ∀ (s : State) (w : WytheIx),
    let tb := s.tables w
    (∀ r rest, tb.learnQ = r :: rest → s.enabled (pgLearn w) = true → learnCopies tb.learn r.kindKey = [] →
      let e : LearnEntry := ⟨false, false, false, tb.epoch, r.kindKey, r.port, r.flags, r.data⟩
      (learnPlace tb.learn (fld (s.rd (pgLearn w + 0x108)) 1 0) e).isSome = true →
      Completes (.learnRequestService w .good) s (fun t => (t.tables w).learnQ = rest ∧ (∃ p, sfind (t.tables w).learn p = some e) ∧
        (s.Canon → Counted s t (pgLearn w + 0x50)) ∧ Only s t (·.updTables w (fun _ => {})))) ∧
    (tb.epochStart + tb.epochPeriod * 10000000 ≤ s.now → Completes (.epochChange w) s (fun t => (t.tables w).epoch = tb.epoch + 1 ∧
      (t.tables w).epochPeriod = fld (s.rd (pgLearn w + 0x100)) 15 0 ∧ (t.tables w).learn = tb.learn ∧
      (tb.pass = none → flag (s.rd (pgLearn w + 0x100)) 16 = true → (t.tables w).pass = some 0) ∧ Only s t (·.updTables w (fun _ => {})))) ∧
    (s.now < tb.epochStart + tb.epochPeriod * 10000000 → Completes (.epochChange w) s (fun t => t = s)) ∧
    (∀ b, tb.pass = some b → s.enabled (pgLearn w) = true → (s.wy w).sweep ≠ .sweeping → Completes (.agerVisit w .good) s (fun t =>
      (∀ p e, p ∈ learnWays b → sfind tb.learn p = some e → aged tb.epoch (fld (s.ageCfg w) 31 24) e = true → sfind (t.tables w).learn p = none) ∧
      (∀ p, p ∉ learnWays b → sfind (t.tables w).learn p = sfind tb.learn p) ∧
      (∀ p e, sfind tb.learn p = some e → aged tb.epoch (fld (s.ageCfg w) 31 24) e = false → sfind (t.tables w).learn p = some e) ∧
      (b + 1 < 65536 → (t.tables w).pass = some (b + 1)) ∧ Only s t (·.updTables w (fun _ => {}))))

/-- Tasks by command (R229, R230, R251): CREATE makes a FREE TCB READY with ARG's entry and CFG's attributes; KILL frees one and empties its context;
SET_PRIO and POST act on one in use; TASK_STATUS says what was wrong otherwise. Flags reaching tasks (R219, R220, R231, R234, R243): a post sets its
flags or is lost on a FREE TCB; a wait that is met gives its flags and goes on; a compare that fires sets flag 31; a binding stored while its
condition holds posts at once. -/
def Obligations.TaskCommands : Prop :=
  (∀ (s : State) (a : Agent) (k : CoreId) (n : TcbIx), s.reach a k.w = true →
    let cfg := s.rd (pgChase k.w k.ix + 0x10C)
    let arg := s.rd (pgChase k.w k.ix + 0x108)
    let st := fun (t : State) => (t.core k.w k.ix).taskStatus
    let others := fun (t : State) => ∀ j, j ≠ n → t.taskOn k j = s.taskOn k j
    ((s.taskOn k n).state = .free → flag cfg 10 = false → Completes (.create a k n) s (fun t => st t = 0 ∧ others t ∧
      (t.taskOn k n).state = .ready ∧ (t.taskOn k n).pcx = arg.setWidth 24 &&& 0xFFFFFE#24 ∧ (t.taskOn k n).prio = BitVec.ofNat 4 (fld cfg 15 12) ∧
      (t.taskOn k n).taker = flag cfg 11 ∧ (t.taskOn k n).flags = 0 ∧ ∀ y, t.ctx y = s.ctx y)) ∧
    ((s.taskOn k n).state ≠ .free →
      (Completes (.create a k n) s (fun t => st t = 1 ∧ t.taskOn k n = s.taskOn k n ∧ others t)) ∧
      (Completes (.kill a k n) s (fun t => st t = 0 ∧ (t.taskOn k n).state = .free ∧ (t.taskOn k n).flags = 0 ∧
        (t.taskOn k n).waitMax = (s.taskOn k n).waitMax ∧
        ((s.ctx (s.ctxOf k n)).task = some n → s.swapIn (s.ctxOf k n) = none →
          (t.ctx (s.ctxOf k n)).task = none ∧ (t.ctx (s.ctxOf k n)).state = .stopped ∧ (t.ctx (s.ctxOf k n)).slug = none))) ∧
      (Completes (.setPrio a k n) s (fun t => st t = 0 ∧ others t ∧ (t.taskOn k n).prio = BitVec.ofNat 4 (fld cfg 15 12) ∧
        (t.taskOn k n).state = (s.taskOn k n).state ∧ (t.taskOn k n).flags = (s.taskOn k n).flags)) ∧
      (arg.getLsbD 30 = false → Completes (.post a k n) s (fun t => st t = 0 ∧
        (t.wy k.w).posts = (s.wy k.w).posts ++ [⟨k.ix, n, arg⟩] ∧ t.taskOn k n = s.taskOn k n ∧ others t))) ∧
    ((s.taskOn k n).state = .free →
      (Completes (.kill a k n) s (fun t => st t = 2 ∧ t.taskOn k n = s.taskOn k n)) ∧
      (Completes (.setPrio a k n) s (fun t => st t = 2 ∧ t.taskOn k n = s.taskOn k n)) ∧
      (Completes (.post a k n) s (fun t => st t = 2 ∧ (t.wy k.w).posts = (s.wy k.w).posts)))) ∧
  (∀ (s : State) (k : CoreId) (n : TcbIx),
    (∀ i p, (s.wy k.w).posts[i]? = some p → p.core = k.ix → p.tcb = n →
      ((s.taskOn k n).state ≠ .free → Completes (.postApply k.w i) s (fun t => t.taskOn k n = { s.taskOn k n with flags := (s.taskOn k n).flags ||| p.mask } ∧
        (t.wy k.w).posts = (s.wy k.w).posts.eraseIdx i ∧ ∀ y, t.ctx y = s.ctx y)) ∧
      ((s.taskOn k n).state = .free → s.Canon → Completes (.postApply k.w i) s (fun t => t.taskOn k n = s.taskOn k n ∧
        (t.wy k.w).posts = (s.wy k.w).posts.eraseIdx i ∧ Counted s t (pgChase k.w k.ix + 0x60)))) ∧
    (∀ d, (s.taskOn k n).state = .waiting → (s.ctx (s.ctxOf k n)).waitDest = some d → s.waitMet k n = true → s.coreRuns k = true →
      let x := s.ctxOf k n
      evenReg d = true → (s.ctx x).task = some n → (s.ctx x).stepping = false → Completes (.waitSatisfied k n) s (fun t =>
        (t.ctx x).state = .running ∧ (t.ctx x).pair d = (s.taskOn k n).flags &&& (s.ctx x).evw ∧ (t.ctx x).pcx = (s.ctx x).pcx ∧
        (t.ctx x).waitDest = none ∧ (t.taskOn k n).flags = (s.taskOn k n).flags &&& ~~~(s.ctx x).evw ∧ (t.taskOn k n).state = .running ∧
        ∀ y, y ≠ x → t.ctx y = s.ctx y)) ∧
    ((s.taskOn k n).state = .saved → satisfied (s.taskOn k n).flags (s.taskOn k n).evw (s.taskOn k n).evAll = true →
      Completes (.waitSatisfied k n) s (fun t => (t.taskOn k n).state = .ready ∧ (t.taskOn k n).flags = (s.taskOn k n).flags ∧ ∀ y, t.ctx y = s.ctx y)) ∧
    (∀ x : CtxId, x.core = k → x.x ≠ 0 → (s.ctx x).armed = true → (s.ctx x).tcmp.toNat ≤ (s.tnow x).toNat → (s.ctx x).task = some n →
      (s.taskOn k n).state ≠ .free → Completes (.timerCompareFire (.context x)) s (fun t => t.ctx x = { s.ctx x with armed := false } ∧
        (t.taskOn k n).flags = (s.taskOn k n).flags ||| 0x80000000#32)) ∧
    ((s.taskOn k n).state = .saved → (s.taskOn k n).armed = true → (s.taskOn k n).tcmp.toNat ≤ s.gptp k.w →
      Completes (.timerCompareFire (.saved k n)) s (fun t => (t.taskOn k n).armed = false ∧
        (t.taskOn k n).flags = (s.taskOn k n).flags ||| 0x80000000#32)) ∧
    (∀ (a : Agent) (j : Fin 16) (v : W32), s.reach a k.w = true → s.Canon → fld v 4 0 ≤ 29 → fld v 30 28 < 3 → v &&& 0x0C0FC0E0#32 = 0 →
      Completes (.bindWrite a k j v) s (fun t => t.rd (pgChase k.w k.ix + 0x180 + 4 * j.val) = v ∧
        (flag v 31 = true → fld v 30 28 = 0 → (s.chan k.w k.c.val (fld v 25 20)).msgs ≠ [] →
          (t.wy k.w).posts = (s.wy k.w).posts ++ [⟨k.ix, Fin.ofNat 64 (fld v 13 8), w32 (2 ^ fld v 4 0)⟩]) ∧
        (flag v 31 = false → (t.wy k.w).posts = (s.wy k.w).posts))))

/-- Residency (R226, R235–R237): a READY task is loaded into an empty context, or exchanged for the one that may leave; at the end of its swap a
task's registers are in its TCB, or in its context, which then runs or waits. Slugs to tasks (R188, R239–R241): a course's oldest slug goes to the
taker found first, and on its arrival stands in the task's window. -/
def Obligations.ResidencyAndSlugs : Prop :=
  (∀ (s : State) (k : CoreId),
    (∀ x n, s.chaseRuns k = true → s.portBusy k = false → s.firstEmpty k = some x → s.readyHead k = some n → Completes (.taskLoad k) s (fun t =>
      (t.ctx x).state = .swapping ∧ (t.ctx x).task = some n ∧ (t.taskOn k n).state = .moving ∧ (t.taskOn k n).a = (s.taskOn k n).a ∧
      (t.core k.w k.ix).swaps = (s.core k.w k.ix).swaps ++ [⟨x.x, none, some n, none⟩] ∧ ∀ y, y ≠ x → t.ctx y = s.ctx y)) ∧
    (∀ v n, s.chaseRuns k = true → s.portBusy k = false → s.firstEmpty k = none → s.victim k = some v → s.readyHead k = some n →
      Completes (.taskExchange k) s (fun t => (t.ctx (s.ctxOf k v)).state = .swapping ∧ (t.taskOn k v).state = .moving ∧ (t.taskOn k n).state = .moving ∧
        (t.core k.w k.ix).swaps = (s.core k.w k.ix).swaps ++ [⟨(s.taskOn k v).ctx, some v, some n, none⟩] ∧
        ∀ y, y ≠ s.ctxOf k v → t.ctx y = s.ctx y)) ∧
    (∀ (x : CtxId) v n g, x.core = k → s.coreRuns k = true → s.swapIn x = some ⟨x.x, some v, some n, g⟩ → v ≠ n → (s.ctx x).products = [] →
      Completes (.swapEnd x) s (fun t =>
        let tc := t.taskOn k v
        tc.state = .saved ∧ tc.a = (s.ctx x).a ∧ tc.d = (s.ctx x).d ∧ tc.pcx = (s.ctx x).pcx ∧ tc.mlo = (s.ctx x).mlo ∧ tc.mhi = (s.ctx x).mhi ∧
        tc.evw = (s.ctx x).evw ∧ tc.tcmp = (s.ctx x).tcmp ∧ tc.armed = (s.ctx x).armed ∧ tc.poly = (s.ctx x).poly ∧ tc.flags = (s.taskOn k v).flags ∧
        (t.ctx x).task = some n ∧ (t.ctx x).state = .swapping)) ∧
    (∀ (x : CtxId) n, x.core = k → s.chaseRuns k = true → s.swapIn x = some ⟨x.x, none, some n, none⟩ → (s.taskOn k n).waitDest = none →
      (s.ctx x).haltDue = false → Completes (.swapEnd x) s (fun t =>
        let tc := s.taskOn k n
        (t.ctx x).state = .running ∧ (t.ctx x).a = tc.a ∧ (t.ctx x).d = tc.d ∧ (t.ctx x).pcx = tc.pcx ∧ (t.ctx x).sr = tc.sr ∧ (t.ctx x).mlo = tc.mlo ∧
        (t.ctx x).mhi = tc.mhi ∧ (t.ctx x).x = Vector.replicate 4 0 ∧ (t.ctx x).evw = tc.evw ∧ (t.ctx x).tcmp = tc.tcmp ∧ (t.ctx x).poly = tc.poly ∧
        (t.ctx x).task = some n ∧ (t.taskOn k n).state = .running ∧ t.swapIn x = none ∧ ∀ y, y ≠ x → t.ctx y = s.ctx y))) ∧
  ((∀ (s : State) (w : WytheIx) (c : CourseIx) g k n, s.nextSlug w (s.course w c.val) = some g →
    ((List.range 8).map (fun i => (⟨w, c, Fin.ofNat 8 ((s.course w c.val).lastCore.val + 1 + i)⟩ : CoreId))).findSome?
      (fun k => (s.pickResident k).map (fun t => (k, t))) = some (k, n) →
    Completes (.takerSelection w c) s (fun t => (t.course w c.val).dq = (s.course w c.val).dq.erase g ∧ (t.course w c.val).lastCore = k.k ∧
      (t.core w k.ix).swaps = (s.core w k.ix).swaps ++ [⟨(s.taskOn k n).ctx, none, none, some g⟩] ∧ (∀ y, t.ctx y = s.ctx y) ∧
      (t.taskOn k n).flags = (s.taskOn k n).flags)) ∧
  (∀ (s : State) (x : CtxId) g, s.coreRuns x.core = true → s.swapIn x = some ⟨x.x, none, none, some g⟩ →
    (∀ n, (s.ctx x).task = some n → s.ctxOf x.core n = x) → Completes (.slugDelivery x) s (fun t => (t.ctx x).slug = some g ∧ (t.ctx x).slugEnds = none ∧ t.swapIn x = none ∧
      (∀ o < 0xC0, windowByte (t.ctx x) o = g.bytes.getD o 0) ∧ ∀ y, y ≠ x → t.ctx y = s.ctx y)))

/-- Courses that stand still (R244–R248): the detector, which counts half cycles (log 9), raises QUIESCENT when its count reaches the limit, and
RECOVERY_END ends the recovery; a channel whose owner makes no progress is closed, its words delivered as an ABORTED message; LOAD takes a window's
share of issue cycles. Stopping and starting a core (R148, R171, R172, R249): CTRL.ENABLE is set and cleared; an ABORT stops every context, lands its
products and keeps its registers; the core it stopped starts again with its image's entry when ENABLE is set. -/
def Obligations.CoursesAndCores : Prop :=
  (∀ (s : State) (w : WytheIx) (c : CourseIx),
    ((s.rd (pgChase w (8 * c.val) + 0x1C0)).toNat ≠ 0 → 2 * (s.rd (pgChase w (8 * c.val) + 0x1C0)).toNat ≤ (s.course w c.val).quiet →
      (s.course w c.val).recovery = false → ((s.wy w).mode = .run ∨ (s.wy w).mode = .setting ∨ (s.wy w).mode = .plumb ∨ (s.wy w).mode = .half) →
      (s.course w c.val).held = false → s.courseQuiet w c = true → s.Canon → Completes (.quiescence w c) s (fun t =>
        (t.course w c.val).recovery = true ∧ (t.course w c.val).quiet = 0 ∧ flag (t.rd (pgChase w (8 * c.val) + 0x10)) 0 = true ∧ Counted s t (pgChase w (8 * c.val) + 0x70) ∧
        ∀ i < 8, (t.core w (8 * c.val + i)).intPend.getLsbD 13 = true)) ∧
    (∀ (a : Agent) (k : CoreIx), s.reach a w = true →
      ((s.course w c.val).recovery = true → Completes (.recoveryEnd a ⟨w, c, k⟩) s (fun t => (t.course w c.val).recovery = false ∧
        (∀ i < 8, (t.core w (8 * c.val + i)).intPend.getLsbD 13 = false) ∧ ∀ y, t.ctx y = s.ctx y)) ∧
      (Completes (.recoveryAck a ⟨w, c, k⟩) s (fun t => (t.core w (coreIx c k)).intPend.getLsbD 13 = false ∧
        (t.course w c.val).recovery = (s.course w c.val).recovery ∧ ∀ i, i ≠ coreIx c k → t.core w i = s.core w i))) ∧
    (∀ ch : Fin 64, ∀ o,
      let h := s.chan w c.val ch.val
      let l := 1000 * fld (s.rd (pgChase w (8 * c.val) + 0x1C8)) 15 0
      h.owner = some o → l ≠ 0 → h.progress + l ≤ h.stalled.getD s.now → s.Canon → Completes (.channelForcedClose w c ch) s (fun t =>
        (t.chan w c.val ch.val).owner = none ∧ (t.chan w c.val ch.val).words = [] ∧
        (t.chan w c.val ch.val).msgs = h.msgs ++ (if h.words = [] then [] else [⟨h.words, true⟩]) ∧ Counted s t (pgChase w (8 * c.val) + 0x78) ∧
        flag (t.rd (pgChase w (8 * c.val) + 0x10)) 1 = true)) ∧
    (∀ k : CoreIx,
      let i := coreIx c k
      let n := 2 ^ fld (s.rd (pgChase w i + 0x128)) 4 0
      Completes (.loadWindowEnd ⟨w, c, k⟩) s (fun t => (t.core w i).load = w32 (min 65536 ((s.core w i).loadIssues * 65536 / n)) ∧
        (t.core w i).loadIssues = 0 ∧ (t.core w i).loadStart = (s.core w i).loadStart + n ∧ ∀ y, t.ctx y = s.ctx y))) ∧
  (∀ (s : State) (a : Agent) (k : CoreId), s.reach a k.w = true →
    let ctrl := pgCore k.w k.ix + 8
    (s.Canon → Completes (.coreDisable a k) s (fun t => t.rd ctrl = s.rd ctrl &&& 0xFFFFFFFE#32 ∧ (∀ b, b ≠ ctrl → t.rd b = s.rd b) ∧ t = { s with regs := t.regs })) ∧
    (s.Canon → (s.core k.w k.ix).aborted = false → Completes (.coreEnable a k) s (fun t => t.rd ctrl = s.rd ctrl ||| 1 ∧
      (∀ b, b ≠ ctrl → t.rd b = s.rd b) ∧ t = { s with regs := t.regs })) ∧
    (Completes (.coreAbort a k) s (fun t => (t.core k.w k.ix).dead = true ∧ (t.core k.w k.ix).aborted = true ∧ t.coreRuns k = false ∧
      ∀ n : CtxIx,
        let x : CtxId := ⟨k.w, k.c, k.k, n⟩
        (t.ctx x).state = .stopped ∧ (t.ctx x).a = (s.ctx x).a ∧ (t.ctx x).d = (s.ctx x).d ∧ (t.ctx x).pcx = (s.ctx x).pcx ∧
          (t.ctx x).products = [] ∧ (t.ctx x).loads = [] ∧ (t.ctx x).looks = [])) ∧
    (∀ m, (s.core k.w k.ix).aborted = true → (s.core k.w k.ix).image = some m → beAt m.bytes 4 2 = 1 → s.Canon → Completes (.coreEnable a k) s (fun t =>
      (t.core k.w k.ix).dead = false ∧ flag (t.rd ctrl) 0 = true ∧
      (t.ctx ⟨k.w, k.c, k.k, 0⟩).state = .running ∧ (t.ctx ⟨k.w, k.c, k.k, 0⟩).pcx = BitVec.ofNat 24 (beAt m.bytes 0x0C 4) &&& 0xFFFFFE#24 ∧
      (∀ n : CtxIx, n ≠ 0 → (t.ctx ⟨k.w, k.c, k.k, n⟩).state = .stopped) ∧ ∀ n : TcbIx, (t.taskOn k n).state = .free)))

/-- Coprocessor claims (R283–R286): a claim by a master of the course is granted on a free unit, HELD on its own, QUEUED behind another; another
agent is refused; a release clears the unit's state and grants it to the longest-waiting claim, whose task is posted its flag. Coprocessor commands
(R291, R292, R296, R299): a queued command commits, and one cancelled before completes then with CANCELLED; one that completes leaves its status; a
division gives quotient and remainder at its destination, and a divisor of 0 its own status. -/
def Obligations.Coprocessors : Prop :=
  (∀ (s : State) (w : WytheIx) (c : CourseIx) (u : Fin 4) (f : Fin 30) (x : CtxId), x.w = w → x.c = c →
    let k := s.cpUnit w c.val u.val
    let h := s.holderOf x
    let unit := fun (t : State) => t.cpUnit w c.val u.val
    let framed := fun (t : State) => (∀ v, v ≠ u.val → t.cpUnit w c.val v = s.cpUnit w c.val v) ∧ ∀ y, t.ctx y = s.ctx y
    (k.holder = none → Completes (.claim (.mason x) w c u f) s (fun t => flag t.readData 31 = true ∧ flag t.readData 30 = k.abandoned ∧
      unit t = { k with holder := some h } ∧ framed t)) ∧
    (k.holder = some h → Completes (.claim (.mason x) w c u f) s (fun t => flag t.readData 27 = true ∧ flag t.readData 31 = false ∧ unit t = k ∧ framed t)) ∧
    (∀ o, k.holder = some o → o ≠ h → (∀ q ∈ k.waiters, q.1 ≠ h) → Completes (.claim (.mason x) w c u f) s (fun t => t.readData = 0x20000000#32 ∧
      unit t = { k with waiters := k.waiters ++ [(h, f.val)] } ∧ framed t)) ∧
    (s.reach .host w = true → Completes (.claim .host w c u f) s (fun t => t.readData = 0x10000000#32 ∧ unit t = k ∧ framed t)) ∧
    (k.holder = some h → s.cpOutstanding w c.val (fun p => p.unit == u.val && some p.owner == k.holder) = false →
      (k.waiters = [] → Completes (.coprocRelease (.mason x) w c u) s (fun t => (unit t).holder = none ∧ (unit t).state = [] ∧ framed t)) ∧
      (∀ c' k' n g r, k.waiters = (.task c' k' n, g) :: r → Completes (.coprocRelease (.mason x) w c u) s (fun t =>
        (unit t).holder = some (.task c' k' n) ∧ (unit t).waiters = r ∧ (unit t).state = [] ∧
        (t.wy w).posts = (s.wy w).posts ++ [⟨coreIx c' k', n, w32 (2 ^ g)⟩] ∧ framed t))) ∧
    (k.holder ≠ some h → s.Canon → Completes (.coprocRelease (.mason x) w c u) s (fun t => unit t = k ∧ Counted s t (pgCoproc w c + 0x78) ∧ framed t))) ∧
  (∀ (s : State) (w : WytheIx) (c : CourseIx) (n : Fin 16) (p : Place), sfind (s.course w c.val).places n.val = some p →
    (p.state = .queued → p.cancelled = none → Completes (.commit w c n) s (fun t => sfind (t.course w c.val).places n.val = some { p with state := .committed } ∧
      (∀ m, m ≠ n.val → sfind (t.course w c.val).places m = sfind (s.course w c.val).places m) ∧ ∀ y, t.ctx y = s.ctx y)) ∧
    (∀ b, p.state = .queued → p.cancelled = some b → p.dead = false → (p.found ≠ 0 ∨ bitOf (beAt p.block 3 1) 0 = false) →
      Completes (.commit w c n) s (fun t => sfind (t.course w c.val).places n.val = some { p with state := .done, status := 8 } ∧ ∀ y, t.ctx y = s.ctx y)) ∧
    (p.state = .committed → (∀ e ∈ (s.course w c.val).places, e.2.unit = p.unit → e.2.state ≠ .done → p.order ≤ e.2.order) →
      p.dead = false → bitOf (beAt p.block 3 1) 0 = false →
      (p.found ≠ 0 → Completes (.coprocCompletion w c n {}) s (fun t =>
        sfind (t.course w c.val).places n.val = some { p with state := .done, status := p.found } ∧ ∀ y, t.ctx y = s.ctx y)) ∧
      (p.found = 0 → cpBadBlock p.unit p.block = true → Completes (.coprocCompletion w c n {}) s (fun t =>
        sfind (t.course w c.val).places n.val = some { p with state := .done, status := 2 } ∧ ∀ y, t.ctx y = s.ctx y)) ∧
      (p.found = 0 → p.unit = 3 → cpBadBlock 3 p.block = false → cpOp p.block = 1 → (cpDst p.block).buf = false →
        let d := cpDst p.block
        let num := beAt p.block 20 4
        let den := beAt p.block 24 4
        d.course < 6 → d.off + d.len ≤ 0x400000 → s.bankRange w d.course d.off d.len = .on → s.MemCanon →
        (den ≠ 0 → Completes (.coprocCompletion w c n {}) s (fun t =>
          sfind (t.course w c.val).places n.val = some { p with state := .done, status := 0 } ∧
          t.bankBytes w d.course d.off 8 = toBe 4 (num / den) ++ toBe 4 (num % den))) ∧
        (den = 0 → Completes (.coprocCompletion w c n {}) s (fun t =>
          sfind (t.course w c.val).places n.val = some { p with state := .done, status := 6 } ∧
          ∀ k o, t.bankByte w k o = s.bankByte w k o)))))

/-- Bank power (R307, R484): BANK_POWER starts every bank whose state differs on its change, clamping 3 to 2, and in DORMANT none; contents are lost
on the way to OFF; the transition's end leaves the state asked for. March engines (R310–R315, R333): a march of an isolated target runs; one that is
not isolated is refused; a march's end gives DONE, or FAILED, and raises DONE; a DESTRUCTIVE one leaves a course's banks 0 and a PRESERVING one
changes nothing. -/
def Obligations.BanksAndMarches : Prop :=
  (∀ (s : State) (w : WytheIx) (c : CourseIx) (b : Fin 16),
    (∀ (a : Agent) (v : W32), s.reach a w = true → (s.wy w).mode ≠ .dormant → Completes (.bankPowerWrite a w c v) s (fun t =>
      let want : Fin 3 := Fin.ofNat 3 (min 2 (fld v (2 * b.val + 1) (2 * b.val)))
      let cur := kget .on (s.course w c.val).bankState b.val
      let new := kget .on (t.course w c.val).bankState b.val
      (((cur = .on ∧ want = 0) ∨ (cur = .retention ∧ want = 1) ∨ (cur = .off ∧ want = 2)) → new = cur) ∧
        (((cur = .on ∧ want ≠ 0) ∨ (cur = .retention ∧ want ≠ 1) ∨ (cur = .off ∧ want ≠ 2)) → new = .changing want) ∧
        (want = 2 → cur ≠ .off → cur ≠ .changing 2 → (s.course w c.val).undef = 0 → ∀ o, o / 0x40000 = b.val → t.bankByte w c.val o = 0) ∧
        (∀ d, d ≠ c.val → t.course w d = s.course w d) ∧ Only s t (·.updWy w (fun y => { y with courses := [], ds := {} })))) ∧
    (∀ (a : Agent) (v : W32), s.reach a w = true → (s.wy w).mode = .dormant → Completes (.bankPowerWrite a w c v) s (fun t =>
      Only s t (·.updDs w (fun _ => {})))) ∧
    (∀ g : Fin 3, kget .on (s.course w c.val).bankState b.val = .changing g → Completes (.bankTransitionEnd w c b) s (fun t =>
      kget .on (t.course w c.val).bankState b.val = (if g = 0 then .on else if g = 1 then .retention else .off) ∧
        (∀ d, d ≠ b.val → kget .on (t.course w c.val).bankState d = kget .on (s.course w c.val).bankState d) ∧
        (∀ o, t.bankByte w c.val o = s.bankByte w c.val o) ∧ Only s t (·.updWy w (fun y => { y with courses := [] }))))) ∧
  ((∀ (s : State) (a : Agent) (w : WytheIx) (v : W32) (e : Nat), s.reach a w = true → marchEngine (fld v 4 0) = some e → s.enabled (pgMarch w) = true →
    (s.march w e).running = false →
    (s.isolated w (fld v 4 0) (flag v 8) = true → Completes (.marchCmd a w v) s (fun t => (t.march w e).running = true ∧
      (t.march w e).preserving = flag v 8 ∧ (t.march w e).target = w32 (fld v 4 0) ∧ fld (t.march w e).status 31 28 = 0xF ∧
      (∀ g, g ≠ e → t.march w g = s.march w g) ∧ Only s t (·.updWy w (fun y => { y with marches := [] })))) ∧
    (s.isolated w (fld v 4 0) (flag v 8) = false → Completes (.marchCmd a w v) s (fun t => (t.march w e).running = false ∧
      fld (t.march w e).status 31 28 = 4 ∧ Only s t (·.updWy w (fun y => { y with marches := [] }))))) ∧
  (∀ (s : State) (a : Agent) (w : WytheIx) (v : W32), s.reach a w = true → marchEngine (fld v 4 0) = none → Completes (.marchCmd a w v) s (fun t =>
    fld (t.march w 6).status 31 28 = 7 ∧ (t.march w 6).running = (s.march w 6).running)) ∧
  ∀ (s : State) (w : WytheIx) (e : Fin 7) (f : MarchFinding), (s.march w e.val).running = true → f.failWords = 0 → f.lost = false → f.repairs = [] →
    let m := s.march w e.val
    (m.target.toNat = e.val → e.val < 6 → s.banksOn w e.val = true →
      Completes (.marchEnd w e f) s (fun t => (t.march w e.val).running = false ∧ fld (t.march w e.val).status 31 28 = 1 ∧
        (m.preserving = false → ∀ o, t.bankByte w e.val o = 0) ∧ (m.preserving = true → ∀ o, t.bankByte w e.val o = s.bankByte w e.val o) ∧
        (∀ d, d ≠ e.val → t.course w d = s.course w d) ∧ (s.Canon → flag (t.rd (pgMarch w + 0x10)) 0 = true) ∧
        Only s t (·.updWy w (fun y => { y with marches := [], courses := [], cores := [], tcbs := [] })))))

/-- The Quoin (R316–R321, R335): a request that may have a free unit is granted it; one that may not is refused, tried in vain, or waits its turn; a
release gives a unit back, and to the first that waits. Performance counters and samples (R533, R535, R536): PMC_CLEAR clears the counters it names
and keeps OVERFLOW, PMC_OVF_CLEAR the other way round; a sampled event of a context waits for the instruction that it chose, or joins the buffer with
the context's next one where none will issue, and SAMPLE0 gives and removes its oldest entry. -/
def Obligations.QuoinAndCounters : Prop :=
  (∀ (s : State) (a : Asker) (w : WytheIx) (v : W32), s.askerReach a w = true →
    let obj := fld v 10 0
    let h := s.askerHolder a
    let q := (s.wy w).quoin
    let allowed := bitOf (fld (s.groupCfg w obj) 8 0) (rightsBit h) = true ∧ s.enabled (pgQuoin w) = true
    let framed := fun (t : State) => Only s t (·.updWy w (fun y => { y with quoin := {}, posts := [] }))
    let noted := fun (t : State) => (fld v 20 16 ≤ 29 → framed t) ∧ Only s t (·.updWy w (fun y => { y with quoin := {}, posts := [], ds := {} }))
    let idle := (∀ r ∈ q.waits, r.holder ≠ h) ∧ (flag (s.groupCfg w obj) 31 = true ∨ quoinHeld q h obj = 0)
    (allowed → idle → quoinUsed q obj < s.quoinMax w obj → (∀ r ∈ q.waits, r.object ≠ obj) → recordShort q h obj = false →
      (q.holds.filter (fun r => r.object == obj && r.holder == h)).length ≤ 1 →
      Completes (.acquire a w v) s (fun t => quoinUsed (t.wy w).quoin obj = quoinUsed q obj + 1 ∧ fld (quoinResult (t.wy w).quoin h) 10 0 = obj ∧
        flag (quoinResult (t.wy w).quoin h) 31 = true ∧ flag (quoinResult (t.wy w).quoin h) 30 = kget false q.abandoned obj ∧
        (∀ o, o ≠ obj → quoinUsed (t.wy w).quoin o = quoinUsed q o) ∧ (t.wy w).quoin.waits = q.waits ∧ noted t)) ∧
    (allowed → idle → s.quoinMax w obj ≤ quoinUsed q obj →
      (flag v 31 = true → Completes (.acquire a w v) s (fun t => (t.wy w).quoin.holds = q.holds ∧ (t.wy w).quoin.waits = q.waits ∧
        flag (quoinResult (t.wy w).quoin h) 25 = true ∧ noted t)) ∧
      (flag v 31 = false → Completes (.acquire a w v) s (fun t => (t.wy w).quoin.holds = q.holds ∧
        (t.wy w).quoin.waits = q.waits ++ [⟨h, obj, min 29 (fld v 20 16), false⟩] ∧ flag (quoinResult (t.wy w).quoin h) 29 = true ∧ noted t))) ∧
    (¬ allowed → Completes (.acquire a w v) s (fun t => (t.wy w).quoin.holds = q.holds ∧ (t.wy w).quoin.waits = q.waits ∧
      flag (quoinResult (t.wy w).quoin h) 28 = true ∧ noted t)) ∧
    (quoinHeld q h obj = 0 → Completes (.quoinRelease a w v) s (fun t => (t.wy w).quoin = q ∧ framed t)) ∧
    (∀ l r, q.holds = l ++ [⟨h, obj, 1⟩] ++ r → (∀ e ∈ l ++ r, e.object = obj → e.holder ≠ h) → (∀ e ∈ l ++ r, e.units ≠ 0) → (∀ e ∈ q.waits, e.object ≠ obj) → q.holds.length < 4096 →
      Completes (.quoinRelease a w v) s (fun t => (t.wy w).quoin.holds = l ++ r ∧ (t.wy w).quoin.waits = q.waits ∧ framed t))) ∧
  (∀ (s : State) (a : Agent) (k : CoreId), s.reach a k.w = true →
    let at_ := fun (n : Nat) => pgPerf k.w k.ix + 0x40 + 8 * n
    (∀ mask : Byte, s.Canon →
      Completes (.pmcClear a k mask) s (fun t => (∀ n : Fin 8, mask.getLsbD n.val = true → t.ctrVal (at_ n.val) = 0 ∧
        (t.ctr (at_ n.val)).msb = (s.ctr (at_ n.val)).msb) ∧ (∀ b, (∀ n : Fin 8, mask.getLsbD n.val = true → b ≠ at_ n.val) → t.ctr b = s.ctr b) ∧
        t = { s with counters := t.counters }) ∧
      Completes (.pmcOvfClear a k mask) s (fun t => (∀ n : Fin 8, mask.getLsbD n.val = true → t.ctrVal (at_ n.val) = s.ctrVal (at_ n.val) ∧
        (t.ctr (at_ n.val)).msb = false) ∧ (∀ b, (∀ n : Fin 8, mask.getLsbD n.val = true → b ≠ at_ n.val) → t.ctr b = s.ctr b) ∧
        t = { s with counters := t.counters })) ∧
    (∀ (n : Fin 8) d y, (s.core k.w k.ix).due.find? (fun d => d.counter == n.val && d.ctx.isSome) = some d → d.ctx = some y →
      let c := s.ctx ⟨k.w, k.c, k.k, y⟩
      (c.state = .running ∨ c.state = .entry → Completes (.sampleTaken k n) s (fun t =>
        (t.core k.w k.ix).due = (s.core k.w k.ix).due.map (fun e => if e == d then { e with chosen := true } else e) ∧
        (t.core k.w k.ix).samples = (s.core k.w k.ix).samples ∧ (∀ x, t.ctx x = s.ctx x) ∧ Only s t (·.updWy k.w (fun y => { y with cores := [] })))) ∧
      (c.state ≠ .running → c.state ≠ .entry → (s.core k.w k.ix).samples.length < 16 → Completes (.sampleTaken k n) s (fun t =>
        (t.core k.w k.ix).due = (s.core k.w k.ix).due.erase d ∧ (∃ w0 w2, (t.core k.w k.ix).samples = (s.core k.w k.ix).samples ++ [[w0, w32 d.count, w2, d.tnow]] ∧
          flag w0 31 = true ∧ flag w0 30 = true ∧ fld w0 25 23 = y.val ∧ fld w0 22 0 = c.pcx.toNat / 2) ∧
        (∀ x, t.ctx x = s.ctx x) ∧ Only s t (·.updWy k.w (fun y => { y with cores := [] }))))) ∧
    (∀ e r, (s.core k.w k.ix).samples = e :: r → Completes (.sample0Read a k) s (fun t => t.readData = e.headD 0 ∧
      (t.core k.w k.ix).samples = r ∧ (t.core k.w k.ix).sampleLatch = e ∧ Only s t (·.updWy k.w (fun y => { y with cores := [] })))) ∧
    ((s.core k.w k.ix).samples = [] → Completes (.sample0Read a k) s (fun t => t.readData = 0 ∧ (t.core k.w k.ix).samples = [])))

/-- Interrupts (R161–R164): INT_SOFT makes sources pending; an entry saves PCX and SR, then A0 and D0 with IE cleared, takes the highest source, and
goes on in context 0 at its vector; each step takes a cycle that the core grants to context 0 (R151, R164), and none without one. -/
def Obligations.Interrupts : Prop :=
  ∀ (s : State) (k : CoreId),
    let x : CtxId := ⟨k.w, k.c, k.k, 0⟩
    let c := s.core k.w k.ix
    let c' := fun (t : State) => t.core k.w k.ix
    (∀ (a : Agent) (mask : BitVec 4), s.reach a k.w = true → Completes (.intSoft a k mask) s (fun t =>
      (c' t).intPend = c.intPend ||| mask.setWidth 16 ∧ c' t = { c with intPend := (c' t).intPend } ∧ (∀ j, j ≠ k.ix → t.core k.w j = s.core k.w j) ∧
      Only s t (·.updWy k.w (fun y => { y with cores := [] })))) ∧
    ∀ (gap : Nat) (ready : BitVec 8),
      let s1 := s.takeCycle x (c.cycle + gap + 1) gap
      (∀ n, s.entryMay k gap ready = true → c.entryStep = 0 → topSource (s1.takeable k) = some n → Completes (.interruptEntry k gap ready) s (fun t =>
        (c' t).spcx = (s.ctx x).pcx ∧ (c' t).ssr = s1.srWord x (s.ctx x).sr ∧ (c' t).cycle = c.cycle + gap + 1 ∧
        (c' t).entrySource = n ∧ (c' t).entryStep = 1 ∧ (c' t).handlers = n :: c.handlers ∧ (t.ctx x).state = .entry ∧
        (t.ctx x).pcx = (s.ctx x).pcx ∧ (t.ctx x).a = (s.ctx x).a ∧ (t.ctx x).d = (s.ctx x).d ∧ ∀ y, y ≠ x → t.ctx y = s.ctx y)) ∧
      (s.entryMay k gap ready = false → Completes (.interruptEntry k gap ready) s (fun t => t = s)) ∧
      (s.entryMay k gap ready = true → c.entryStep = 1 → Completes (.interruptEntry k gap ready) s (fun t =>
        (c' t).sa0 = (s.ctx x).a[0] ∧ (c' t).sd0 = (s.ctx x).d[0] ∧
        (c' t).entryStep = 2 ∧ (c' t).spcx = c.spcx ∧ (c' t).ssr = c.ssr ∧ (t.ctx x).sr = (s.ctx x).sr &&& 0x7FFF#16 ∧ (t.ctx x).a = (s.ctx x).a ∧
        (t.ctx x).d = (s.ctx x).d ∧ ∀ y, y ≠ x → t.ctx y = s.ctx y)) ∧
      (s.entryMay k gap ready = true → c.entryStep = 5 → (s.ctx x).haltDue = false → (s.ctx x).stepping = false →
        Completes (.interruptEntry k gap ready) s (fun t =>
        (t.ctx x).pcx = BitVec.ofNat 24 (16 * fld (s.rd (pgCore k.w k.ix + 0x11C)) 15 4 + 16 * c.entrySource) ∧ (t.ctx x).state = .running ∧
        (t.ctx x).a = (s.ctx x).a ∧ (t.ctx x).d = (s.ctx x).d ∧ (t.ctx x).sr = (s.ctx x).sr ∧ (c' t).entryStep = 0 ∧
        (c' t).spcx = c.spcx ∧ (c' t).ssr = c.ssr ∧ ∀ y, y ≠ x → t.ctx y = s.ctx y))

/-- The ledger (R372, R376–R381): a queued record takes the next SEQUENCE, its 64 bytes go to the ring's newest slot and the head moves to the
SHA-256 of head and record; a seal's attachment is what the Brace store then keeps; a request for a seal is queued; the export window and the
acknowledgement follow their writes. -/
def Obligations.Ledger : Prop :=
  ∀ (s : State) (w : WytheIx),
    let d := s.ds w
    (∀ type subject time payload off missed rest, d.started = true → d.intake = .record type subject time payload off missed :: rest →
      let r := s.recordBytes w d.nextSeq d.head type subject (if off = true then s.gptp w else time) payload off missed
      Completes (.recordAppend w) s (fun t => (t.ds w).nextSeq = d.nextSeq + 1 ∧ (t.ds w).head = sha256 (d.head ++ r) ∧
        sfind (t.ds w).ring (t.ds w).newest = some r ∧ (t.ds w).lc = d.lc ∧ (t.ds w).sealHead = d.sealHead ∧ t.ds (1 - w) = s.ds (1 - w))) ∧
    (∀ reason missed rest, d.started = true → d.intake = .seal reason missed :: rest → d.sealing = none → d.clampCount = 0 →
      Completes (.recordAppend w) s (fun t => (t.ds w).nextSeq = d.nextSeq + 1 ∧ (t.ds w).sealFirst = d.nextSeq + 1 ∧
        (∃ a, (t.ds w).sealing = some a ∧ a.seq = d.nextSeq ∧ a.head = (t.ds w).head ∧ a.reason = reason) ∧ t.ds (1 - w) = s.ds (1 - w))) ∧
    (∀ a, d.sealing = some a → Completes (.sealAttachment w) s (fun t => (t.ds w).sealing = none ∧ (t.ds w).sealHead = a.head ∧ (t.ds w).sealSeq = a.seq ∧
      (t.ds w).brace.sealHead = a.head ∧ (t.ds w).brace.sealSeq = a.seq ∧ (t.ds w).nextSeq = d.nextSeq ∧ (t.ds w).head = d.head ∧
      (s.Canon → flag (t.rd (pgLedger w + 0x10)) 0 = true) ∧ (s.Canon → Counted s t (pgDate w + 0x48)) ∧ t.ds (1 - w) = s.ds (1 - w))) ∧
    (∀ a : Agent, s.reach a w = true → s.ledgering w = true → d.intake.length < 256 → Completes (.sealReq a w) s (fun t =>
      t.ds w = { d with intake := d.intake ++ [.seal 3 0] } ∧ Only s t (·.updDs w (fun _ => {})))) ∧
    (∀ (a : Agent) (n : BitVec 12), s.reach a w = true → s.Canon →
      Completes (.exportBase a w n) s (fun t => (t.ds w).window = copySlots d.ring 32 n.toNat ∧ t.rd (pgLedger w + 0x10C) = w32 n.toNat ∧
        t.ds w = { d with window := (t.ds w).window } ∧ Counted s t (pgLedger w + 0x48) ∧ Only s t (·.updDs w (fun _ => {}))) ∧
      Completes (.exportAck a w n) s (fun t => (t.ds w).unacked = min d.used ((d.newest + 4096 - n.toNat) % 4096) ∧
        t.rd (pgLedger w + 0x114) = w32 n.toNat ∧ t.ds w = { d with unacked := (t.ds w).unacked } ∧ Only s t (·.updDs w (fun _ => {})))) ∧
    (d.started = true → d.snapAt + s.snapPeriod w ≤ s.now → swf (fun _ => (0 : BitVec 49)) d.prevSnap = true → Completes (.witnessSnapRound w) s (fun t =>
      (t.ds w).snapAt = s.now ∧ (∀ a ∈ witAll w, t.ctr a = s.ctr a ∧ sget (fun _ => 0) (t.ds w).prevSnap a = s.ctr a) ∧
        (t.ds w).ring = d.ring ∧ (t.ds w).head = d.head ∧ t.ds (1 - w) = s.ds (1 - w))) ∧
    (s.now < d.snapAt + s.snapPeriod w → Completes (.witnessSnapRound w) s (fun t => t = s))

/-- Tokens (R387–R389): a token is judged on the primary: its challenge is spent, the result stands in TOKEN_STATUS, and only one accepted acts, as
its operation says; a token written on the secondary answers NOT_PRIMARY. What makes a token acceptable (R388, R389): the result is 0 exactly for a
well-formed token of the device, with a fresh valid challenge, signed by the key that its operation asks for, in a state where it may run. Challenge
and SERVICE (R387, R389): reading CHALLENGE0 draws a fresh challenge; LEAVE and the end of the validity end SERVICE on every wythe they reach. -/
def Obligations.Tokens : Prop :=
  (∀ (s : State) (w : WytheIx), (s.ds w).started = true → (s.ds w).tokenGo = true →
    let k := tokenBytes (s.ds w)
    let r := s.tokenResult w k
    let judged := fun (t : State) => (t.ds w).tokenGo = false ∧ (t.ds w).tokenStatus = r ∧ (w = 0 → (t.ds 0).challenge.valid = false) ∧
      (w = 1 → r = 8) ∧ (r ≠ 0 → ∀ v, (t.ds v).lc = (s.ds v).lc ∧ (t.ds v).imageKeys = (s.ds v).imageKeys ∧ (t.ds v).tamperCfg = (s.ds v).tamperCfg ∧
        (t.ds v).intake = (s.ds v).intake)
    let acts := fun (t : State) (p : WytheIx → Prop) => judged t ∧ (r = 0 → ∀ v, p v)
    (tokenOp k = 1 → Completes (.commission w) s (fun t => acts t (fun v => (t.ds v).lc = .commissioned ∧ (t.ds v).nextSeq = 1 ∧ (t.ds v).used = 0 ∧
      (t.ds v).tamperCfg = 0x0F ∧ (t.ds v).head = head0 v ∧ (v = 0 → (t.ds v).authkey = tokenKey k)))) ∧
    (tokenOp k = 2 → Completes (.enterService w) s (fun t => acts t (fun v => (t.ds v).lc = .service ∧
      (t.ds v).serviceEnd = s.now + tokenMinutes k * 60000000000))) ∧
    (tokenOp k = 3 → Completes (.retire w) s (fun t => acts t (fun v => (t.ds v).lc = .retired))) ∧
    (tokenOp k = 4 → Completes (.addImageKey w) s (fun t => acts t (fun v => sfind (t.ds v).imageKeys (tokenSlot k) = some ⟨tokenKey k, tokenMeteredOk k, false⟩ ∧
      ∀ n, n ≠ tokenSlot k → sfind (t.ds v).imageKeys n = sfind (s.ds v).imageKeys n))) ∧
    (tokenOp k = 5 → Completes (.revokeImageKey w) s (fun t => acts t (fun v => (∀ q, sfind (s.ds v).imageKeys (tokenSlot k) = some q →
      sfind (t.ds v).imageKeys (tokenSlot k) = some { q with revoked := true }) ∧
      ∀ n, n ≠ tokenSlot k → sfind (t.ds v).imageKeys n = sfind (s.ds v).imageKeys n))) ∧
    (tokenOp k = 6 → Completes (.setTamper w) s (fun t => acts t (fun v => (t.ds v).tamperCfg = BitVec.ofNat 8 (beAt k 0x28 1))))) ∧
  (∀ (s : State) (w : WytheIx) (k : Bytes),
    let key := if tokenOp k = 1 then (s.ds 0).rootKey else (s.ds 0).authkey
    let c := (s.ds 0).challenge
    s.tokenResult w k = 0 ↔ w = 0 ∧ s.tieCut = false ∧ tokenFormOk k = true ∧ slice k 8 16 = uidBytes ∧ c.valid = true ∧
      slice k 0x18 16 = c.bytes ∧ s.now < c.drawnAt + 600000000000 ∧ key ≠ [] ∧ ecdsaVerify key (slice k 0 0x80) (slice k 0x80 64) = true ∧
      ((s.ds 0).lc = .commissioned ∧ tokenOp k ≠ 1 ∨ (s.ds 0).lc = .blank ∧ tokenOp k = 1 ∨ (s.ds 0).lc = .service ∧ 3 ≤ tokenOp k) ∧
      (tokenOp k = 4 → sfind (s.ds 0).imageKeys (tokenSlot k) = none)) ∧
  (∀ (s : State) (a : Agent),
    (s.reach a 0 = true → Completes (.challengeRead a) s (fun t => (t.ds 0).challenge.valid = true ∧ (t.ds 0).challenge.drawnAt = s.now ∧
      (t.ds 0).challenge.bytes.length = 16 ∧ t.readData = w32 (beAt (t.ds 0).challenge.bytes 0 4) ∧
      t.ds 0 = { s.ds 0 with challenge := (t.ds 0).challenge } ∧ Only s t (·.updDs 0 (fun _ => {})))) ∧
    (s.reach a 0 = true → (s.ds 0).lc = .service → Completes (.leave a) s (fun t => (t.ds 0).lc = .commissioned ∧
      (s.tieCut = false → (s.ds 1).lc = .service → (t.ds 1).lc = .commissioned) ∧ (s.tieCut = true → (t.ds 1).lc = (s.ds 1).lc))) ∧
    (∀ w : WytheIx, (s.ds w).lc = .service → (s.ds w).serviceEnd ≤ s.now → Completes (.serviceExpiry w) s (fun t => (t.ds w).lc = .commissioned)) ∧
    (∀ w : WytheIx, (s.ds w).lc ≠ .service ∨ s.now < (s.ds w).serviceEnd → Completes (.serviceExpiry w) s (fun t => t = s)))

/-- Tamper (R390, R391): an assertion is latched, counted and noted, and closes the metered ports where its source is set to; a clearing ends the
condition and no more; a reopening of a source that has cleared unlatches it and opens what it alone closed. -/
def Obligations.Tamper : Prop :=
  ∀ (s : State) (w : WytheIx) (n : Fin 8) (reading : W16), s.modes.vkeep = true →
    let d := s.ds w
    ((d.tamperActive.getLsbD n.val) = false → s.Canon → Completes (.tamperAssert w n reading) s (fun t =>
      (t.ds w).tamperActive = d.tamperActive ||| sourceBit n.val ∧ (t.ds w).tamperLatched = d.tamperLatched ||| sourceBit n.val ∧
      Counted s t (pgDate w + 0x78) ∧ ((s.wy w).mode ≠ .off → flag (t.rd (pgDate w + 0x10)) 0 = true) ∧
      (s.closes w n.val = true → ∀ p < 24, s.meteredPort w p = true → t.tamperClosed w p = true) ∧
      (s.closes w n.val = false → (t.ds w).closedBy = d.closedBy) ∧ t.ds (1 - w) = s.ds (1 - w))) ∧
    ((d.tamperActive.getLsbD n.val) = true → Completes (.tamperAssert w n reading) s (fun t => t = s)) ∧
    ((d.tamperActive.getLsbD n.val) = true → Completes (.tamperClear w n reading) s (fun t =>
      (t.ds w).tamperActive = d.tamperActive &&& ~~~sourceBit n.val ∧ (t.ds w).tamperLatched = d.tamperLatched ∧ (t.ds w).closedBy = d.closedBy ∧
      t.ds (1 - w) = s.ds (1 - w))) ∧
    (∀ a : Agent, s.reach a w = true → (d.tamperActive.getLsbD n.val) = false → (d.tamperLatched.getLsbD n.val) = true →
      swf (fun _ => (0 : Byte)) d.closedBy = true → Completes (.tamperReopen a w (sourceBit n.val)) s (fun t =>
        (t.ds w).tamperLatched = d.tamperLatched &&& ~~~sourceBit n.val ∧ (t.ds w).tamperActive = d.tamperActive ∧
        (∀ p < 24, kget 0 (t.ds w).closedBy p = kget 0 d.closedBy p &&& ~~~sourceBit n.val) ∧ t.ds (1 - w) = s.ds (1 - w)))

/-- Time of day (R411, R413, R415–R417): SET, STEP and SLEW act on the wythe's own counter and not on a following one; the end of a slew, the step of
a followed counter, the loss and return of PTPCLK, and the PPS lines. -/
def Obligations.TimeOfDay : Prop :=
  ∀ (s : State) (w : WytheIx),
    let c := s.clock w
    let c' := fun (t : State) => t.clock w
    let only := fun (t : State) => Only s t (·.updClock w (fun _ => {}))
    (∀ a : Agent, s.reach a w = true → s.following w = false →
      Completes (.timeSet a w) s (fun t => (c' t).ns = s.setTod w ∧ (c' t).frac = 0 ∧ (c' t).valid = true ∧ (c' t).slewing = false ∧ (c' t).slewLeft = 0 ∧
        (s.Canon → Counted s t (pgTime w + 0x40)) ∧ t.clock (1 - w) = s.clock (1 - w)) ∧
      Completes (.stepTime a w) s (fun t => (c' t).ns = (((c.ns : Int) + s.adjOffset w) % (todMod : Int)).toNat ∧ (c' t).frac = c.frac ∧ (c' t).valid = c.valid ∧
        (c' t).slewing = false ∧ (c' t).slewLeft = 0 ∧ (s.Canon → Counted s t (pgTime w + 0x40)) ∧ t.clock (1 - w) = s.clock (1 - w)) ∧
      Completes (.slew a w) s (fun t => only t ∧
        c' t = { c with slewing := decide (s.adjOffset w ≠ 0), slewLeft := s.adjOffset w, slewCycles := 0 })) ∧
    (∀ a : Agent, s.reach a w = true → s.following w = true → Completes (.timeSet a w) s (fun t => t = s) ∧ Completes (.stepTime a w) s (fun t => t = s) ∧
      Completes (.slew a w) s (fun t => t = s)) ∧
    (c.slewLeft = 0 → Completes (.slewEnd w) s (fun t => only t ∧ c' t = { c with slewing := false })) ∧
    (s.following 1 = true → (s.clock 1).ns ≠ (s.clock 0).ns → Completes .followStep s (fun t => (t.clock 1).ns = (s.clock 0).ns ∧ t.clock 0 = s.clock 0)) ∧
    (s.following 1 = false → Completes .followStep s (fun t => t = s)) ∧
    (c.srcActive = true → Completes (.srcLost w) s (fun t => only t ∧ c' t = { c with srcActive := false } ∧
      (s.Canon → flag (t.rd (pgTime w + 0x10)) 2 = true))) ∧
    (flag (s.rd (pgTime w + 0x100)) 30 = true → Completes (.ptpclkReturn w) s (fun t => only t ∧ c' t = { c with srcActive := true })) ∧
    Completes .ppsIn s (fun t => c' t = { c with ppsCap := c.ns } ∧ (s.Canon → Counted s t (pgTime w + 0x50) ∧ flag (t.rd (pgTime w + 0x10)) 0 = true)) ∧
    (let cfg := s.rd (pgTime 0 + 0x100);
      flag cfg 29 = true → (s.clock 0).valid = true → (s.clock 0).ppsUntil ≤ s.now →
        (((s.clock 0).ns : Int) + signed 32 (s.rd (pgTime 0 + 0x138)).toNat) % 1000000000 < 2 →
        Completes .ppsOut s (fun t => t.out = .pps :: s.out ∧ t.clock 0 = { s.clock 0 with ppsUntil := s.now + fld cfg 8 0 * 1000000 }))

/-- DRAM (R425, R426, R433–R436): DRAM_CFG is kept clamped for the next start; a request joins its channel's queue, or waits; MR4 sets the refresh
rate, a refresh falls due by it, postponed in a pause; a retraining pause of at most 1 µs re-centres its lane, or keeps it where the window is below
24 steps. -/
def Obligations.DramChannels : Prop :=
  ∀ (s : State) (w : WytheIx) (n : Fin 4),
    let pg := pgDram w
    let h := s.dramCh w n.val
    let h' := fun (t : State) => t.dramCh w n.val
    let others := fun (t : State) => ∀ c, c ≠ n.val → t.dramCh w c = s.dramCh w c
    (∀ (a : Agent) (v : W32), s.reach a w = true → s.Canon → swf regReset s.keep = true → Completes (.dramCfgWrite a w v) s (fun t =>
      t.rd (pg + 0x100) = (dramCfgClamp v).1 ∧ sget regReset t.keep (pg + 0x100) = (dramCfgClamp v).1 ∧ t.dram w = s.dram w)) ∧
    (∀ u : DramUnit, let cfg := (s.dram w).active;
      (dramMap cfg u.addr).1 = n.val → (s.dram w).available = true → h.selfRefresh = false → u.addr + u.len ≤ dramSpace cfg →
      (u.write = false → h.readQ.length < 32 → Completes (.dramRequest w u) s (fun t => others t ∧
        h' t = { h with accepted := h.accepted + 1, readQ := h.readQ ++ [⟨h.accepted, dramPhysical cfg (dramMap cfg u.addr).2 / 32, false,
          (dramMap cfg u.addr).2 % 32, u.len⟩] })) ∧
      (u.write = true → h.writeQ.length < 32 → u.ecc ≠ .uncorrectable → Completes (.dramRequest w u) s (fun t => others t ∧
        h' t = { h with accepted := h.accepted + 1, writeQ := h.writeQ ++
          [⟨h.accepted, dramPhysical cfg (dramMap cfg u.addr).2 / 32, flag cfg 8 && u.len != 32,
            if flag cfg 8 && u.len != 32 then 0 else (dramMap cfg u.addr).2 % 32, if flag cfg 8 && u.len != 32 then 32 else u.len⟩] })) ∧
      ((if u.write then h.writeQ else h.readQ).length ≥ 32 → Completes (.dramRequest w u) s (fun t => t = s))) ∧
    (∀ codes : List (BitVec 5), (s.dram w).lastPoll + fld (s.rd (pg + 0x108)) 7 0 * 1000000 ≤ s.now → Completes (.mr4Poll w codes) s (fun t =>
      (t.dram w).lastPoll = s.now ∧ ∀ code, codes[n.val]? = some code → s.dramLive w n.val = true →
        h' t = { h with mr4 := code.toNat, hot := flag (s.rd (pg + 0x110)) code.toNat,
                        twice := flag (s.rd (pg + 0x110)) code.toNat || flag (s.rd (pg + 0x10C)) code.toNat })) ∧
    (s.dramLive w n.val = true →
      (h.nextRefresh + (if s.dramTwice w n.val then 0 else 1950) ≤ s.now → Completes (.refresh w n) s (fun t => others t ∧
        h' t = { h with
          nextRefresh := (if (s.wy w).mode == .plumb then h.nextRefresh + (s.now - h.nextRefresh) / 1950 * 1950 else s.now) + 1950
          refreshed := if s.now < h.pauseEnd then h.refreshed else s.now, postponed := decide (s.now < h.pauseEnd) })) ∧
      (s.now < h.nextRefresh + (if s.dramTwice w n.val then 0 else 1950) → Completes (.refresh w n) s (fun t => t = s))) ∧
    (∀ (lane : Fin 2) (window : Nat) (r wr : Byte), s.dramLive w n.val = true → s.retrainFree w = true → h.nextLane = lane.val → s.Canon →
      let trained := fun (t : State) => (h' t).nextLane = 1 - lane.val ∧ (if lane = 0 then (h' t).eye0 else (h' t).eye1) = window ∧
        (h' t).delay = (if window < 24 then h.delay else setDelays h.delay lane.val r wr) ∧ (window < 24 → flag (t.rd (pg + 0x10)) 1 = true) ∧
        s.now ≤ (h' t).pauseEnd ∧ (h' t).pauseEnd ≤ s.now + 1000 ∧ (s.refreshDue w n.val = true → (h' t).refreshed = s.now) ∧
        Counted s t (pg + 0x80) ∧ others t
      (flag (s.rd (pg + 0x114)) 31 = true → (lane = 0 → s.retrainDue w n.val = true) → Completes (.retrainPeriod w n lane window r wr) s trained) ∧
      (∀ temp : W16, flag (s.rd (pg + 0x114)) 30 = true → (lane = 0 → (s.wy w).mode = .plumb → s.retrainDue w n.val = true) →
        4 * fld (s.rd (pg + 0x114)) 21 16 ≤ (signed 16 temp.toNat - signed 16 h.trainTemp.toNat).natAbs →
        Completes (.retrainDrift w n lane window r wr temp) s (fun t => trained t ∧ (h' t).trainTemp = if lane = 1 then temp else h.trainTemp)))

/-- Queue pairs (R457–R462, R469): a doorbell moves TAIL, clamped to HEAD + entries; a send descriptor ends with HEAD moved on and its status
counted, or its frame waits for a buffer; a receive descriptor takes the head copy of its host queue; a firmware doorbell posts its bindings; a link
reset clears Plinth alone. -/
def Obligations.QueuePairs : Prop :=
  ∀ (s : State) (q : Fin 64),
    let p := s.qp q
    let w := qpWythe q
    let pg := pgQp q.val
    let others := fun (t : State) => ∀ r, r ≠ q → t.qp r = s.qp r
    let tail := fun (r : Ring) (n : Nat) (v : W16) => if n < (v - r.head).toNat then r.head + BitVec.ofNat 16 n else v
    (∀ v : W16,
      Completes (.sendTailDoorbell q v) s (fun t => others t ∧ t.qp q = { p with tx := { p.tx with tail := tail p.tx (s.txEntries q) v } }) ∧
      Completes (.receiveTailDoorbell q v) s (fun t => others t ∧ t.qp q = { p with rx := { p.rx with tail := tail p.rx (s.rxEntries q) v } })) ∧
    (∀ d e, p.waiting = some d → s.plinthRuns = true → (w = 0 ∨ wythes.any s.split = false) → Completes (.sendDescriptor q e) s (fun t => others t ∧
      match (s.alloc w (fld (s.galleyPortCfg w 24) 23 16) (s.headroom w 24 + d.length) true .ingress).1 with
      | .got h => (t.qp q).tx.head = p.tx.head + 1 ∧ (t.qp q).waiting = none ∧ ∃ f ∈ (t.wy w).rx, f.port = 24 ∧ f.data = d ∧ f.handle = some h ∧ f.ended = true
      | _ => t.qp q = p)) ∧
    (p.waiting = none → s.qpFetches q = true → p.tx.head ≠ p.tx.tail →
      Completes (.sendDescriptor q true) s (fun t => others t ∧ t.qp q = { p with tx := { p.tx with head := p.tx.head + 1 } } ∧
        (s.Canon → Counted s t (pg + 0x48) ∧ flag (t.rd (pg + 0x10)) 0 = true) ∧ (t.wy w).rx = (s.wy w).rx) ∧
      Completes (.sendDescriptor q false) s (fun t => others t ∧ (t.qp q).rx = p.rx ∧ (t.qp q).tx.tail = p.tx.tail ∧
        (((t.qp q).tx.head = p.tx.head + 1 ∧ (t.qp q).waiting = none) ∨ ((t.qp q).tx.head = p.tx.head ∧ (t.qp q).waiting.isSome = true)))) ∧
    (∀ e, p.waiting = none → s.qpFetches q = false ∨ p.tx.head = p.tx.tail → Completes (.sendDescriptor q e) s (fun t => t = s)) ∧
    (∀ c r, s.queueOf w true (q.val % 32) 0 = c :: r → s.qpFetches q = true → p.rx.head ≠ p.rx.tail →
      Completes (.receiveDescriptor q false) s (fun t => others t ∧ t.qp q = { p with rx := { p.rx with head := p.rx.head + 1 } } ∧
        (t.wy w).press.store = (s.wy w).press.store.erase c ∧ (s.Canon → Counted s t (pg + 0x50)) ∧ t.out.head? = some (.msix q.val)) ∧
      Completes (.receiveDescriptor q true) s (fun t => others t ∧ t.qp q = p ∧ (t.wy w).press = (s.wy w).press ∧ (s.Canon → Counted s t (pgPlinth + 0x50) ∧
        flag (t.rd (pg + 0x10)) 0 = true))) ∧
    (∀ e, s.queueOf w true (q.val % 32) 0 = [] → Completes (.receiveDescriptor q e) s (fun t => t = s)) ∧
    (∀ (v : WytheIx) (d : Fin 64), (v = 0 ∨ s.tieCut = false) → Completes (.firmwareDoorbell v d) s (fun t =>
      (t.wy v).posts = (s.wy v).posts ++ (List.range 48).flatMap (fun i => (List.range 16).filterMap (fun n =>
        let b := s.rd (pgChase v i + 0x180 + 4 * n)
        if flag b 31 && fld b 30 28 == 2 && bindIndex b == d.val then some ⟨i, Fin.ofNat 64 (fld b 13 8), w32 (2 ^ fld b 4 0)⟩ else none)) ∧
      (∀ i < 48, (t.core v i).intPend = if flag (s.rd (pgCore v i + 0x114)) 11 then (s.core v i).intPend ||| 0x800 else (s.core v i).intPend) ∧
      Only s t (·.updWy v (fun y => { y with posts := [], cores := [] })))) ∧
    (∀ d : Fin 64, s.tieCut = true → s.Canon → Completes (.firmwareDoorbell 1 d) s (fun t => Counted s t (pgPlinth + 0x58) ∧ Only s t id)) ∧
    Completes .linkReset s (fun t => t.plinth.linkUp = false ∧ t.plinth.version = none ∧ t.plinth.req = none ∧ t.qp q = {} ∧ (s.Canon → t.enabled pg = false) ∧
      (t.wy w).press = (s.wy w).press ∧ (t.wy w).galley = (s.wy w).galley ∧ (t.wy w).rx = (s.wy w).rx) ∧
    Completes .perstNRelease s (fun t => t.plinth.linkUp = true ∧ 1 ≤ t.plinth.rate ∧ t.plinth.rate ≤ 4 ∧ t.plinth.width ∈ [1, 2, 4, 8] ∧
      t.plinth.qps = s.plinth.qps ∧ Only s t (fun x => { x with plinth := {} })) ∧
    (∀ a : Agent, s.reachGlobal a = true →
      (s.Canon → Completes (.qpDisable a q) s (fun t => t.enabled pg = false ∧ Only s t id)) ∧
      (p.waiting.isSome = true → Completes (.qpAbort a q) s (fun t => others t ∧ t.qp q = { p with tx := { p.tx with head := p.tx.head + 1 }, waiting := none })) ∧
      (p.waiting = none → Completes (.qpAbort a q) s (fun t => t = s)))

/-- The mailbox (R381, R463–R466): the request being served is answered in RESP with its status and payload, GO clears, DONE is raised with MSI-X
vector 65; each opcode by its own rules, with the checks of version, opcode and length before it. -/
def Obligations.MailboxCommands : Prop :=
  ∀ (s : State) (r : Bytes), s.plinth.req = some r → s.plinth.again = false →
    let word := fun (t : State) => sget (fun _ => 0) t.plinth.resp 0
    let status := fun (t : State) => fld (word t) 23 16
    let answered := fun (t : State) => t.plinth.req = none ∧ t.out.head? = some (.msix 65) ∧ (s.Canon → flag (t.rd (pgMbox + 0x10)) 0 = true) ∧
      t.plinth.qps = s.plinth.qps ∧ t.plinth.linkUp = s.plinth.linkUp
    let gives := fun (t : State) (st : Nat) (b : Bytes) => answered t ∧ status t = st ∧ fld (word t) 15 0 = b.length ∧
      slice ((List.range 64).flatMap (fun i => toBe 4 (sget (fun _ => 0) t.plinth.resp i).toNat)) 4 b.length = b
    let arg := slice r 4 (beAt r 2 2)
    (beAt r 1 1 = 1 → s.plinth.version = none → beAt r 2 2 = 2 →
      let top := min 3 (fld (s.rd (pgPlinth + 0x108)) 1 0)
      let v := min top (beAt arg 1 1)
      (max 1 (beAt arg 0 1) ≤ v → Completes .hello s (fun t => gives t 0 (toBe 1 v) ∧ t.plinth.version = some v)) ∧
      (v < max 1 (beAt arg 0 1) → Completes .hello s (fun t => gives t 2 (toBe 1 1 ++ toBe 1 top) ∧ t.plinth.version = none))) ∧
    (beAt r 1 1 = 2 → s.plinth.version = none → Completes .getInfo s (fun t => gives t 1 [])) ∧
    (∀ v, s.plinth.version = some v →
      (beAt r 1 1 = 2 → beAt r 0 1 ≠ v → Completes .getInfo s (fun t => gives t 8 [])) ∧
      (beAt r 0 1 = v → opcodeInfo (beAt r 1 1) = none → Completes .hello s (fun t => gives t 3 [])) ∧
      (beAt r 0 1 = v → beAt r 1 1 = 2 → 1 ≤ v → beAt r 2 2 = 0 → Completes .getInfo s (fun t => gives t 0 (toBe 2 0x9680 ++ [2, 2, 1, 1] ++ uidBytes))) ∧
      (beAt r 0 1 = v → beAt r 1 1 = 2 → 1 ≤ v → beAt r 2 2 ≠ 0 → Completes .getInfo s (fun t => gives t 4 [])) ∧
      (beAt r 0 1 = v → beAt r 1 1 = 3 → 1 ≤ v → beAt r 2 2 = 14 →
        let course := beAt arg 12 1
        let c : WytheIx := if course < 6 then 0 else 1
        (11 < course → Completes (.imageStage false) s (fun t => gives t 5 [])) ∧
        (course ≤ 11 → Completes (.imageStage true) s (fun t => gives t 6 [] ∧ t.forme = s.forme ∧ (s.Canon → Counted s t (pgPlinth + 0x50)))) ∧
        (course ≤ 11 → Completes (.imageStage false) s (fun t => answered t ∧ (status t = 0 ∨ status t = 5 ∨ status t = 7) ∧
          (status t = 0 → ∃ b, t.forme.journal = s.forme.journal ++ [3] ++ toBe 1 course ++ toBe 1 (beAt arg 13 1) ++ sha256 b ∧
            ∀ k < 8, (t.core c (8 * (course % 6) + k)).staged = if bitOf (beAt arg 13 1) k then some ⟨b⟩ else (s.core c (8 * (course % 6) + k)).staged) ∧
          (status t = 7 → sfind t.forme.refusedImages course = some true ∧ t.forme.journal = s.forme.journal)))) ∧
      (beAt r 0 1 = v → beAt r 1 1 = 4 → beAt r 2 2 = 13 →
        let first := beAt arg 1 2
        let n := beAt arg 3 2
        (v < 2 → Completes (.ledgerDma false) s (fun t => gives t 3 [])) ∧
        (2 ≤ v → beAt arg 0 1 ≤ 1 → first ≤ 4095 → 1 ≤ n → n ≤ 4096 → (beAt arg 0 1 = 0 ∨ s.tieCut = false) →
          let recs := copySlots (s.ds (if beAt arg 0 1 = 0 then 0 else 1)).ring n first
          Completes (.ledgerDma true) s (fun t => gives t 6 []) ∧
          Completes (.ledgerDma false) s (fun t => gives t 0 (toBe 2 recs.length) ∧ (recs.flatten ≠ [] → .dma (beAt arg 5 8) recs.flatten ∈ t.out) ∧
            t.ds 0 = s.ds 0 ∧ t.ds 1 = s.ds 1))) ∧
      (beAt r 0 1 = v → beAt r 1 1 = 5 → beAt r 2 2 = 13 →
        let b := (s.slotAt (beAt arg 0 1 != 0)).bytes
        let out := b.take (beAt arg 9 4)
        (v < 3 → Completes (.slotRead false) s (fun t => gives t 3 [])) ∧
        (3 ≤ v → beAt arg 0 1 ≤ 1 → Completes (.slotRead true) s (fun t => gives t 6 []) ∧
          Completes (.slotRead false) s (fun t => gives t 0 (toBe 4 out.length ++ toBe 1 (b2n (s.slotOk b))) ∧ (out ≠ [] → .dma (beAt arg 1 8) out ∈ t.out) ∧
            t.forme = s.forme))))

/-- Staging (R31–R33, R38, R41, R53, R109): a session opens at once, or waits for the sweeps; ABANDON drops all that was staged; a write of an ST
register changes its staged copy alone, clamped, and is journalled; CLAMP_CLEAR clears every CLAMP_NOTE it reaches; the root copy ends. -/
def Obligations.Staging : Prop :=
  ∀ s : State,
    (∀ n : W16,
      (s.forme.session = .none → s.enabled pgForme = true → s.sweeps = false → Completes (.openSession n) s (fun t => t.forme = { s.forme with session := .open_ n } ∧
        (∀ w ∈ s.joined, (t.wy w).tables = { (s.wy w).tables with copying := true }) ∧ t.staged = s.staged ∧ t.active = s.active)) ∧
      (s.forme.session = .none → s.enabled pgForme = true → s.sweeps = true → Completes (.openSession n) s (fun t =>
        t = { s with forme := { s.forme with session := .pending n } })) ∧
      (s.forme.session ≠ .none ∨ s.enabled pgForme = false → Completes (.openSession n) s (fun t => t = s)) ∧
      (s.forme.session = .pending n → s.sweeps = false → Completes .pendingSessionOpen s (fun t => t.forme = { s.forme with session := .open_ n } ∧
        (∀ w ∈ s.joined, (t.wy w).tables = { (s.wy w).tables with copying := true }) ∧ t.staged = s.staged ∧ t.active = s.active))) ∧
    (s.sweeps = true → Completes .pendingSessionOpen s (fun t => t = s)) ∧
    Completes .abandon s (fun t => t.forme = { s.forme with session := .none, restored := false, journal := [], refusedImages := [] } ∧ t.active = s.active ∧
      t.previous = s.previous ∧ (∀ a, (a < 0x1000000 ∨ s.tieCut = false) → t.stStaged a = s.stActive a) ∧
      (∀ w ∈ s.joined, ∀ i < 48, (t.core w i).staged = (s.core w i).locked) ∧
      ∀ n, s.forme.session = .open_ n → ∀ w ∈ s.joined, (t.tables w).copying = false ∧ (t.tables w).overlay = [] ∧
        (∀ x ∈ (t.tables w).index, x.2.dying = false) ∧ (∀ x ∈ (t.tables w).learn, x.2.born = false ∧ x.2.dying = false) ∧
        (∀ x ∈ (t.tables w).exact, x.2.born = false ∧ x.2.dying = false) ∧ (∀ x ∈ (t.tables w).ternary, x.2.born = false ∧ x.2.dying = false) ∧
        ∀ p ∈ (t.tables w).trie, reaches (!(t.tables w).root1) p = false) ∧
    (∀ (addr : Nat) (d : RegDesc) (pg : PageId) (v : W32) (be : BitVec 4), regDesc addr = some d → (d.acc = .st ∨ d.acc = .stKept) → pageOf addr = some pg →
      (addr < 0x1000000 ∨ s.tieCut = false) → s.Canon →
      let raw := mergeBytes (s.stStaged addr) v be
      Completes (.stFieldWrite addr v be) s (fun t => t.active = s.active ∧ t.previous = s.previous ∧
        t.forme = { s.forme with journal := s.forme.journal ++ (1 :: toBe 4 addr ++ toBe 4 raw.toNat) } ∧
        t.staged = (s.stageWord addr raw).staged ∧
        (¬ (pg.type = 0x1C ∧ addr % 0x1000 < 0x170) → t.stStaged addr = (s.clampSpecial pg (addr % 0x1000) (w32 (clampWord d.flds raw.toNat))).1 ∧
          (¬ (pg.type = 0x38 ∧ addr % 0x1000 = 0x100) → ∀ b, b ≠ addr → t.stStaged b = s.stStaged b)))) ∧
    (∀ a : Agent, s.reachGlobal a = true → Completes (.clampClear a) s (fun t => (∀ b, b % 0x1000 ≠ 0x28 → t.rd b = s.rd b) ∧
      (∀ b, b % 0x1000 = 0x28 → (b < 0x1000000 ∨ s.tieCut = false) → t.rd b = 0) ∧ Only s t id)) ∧
    (∀ w : WytheIx, (s.tables w).copying = true → Completes (.trieRootCopyEnd w) s (fun t => (t.tables w).copying = false ∧
      (∀ p ∈ (t.tables w).trie, reaches true p = reaches false p ∨ reaches (s.tables w).root1 p = false) ∧
      Only s t (·.updWy w (fun y => { y with tables := {} }))))

/-- The lock-up (R40, R42–R44, R47–R50, R56): LOCK_GO holds the number to be validated; its validation ends with the first code of R42 that applies
and changes nothing else, or switches; a paused course loads the images of the forme locked up, where they changed; the sweep of the previous forme
starts once its frames have gone, or at the drain limit, and frees its number; a persist ends. -/
def Obligations.LockUps : Prop :=
  ∀ s : State,
    (s.forme.locking = none → s.forme.ledgerWait = false → s.enabled pgForme = true → Completes .lockGo s (fun t =>
      t = { s with forme := { s.forme with locking := some ((s.rd (pgForme + 0x108)).setWidth 16, flag (s.rd (pgForme + 0x108)) 16) } })) ∧
    (s.forme.locking ≠ none ∨ s.forme.ledgerWait = true ∨ s.enabled pgForme = false → Completes .lockGo s (fun t => t = s)) ∧
    (s.forme.locking = none → Completes .lockupValidationEnd s (fun t => t = s)) ∧
    (∀ n persist, s.forme.locking = some (n, persist) →
      (s.validate n persist true ≠ 0 → Completes .lockupValidationEnd s (fun t => Only s t (fun x => { x with forme := {} }) ∧
        t.forme = { s.forme with locking := none, lockResult := s.validate n persist true } ∧ (s.Canon → Counted s t (pgForme + 0x48)))) ∧
      (s.validate n persist true = 0 → Completes .lockupValidationEnd s (fun t =>
        (∀ w ∈ s.joined, (t.wy w).forme = n ∧ (t.wy w).previous = (if (s.wy w).forme = 0 then none else some (s.wy w).forme) ∧ (t.wy w).sweep ≠ .idle) ∧
        (∀ w, w ∉ s.joined → (t.wy w).forme = (s.wy w).forme ∧ (t.wy w).previous = (s.wy w).previous) ∧
        (∀ a pg, pageOf a = some pg → (a < 0x1000000 ∨ s.tieCut = false) →
          t.stPrevious a = s.stActive a ∧ (pg.type ≠ 0x40 → t.stActive a = s.stStaged a)) ∧
        t.forme.locking = none ∧ t.forme.session = .none ∧ t.forme.journal = [] ∧ t.forme.lockCount = s.forme.lockCount + 1 ∧
        t.forme.lockResult = 0 ∧ t.forme.sweepOn = s.joined ∧ ∀ w ∈ s.joined, ∀ i < 48, (t.core w i).locked = (s.core w i).staged))) ∧
    (∀ (w : WytheIx) (c : CourseIx),
      ((s.course w c.val).pausing = true → s.oldSlugs w c = false →
        ((s.course w c.val).imageDue = true → Completes (.courseImageLoad w c) s (fun t => (t.course w c.val).pausing = false ∧
          (t.course w c.val).imageDue = false ∧ ∀ k : CoreIx, (t.core w (coreIx c k)).image = (s.core w (coreIx c k)).locked)) ∧
        ((s.course w c.val).imageDue = false → Completes (.courseImageLoad w c) s (fun t =>
          t = s.updCourse w c.val (fun q => { q with pausing := false })))) ∧
      ((s.course w c.val).pausing = false ∨ s.oldSlugs w c = true → Completes (.courseImageLoad w c) s (fun t => t = s))) ∧
    (∀ (w : WytheIx) (f : W16), (s.wy w).previous = some f → (s.wy w).sweep = .draining →
      ((s.wy w).switchAt + s.drainLimit ≤ s.now → Completes .drainLimitExpiry s (fun t => (t.wy w).sweep = .sweeping ∧ (t.wy w).drained = true ∧
        (t.wy w).previous = some f ∧ (∀ c ∈ (t.wy w).press.store, c.forme = f → c.started = true) ∧
        ∀ c < 6, ∀ g ∈ (t.course w c).dq, slugForme g ≠ f)) ∧
      (s.flightOf w f = 0 → Completes (.sweepStart w) s (fun t => (t.wy w).sweep = .sweeping ∧ Only s t (·.updWy w (fun y => { y with sweep := .idle })))) ∧
      (s.flightOf w f ≠ 0 → Completes (.sweepStart w) s (fun t => t = s)) ∧
      Completes (.sweepEnd w) s (fun t => t = s)) ∧
    (∀ w : WytheIx, (s.wy w).sweep = .sweeping → Completes (.sweepEnd w) s (fun t => (t.wy w).sweep = .idle ∧ (t.wy w).previous = none ∧
      t.forme.sweepOn = s.forme.sweepOn.filter (· != w) ∧ t.active = s.active ∧ t.staged = s.staged ∧
      (s.forme.sweepOn = [w] → s.Canon → Counted s t (pgForme + 0x50)))) ∧
    (∀ p, s.forme.persist = some p →
      let ends := fun (t : State) (code : Nat) => t.forme.persist = none ∧ t.forme.persistStatus = w32 (256 * b2n p.slotB + code) ∧
        (s.Canon → Counted s t (pgForme + if code = 2 then 0x60 else 0x68)) ∧ Only s t (fun x => { x with forme := {} })
      (Completes (.persistEnd true) s (fun t => ends t 3 ∧ t.forme.flash = s.forme.flash)) ∧
      ((s.ds 0).lc = .retired → Completes (.persistEnd false) s (fun t => ends t 6 ∧ t.forme.flash = s.forme.flash)) ∧
      ((s.ds 0).lc ≠ .retired → Completes (.persistEnd false) s (fun t => ends t 2 ∧
        (∃ v, sfind t.forme.flash p.base = some v ∧ beAt v.bytes 4 2 = p.number.toNat ∧ slice v.bytes 0x100 p.image.length = p.image ∧ v.keep = p.keep) ∧
        ∀ b, b ≠ p.base → sfind t.forme.flash b = sfind s.forme.flash b)))

/-- Register pages (R5, R8, R9, R31, R53, R190, R448–R450): a write of an RW register holds it clamped and touches no other; firmware's writes of ST
registers do nothing; ones written to EV_RAW clear events and EV_FORCE raises them; a counter's LO answers its lower half and latches the upper; a 1
written to bit 31 of HI clears OVERFLOW, but for a Datestone's; a largest value clears by its read. -/
def Obligations.RegisterPages : Prop :=
  (∀ (s : State) (a : Agent) (addr : Nat) (pg : PageId), addr % 4 = 0 → pageOf addr = some pg → pg.type ≠ 0x07 → s.regionReach a addr = true →
    let base := pageBase addr
    let o := addr % 0x1000
    (∀ (d : RegDesc) (v : W32), regDesc addr = some d → 0x40 ≤ o → ctrLo pg o = none → s.actionWrite a pg o (mergeBytes 0 v 0xF) 0xF = none →
      (d.acc = .rw ∨ d.acc = .kept → pg.type ∉ [0x05, 0x19, 0x22, 0x23, 0x28, 0x31, 0x32, 0x38, 0x49] → s.Canon →
        Completes (.registerWrite a addr v 0xF) s (fun t => t.rd addr = w32 (clampWord d.flds v.toNat) ∧ (∀ b, b ≠ addr → b ≠ base + 0x28 → t.rd b = s.rd b) ∧
          t.staged = s.staged ∧ t.active = s.active ∧ t.counters = s.counters)) ∧
      (d.acc = .st ∨ d.acc = .stKept → a ≠ .host → Completes (.registerWrite a addr v 0xF) s (fun t => t = s))) ∧
    (∀ v : W32, Completes (.registerWrite a addr v 0) s (fun t => t = s)) ∧
    (o = 0 → s.Canon → ∀ m : W32,
      Completes (.eventClear a addr m) s (fun t => t.rd (addr + 0x10) = s.rd (addr + 0x10) &&& ~~~m ∧ (∀ b, b ≠ addr + 0x10 → t.rd b = s.rd b) ∧ Only s t id ∧ t.out = s.out) ∧
      Completes (.evForce a addr m) s (fun t => t.rd (addr + 0x10) = s.rd (addr + 0x10) ||| (m &&& w32 (eventBits pg.type)) ∧
        (∀ b, b ≠ addr + 0x10 → t.rd b = s.rd b) ∧ Only s t id ∧ t.counters = s.counters ∧
        (m &&& w32 (eventBits pg.type) &&& ~~~s.rd (addr + 0x10) &&& s.rd (addr + 0x14) ≠ 0 → t.out = .msix 64 :: s.out))) ∧
    (∀ lo, ctrLo pg o = some lo → o = lo → ctrConflict pg lo = false → (pg.type = 0x05 → lo ≠ 0x58) → (pg.type = 0x31 → lo ≠ 0x80) → (pg.type = 0x41 → lo < 0x68) →
      Completes (.counterLoRead a addr) s (fun t => t.readData = w32 (s.ctr addr).toNat ∧
        t.latchedUpper a addr 0 = s.ctrVal addr / 2 ^ 32 ∧ t.counters = s.counters ∧ Only s t id) ∧
      (s.Canon → (ctrSealed pg lo = false → Completes (.overflowClear a addr) s (fun t => (t.ctr addr).toNat = s.ctrVal addr ∧ (∀ b, b ≠ addr → t.ctr b = s.ctr b) ∧
          Only s t id)) ∧
        (ctrSealed pg lo = true → Completes (.overflowClear a addr) s (fun t => t = s)))) ∧
    (∀ lo, ctrLo pg o = some lo → o = lo →
      (pg.type = 0x05 → lo = 0x58 → Completes (.counterLoRead a addr) s (fun t => t.readData = w32 s.proof.braces ∧ Only s t id)) ∧
      (ctrConflict pg lo = true → Completes (.counterLoRead a addr) s (fun t => t.readData = w32 ((s.settleConflicts (pageWythe pg) pg.inst).ctr addr).toNat ∧
        t.ctr addr = (s.settleConflicts (pageWythe pg) pg.inst).ctr addr)))) ∧
  (∀ (s : State) (a : Agent) (w : WytheIx), s.reach a w = true →
    (s.Canon → Completes (.rcRead a (pgPressMain w + 0x104)) s (fun t => t.readData = s.rd (pgPressMain w + 0x104) ∧ t.rd (pgPressMain w + 0x104) = 0 ∧
      (∀ b, b ≠ pgPressMain w + 0x104 → t.rd b = s.rd b) ∧ Only s t id)) ∧
    Completes (.rcRead a (pgColl w + 0x104)) s (fun t => t.readData = w32 (s.wy w).coll.slotsMax ∧ (t.wy w).coll = { (s.wy w).coll with slotsMax := 0 } ∧
      t.regs = s.regs ∧ Only s t (·.updColl w (fun _ => {}))) ∧
    (∀ (c : CourseIx) (k : CoreIx), let n : CoreId := ⟨w, c, k⟩;
      let task : TcbIx := Fin.ofNat 64 (fld (s.rd (pgChase w n.ix + 0x110)) 5 0);
      Completes (.rcRead a (pgChase w n.ix + 0x124)) s (fun t => t.readData = (s.taskOn n task).waitMax ∧ (t.taskOn n task) = { s.taskOn n task with waitMax := 0 } ∧
        t.regs = s.regs)))

/-- Disabling and freezing (R96, R139, R276, R277, R299, R329, R330, R360, R408, R449, R451): each row clears ENABLE of its page and nothing else;
FREEZE_COUNTERS sets its bit; the CONFLICT counters of a BANKS page are brought up to date first (R306); a Datestone page ignores both. Aborts (R96,
R139, R276, R277, R299, R329, R330, R360, R408, R451): the work in flight goes, a coprocessor command that has not committed when it does (R292),
ENABLE stays as it is, and ABORT reads 0. -/
def Obligations.PageControl : Prop :=
  (∀ (s : State) (a : Agent) (w : WytheIx), s.reach a w = true → s.Canon →
    let off := fun (c : Instr) (base : Nat) => flag (s.rd (base + 8)) 1 = false → Completes c s (fun t => t.enabled base = false ∧
      (∀ b, b ≠ base + 8 → t.rd b = s.rd b) ∧ t.counters = s.counters ∧ Only s t id)
    off (.compositorDisable a w) (pgComp w) ∧ off (.caseEngineDisable a w) (pgKeys w) ∧ (∀ n, off (.tableDisable a w n) (pgTable w n)) ∧
    off (.galleyDisable a w) (pgGalley w) ∧ off (.collatorDisable a w) (pgColl w) ∧ (∀ c, off (.coprocDisable a w c) (pgCoproc w c.val)) ∧
    off (.marchDisable a w) (pgMarch w) ∧ off (.quoinDisable a w) (pgQuoin w) ∧ off (.pressDisable a w) (pgPressMain w) ∧
    (∀ p, off (.pressPortDisable a w p) (pgPress w p.val)) ∧ (∀ p, off (.portDisable a w p) (pgPort w p.val)) ∧
    (∀ (addr : Nat) (pg : PageId), pageOf addr = some pg → pg.region = w.val + 1 → pg.type < 0x48 → pg.type ≠ 0x28 → off (.disable a addr) (pageBase addr) ∧
      (∀ on : Bool, flag (s.rd (pageBase addr + 8)) 1 = false → (pg.type = 0x30 → (s.core w (pageCore pg).ix).aborted = false) → Completes (.freezeCounters a addr on) s (fun t => t.frozen (pageBase addr) = on ∧
        t.enabled (pageBase addr) = s.enabled (pageBase addr) ∧ (∀ b, b ≠ pageBase addr + 8 → t.rd b = s.rd b) ∧ t.counters = s.counters ∧ Only s t id))) ∧
    (∀ (c : CourseIx) (on : Bool), flag (s.rd (pgBanks w c.val + 8)) 1 = false →
      let settled := fun (t : State) => (∀ b, b ≠ pgBanks w c.val + 8 → t.rd b = s.rd b) ∧ Only s t (·.updWy w (fun y => { y with conflictAt := [] }))
      Completes (.disable a (pgBanks w c.val)) s (fun t => t.enabled (pgBanks w c.val) = false ∧ t.frozen (pgBanks w c.val) = s.frozen (pgBanks w c.val) ∧ settled t) ∧
      Completes (.freezeCounters a (pgBanks w c.val) on) s (fun t => t.frozen (pgBanks w c.val) = on ∧
        t.enabled (pgBanks w c.val) = s.enabled (pgBanks w c.val) ∧ settled t)) ∧
    (∀ (addr : Nat) (pg : PageId) (on : Bool), pageOf addr = some pg → 0x48 ≤ pg.type →
      Completes (.freezeCounters a addr on) s (fun t => t = s) ∧ Completes (.disable a addr) s (fun t => t = s) ∧ Completes (.abort a addr) s (fun t => t = s))) ∧
  (∀ (s : State) (a : Agent) (w : WytheIx), s.reach a w = true → s.Canon →
    let kept := fun (t : State) (base : Nat) => t.enabled base = s.enabled base ∧ flag (t.rd (base + 8)) 1 = false
    Completes (.compositorAbort a w) s (fun t => kept t (pgComp w) ∧ (t.wy w).comp.entries = []) ∧
    Completes (.caseEngineAbort a w) s (fun t => kept t (pgKeys w) ∧ ∀ n < 8, (t.window w (8 + n)).fifo = []) ∧
    (∀ n : Fin 3, Completes (.tableAbort a w n) s (fun t => kept t (pgTable w n) ∧ (t.window w (n.val + 1)).fifo = [] ∧
      (n = 1 → (t.tables w).learnQ = []) ∧ (t.tables w).trie = (s.tables w).trie ∧ (t.tables w).learn = (s.tables w).learn)) ∧
    Completes (.galleyAbort a w) s (fun t => kept t (pgGalley w) ∧ ((s.wy w).galley.heldMoves = [] → (t.wy w).galley.moves = []) ∧ (t.wy w).galley.pools = (s.wy w).galley.pools) ∧
    Completes (.collatorAbort a w) s (fun t => kept t (pgColl w) ∧ (t.wy w).coll.slots = [] ∧ (t.wy w).coll.order = []) ∧
    (∀ c : CourseIx, risingFrom 0 (s.course w c.val).places = true → Completes (.coprocAbort a w c) s (fun t => kept t (pgCoproc w c.val) ∧
      ∀ e ∈ (t.course w c.val).places, e.2.state = .done ∨ e.2.state = .queued ∧ e.2.cancelled = some true)) ∧
    Completes (.marchAbort a w) s (fun t => kept t (pgMarch w) ∧ ∀ e < 7, (t.march w e).running = false ∧
      ((s.march w e).running = true → (s.march w e).target.toNat < 32 → fld (t.march w e).status 31 28 = 5)) ∧
    Completes (.quoinAbort a w) s (fun t => kept t (pgQuoin w) ∧ (t.wy w).quoin.holds = [] ∧ (t.wy w).quoin.waits = [] ∧
      ∀ h ∈ (s.wy w).quoin.holds, sfind (t.wy w).quoin.abandoned h.object = some true) ∧
    Completes (.pressAbort a w) s (fun t => kept t (pgPressMain w) ∧ (t.wy w).press.store = (s.wy w).press.store.filter (·.started)) ∧
    (∀ p : EthIx, Completes (.pressPortAbort a w p) s (fun t => kept t (pgPress w p.val) ∧
        (t.wy w).press.store = (s.wy w).press.store.filter (fun c => c.started || c.hostq || c.port != p.val)) ∧
      Completes (.portAbort a w p) s (fun t => kept t (pgPort w p.val) ∧ ∀ f ∈ (t.wy w).rx, f.port = p.val → rxWaits f = false)) ∧
    (s.reachGlobal a = true →
      Completes (.abort a pgMbox) s (fun t => kept t pgMbox ∧ t.plinth = { s.plinth with req := none, again := false }) ∧
      Completes (.abort a pgForme) s (fun t => kept t pgForme ∧ t.forme.locking = none ∧ t.forme.persist = none ∧ t.active = s.active ∧ t.staged = s.staged)))

/-- Mode requests (R385, R475–R477, R489): a request waits for a change in progress; otherwise the device takes the legal step towards it, at once or
once its outputs have closed, and a request that leads elsewhere, or comes while refused firmware holds the device, is clamped, counted and reported. -/
def Obligations.ModeRequests : Prop :=
  ∀ (s : State) (a : Agent), s.reachGlobal a = true → s.Canon →
    let asks := fun (c : Instr) (code : Nat) =>
      let target := if s.fwHeld = true then s.curMode else legalStep s.curMode (modeOf code) (s.formeNo 0 != 0)
      (s.changing = true → Completes c s (fun t => t.modes = { s.modes with requestWaiting := true } ∧ fld (t.rd (pgMode + 0x104)) 2 0 = code ∧
        Only s t (fun x => { x with modes := {} }))) ∧
      (s.changing = false → (s.w0.mode = .dormant → s.requestWakes code = false) →
        Completes c s (fun t => t.modes.requestWaiting = false ∧
          (target = modeOf code → fld (t.rd (pgMode + 0x104)) 2 0 = code) ∧
          (target ≠ modeOf code → fld (t.rd (pgMode + 0x104)) 2 0 = modeCode target ∧ flag (t.rd (pgMode + 0x10)) 1 = true ∧ Counted s t (pgMode + 0x48)) ∧
          (target = s.curMode → (t.wy 0).mode = (s.wy 0).mode ∧ (t.wy 1).mode = (s.wy 1).mode ∧ t.modes.change = s.modes.change) ∧
          (target ≠ s.curMode → target = .proof → t.proof.running = true ∧ t.proof.occasion = .request ∧ ∀ w, (t.wy w).mode = .proof) ∧
          (target ≠ s.curMode → (target = .run ∨ target = .plumb) → ∀ w, (t.wy w).mode = target ∧ (t.wy w).outputsClosed = false) ∧
          (target ≠ s.curMode → (target = .setting ∨ target = .dormant) → (s.w0.outputsClosed && s.w1.outputsClosed) = false →
            t.modes.change = .closing target s.now ∧ ∀ w, t.wy w = s.wy w)))
    asks (.requestProof a) 1 ∧ asks (.requestSetting a) 2 ∧ asks (.requestRun a) 3 ∧ asks (.requestPlumb a) 4 ∧ asks (.requestDormant a) 7 ∧
      asks (.requestOff a) 0 ∧ asks (.requestHalf a) 5 ∧ asks (.requestBrace a) 6

/-- Changes, waking, shut-down and GPIO (R477, R484, R486, R490): a wythe's outputs close once its path is empty or at the drain limit, the device
enters SETTING once both have; a permitted event wakes a DORMANT device into the mode it came from; a shut-down begins at once or when what is under
way has ended; an edge moves its pin, and a selected one is reported. -/
def Obligations.ModeChanges : Prop :=
  ∀ (s : State) (w : WytheIx),
    (∀ target since, s.modes.change = .closing target since → (s.wy w).outputsClosed = false →
      ((s.pathEmpty w = true ∨ since + s.drainLimit ≤ s.now) →
        ((s.wy (1 - w)).outputsClosed = false → Completes (.outputsClosed w) s (fun t => (t.wy w).outputsClosed = true ∧ t.modes = s.modes ∧
          (t.wy w).mode = (s.wy w).mode ∧ (t.wy w).press.store = (s.wy w).press.store.filter (·.started))) ∧
        ((s.wy (1 - w)).outputsClosed = true → target = .setting → s.modes.requestWaiting = false → s.modes.shutdownDue = false →
          Completes (.outputsClosed w) s (fun t => t.modes.change = .none ∧ ∀ v, (s.wy v).mode ≠ .half → (t.wy v).mode = .setting))) ∧
      (s.pathEmpty w = false → s.now < since + s.drainLimit → Completes (.outputsClosed w) s (fun t => t = s))) ∧
    (s.modes.change = .none → Completes (.outputsClosed w) s (fun t => t = s)) ∧
    (∀ (cause : BitVec 4) (index : BitVec 6), s.w0.mode = .dormant → s.wakeAllowed cause.toNat index.toNat = true → s.modes.requestWaiting = false →
      s.modes.shutdownDue = false → Completes (.wake cause index true) s (fun t => (∀ v, (t.wy v).mode = s.modes.dormantFrom) ∧
        t.modes.wakeCause = cause.toNat ∧ (s.Canon → flag (t.rd (pgMode + 0x10)) 3 = true) ∧ ∀ v, ∀ c < 4, (t.dramCh v c).selfRefresh = false)) ∧
    (∀ (cause : BitVec 4) (index : BitVec 6) (tie : Bool), s.w0.mode ≠ .dormant ∨ s.wakeAllowed cause.toNat index.toNat = false →
      Completes (.wake cause index tie) s (fun t => t = s)) ∧
    (∀ c : Instr, (c = .shutdnReq ∧ s.powered = true) ∨ (∃ a, c = .shutdownStart a ∧ s.reachGlobal a = true) →
      (s.modes.shutdown ≠ .idle → Completes c s (fun t => t = s)) ∧
      (s.modes.shutdown = .idle → s.curMode ≠ .off → s.curMode ≠ .brace →
        (s.modes.change ≠ .none ∨ s.proof.running = true ∨ s.modes.startDue = true ∨ s.curMode = .dormant →
          Completes c s (fun t => t = { s with modes := { s.modes with shutdownDue := true } })) ∧
        (s.modes.change = .none → s.proof.running = false → s.modes.startDue = false → s.curMode ≠ .dormant →
          (s.w0.outputsClosed && s.w1.outputsClosed) = false → Completes c s (fun t => t = { s with modes := { s.modes with
            shutdown := .closing, abandoned := false, shutdownDue := false, requestWaiting := false, change := .closing .proof s.now } })))) ∧
    (∀ (g : Fin 16) (rising : Bool),
      (s.powered = true → s.modes.gpioIn.getLsbD g.val ≠ rising → Completes (.gpioEdge g rising) s (fun t => t.modes.gpioIn.getLsbD g.val = rising ∧
        (∀ k : Fin 16, k ≠ g → t.modes.gpioIn.getLsbD k.val = s.modes.gpioIn.getLsbD k.val) ∧
        (s.edgeSelected g.val rising = false → Only s t (fun x => { x with modes := {} }) ∧ t.regs = s.regs) ∧
        (s.edgeSelected g.val rising = true → s.Canon → flag (t.rd (pgSystem + 0x10)) 0 = true))) ∧
      (s.powered = false ∨ s.modes.gpioIn.getLsbD g.val = rising → Completes (.gpioEdge g rising) s (fun t => t = s)))

/-- Resets, power and start-up (R62, R367, R479–R482, R552, R553): a reset leaves the forme gone, the device in PROOF and due to start, and keeps the
ledger, the keys, the lifecycle state, the Datestones' counters, the flash slots and the Keep store; a start enters SETTING, RUN, PLUMB or HALF, with
refused firmware SETTING (R385); the loss of VKEEP loses what only it holds. -/
def Obligations.ResetsAndPower : Prop :=
  ∀ s : State,
    let restarts := fun (t : State) (code : Nat) => t.modes.startDue = true ∧ t.modes.causes = s.modes.causes ||| 2 ^ (code - 1) ∧ t.keep = s.keep ∧ t.staged = [] ∧
      t.active = [] ∧ t.forme.flash = s.forme.flash ∧ t.forme.lockCount = s.forme.lockCount ∧
      (∀ w, (t.wy w).mode = .proof ∧ (t.wy w).forme = 0 ∧ (t.wy w).cores = [] ∧ (t.wy w).rx = [] ∧ (t.wy w).repairs = (s.wy w).repairs ∧ (t.ds w).head = (s.ds w).head ∧
        (t.ds w).nextSeq = (s.ds w).nextSeq ∧ (t.ds w).ring = (s.ds w).ring ∧ (t.ds w).lc = (s.ds w).lc ∧ (t.ds w).imageKeys = (s.ds w).imageKeys) ∧
      ∀ b, t.ctr b = if keptCounter b then s.ctr b else 0
    (s.powered = true → s.proof.bracing = false →
      Completes .resetN s (fun t => restarts t 5) ∧
      (∀ a v, s.reachGlobal a = true → fld v 31 16 = 0xA55A → flag v 0 = true → Completes (.resetCmd a v) s (fun t => restarts t 6)) ∧
      (s.modes.pwrfailN = true → Completes .supply s (fun t => restarts t 4))) ∧
    (∀ a v, s.reachGlobal a = true → fld v 31 16 ≠ 0xA55A ∨ flag v 0 = false → Completes (.resetCmd a v) s (fun t => t = s)) ∧
    (s.modes.pwrfailN = false → Completes .supply s (fun t => t = s)) ∧
    (s.powered = false → Completes .resetN s (fun t => t = s)) ∧
    (s.modes.railsUp = true → Completes .mainRailsFall s (fun t => t.modes.railsUp = false ∧ t.modes.startDue = false ∧ t.keep = s.keep ∧
      (∀ w, (t.wy w).mode = .off ∧ (t.ds w).head = (s.ds w).head ∧ (t.ds w).ring = (s.ds w).ring ∧ (t.ds w).lc = (s.ds w).lc) ∧
      ∀ b, t.ctr b = if keptCounter b then s.ctr b else 0)) ∧
    (s.modes.railsUp = false → Completes .powerOn s (fun t => t.modes.railsUp = true ∧ t.modes.startDue = true ∧ t.modes.vkeep = true ∧
      t.modes.causes = (if s.modes.keepValid then 2 else 0) ∧ (∀ w, (t.wy w).mode = .proof ∧ t.ds w = s.ds w) ∧ t.keep = s.keep)) ∧
    (s.modes.railsUp = true → Completes .powerOn s (fun t => t = s)) ∧
    Completes .vkeepLoss s (fun t => t.keep = [] ∧ t.modes.vkeep = false ∧ t.proof.record = [] ∧ (∀ b, t.ctr b = if keptCounter b then 0 else s.ctr b) ∧
      ∀ w, (t.ds w).ring = [] ∧ (t.ds w).head = [] ∧ (t.ds w).lc = (s.ds w).lc ∧ (t.ds w).imageKeys = (s.ds w).imageKeys ∧ (t.ds w).boot = (s.ds w).boot ∧ (t.wy w).repairs = []) ∧
    (∀ i : StartInput,
      (s.modes.railsUp = false ∨ s.modes.startDue = false ∨ s.modes.pwrfailN = false → Completes (.startUp i) s (fun t => t = s)) ∧
      (s.modes.railsUp = true → s.modes.startDue = true → s.modes.pwrfailN = true → s.modes.requestWaiting = false → s.modes.shutdownDue = false →
        let intact := s.modes.keepValid && i.retentionIntact
        let accepted := (fwLoaded (s.ds 0) (s.ds 0).authkey i.fwA i.fwB).isSome && (fwLoaded (s.ds 1) (s.ds 0).authkey i.fwA i.fwB).isSome
        Completes (.startUp i) s (fun t => t.modes.startDue = false ∧ t.modes.resetCause = topCause (s.startCauses intact) ∧ t.modes.causes = 0 ∧
          (∀ w, (t.wy w).mode ∈ [.setting, .run, .plumb, .half]) ∧
          (accepted = true → ∀ w, (t.ds w).started = true ∧ (t.ds w).boot = (s.ds w).boot + 1) ∧
          (accepted = false → ∀ w, (t.wy w).mode = .setting ∧ (t.ds w).fwRejected = (fwLoaded (s.ds w) (s.ds 0).authkey i.fwA i.fwB).isNone ∧ (t.ds w).boot = (s.ds w).boot))))

/-- Proof and Brace (R483, R497, R500, R503, R508–R512): the end of a Proof leaves its result and the device in SETTING, or HALF, with no forme;
PWRFAIL_N's fall braces the device; the image that completes a Brace holds every witness counter under the marker; a return of power is noted. -/
def Obligations.ProofAndBrace : Prop :=
  ∀ s : State,
    let measured := fun (c : Instr) (result : Nat) (mask : W32) => s.proof.running = true → s.proof.occasion ≠ .shutdown → s.modes.requestWaiting = false →
      s.modes.shutdownDue = false → s.Canon → Completes c s (fun t => t.proof.running = false ∧ t.proof.result = result ∧ t.proof.failedMask = mask ∧
        Counted s t (pgProof + 0x40) ∧ t.previous = [] ∧ ∀ w, (t.wy w).forme = 0 ∧ (t.wy w).mode = if s.split w then .half else .setting)
    (∀ f : ProofFinding, measured (.proofEnd f) (proofResult f) (failedMask f)) ∧
    (∀ (d : W32) (temp : W16), measured (.outOfRange d temp) 3 0) ∧
    (s.proof.running = false → ∀ (f : ProofFinding) (d : W32) (temp : W16), Completes (.proofEnd f) s (fun t => t = s) ∧ Completes (.outOfRange d temp) s (fun t => t = s)) ∧
    (s.modes.pwrfailN = true → s.proof.bracing = false →
      (s.powered = true → s.modes.startDue = false → Completes .pwrfail s (fun t => t.modes.pwrfailN = false ∧ t.proof.bracing = true ∧ t.proof.running = false ∧
        t.proof.braceStart = s.now ∧ t.plinth.linkUp = false ∧ t.forme.persist = none ∧ t.forme.locking = none ∧
        ∀ w, (t.wy w).mode = .brace ∧ (t.wy w).outputsClosed = true ∧ (t.wy w).press.store = [] ∧ (t.wy w).press.sending = [])) ∧
      (s.powered = false ∨ s.modes.startDue = true → Completes .pwrfail s (fun t => t = { s with modes := { s.modes with pwrfailN := false } }))) ∧
    (s.modes.pwrfailN = false ∨ s.proof.bracing = true → Completes .pwrfail s (fun t => t = s)) ∧
    (s.proof.bracing = true → s.proof.braceDone = false → Completes .powerReturn s (fun t => t.modes.pwrfailN = true ∧ t.proof = { s.proof with powerReturned := true } ∧
      ∀ w, (t.ds w).intake = (s.ds w).intake.map markReturned)) ∧
    (s.proof.bracing = false → Completes .powerReturn s (fun t => t = { s with modes := { s.modes with pwrfailN := true } })) ∧
    (s.proof.braceDone = true → s.proof.imageDone = false → s.modes.vkeep = true → Completes .braceImageWritten s (fun t => t.proof.imageDone = true ∧ t.proof.bracing = false ∧
      (∀ w, (t.ds w).brace.marker = true ∧ ∀ b ∈ witAll w, sget (fun _ => 0) (t.ds w).brace.image b = s.ctr b) ∧
      (s.proof.bracing = true → s.proof.powerReturned = true → s.powered = true → t.modes.startDue = true ∧ t.modes.causes = s.modes.causes ||| 4)))

/-- Copies across the tie (R21, R275): the first copy of the other wythe's queue arrives where a buffer is found, or is dropped there; it waits while
no flits pass, its frame is not whole or its pool refills; a complete one reaches the Press of its wythe, unless that no longer knows its forme; the
ingress wythe gives its buffers back. -/
def Obligations.TieCopies : Prop :=
  ∀ (s : State) (w : WytheIx),
    let v : WytheIx := 1 - w
    ((s.wy v).tie.txq = [] → Completes (.tieCopyArrival w) s (fun t => t = s)) ∧
    ((s.wy w).tie.rxq = [] → Completes (.tieCopyComplete w) s (fun t => t = s)) ∧
    (∀ k rest, (s.wy v).tie.txq = k :: rest → s.tieCarries = true → k.early = none →
      let bytes := s.segBytes v (tieAsCopy k)
      let answer := (s.alloc w 0xFF (bytes.length + 4) true .ingress).1
      (∀ h : Nat, answer = .got h → Completes (.tieCopyArrival w) s (fun t => (t.wy v).tie.txq = rest ∧
        (t.wy w).tie.rxq = (s.wy w).tie.rxq ++ [{ k with data := bytes, handle := h, egressGroup := (s.wy w).coll.nextSerial }] ∧
        sfind (t.wy w).coll.flights (s.wy w).coll.nextSerial = some ⟨k.forme, k.targets.length⟩ ∧ (t.wy w).press = (s.wy w).press)) ∧
      (answer = .none → Completes (.tieCopyArrival w) s (fun t => (t.wy v).tie.txq = rest ∧ (t.wy w).tie.rxq = (s.wy w).tie.rxq ∧ (t.wy w).press = (s.wy w).press)) ∧
      (answer = .wait → Completes (.tieCopyArrival w) s (fun t => t = s))) ∧
    (s.tieCarries = false → Completes (.tieCopyArrival w) s (fun t => t = s)) ∧
    (∀ k rest, (s.wy v).tie.txq = k :: rest → k.early ≠ none → Completes (.tieCopyArrival w) s (fun t => t = s)) ∧
    (∀ k rest, (s.wy w).tie.rxq = k :: rest → Completes (.tieCopyComplete w) s (fun t => (t.wy w).tie.rxq = rest ∧ (t.wy w).tie.txq = (s.wy w).tie.txq ∧
      ((s.wy w).forme ≠ k.forme → (s.wy w).previous ≠ some k.forme → (t.wy w).press = (s.wy w).press) ∧
      ((s.wy w).forme = k.forme ∨ (s.wy w).previous = some k.forme → (t.wy w).press.tieArrivals.length = (s.wy w).press.tieArrivals.length + k.targets.length ∧
        ∀ c ∈ (t.wy w).press.tieArrivals.drop (s.wy w).press.tieArrivals.length, c.forme = k.forme ∧ c.group = k.egressGroup ∧
          c.segs = [⟨k.handle, 0, k.data.length⟩])))

/-- The tie (R27, R516, R519, R521–R523, R525–R527): retraining and its end, retried flits, the exchange of sequence numbers; a loss splits the
wythe, drops what was on the tie and puts a running wythe into HALF unless refused firmware holds it (R385); a skew counts only between neighbouring
regions (R25) and over enough samples in a row; a rejoin trains, and the tie links again when both ends train. -/
def Obligations.TieLossAndRejoin : Prop :=
  ∀ (s : State) (w : WytheIx),
    let k := (s.wy w).tie
    let tie := fun (t : State) => (t.wy w).tie
    let only := fun (t : State) => Only s t (·.updTie w (fun _ => {}))
    let falls := fun (t : State) (why : TieCause) => (tie t).split = true ∧ (tie t).state = .down ∧ (tie t).cause = why ∧ (tie t).txq = [] ∧ (tie t).rxq = [] ∧
      (tie t).retraining = false ∧
      (s.fwHeld = false → (s.wy w).mode ∈ [.setting, .run, .plumb] → (t.wy w).mode = .half ∧ (t.wy w).returnMode = (s.wy w).mode) ∧
      (s.fwHeld = true ∨ (s.wy w).mode ∉ [.setting, .run, .plumb] → (t.wy w).mode = (s.wy w).mode)
    let alive := s.tieLost w = false ∧ (s.wy w).mode ∉ [.off, .brace, .dormant]
    (alive → (∀ a : Agent, s.reach a w = true → Completes (.isolate a w) s (fun t => falls t .hostIsolate ∧ (s.Canon → Counted s t (pgTie w + 0x60) ∧
      flag (t.rd (pgTie w + 0x10)) 0 = true))) ∧
      (k.retraining = true → k.retrainSince + 100000 ≤ s.now → Completes (.tieLost w) s (fun t => falls t .tieLost)) ∧
      ∀ (x y : Byte) (hot : Bool) (diffs : List Nat), skewRaised x y hot diffs = true → Completes (.regionSkew x y hot diffs) s (fun t => falls t .regionSkew ∧ fld (tie t).skewInfo 7 0 = x.toNat ∧ fld (tie t).skewInfo 23 16 = y.toNat)) ∧
    (∀ (x y : Byte) (hot : Bool) (diffs : List Nat), (skewRaised x y hot diffs = true ↔ neighbours x.toNat y.toNat = true ∧
        (if hot = true then 2 else 4) ≤ diffs.length ∧ ∀ d ∈ diffs.take (if hot = true then 2 else 4), (if hot = true then 120 else 40) < d) ∧
      (skewRaised x y hot diffs = false → Completes (.regionSkew x y hot diffs) s (fun t => t = s))) ∧
    (s.tieLost w = true → (∀ a : Agent, Completes (.isolate a w) s (fun t => t = s)) ∧ Completes (.tieRetrain w) s (fun t => t = s) ∧
      Completes (.flitRetry w) s (fun t => t = s)) ∧
    (k.retraining = true → s.now < k.retrainSince + 100000 → Completes (.tieLost w) s (fun t => t = s)) ∧
    (s.tieLost w = false → k.retraining = false → k.state ≠ .down → Completes (.tieRetrain w) s (fun t => only t ∧
      tie t = { k with retraining := true, retrainSince := s.now } ∧ (s.Canon → Counted s t (pgTie w + 0x58)))) ∧
    (k.retraining = true → s.now ≤ k.retrainSince + 100000 → Completes (.tieRetrainEnd w) s (fun t => only t ∧ tie t = { k with retraining := false })) ∧
    (s.tieLost w = false → s.Canon → Completes (.flitRetry w) s (fun t => Counted s t (pgTie w + 0x50) ∧ Only s t id)) ∧
    (s.tieLost 0 = false → s.tieLost 1 = false → Completes .sequenceExchange s (fun t => tie t = { k with otherSeq := (s.ds (1 - w)).nextSeq } ∧ t.ds w = s.ds w)) ∧
    (∀ a : Agent, s.reach a w = true →
      (s.tieLost w = true → k.cause = .hostIsolate → Completes (.rejoin a w) s (fun t => only t ∧
        tie t = { k with state := .training, lastAttempt := s.now, rejoinAsked := true })) ∧
      (s.tieLost w = true → k.cause ≠ .hostIsolate → k.skewUntil ≤ s.now → Completes (.rejoin a w) s (fun t => only t ∧
        tie t = { k with state := .training, lastAttempt := s.now })) ∧
      (s.tieLost w = true → k.cause ≠ .hostIsolate → s.now < k.skewUntil → Completes (.rejoin a w) s (fun t => t = s)) ∧
      (s.tieLost w = false → Completes (.rejoin a w) s (fun t => t = s))) ∧
    (s.retryDue w = true → Completes (.rejoinAttempt w) s (fun t => only t ∧ tie t = { k with state := .training, lastAttempt := s.now })) ∧
    (s.retryDue w = false → Completes (.rejoinAttempt w) s (fun t => t = s)) ∧
    ((s.tieLost 0 || s.tieLost 1) = true → (∀ v, s.tieLost v = true → (s.wy v).tie.state = .training) → Completes .linked s (fun t =>
      (t.ds 1).lc = (s.ds 0).lc ∧ (t.ds 1).imageKeys = (s.ds 0).imageKeys ∧ (tie t).otherSeq = (s.ds (1 - w)).nextSeq ∧
      ((s.wy 0).forme = (s.wy 1).forme → (tie t).split = false ∧ (tie t).state = .up ∧
        (k.split = true → (s.wy w).mode = .half → (t.wy w).mode = (s.wy w).returnMode)) ∧
      ((s.wy 0).forme ≠ (s.wy 1).forme → (tie t).split = k.split ∧ (k.split = true → (tie t).state = .held) ∧ (t.wy w).mode = (s.wy w).mode))) ∧
    ((∃ v, s.tieLost v = true ∧ (s.wy v).tie.state ≠ .training) → Completes .linked s (fun t => t = s))

/-- Debug commands (R537–R540, R542, R547): a command on a course whose debug is not permitted is denied, one beyond a lost tie answers SPLIT; HALT,
RESUME and STEP change the state of their scope's contexts; registers are read and written while a context is not running, memory at any time;
breakpoints are set and cleared. -/
def Obligations.DebugCommands : Prop :=
  ∀ (s : State) (a : Agent), s.debugReach a = true → s.Canon →
    let v := s.dbgTarget
    let x := targetCtx v
    let result := fun (t : State) => fld t.dbgUnit.status 7 0
    let others := fun (t : State) => ∀ y, y ≠ x → t.ctx y = s.ctx y
    let reachable := (x.w = 0 ∨ s.tieCut = false)
    (∀ c ∈ [Instr.halt a, .resume a, .step a false, .step a true, .readReg a (.d 0), .writeReg a (.d 0), .readMem a, .writeMem a, .bkptOn a, .bkptOff a],
      (reachable → s.debugAllowed x.w x.c.val = false → Completes c s (fun t => result t = dbgDENIED ∧ Counted s t (pgDebug + 0x50) ∧ flag (t.rd (pgDebug + 0x10)) 1 = true ∧
        Only s t (fun y => { y with dbgUnit := {} }))) ∧
      (x.w = 1 → s.tieCut = true → Completes c s (fun t => t = { s with dbgUnit := { s.dbgUnit with status := w32 dbgSPLIT } }))) ∧
    (reachable → s.debugAllowed x.w x.c.val = true →
      (fld v 1 0 = 0 →
        ((s.ctx x).state = .running → Completes (.halt a) s (fun t => result t = dbgOK ∧ (t.ctx x).state = .halted ∧ (t.ctx x).pcx = (s.ctx x).pcx ∧
          (t.ctx x).products = [] ∧ Counted s t (pgDebug + 0x40) ∧ others t)) ∧
        ((s.ctx x).state = .stopped → Completes (.halt a) s (fun t => result t = dbgBADTARGET ∧ t.ctx x = s.ctx x ∧ others t)) ∧
        ((s.ctx x).state = .halted → s.stillWaits x = false → (s.ctx x).waitDest = none →
          Completes (.resume a) s (fun t => result t = dbgOK ∧ t.ctx x = { s.ctx x with state := .running } ∧ others t) ∧
          Completes (.step a false) s (fun t => result t = dbgOK ∧ t.ctx x = { s.ctx x with state := .running, stepping := true } ∧ others t)) ∧
        ((s.ctx x).state ≠ .halted → ∀ takeInt, Completes (.resume a) s (fun t => result t = dbgNOTHALTED ∧ t.ctx x = s.ctx x ∧ others t) ∧
          Completes (.step a takeInt) s (fun t => result t = dbgNOTHALTED ∧ t.ctx x = s.ctx x ∧ others t))) ∧
      (∀ n : Fin 16,
        ((s.ctx x).state = .halted → Completes (.readReg a (.d n)) s (fun t => result t = dbgOK ∧ fld (t.rd (pgDebug + 0x10C)) 15 0 = ((s.ctx x).d[n.val]).toNat ∧
            ∀ y, t.ctx y = s.ctx y) ∧
          Completes (.writeReg a (.d n)) s (fun t => result t = dbgOK ∧ t.ctx x = (s.ctx x).setD n ((s.rd (pgDebug + 0x10C)).setWidth 16) ∧ others t)) ∧
        (regsReached (s.ctx x).state = false → Completes (.readReg a (.d n)) s (fun t => result t = dbgNOTHALTED ∧ t.rd (pgDebug + 0x10C) = s.rd (pgDebug + 0x10C)) ∧
          Completes (.writeReg a (.d n)) s (fun t => result t = dbgNOTHALTED ∧ t.ctx x = s.ctx x))) ∧
      (let at_ := fld (s.rd (pgDebug + 0x108)) 23 2 * 4;
        (at_ < 0x18000 → s.areaView x (areaOf x (s.ctx x).sr at_) = .on →
          Completes (.readMem a) s (fun t => result t = dbgOK ∧ t.rd (pgDebug + 0x10C) = w32 (s.memValue x at_ 4) ∧ ∀ y b, t.memByte y b = s.memByte y b) ∧
          (s.MemCanon → Completes (.writeMem a) s (fun t => result t = dbgOK ∧ t.memValue x at_ 4 = (s.rd (pgDebug + 0x10C)).toNat ∧ ∀ y, t.ctx y = s.ctx y))) ∧
        (areaOf x (s.ctx x).sr at_ = .unmapped → Completes (.readMem a) s (fun t => result t = dbgUNMAPPED) ∧ Completes (.writeMem a) s (fun t => result t = dbgUNMAPPED ∧
          ∀ y b, t.memByte y b = s.memByte y b))) ∧
      (let set := fun (t : State) (b : Bool) => result t = dbgOK ∧ ∀ y, t.ctx y = if y ∈ targetScope v then { s.ctx y with bkpt := b } else s.ctx y;
        Completes (.bkptOn a) s (fun t => set t true) ∧ Completes (.bkptOff a) s (fun t => set t false)))

/-- The TAP (R475, R480, R541, R542): each instruction selects its register; IDCODE answers the identification word; PROOF with a 1 requests PROOF;
DBG_ACCESS reaches the DEBUG page only where debug by JTAG is permitted, and answers what the previous read returned; TRST_N resets the TAP alone. -/
def Obligations.JtagInstructions : Prop :=
  ∀ s : State,
    let selects := fun (c : Instr) (ir : BitVec 5) => Completes c s (fun t => t = { s with dbgUnit := { s.dbgUnit with ir := ir } })
    selects .extest 0x00 ∧ selects .samplePreload 0x02 ∧ selects .clampJtag 0x03 ∧ selects .highz 0x04 ∧ selects .bypass 0x1F ∧ selects (.jtagProof false) 0x08 ∧
    Completes .idcode s (fun t => t = { s with dbgUnit := { s.dbgUnit with ir := 0x01 }, readData := idcodeWord }) ∧
    (s.changing = false → s.curMode = .setting → s.fwHeld = false → Completes (.jtagProof true) s (fun t => t.dbgUnit.ir = 0x08 ∧ t.proof.running = true ∧ t.proof.occasion = .request ∧
      ∀ w, (t.wy w).mode = .proof)) ∧
    (s.changing = true → Completes (.jtagProof true) s (fun t => t.modes = { s.modes with requestWaiting := true } ∧ ∀ w, t.wy w = s.wy w)) ∧
    (s.jtagDebug = false → ∀ write o d, Completes (.dbgAccess write o d) s (fun t => t = { s with dbgUnit := { s.dbgUnit with ir := 0x10 } })) ∧
    (s.jtagDebug = true → ∀ d, Completes (.dbgAccess false 0x100#12 d) s (fun t => t = { s with
      dbgUnit := { s.dbgUnit with ir := 0x10, jtagData := s.dbgTarget }, readData := s.dbgUnit.jtagData })) ∧
    (s.jtagDebug = true → s.Canon → ∀ d, Completes (.dbgAccess true 0x10C#12 d) s (fun t => t.rd (pgDebug + 0x10C) = d ∧ t.readData = s.dbgUnit.jtagData ∧
      Only s t (fun x => { x with dbgUnit := {} }))) ∧
    Completes .trstN s (fun t => t = { s with dbgUnit := { s.dbgUnit with ir := 1, jtagData := 0 } })

/-- A step runs the command at the front of the queue on the state with the queue's rest. -/
def Obligations.StepRunsTheFront : Prop :=
  ∀ (s : State) (c : Instr) (rest : List Instr), s.pending = c :: rest → step s = exec c { s with pending := rest }

/-- On an empty queue 1 ns passes (the model's choice, log 7): both clocks take one cycle by their rates (R411, R413), a following one as the other
does (R416), the quiescence detectors of quiet courses count on and the others start again (R246), and, where no core holds a store, no register,
table, task or context changes. -/
def Obligations.IdleTicks : Prop :=
  ∀ s : State, s.pending = [] → ∃ t, step s = .next t ∧ t.now = s.now + 1 ∧ t.pending = [] ∧
    ((∀ w i, (s.core w i).storeQ = []) → t.regs = s.regs ∧ t.staged = s.staged ∧ t.active = s.active ∧
    t.forme = s.forme ∧ t.modes = s.modes ∧ t.plinth = s.plinth ∧
    t.clock 0 = clockCycle (signed 32 (s.rd (pgTime 0 + 0x128)).toNat) (s.clock 0) ∧
    (s.following 1 = false → t.clock 1 = clockCycle (signed 32 (s.rd (pgTime 1 + 0x128)).toNat) (s.clock 1)) ∧
    (s.following 1 = true → (t.clock 1).frac = (t.clock 0).frac ∧ (t.clock 1).slewing = false ∧
      ((s.clock 1).ns = (s.clock 0).ns → (s.clock 0).ns < todMod → (t.clock 1).ns = (t.clock 0).ns)) ∧
    ∀ w, (∀ x, t.ctx x = s.ctx x) ∧ (t.wy w).tables = (s.wy w).tables ∧ (t.wy w).tcbs = (s.wy w).tcbs ∧ (t.wy w).galley = (s.wy w).galley ∧ t.ds w = s.ds w ∧
      ∀ c : CourseIx, (t.course w c.val).quiet = if s.detects w c && s.courseQuiet w c then (s.course w c.val).quiet + 3 else 0)

/-- After reset (R7, R480, R488): no command waits, MODE.CURRENT reads 0x0000_0101, the wythes are in PROOF with no forme, no frame and no copy,
every page is enabled and every counter 0; registers and memories are in canonical form. -/
def Obligations.ResetState : Prop :=
  let s := State.reset
  s.pending = [] ∧ (s.busRead .host (pgMode + 0x100)).1 = 0x101#32 ∧ (∀ a, s.ctr a = 0) ∧ (∀ a, s.stStaged a = s.stActive a ∧ s.stActive a = regReset a) ∧
    (∀ w, (s.wy w).mode = .proof ∧ s.formeNo w = 0 ∧ (s.wy w).rx = [] ∧ (s.wy w).press.store = [] ∧ (s.wy w).coll.slots = [] ∧ (s.wy w).posts = []) ∧
    (∀ w, s.enabled (pgComp w) = true ∧ s.enabled (pgColl w) = true ∧ s.enabled (pgGalley w) = true ∧ ∀ p : EthIx, s.enabled (pgPort w p.val) = true) ∧
    s.Canon ∧ s.MemCanon

/-- No command changes the queue of the commands that wait (the model's interface). -/
def Obligations.QueueUntouched : Prop :=
  ∀ (c : Instr) (s t : State), exec c s = .next t → t.pending = s.pending

/-- Every step keeps registers, forme copies and counters in canonical form, so that what is written is what is read and equal contents are equal
states (log 1). -/
def Obligations.RegistersStayCanonical : Prop :=
  ∀ s t : State, s.Canon → step s = .next t → t.Canon

/-- Every step keeps scratchpads, instruction memories, course banks and result areas in canonical form (log 1). -/
def Obligations.MemoriesStayCanonical : Prop :=
  ∀ s t : State, s.MemCanon → step s = .next t → t.MemCanon

/-- R181: a context other than context 0 that reads or writes SPCX, SSR, SA0 or SD0, by whatever instruction names it, faults with ILLEGAL, and the
shadow registers keep their values. -/
def Obligations.ShadowRegisters : Prop :=
  ∀ (s : State) (i : Issue) (r : Reg), Reg.shadow r = true → i.id.x ≠ 0 → s.Canon →
    let illegal := fun (t : State) => Faulted s t i 0x04 (s.ctx i.id).pcx.toNat ∧ (t.ctx i.id).d = (s.settled i).d ∧ (t.ctx i.id).a = (s.settled i).a ∧
      ∀ w k, (t.core w k).spcx = (s.core w k).spcx ∧ (t.core w k).ssr = (s.core w k).ssr ∧ (t.core w k).sa0 = (s.core w k).sa0 ∧ (t.core w k).sd0 = (s.core w k).sd0
    (∀ (other : Reg) (p : Bool), (s.Ready i (regReads other p) 4 → Completes (.movr i r other p) s illegal) ∧
      (s.Ready i (regReads r p) 4 → Completes (.movr i other r p) s illegal)) ∧
    (∀ imm : W16, s.Ready i [] 4 → Completes (.movi i (.long r imm)) s illegal ∧ Completes (.addi i (.long r imm)) s illegal ∧
      Completes (.andi i r imm) s illegal ∧ Completes (.ori i r imm) s illegal ∧ Completes (.xori i r imm) s illegal) ∧
    (∀ m : MemOp,
      let load := fun (size : Nat) => s.Ready i (memReads m) (if m.long then 4 else 2) (s.accessHalf i.id (dataRegs r size) m size) [.a m.an]
      let store := fun (size : Nat) => s.Ready i (dataRegs r size ++ memReads m) (if m.long then 4 else 2) (s.accessHalf i.id [] m size) [.a m.an]
      (load 1 → Completes (.ldB i r m) s illegal) ∧ (load 2 → Completes (.ld i r m) s illegal) ∧ (load 4 → Completes (.ldL i r m) s illegal) ∧
      (store 1 → Completes (.stB i r m) s illegal) ∧ (store 2 → Completes (.st i r m) s illegal) ∧
        (store 4 → Completes (.stL i r m) s illegal))

/-- R169: a 32-bit access to a device register window that is not 4-byte aligned, and a 16-bit one at an odd address, fault with UNALIGNED_WINDOW;
the access is not made: nothing outside the cores of the wythe changes, and no load is on its way. -/
def Obligations.UnalignedWindows : Prop :=
  ∀ (s : State) (i : Issue) (r : Reg) (m : MemOp) (size : Nat) (e : EffAddr), effAddr (s.ctx i.id) m size = some e → memRegOk r size = true →
    (∃ d, areaOf i.id (s.ctx i.id).sr e.addr.toNat = .device d) → i.id.x ≠ 0 → s.Canon →
    let turned := fun (t : State) => Faulted s t i 0x03 e.addr.toNat ∧ (t.ctx i.id).loads = (s.settled i).loads ∧ (t.ctx i.id).d = (s.settled i).d ∧
      (t.ctx i.id).a = (s.settled i).a ∧ Only s t (·.updWy i.id.w (fun y => { y with cores := [], ctxs := [], tcbs := [] }))
    let len := if m.long then 4 else 2
    (size = 4 → e.addr.toNat % 4 ≠ 0 → (s.Ready i (memReads m) len (s.accessHalf i.id (dataRegs r 4) m 4) [.a m.an] → Completes (.ldL i r m) s turned) ∧
      (s.Ready i (dataRegs r 4 ++ memReads m) len (s.accessHalf i.id [] m 4) [.a m.an] → Completes (.stL i r m) s turned)) ∧
    (size = 2 → e.addr.toNat % 2 = 1 → (s.Ready i (memReads m) len (s.accessHalf i.id (dataRegs r 2) m 2) [.a m.an] → Completes (.ld i r m) s turned) ∧
      (s.Ready i (dataRegs r 2 ++ memReads m) len (s.accessHalf i.id [] m 2) [.a m.an] → Completes (.st i r m) s turned))

/-- R393: CTRL of every Datestone page reads 0, and no write of it has an effect. -/
def Obligations.DatestonePagesIgnoreCtrl : Prop :=
  ∀ (s : State) (a : Agent) (addr : Nat) (pg : PageId), pageOf addr = some pg → 0x48 ≤ pg.type →
    (s.regionReach a (pageBase addr + 8) = true → s.busRead a (pageBase addr + 8) = (0, s)) ∧
    (∀ (v : W32) (be : BitVec 4), Completes (.registerWrite a (pageBase addr + 8) v be) s (fun t => t = s)) ∧
    Completes (.disable a addr) s (fun t => t = s) ∧ Completes (.abort a addr) s (fun t => t = s) ∧
    (∀ on, Completes (.freezeCounters a addr on) s (fun t => t = s))

/-- Pair-issue (R155, R173): the second of a pair issues only in RUN with PAIR_EN set, right after an instruction of its context and of the other
class, in the same cycle, neither reading nor writing a register that the first writes; it counts in PAIRS and takes no issue cycle of its own, while
an instruction that issues alone takes one. -/
def Obligations.PairIssue : Prop :=
  ∀ (s : State) (i : Issue) (d r : Fin 16) (n m : Fin 8), s.Canon →
    let k := s.core i.id.w i.id.core.ix
    let pg := pgCore i.id.w i.id.core.ix
    let with' := fun (cls : PairClass) (reads writes : List Reg) => s.plumb i.id.w i.id.core.ix = false ∧ i.gap = 0 ∧
      s.coreCfg i.id.w (8 * i.id.c.val) 0x124 &&& 8 = 8 ∧ ∃ l, k.last = some l ∧ l.ctx = i.id.x ∧ l.cycle = k.cycle ∧ l.cls ≠ cls ∧
        (∀ q ∈ reads, q ∉ l.writes) ∧ ∀ q ∈ writes, q ∉ l.writes
    let counts := fun (t : State) => (t.core i.id.w i.id.core.ix).cycle = (if i.pair then k.cycle else k.cycle + i.gap + 1) ∧
      (if i.pair then Counted s t (pg + 0x48) ∧ t.ctr (pg + 0x40) = s.ctr (pg + 0x40)
        else Counted s t (pg + 0x40) ∧ t.ctr (pg + 0x48) = s.ctr (pg + 0x48))
    (s.Ready i [.d r] 2 (dataHalf [.d d]) → (i.pair = true → with' .data [.d r] [.d d]) ∧ Completes (.mov i (.dd d r)) s counts) ∧
    (s.Ready i [.a n, .a m] 2 (addrHalf [.a n]) → (i.pair = true → with' .address [.a n, .a m] [.a n]) ∧
      Completes (.add i (.aa n m)) s counts) ∧
    (s.Ready i [] 2 → i.pair = false ∧ Completes (.nop i) s counts)

end
end

