-- ==== Sys2Proof/Laws/Sparse.lean ====
section
/-! SUPPORT. The laws of the sparse maps: a read after a write to the same key gives the value written, a write leaves every
other key alone, and every operation keeps the canonical form. -/

namespace Sys2Proof.Machine

variable {α : Type}

theorem risingFrom_mono {m : SMap α} : ∀ {lo lo' : Nat}, lo' ≤ lo → risingFrom lo m = true → risingFrom lo' m = true := by
  induction m with
  | nil => intro lo lo' _ _; rfl
  | cons e r _ =>
    intro lo lo' h hr
    simp only [risingFrom, Bool.and_eq_true, decide_eq_true_eq] at hr ⊢
    exact ⟨by omega, hr.2⟩

theorem sget_below {d : Nat → α} {m : SMap α} : ∀ {lo k : Nat}, risingFrom lo m = true → k < lo → sget d m k = d k := by
  induction m with
  | nil => intro lo k _ _; rfl
  | cons e r ih =>
    intro lo k hr hk
    simp only [risingFrom, Bool.and_eq_true, decide_eq_true_eq] at hr
    have hne : k ≠ e.1 := by omega
    simp only [sget, hne, if_false]
    exact ih hr.2 (by omega)

theorem sget_sput_ne [DecidableEq α] (d : Nat → α) (m : SMap α) {k k' : Nat} (v : α) (h : k' ≠ k) :
    sget d (sput d m k v) k' = sget d m k' := by
  induction m with
  | nil => simp only [sput]; split <;> simp [sget, h]
  | cons e r ih =>
    simp only [sput]
    split
    · split <;> simp [sget, h]
    · split
      · next heq =>
        split
        · subst heq; simp [sget, h]
        · subst heq; simp [sget, h]
      · simp [sget, ih]

theorem sget_sput_same_aux [DecidableEq α] (d : Nat → α) (m : SMap α) (k : Nat) (v : α) :
    ∀ {lo : Nat}, risingFrom lo m = true → sget d (sput d m k v) k = v := by
  induction m with
  | nil => intro lo _; simp only [sput]; split <;> simp_all [sget]
  | cons e r ih =>
    intro lo hr
    simp only [risingFrom, Bool.and_eq_true, decide_eq_true_eq] at hr
    simp only [sput]
    split
    · next hlt =>
      split
      · next hv =>
        have hne : k ≠ e.1 := by omega
        simp only [sget, hne, if_false]
        rw [sget_below hr.2 (by omega), hv]
      · simp [sget]
    · split
      · next heq =>
        split
        · next hv => rw [sget_below hr.2 (by omega), hv]
        · simp [sget]
      · next hne => simp only [sget, hne, if_false]; exact ih hr.2

theorem sget_sput_same [DecidableEq α] (d : Nat → α) (m : SMap α) (k : Nat) (v : α) (h : swf d m = true) :
    sget d (sput d m k v) k = v := by
  simp only [swf, Bool.and_eq_true] at h
  exact sget_sput_same_aux d m k v h.1

theorem risingFrom_sput [DecidableEq α] (d : Nat → α) (m : SMap α) (k : Nat) (v : α) :
    ∀ {lo : Nat}, risingFrom lo m = true → lo ≤ k → risingFrom lo (sput d m k v) = true := by
  induction m with
  | nil => intro lo _ hk; simp only [sput]; split <;> simp [risingFrom, hk]
  | cons e r ih =>
    intro lo hr hk
    have hr' := hr
    simp only [risingFrom, Bool.and_eq_true, decide_eq_true_eq] at hr
    simp only [sput]
    split
    · split
      · exact hr'
      · simp [risingFrom, hk, hr.2]; omega
    · split
      · next heq =>
        split
        · exact risingFrom_mono (by omega) hr.2
        · subst heq; simp [risingFrom, hk, hr.2]
      · simp only [risingFrom, Bool.and_eq_true, decide_eq_true_eq]
        exact ⟨hr.1, ih hr.2 (by omega)⟩

theorem all_sput [DecidableEq α] (d : Nat → α) (m : SMap α) (k : Nat) (v : α)
    (h : m.all (fun e => decide (e.2 ≠ d e.1)) = true) :
    (sput d m k v).all (fun e => decide (e.2 ≠ d e.1)) = true := by
  induction m with
  | nil => simp only [sput]; split <;> simp_all
  | cons e r ih =>
    have h' := h
    simp only [List.all_cons, Bool.and_eq_true] at h
    simp only [sput]
    split
    · split
      · exact h'
      · simp_all
    · split
      · split
        · exact h.2
        · simp_all
      · simp only [List.all_cons, Bool.and_eq_true]; exact ⟨h.1, ih h.2⟩

/-- Writing keeps the canonical form. -/
theorem swf_sput [DecidableEq α] (d : Nat → α) (m : SMap α) (k : Nat) (v : α) (h : swf d m = true) :
    swf d (sput d m k v) = true := by
  simp only [swf, Bool.and_eq_true] at h ⊢
  exact ⟨risingFrom_sput d m k v h.1 (Nat.zero_le k), all_sput d m k v h.2⟩

theorem risingFrom_filter (p : Nat × α → Bool) (m : SMap α) :
    ∀ {lo : Nat}, risingFrom lo m = true → risingFrom lo (m.filter p) = true := by
  induction m with
  | nil => intro lo h; exact h
  | cons e r ih =>
    intro lo h
    simp only [risingFrom, Bool.and_eq_true, decide_eq_true_eq] at h
    simp only [List.filter]
    split
    · simp only [risingFrom, Bool.and_eq_true, decide_eq_true_eq]; exact ⟨h.1, ih h.2⟩
    · exact risingFrom_mono (by omega) (ih h.2)

/-- Clearing a range keeps the canonical form. -/
theorem swf_sclear [DecidableEq α] (d : Nat → α) (m : SMap α) (lo hi : Nat) (h : swf d m = true) :
    swf d (sclear m lo hi) = true := by
  simp only [swf, Bool.and_eq_true, sclear] at h ⊢
  refine ⟨risingFrom_filter _ m h.1, ?_⟩
  simp only [List.all_eq_true] at h ⊢
  intro x hx
  exact h.2 x (List.mem_filter.mp hx).1

theorem sfind_sins_same (m : SMap α) (k : Nat) (v : α) : sfind (sins m k v) k = some v := by
  induction m with
  | nil => simp [sins, sfind]
  | cons e r ih =>
    simp only [sins]
    split
    · simp [sfind]
    · split
      · simp [sfind]
      · next h => simp [sfind, h, ih]

theorem sfind_sins_ne (m : SMap α) {k k' : Nat} (v : α) (h : k' ≠ k) : sfind (sins m k v) k' = sfind m k' := by
  induction m with
  | nil => simp [sins, sfind, h]
  | cons e r ih =>
    simp only [sins]
    split
    · simp [sfind, h]
    · split
      · next heq => subst heq; simp [sfind, h]
      · simp [sfind, ih]

theorem swf_nil [DecidableEq α] (d : Nat → α) : swf d ([] : SMap α) = true := rfl

end Sys2Proof.Machine
end

