-- ==== Sys2Proof/Laws/State.lean ====
section
/-! SUPPORT. What each update of the state leaves alone: one lemma per field per update, and a read after each write. -/

namespace Sys2Proof.Machine

/-! Structured maps. -/

theorem kget_kupd {α : Type} (d : α) (m : SMap α) (k k' : Nat) (f : α → α) :
    kget d (kupd d m k f) k' = if k' = k then f (kget d m k) else kget d m k' := by
  unfold kupd
  by_cases h : k' = k
  · subst h; simp [kget, sfind_sins_same]
  · simp [kget, sfind_sins_ne m _ h, h]

@[simp] theorem kget_kupd_same {α : Type} (d : α) (m : SMap α) (k : Nat) (f : α → α) :
    kget d (kupd d m k f) k = f (kget d m k) := by simp [kget_kupd]

theorem kget_kupd_ne {α : Type} (d : α) (m : SMap α) {k k' : Nat} (f : α → α) (h : k' ≠ k) :
    kget d (kupd d m k f) k' = kget d m k' := by simp [kget_kupd, h]

@[simp] theorem kget_sins_same {α : Type} (d : α) (m : SMap α) (k : Nat) (v : α) : kget d (sins m k v) k = v := by
  simp [kget, sfind_sins_same]

theorem kget_sins_ne {α : Type} (d : α) (m : SMap α) {k k' : Nat} (v : α) (h : k' ≠ k) :
    kget d (sins m k v) k' = kget d m k' := by simp [kget, sfind_sins_ne m _ h]

theorem wythe_cases : ∀ w : WytheIx, w = 0 ∨ w = 1 := by decide

namespace State

variable (s : State)

/-! wr. -/
@[simp] theorem wr_pending (a : Nat) (v : W32) : (s.wr a v).pending = s.pending := rfl
@[simp] theorem wr_free (a : Nat) (v : W32) : (s.wr a v).free = s.free := rfl
@[simp] theorem wr_now (a : Nat) (v : W32) : (s.wr a v).now = s.now := rfl
@[simp] theorem wr_out (a : Nat) (v : W32) : (s.wr a v).out = s.out := rfl
@[simp] theorem wr_readData (a : Nat) (v : W32) : (s.wr a v).readData = s.readData := rfl
@[simp] theorem wr_staged (a : Nat) (v : W32) : (s.wr a v).staged = s.staged := rfl
@[simp] theorem wr_active (a : Nat) (v : W32) : (s.wr a v).active = s.active := rfl
@[simp] theorem wr_previous (a : Nat) (v : W32) : (s.wr a v).previous = s.previous := rfl
@[simp] theorem wr_counters (a : Nat) (v : W32) : (s.wr a v).counters = s.counters := rfl
@[simp] theorem wr_latches (a : Nat) (v : W32) : (s.wr a v).latches = s.latches := rfl
@[simp] theorem wr_keep (a : Nat) (v : W32) : (s.wr a v).keep = s.keep := rfl
@[simp] theorem wr_forme (a : Nat) (v : W32) : (s.wr a v).forme = s.forme := rfl
@[simp] theorem wr_modes (a : Nat) (v : W32) : (s.wr a v).modes = s.modes := rfl
@[simp] theorem wr_proof (a : Nat) (v : W32) : (s.wr a v).proof = s.proof := rfl
@[simp] theorem wr_plinth (a : Nat) (v : W32) : (s.wr a v).plinth = s.plinth := rfl
@[simp] theorem wr_dbgUnit (a : Nat) (v : W32) : (s.wr a v).dbgUnit = s.dbgUnit := rfl
@[simp] theorem wr_wy (a : Nat) (v : W32) (w' : WytheIx) : (s.wr a v).wy w' = s.wy w' := rfl

/-! setCtr. -/
@[simp] theorem setCtr_pending (a : Nat) (v : BitVec 49) : (s.setCtr a v).pending = s.pending := rfl
@[simp] theorem setCtr_free (a : Nat) (v : BitVec 49) : (s.setCtr a v).free = s.free := rfl
@[simp] theorem setCtr_now (a : Nat) (v : BitVec 49) : (s.setCtr a v).now = s.now := rfl
@[simp] theorem setCtr_out (a : Nat) (v : BitVec 49) : (s.setCtr a v).out = s.out := rfl
@[simp] theorem setCtr_readData (a : Nat) (v : BitVec 49) : (s.setCtr a v).readData = s.readData := rfl
@[simp] theorem setCtr_regs (a : Nat) (v : BitVec 49) : (s.setCtr a v).regs = s.regs := rfl
@[simp] theorem setCtr_staged (a : Nat) (v : BitVec 49) : (s.setCtr a v).staged = s.staged := rfl
@[simp] theorem setCtr_active (a : Nat) (v : BitVec 49) : (s.setCtr a v).active = s.active := rfl
@[simp] theorem setCtr_previous (a : Nat) (v : BitVec 49) : (s.setCtr a v).previous = s.previous := rfl
@[simp] theorem setCtr_latches (a : Nat) (v : BitVec 49) : (s.setCtr a v).latches = s.latches := rfl
@[simp] theorem setCtr_keep (a : Nat) (v : BitVec 49) : (s.setCtr a v).keep = s.keep := rfl
@[simp] theorem setCtr_forme (a : Nat) (v : BitVec 49) : (s.setCtr a v).forme = s.forme := rfl
@[simp] theorem setCtr_modes (a : Nat) (v : BitVec 49) : (s.setCtr a v).modes = s.modes := rfl
@[simp] theorem setCtr_proof (a : Nat) (v : BitVec 49) : (s.setCtr a v).proof = s.proof := rfl
@[simp] theorem setCtr_plinth (a : Nat) (v : BitVec 49) : (s.setCtr a v).plinth = s.plinth := rfl
@[simp] theorem setCtr_dbgUnit (a : Nat) (v : BitVec 49) : (s.setCtr a v).dbgUnit = s.dbgUnit := rfl
@[simp] theorem setCtr_wy (a : Nat) (v : BitVec 49) (w' : WytheIx) : (s.setCtr a v).wy w' = s.wy w' := rfl

/-! count. -/
@[simp] theorem count_pending (a n : Nat) : (s.count a n).pending = s.pending := by unfold count; split <;> rfl
@[simp] theorem count_free (a n : Nat) : (s.count a n).free = s.free := by unfold count; split <;> rfl
@[simp] theorem count_now (a n : Nat) : (s.count a n).now = s.now := by unfold count; split <;> rfl
@[simp] theorem count_out (a n : Nat) : (s.count a n).out = s.out := by unfold count; split <;> rfl
@[simp] theorem count_readData (a n : Nat) : (s.count a n).readData = s.readData := by unfold count; split <;> rfl
@[simp] theorem count_regs (a n : Nat) : (s.count a n).regs = s.regs := by unfold count; split <;> rfl
@[simp] theorem count_staged (a n : Nat) : (s.count a n).staged = s.staged := by unfold count; split <;> rfl
@[simp] theorem count_active (a n : Nat) : (s.count a n).active = s.active := by unfold count; split <;> rfl
@[simp] theorem count_previous (a n : Nat) : (s.count a n).previous = s.previous := by unfold count; split <;> rfl
@[simp] theorem count_latches (a n : Nat) : (s.count a n).latches = s.latches := by unfold count; split <;> rfl
@[simp] theorem count_keep (a n : Nat) : (s.count a n).keep = s.keep := by unfold count; split <;> rfl
@[simp] theorem count_forme (a n : Nat) : (s.count a n).forme = s.forme := by unfold count; split <;> rfl
@[simp] theorem count_modes (a n : Nat) : (s.count a n).modes = s.modes := by unfold count; split <;> rfl
@[simp] theorem count_proof (a n : Nat) : (s.count a n).proof = s.proof := by unfold count; split <;> rfl
@[simp] theorem count_plinth (a n : Nat) : (s.count a n).plinth = s.plinth := by unfold count; split <;> rfl
@[simp] theorem count_dbgUnit (a n : Nat) : (s.count a n).dbgUnit = s.dbgUnit := by unfold count; split <;> rfl
@[simp] theorem count_wy (a n : Nat) (w' : WytheIx) : (s.count a n).wy w' = s.wy w' := by unfold count; split <;> rfl

/-! latch. -/
@[simp] theorem latch_pending (r : Agent) (lo upper : Nat) : (s.latch r lo upper).pending = s.pending := rfl
@[simp] theorem latch_free (r : Agent) (lo upper : Nat) : (s.latch r lo upper).free = s.free := rfl
@[simp] theorem latch_now (r : Agent) (lo upper : Nat) : (s.latch r lo upper).now = s.now := rfl
@[simp] theorem latch_out (r : Agent) (lo upper : Nat) : (s.latch r lo upper).out = s.out := rfl
@[simp] theorem latch_readData (r : Agent) (lo upper : Nat) : (s.latch r lo upper).readData = s.readData := rfl
@[simp] theorem latch_regs (r : Agent) (lo upper : Nat) : (s.latch r lo upper).regs = s.regs := rfl
@[simp] theorem latch_staged (r : Agent) (lo upper : Nat) : (s.latch r lo upper).staged = s.staged := rfl
@[simp] theorem latch_active (r : Agent) (lo upper : Nat) : (s.latch r lo upper).active = s.active := rfl
@[simp] theorem latch_previous (r : Agent) (lo upper : Nat) : (s.latch r lo upper).previous = s.previous := rfl
@[simp] theorem latch_counters (r : Agent) (lo upper : Nat) : (s.latch r lo upper).counters = s.counters := rfl
@[simp] theorem latch_keep (r : Agent) (lo upper : Nat) : (s.latch r lo upper).keep = s.keep := rfl
@[simp] theorem latch_forme (r : Agent) (lo upper : Nat) : (s.latch r lo upper).forme = s.forme := rfl
@[simp] theorem latch_modes (r : Agent) (lo upper : Nat) : (s.latch r lo upper).modes = s.modes := rfl
@[simp] theorem latch_proof (r : Agent) (lo upper : Nat) : (s.latch r lo upper).proof = s.proof := rfl
@[simp] theorem latch_plinth (r : Agent) (lo upper : Nat) : (s.latch r lo upper).plinth = s.plinth := rfl
@[simp] theorem latch_dbgUnit (r : Agent) (lo upper : Nat) : (s.latch r lo upper).dbgUnit = s.dbgUnit := rfl
@[simp] theorem latch_wy (r : Agent) (lo upper : Nat) (w' : WytheIx) : (s.latch r lo upper).wy w' = s.wy w' := rfl

/-! emit. -/
@[simp] theorem emit_pending (o : Output) : (s.emit o).pending = s.pending := rfl
@[simp] theorem emit_free (o : Output) : (s.emit o).free = s.free := rfl
@[simp] theorem emit_now (o : Output) : (s.emit o).now = s.now := rfl
@[simp] theorem emit_readData (o : Output) : (s.emit o).readData = s.readData := rfl
@[simp] theorem emit_regs (o : Output) : (s.emit o).regs = s.regs := rfl
@[simp] theorem emit_staged (o : Output) : (s.emit o).staged = s.staged := rfl
@[simp] theorem emit_active (o : Output) : (s.emit o).active = s.active := rfl
@[simp] theorem emit_previous (o : Output) : (s.emit o).previous = s.previous := rfl
@[simp] theorem emit_counters (o : Output) : (s.emit o).counters = s.counters := rfl
@[simp] theorem emit_latches (o : Output) : (s.emit o).latches = s.latches := rfl
@[simp] theorem emit_keep (o : Output) : (s.emit o).keep = s.keep := rfl
@[simp] theorem emit_forme (o : Output) : (s.emit o).forme = s.forme := rfl
@[simp] theorem emit_modes (o : Output) : (s.emit o).modes = s.modes := rfl
@[simp] theorem emit_proof (o : Output) : (s.emit o).proof = s.proof := rfl
@[simp] theorem emit_plinth (o : Output) : (s.emit o).plinth = s.plinth := rfl
@[simp] theorem emit_dbgUnit (o : Output) : (s.emit o).dbgUnit = s.dbgUnit := rfl
@[simp] theorem emit_wy (o : Output) (w' : WytheIx) : (s.emit o).wy w' = s.wy w' := rfl

/-! answer. -/
@[simp] theorem answer_pending (v : W32) : (s.answer v).pending = s.pending := rfl
@[simp] theorem answer_free (v : W32) : (s.answer v).free = s.free := rfl
@[simp] theorem answer_now (v : W32) : (s.answer v).now = s.now := rfl
@[simp] theorem answer_out (v : W32) : (s.answer v).out = s.out := rfl
@[simp] theorem answer_regs (v : W32) : (s.answer v).regs = s.regs := rfl
@[simp] theorem answer_staged (v : W32) : (s.answer v).staged = s.staged := rfl
@[simp] theorem answer_active (v : W32) : (s.answer v).active = s.active := rfl
@[simp] theorem answer_previous (v : W32) : (s.answer v).previous = s.previous := rfl
@[simp] theorem answer_counters (v : W32) : (s.answer v).counters = s.counters := rfl
@[simp] theorem answer_latches (v : W32) : (s.answer v).latches = s.latches := rfl
@[simp] theorem answer_keep (v : W32) : (s.answer v).keep = s.keep := rfl
@[simp] theorem answer_forme (v : W32) : (s.answer v).forme = s.forme := rfl
@[simp] theorem answer_modes (v : W32) : (s.answer v).modes = s.modes := rfl
@[simp] theorem answer_proof (v : W32) : (s.answer v).proof = s.proof := rfl
@[simp] theorem answer_plinth (v : W32) : (s.answer v).plinth = s.plinth := rfl
@[simp] theorem answer_dbgUnit (v : W32) : (s.answer v).dbgUnit = s.dbgUnit := rfl
@[simp] theorem answer_wy (v : W32) (w' : WytheIx) : (s.answer v).wy w' = s.wy w' := rfl

/-! raise. -/
@[simp] theorem raise_pending (page : Nat) (bits : W32) : (s.raise page bits).pending = s.pending := by unfold raise; dsimp only; split <;> rfl
@[simp] theorem raise_free (page : Nat) (bits : W32) : (s.raise page bits).free = s.free := by unfold raise; dsimp only; split <;> rfl
@[simp] theorem raise_now (page : Nat) (bits : W32) : (s.raise page bits).now = s.now := by unfold raise; dsimp only; split <;> rfl
@[simp] theorem raise_readData (page : Nat) (bits : W32) : (s.raise page bits).readData = s.readData := by unfold raise; dsimp only; split <;> rfl
@[simp] theorem raise_staged (page : Nat) (bits : W32) : (s.raise page bits).staged = s.staged := by unfold raise; dsimp only; split <;> rfl
@[simp] theorem raise_active (page : Nat) (bits : W32) : (s.raise page bits).active = s.active := by unfold raise; dsimp only; split <;> rfl
@[simp] theorem raise_previous (page : Nat) (bits : W32) : (s.raise page bits).previous = s.previous := by unfold raise; dsimp only; split <;> rfl
@[simp] theorem raise_counters (page : Nat) (bits : W32) : (s.raise page bits).counters = s.counters := by unfold raise; dsimp only; split <;> rfl
@[simp] theorem raise_latches (page : Nat) (bits : W32) : (s.raise page bits).latches = s.latches := by unfold raise; dsimp only; split <;> rfl
@[simp] theorem raise_keep (page : Nat) (bits : W32) : (s.raise page bits).keep = s.keep := by unfold raise; dsimp only; split <;> rfl
@[simp] theorem raise_forme (page : Nat) (bits : W32) : (s.raise page bits).forme = s.forme := by unfold raise; dsimp only; split <;> rfl
@[simp] theorem raise_modes (page : Nat) (bits : W32) : (s.raise page bits).modes = s.modes := by unfold raise; dsimp only; split <;> rfl
@[simp] theorem raise_proof (page : Nat) (bits : W32) : (s.raise page bits).proof = s.proof := by unfold raise; dsimp only; split <;> rfl
@[simp] theorem raise_plinth (page : Nat) (bits : W32) : (s.raise page bits).plinth = s.plinth := by unfold raise; dsimp only; split <;> rfl
@[simp] theorem raise_dbgUnit (page : Nat) (bits : W32) : (s.raise page bits).dbgUnit = s.dbgUnit := by unfold raise; dsimp only; split <;> rfl
@[simp] theorem raise_wy (page : Nat) (bits : W32) (w' : WytheIx) : (s.raise page bits).wy w' = s.wy w' := by unfold raise; dsimp only; split <;> rfl

/-! raiseBit. -/
@[simp] theorem raiseBit_pending (page i : Nat) : (s.raiseBit page i).pending = s.pending := by simp [raiseBit]
@[simp] theorem raiseBit_free (page i : Nat) : (s.raiseBit page i).free = s.free := by simp [raiseBit]
@[simp] theorem raiseBit_now (page i : Nat) : (s.raiseBit page i).now = s.now := by simp [raiseBit]
@[simp] theorem raiseBit_readData (page i : Nat) : (s.raiseBit page i).readData = s.readData := by simp [raiseBit]
@[simp] theorem raiseBit_staged (page i : Nat) : (s.raiseBit page i).staged = s.staged := by simp [raiseBit]
@[simp] theorem raiseBit_active (page i : Nat) : (s.raiseBit page i).active = s.active := by simp [raiseBit]
@[simp] theorem raiseBit_previous (page i : Nat) : (s.raiseBit page i).previous = s.previous := by simp [raiseBit]
@[simp] theorem raiseBit_counters (page i : Nat) : (s.raiseBit page i).counters = s.counters := by simp [raiseBit]
@[simp] theorem raiseBit_latches (page i : Nat) : (s.raiseBit page i).latches = s.latches := by simp [raiseBit]
@[simp] theorem raiseBit_keep (page i : Nat) : (s.raiseBit page i).keep = s.keep := by simp [raiseBit]
@[simp] theorem raiseBit_forme (page i : Nat) : (s.raiseBit page i).forme = s.forme := by simp [raiseBit]
@[simp] theorem raiseBit_modes (page i : Nat) : (s.raiseBit page i).modes = s.modes := by simp [raiseBit]
@[simp] theorem raiseBit_proof (page i : Nat) : (s.raiseBit page i).proof = s.proof := by simp [raiseBit]
@[simp] theorem raiseBit_plinth (page i : Nat) : (s.raiseBit page i).plinth = s.plinth := by simp [raiseBit]
@[simp] theorem raiseBit_dbgUnit (page i : Nat) : (s.raiseBit page i).dbgUnit = s.dbgUnit := by simp [raiseBit]
@[simp] theorem raiseBit_wy (page i : Nat) (w' : WytheIx) : (s.raiseBit page i).wy w' = s.wy w' := by simp [raiseBit]

/-! drop. -/
@[simp] theorem drop_pending (w : WytheIx) (p : Nat) (c : Cause) : (s.drop w p c).pending = s.pending := by simp [drop]
@[simp] theorem drop_free (w : WytheIx) (p : Nat) (c : Cause) : (s.drop w p c).free = s.free := by simp [drop]
@[simp] theorem drop_now (w : WytheIx) (p : Nat) (c : Cause) : (s.drop w p c).now = s.now := by simp [drop]
@[simp] theorem drop_out (w : WytheIx) (p : Nat) (c : Cause) : (s.drop w p c).out = s.out := by simp [drop]
@[simp] theorem drop_readData (w : WytheIx) (p : Nat) (c : Cause) : (s.drop w p c).readData = s.readData := by simp [drop]
@[simp] theorem drop_regs (w : WytheIx) (p : Nat) (c : Cause) : (s.drop w p c).regs = s.regs := by simp [drop]
@[simp] theorem drop_staged (w : WytheIx) (p : Nat) (c : Cause) : (s.drop w p c).staged = s.staged := by simp [drop]
@[simp] theorem drop_active (w : WytheIx) (p : Nat) (c : Cause) : (s.drop w p c).active = s.active := by simp [drop]
@[simp] theorem drop_previous (w : WytheIx) (p : Nat) (c : Cause) : (s.drop w p c).previous = s.previous := by simp [drop]
@[simp] theorem drop_latches (w : WytheIx) (p : Nat) (c : Cause) : (s.drop w p c).latches = s.latches := by simp [drop]
@[simp] theorem drop_keep (w : WytheIx) (p : Nat) (c : Cause) : (s.drop w p c).keep = s.keep := by simp [drop]
@[simp] theorem drop_forme (w : WytheIx) (p : Nat) (c : Cause) : (s.drop w p c).forme = s.forme := by simp [drop]
@[simp] theorem drop_modes (w : WytheIx) (p : Nat) (c : Cause) : (s.drop w p c).modes = s.modes := by simp [drop]
@[simp] theorem drop_proof (w : WytheIx) (p : Nat) (c : Cause) : (s.drop w p c).proof = s.proof := by simp [drop]
@[simp] theorem drop_plinth (w : WytheIx) (p : Nat) (c : Cause) : (s.drop w p c).plinth = s.plinth := by simp [drop]
@[simp] theorem drop_dbgUnit (w : WytheIx) (p : Nat) (c : Cause) : (s.drop w p c).dbgUnit = s.dbgUnit := by simp [drop]
@[simp] theorem drop_wy (w : WytheIx) (p : Nat) (c : Cause) (w' : WytheIx) : (s.drop w p c).wy w' = s.wy w' := by simp [drop]

/-! setWy. -/
@[simp] theorem setWy_pending (w : WytheIx) (v : Wythe) : (s.setWy w v).pending = s.pending := by unfold setWy; split <;> rfl
@[simp] theorem setWy_free (w : WytheIx) (v : Wythe) : (s.setWy w v).free = s.free := by unfold setWy; split <;> rfl
@[simp] theorem setWy_now (w : WytheIx) (v : Wythe) : (s.setWy w v).now = s.now := by unfold setWy; split <;> rfl
@[simp] theorem setWy_out (w : WytheIx) (v : Wythe) : (s.setWy w v).out = s.out := by unfold setWy; split <;> rfl
@[simp] theorem setWy_readData (w : WytheIx) (v : Wythe) : (s.setWy w v).readData = s.readData := by unfold setWy; split <;> rfl
@[simp] theorem setWy_regs (w : WytheIx) (v : Wythe) : (s.setWy w v).regs = s.regs := by unfold setWy; split <;> rfl
@[simp] theorem setWy_staged (w : WytheIx) (v : Wythe) : (s.setWy w v).staged = s.staged := by unfold setWy; split <;> rfl
@[simp] theorem setWy_active (w : WytheIx) (v : Wythe) : (s.setWy w v).active = s.active := by unfold setWy; split <;> rfl
@[simp] theorem setWy_previous (w : WytheIx) (v : Wythe) : (s.setWy w v).previous = s.previous := by unfold setWy; split <;> rfl
@[simp] theorem setWy_counters (w : WytheIx) (v : Wythe) : (s.setWy w v).counters = s.counters := by unfold setWy; split <;> rfl
@[simp] theorem setWy_latches (w : WytheIx) (v : Wythe) : (s.setWy w v).latches = s.latches := by unfold setWy; split <;> rfl
@[simp] theorem setWy_keep (w : WytheIx) (v : Wythe) : (s.setWy w v).keep = s.keep := by unfold setWy; split <;> rfl
@[simp] theorem setWy_forme (w : WytheIx) (v : Wythe) : (s.setWy w v).forme = s.forme := by unfold setWy; split <;> rfl
@[simp] theorem setWy_modes (w : WytheIx) (v : Wythe) : (s.setWy w v).modes = s.modes := by unfold setWy; split <;> rfl
@[simp] theorem setWy_proof (w : WytheIx) (v : Wythe) : (s.setWy w v).proof = s.proof := by unfold setWy; split <;> rfl
@[simp] theorem setWy_plinth (w : WytheIx) (v : Wythe) : (s.setWy w v).plinth = s.plinth := by unfold setWy; split <;> rfl
@[simp] theorem setWy_dbgUnit (w : WytheIx) (v : Wythe) : (s.setWy w v).dbgUnit = s.dbgUnit := by unfold setWy; split <;> rfl

/-! updWy. -/
@[simp] theorem updWy_pending (w : WytheIx) (f : Wythe → Wythe) : (s.updWy w f).pending = s.pending := by simp [updWy]
@[simp] theorem updWy_free (w : WytheIx) (f : Wythe → Wythe) : (s.updWy w f).free = s.free := by simp [updWy]
@[simp] theorem updWy_now (w : WytheIx) (f : Wythe → Wythe) : (s.updWy w f).now = s.now := by simp [updWy]
@[simp] theorem updWy_out (w : WytheIx) (f : Wythe → Wythe) : (s.updWy w f).out = s.out := by simp [updWy]
@[simp] theorem updWy_readData (w : WytheIx) (f : Wythe → Wythe) : (s.updWy w f).readData = s.readData := by simp [updWy]
@[simp] theorem updWy_regs (w : WytheIx) (f : Wythe → Wythe) : (s.updWy w f).regs = s.regs := by simp [updWy]
@[simp] theorem updWy_staged (w : WytheIx) (f : Wythe → Wythe) : (s.updWy w f).staged = s.staged := by simp [updWy]
@[simp] theorem updWy_active (w : WytheIx) (f : Wythe → Wythe) : (s.updWy w f).active = s.active := by simp [updWy]
@[simp] theorem updWy_previous (w : WytheIx) (f : Wythe → Wythe) : (s.updWy w f).previous = s.previous := by simp [updWy]
@[simp] theorem updWy_counters (w : WytheIx) (f : Wythe → Wythe) : (s.updWy w f).counters = s.counters := by simp [updWy]
@[simp] theorem updWy_latches (w : WytheIx) (f : Wythe → Wythe) : (s.updWy w f).latches = s.latches := by simp [updWy]
@[simp] theorem updWy_keep (w : WytheIx) (f : Wythe → Wythe) : (s.updWy w f).keep = s.keep := by simp [updWy]
@[simp] theorem updWy_forme (w : WytheIx) (f : Wythe → Wythe) : (s.updWy w f).forme = s.forme := by simp [updWy]
@[simp] theorem updWy_modes (w : WytheIx) (f : Wythe → Wythe) : (s.updWy w f).modes = s.modes := by simp [updWy]
@[simp] theorem updWy_proof (w : WytheIx) (f : Wythe → Wythe) : (s.updWy w f).proof = s.proof := by simp [updWy]
@[simp] theorem updWy_plinth (w : WytheIx) (f : Wythe → Wythe) : (s.updWy w f).plinth = s.plinth := by simp [updWy]
@[simp] theorem updWy_dbgUnit (w : WytheIx) (f : Wythe → Wythe) : (s.updWy w f).dbgUnit = s.dbgUnit := by simp [updWy]

/-! updCore. -/
@[simp] theorem updCore_pending (w : WytheIx) (i : Nat) (f : Core → Core) : (s.updCore w i f).pending = s.pending := by simp [updCore]
@[simp] theorem updCore_free (w : WytheIx) (i : Nat) (f : Core → Core) : (s.updCore w i f).free = s.free := by simp [updCore]
@[simp] theorem updCore_now (w : WytheIx) (i : Nat) (f : Core → Core) : (s.updCore w i f).now = s.now := by simp [updCore]
@[simp] theorem updCore_out (w : WytheIx) (i : Nat) (f : Core → Core) : (s.updCore w i f).out = s.out := by simp [updCore]
@[simp] theorem updCore_readData (w : WytheIx) (i : Nat) (f : Core → Core) : (s.updCore w i f).readData = s.readData := by simp [updCore]
@[simp] theorem updCore_regs (w : WytheIx) (i : Nat) (f : Core → Core) : (s.updCore w i f).regs = s.regs := by simp [updCore]
@[simp] theorem updCore_staged (w : WytheIx) (i : Nat) (f : Core → Core) : (s.updCore w i f).staged = s.staged := by simp [updCore]
@[simp] theorem updCore_active (w : WytheIx) (i : Nat) (f : Core → Core) : (s.updCore w i f).active = s.active := by simp [updCore]
@[simp] theorem updCore_previous (w : WytheIx) (i : Nat) (f : Core → Core) : (s.updCore w i f).previous = s.previous := by simp [updCore]
@[simp] theorem updCore_counters (w : WytheIx) (i : Nat) (f : Core → Core) : (s.updCore w i f).counters = s.counters := by simp [updCore]
@[simp] theorem updCore_latches (w : WytheIx) (i : Nat) (f : Core → Core) : (s.updCore w i f).latches = s.latches := by simp [updCore]
@[simp] theorem updCore_keep (w : WytheIx) (i : Nat) (f : Core → Core) : (s.updCore w i f).keep = s.keep := by simp [updCore]
@[simp] theorem updCore_forme (w : WytheIx) (i : Nat) (f : Core → Core) : (s.updCore w i f).forme = s.forme := by simp [updCore]
@[simp] theorem updCore_modes (w : WytheIx) (i : Nat) (f : Core → Core) : (s.updCore w i f).modes = s.modes := by simp [updCore]
@[simp] theorem updCore_proof (w : WytheIx) (i : Nat) (f : Core → Core) : (s.updCore w i f).proof = s.proof := by simp [updCore]
@[simp] theorem updCore_plinth (w : WytheIx) (i : Nat) (f : Core → Core) : (s.updCore w i f).plinth = s.plinth := by simp [updCore]
@[simp] theorem updCore_dbgUnit (w : WytheIx) (i : Nat) (f : Core → Core) : (s.updCore w i f).dbgUnit = s.dbgUnit := by simp [updCore]

/-! updTcb. -/
@[simp] theorem updTcb_pending (w : WytheIx) (i : Nat) (f : Tcb → Tcb) : (s.updTcb w i f).pending = s.pending := by simp [updTcb]
@[simp] theorem updTcb_free (w : WytheIx) (i : Nat) (f : Tcb → Tcb) : (s.updTcb w i f).free = s.free := by simp [updTcb]
@[simp] theorem updTcb_now (w : WytheIx) (i : Nat) (f : Tcb → Tcb) : (s.updTcb w i f).now = s.now := by simp [updTcb]
@[simp] theorem updTcb_out (w : WytheIx) (i : Nat) (f : Tcb → Tcb) : (s.updTcb w i f).out = s.out := by simp [updTcb]
@[simp] theorem updTcb_readData (w : WytheIx) (i : Nat) (f : Tcb → Tcb) : (s.updTcb w i f).readData = s.readData := by simp [updTcb]
@[simp] theorem updTcb_regs (w : WytheIx) (i : Nat) (f : Tcb → Tcb) : (s.updTcb w i f).regs = s.regs := by simp [updTcb]
@[simp] theorem updTcb_staged (w : WytheIx) (i : Nat) (f : Tcb → Tcb) : (s.updTcb w i f).staged = s.staged := by simp [updTcb]
@[simp] theorem updTcb_active (w : WytheIx) (i : Nat) (f : Tcb → Tcb) : (s.updTcb w i f).active = s.active := by simp [updTcb]
@[simp] theorem updTcb_previous (w : WytheIx) (i : Nat) (f : Tcb → Tcb) : (s.updTcb w i f).previous = s.previous := by simp [updTcb]
@[simp] theorem updTcb_counters (w : WytheIx) (i : Nat) (f : Tcb → Tcb) : (s.updTcb w i f).counters = s.counters := by simp [updTcb]
@[simp] theorem updTcb_latches (w : WytheIx) (i : Nat) (f : Tcb → Tcb) : (s.updTcb w i f).latches = s.latches := by simp [updTcb]
@[simp] theorem updTcb_keep (w : WytheIx) (i : Nat) (f : Tcb → Tcb) : (s.updTcb w i f).keep = s.keep := by simp [updTcb]
@[simp] theorem updTcb_forme (w : WytheIx) (i : Nat) (f : Tcb → Tcb) : (s.updTcb w i f).forme = s.forme := by simp [updTcb]
@[simp] theorem updTcb_modes (w : WytheIx) (i : Nat) (f : Tcb → Tcb) : (s.updTcb w i f).modes = s.modes := by simp [updTcb]
@[simp] theorem updTcb_proof (w : WytheIx) (i : Nat) (f : Tcb → Tcb) : (s.updTcb w i f).proof = s.proof := by simp [updTcb]
@[simp] theorem updTcb_plinth (w : WytheIx) (i : Nat) (f : Tcb → Tcb) : (s.updTcb w i f).plinth = s.plinth := by simp [updTcb]
@[simp] theorem updTcb_dbgUnit (w : WytheIx) (i : Nat) (f : Tcb → Tcb) : (s.updTcb w i f).dbgUnit = s.dbgUnit := by simp [updTcb]

/-! updCourse. -/
@[simp] theorem updCourse_pending (w : WytheIx) (c : Nat) (f : Course → Course) : (s.updCourse w c f).pending = s.pending := by simp [updCourse]
@[simp] theorem updCourse_free (w : WytheIx) (c : Nat) (f : Course → Course) : (s.updCourse w c f).free = s.free := by simp [updCourse]
@[simp] theorem updCourse_now (w : WytheIx) (c : Nat) (f : Course → Course) : (s.updCourse w c f).now = s.now := by simp [updCourse]
@[simp] theorem updCourse_out (w : WytheIx) (c : Nat) (f : Course → Course) : (s.updCourse w c f).out = s.out := by simp [updCourse]
@[simp] theorem updCourse_readData (w : WytheIx) (c : Nat) (f : Course → Course) : (s.updCourse w c f).readData = s.readData := by simp [updCourse]
@[simp] theorem updCourse_regs (w : WytheIx) (c : Nat) (f : Course → Course) : (s.updCourse w c f).regs = s.regs := by simp [updCourse]
@[simp] theorem updCourse_staged (w : WytheIx) (c : Nat) (f : Course → Course) : (s.updCourse w c f).staged = s.staged := by simp [updCourse]
@[simp] theorem updCourse_active (w : WytheIx) (c : Nat) (f : Course → Course) : (s.updCourse w c f).active = s.active := by simp [updCourse]
@[simp] theorem updCourse_previous (w : WytheIx) (c : Nat) (f : Course → Course) : (s.updCourse w c f).previous = s.previous := by simp [updCourse]
@[simp] theorem updCourse_counters (w : WytheIx) (c : Nat) (f : Course → Course) : (s.updCourse w c f).counters = s.counters := by simp [updCourse]
@[simp] theorem updCourse_latches (w : WytheIx) (c : Nat) (f : Course → Course) : (s.updCourse w c f).latches = s.latches := by simp [updCourse]
@[simp] theorem updCourse_keep (w : WytheIx) (c : Nat) (f : Course → Course) : (s.updCourse w c f).keep = s.keep := by simp [updCourse]
@[simp] theorem updCourse_forme (w : WytheIx) (c : Nat) (f : Course → Course) : (s.updCourse w c f).forme = s.forme := by simp [updCourse]
@[simp] theorem updCourse_modes (w : WytheIx) (c : Nat) (f : Course → Course) : (s.updCourse w c f).modes = s.modes := by simp [updCourse]
@[simp] theorem updCourse_proof (w : WytheIx) (c : Nat) (f : Course → Course) : (s.updCourse w c f).proof = s.proof := by simp [updCourse]
@[simp] theorem updCourse_plinth (w : WytheIx) (c : Nat) (f : Course → Course) : (s.updCourse w c f).plinth = s.plinth := by simp [updCourse]
@[simp] theorem updCourse_dbgUnit (w : WytheIx) (c : Nat) (f : Course → Course) : (s.updCourse w c f).dbgUnit = s.dbgUnit := by simp [updCourse]

/-! updPort. -/
@[simp] theorem updPort_pending (w : WytheIx) (c : Nat) (f : PortSt → PortSt) : (s.updPort w c f).pending = s.pending := by simp [updPort]
@[simp] theorem updPort_free (w : WytheIx) (c : Nat) (f : PortSt → PortSt) : (s.updPort w c f).free = s.free := by simp [updPort]
@[simp] theorem updPort_now (w : WytheIx) (c : Nat) (f : PortSt → PortSt) : (s.updPort w c f).now = s.now := by simp [updPort]
@[simp] theorem updPort_out (w : WytheIx) (c : Nat) (f : PortSt → PortSt) : (s.updPort w c f).out = s.out := by simp [updPort]
@[simp] theorem updPort_readData (w : WytheIx) (c : Nat) (f : PortSt → PortSt) : (s.updPort w c f).readData = s.readData := by simp [updPort]
@[simp] theorem updPort_regs (w : WytheIx) (c : Nat) (f : PortSt → PortSt) : (s.updPort w c f).regs = s.regs := by simp [updPort]
@[simp] theorem updPort_staged (w : WytheIx) (c : Nat) (f : PortSt → PortSt) : (s.updPort w c f).staged = s.staged := by simp [updPort]
@[simp] theorem updPort_active (w : WytheIx) (c : Nat) (f : PortSt → PortSt) : (s.updPort w c f).active = s.active := by simp [updPort]
@[simp] theorem updPort_previous (w : WytheIx) (c : Nat) (f : PortSt → PortSt) : (s.updPort w c f).previous = s.previous := by simp [updPort]
@[simp] theorem updPort_counters (w : WytheIx) (c : Nat) (f : PortSt → PortSt) : (s.updPort w c f).counters = s.counters := by simp [updPort]
@[simp] theorem updPort_latches (w : WytheIx) (c : Nat) (f : PortSt → PortSt) : (s.updPort w c f).latches = s.latches := by simp [updPort]
@[simp] theorem updPort_keep (w : WytheIx) (c : Nat) (f : PortSt → PortSt) : (s.updPort w c f).keep = s.keep := by simp [updPort]
@[simp] theorem updPort_forme (w : WytheIx) (c : Nat) (f : PortSt → PortSt) : (s.updPort w c f).forme = s.forme := by simp [updPort]
@[simp] theorem updPort_modes (w : WytheIx) (c : Nat) (f : PortSt → PortSt) : (s.updPort w c f).modes = s.modes := by simp [updPort]
@[simp] theorem updPort_proof (w : WytheIx) (c : Nat) (f : PortSt → PortSt) : (s.updPort w c f).proof = s.proof := by simp [updPort]
@[simp] theorem updPort_plinth (w : WytheIx) (c : Nat) (f : PortSt → PortSt) : (s.updPort w c f).plinth = s.plinth := by simp [updPort]
@[simp] theorem updPort_dbgUnit (w : WytheIx) (c : Nat) (f : PortSt → PortSt) : (s.updPort w c f).dbgUnit = s.dbgUnit := by simp [updPort]

/-! updCtx. -/
@[simp] theorem updCtx_pending (x : CtxId) (f : Ctx → Ctx) : (s.updCtx x f).pending = s.pending := by simp [updCtx]
@[simp] theorem updCtx_free (x : CtxId) (f : Ctx → Ctx) : (s.updCtx x f).free = s.free := by simp [updCtx]
@[simp] theorem updCtx_now (x : CtxId) (f : Ctx → Ctx) : (s.updCtx x f).now = s.now := by simp [updCtx]
@[simp] theorem updCtx_out (x : CtxId) (f : Ctx → Ctx) : (s.updCtx x f).out = s.out := by simp [updCtx]
@[simp] theorem updCtx_readData (x : CtxId) (f : Ctx → Ctx) : (s.updCtx x f).readData = s.readData := by simp [updCtx]
@[simp] theorem updCtx_regs (x : CtxId) (f : Ctx → Ctx) : (s.updCtx x f).regs = s.regs := by simp [updCtx]
@[simp] theorem updCtx_staged (x : CtxId) (f : Ctx → Ctx) : (s.updCtx x f).staged = s.staged := by simp [updCtx]
@[simp] theorem updCtx_active (x : CtxId) (f : Ctx → Ctx) : (s.updCtx x f).active = s.active := by simp [updCtx]
@[simp] theorem updCtx_previous (x : CtxId) (f : Ctx → Ctx) : (s.updCtx x f).previous = s.previous := by simp [updCtx]
@[simp] theorem updCtx_counters (x : CtxId) (f : Ctx → Ctx) : (s.updCtx x f).counters = s.counters := by simp [updCtx]
@[simp] theorem updCtx_latches (x : CtxId) (f : Ctx → Ctx) : (s.updCtx x f).latches = s.latches := by simp [updCtx]
@[simp] theorem updCtx_keep (x : CtxId) (f : Ctx → Ctx) : (s.updCtx x f).keep = s.keep := by simp [updCtx]
@[simp] theorem updCtx_forme (x : CtxId) (f : Ctx → Ctx) : (s.updCtx x f).forme = s.forme := by simp [updCtx]
@[simp] theorem updCtx_modes (x : CtxId) (f : Ctx → Ctx) : (s.updCtx x f).modes = s.modes := by simp [updCtx]
@[simp] theorem updCtx_proof (x : CtxId) (f : Ctx → Ctx) : (s.updCtx x f).proof = s.proof := by simp [updCtx]
@[simp] theorem updCtx_plinth (x : CtxId) (f : Ctx → Ctx) : (s.updCtx x f).plinth = s.plinth := by simp [updCtx]
@[simp] theorem updCtx_dbgUnit (x : CtxId) (f : Ctx → Ctx) : (s.updCtx x f).dbgUnit = s.dbgUnit := by simp [updCtx]

/-! updDs. -/
@[simp] theorem updDs_pending (w : WytheIx) (f : Datestone → Datestone) : (s.updDs w f).pending = s.pending := by simp [updDs]
@[simp] theorem updDs_free (w : WytheIx) (f : Datestone → Datestone) : (s.updDs w f).free = s.free := by simp [updDs]
@[simp] theorem updDs_now (w : WytheIx) (f : Datestone → Datestone) : (s.updDs w f).now = s.now := by simp [updDs]
@[simp] theorem updDs_out (w : WytheIx) (f : Datestone → Datestone) : (s.updDs w f).out = s.out := by simp [updDs]
@[simp] theorem updDs_readData (w : WytheIx) (f : Datestone → Datestone) : (s.updDs w f).readData = s.readData := by simp [updDs]
@[simp] theorem updDs_regs (w : WytheIx) (f : Datestone → Datestone) : (s.updDs w f).regs = s.regs := by simp [updDs]
@[simp] theorem updDs_staged (w : WytheIx) (f : Datestone → Datestone) : (s.updDs w f).staged = s.staged := by simp [updDs]
@[simp] theorem updDs_active (w : WytheIx) (f : Datestone → Datestone) : (s.updDs w f).active = s.active := by simp [updDs]
@[simp] theorem updDs_previous (w : WytheIx) (f : Datestone → Datestone) : (s.updDs w f).previous = s.previous := by simp [updDs]
@[simp] theorem updDs_counters (w : WytheIx) (f : Datestone → Datestone) : (s.updDs w f).counters = s.counters := by simp [updDs]
@[simp] theorem updDs_latches (w : WytheIx) (f : Datestone → Datestone) : (s.updDs w f).latches = s.latches := by simp [updDs]
@[simp] theorem updDs_keep (w : WytheIx) (f : Datestone → Datestone) : (s.updDs w f).keep = s.keep := by simp [updDs]
@[simp] theorem updDs_forme (w : WytheIx) (f : Datestone → Datestone) : (s.updDs w f).forme = s.forme := by simp [updDs]
@[simp] theorem updDs_modes (w : WytheIx) (f : Datestone → Datestone) : (s.updDs w f).modes = s.modes := by simp [updDs]
@[simp] theorem updDs_proof (w : WytheIx) (f : Datestone → Datestone) : (s.updDs w f).proof = s.proof := by simp [updDs]
@[simp] theorem updDs_plinth (w : WytheIx) (f : Datestone → Datestone) : (s.updDs w f).plinth = s.plinth := by simp [updDs]
@[simp] theorem updDs_dbgUnit (w : WytheIx) (f : Datestone → Datestone) : (s.updDs w f).dbgUnit = s.dbgUnit := by simp [updDs]

/-! updComp. -/
@[simp] theorem updComp_pending (w : WytheIx) (f : Compositor → Compositor) : (s.updComp w f).pending = s.pending := by simp [updComp]
@[simp] theorem updComp_free (w : WytheIx) (f : Compositor → Compositor) : (s.updComp w f).free = s.free := by simp [updComp]
@[simp] theorem updComp_now (w : WytheIx) (f : Compositor → Compositor) : (s.updComp w f).now = s.now := by simp [updComp]
@[simp] theorem updComp_out (w : WytheIx) (f : Compositor → Compositor) : (s.updComp w f).out = s.out := by simp [updComp]
@[simp] theorem updComp_readData (w : WytheIx) (f : Compositor → Compositor) : (s.updComp w f).readData = s.readData := by simp [updComp]
@[simp] theorem updComp_regs (w : WytheIx) (f : Compositor → Compositor) : (s.updComp w f).regs = s.regs := by simp [updComp]
@[simp] theorem updComp_staged (w : WytheIx) (f : Compositor → Compositor) : (s.updComp w f).staged = s.staged := by simp [updComp]
@[simp] theorem updComp_active (w : WytheIx) (f : Compositor → Compositor) : (s.updComp w f).active = s.active := by simp [updComp]
@[simp] theorem updComp_previous (w : WytheIx) (f : Compositor → Compositor) : (s.updComp w f).previous = s.previous := by simp [updComp]
@[simp] theorem updComp_counters (w : WytheIx) (f : Compositor → Compositor) : (s.updComp w f).counters = s.counters := by simp [updComp]
@[simp] theorem updComp_latches (w : WytheIx) (f : Compositor → Compositor) : (s.updComp w f).latches = s.latches := by simp [updComp]
@[simp] theorem updComp_keep (w : WytheIx) (f : Compositor → Compositor) : (s.updComp w f).keep = s.keep := by simp [updComp]
@[simp] theorem updComp_forme (w : WytheIx) (f : Compositor → Compositor) : (s.updComp w f).forme = s.forme := by simp [updComp]
@[simp] theorem updComp_modes (w : WytheIx) (f : Compositor → Compositor) : (s.updComp w f).modes = s.modes := by simp [updComp]
@[simp] theorem updComp_proof (w : WytheIx) (f : Compositor → Compositor) : (s.updComp w f).proof = s.proof := by simp [updComp]
@[simp] theorem updComp_plinth (w : WytheIx) (f : Compositor → Compositor) : (s.updComp w f).plinth = s.plinth := by simp [updComp]
@[simp] theorem updComp_dbgUnit (w : WytheIx) (f : Compositor → Compositor) : (s.updComp w f).dbgUnit = s.dbgUnit := by simp [updComp]

/-! updColl. -/
@[simp] theorem updColl_pending (w : WytheIx) (f : Collator → Collator) : (s.updColl w f).pending = s.pending := by simp [updColl]
@[simp] theorem updColl_free (w : WytheIx) (f : Collator → Collator) : (s.updColl w f).free = s.free := by simp [updColl]
@[simp] theorem updColl_now (w : WytheIx) (f : Collator → Collator) : (s.updColl w f).now = s.now := by simp [updColl]
@[simp] theorem updColl_out (w : WytheIx) (f : Collator → Collator) : (s.updColl w f).out = s.out := by simp [updColl]
@[simp] theorem updColl_readData (w : WytheIx) (f : Collator → Collator) : (s.updColl w f).readData = s.readData := by simp [updColl]
@[simp] theorem updColl_regs (w : WytheIx) (f : Collator → Collator) : (s.updColl w f).regs = s.regs := by simp [updColl]
@[simp] theorem updColl_staged (w : WytheIx) (f : Collator → Collator) : (s.updColl w f).staged = s.staged := by simp [updColl]
@[simp] theorem updColl_active (w : WytheIx) (f : Collator → Collator) : (s.updColl w f).active = s.active := by simp [updColl]
@[simp] theorem updColl_previous (w : WytheIx) (f : Collator → Collator) : (s.updColl w f).previous = s.previous := by simp [updColl]
@[simp] theorem updColl_counters (w : WytheIx) (f : Collator → Collator) : (s.updColl w f).counters = s.counters := by simp [updColl]
@[simp] theorem updColl_latches (w : WytheIx) (f : Collator → Collator) : (s.updColl w f).latches = s.latches := by simp [updColl]
@[simp] theorem updColl_keep (w : WytheIx) (f : Collator → Collator) : (s.updColl w f).keep = s.keep := by simp [updColl]
@[simp] theorem updColl_forme (w : WytheIx) (f : Collator → Collator) : (s.updColl w f).forme = s.forme := by simp [updColl]
@[simp] theorem updColl_modes (w : WytheIx) (f : Collator → Collator) : (s.updColl w f).modes = s.modes := by simp [updColl]
@[simp] theorem updColl_proof (w : WytheIx) (f : Collator → Collator) : (s.updColl w f).proof = s.proof := by simp [updColl]
@[simp] theorem updColl_plinth (w : WytheIx) (f : Collator → Collator) : (s.updColl w f).plinth = s.plinth := by simp [updColl]
@[simp] theorem updColl_dbgUnit (w : WytheIx) (f : Collator → Collator) : (s.updColl w f).dbgUnit = s.dbgUnit := by simp [updColl]

/-! updGalley. -/
@[simp] theorem updGalley_pending (w : WytheIx) (f : Galley → Galley) : (s.updGalley w f).pending = s.pending := by simp [updGalley]
@[simp] theorem updGalley_free (w : WytheIx) (f : Galley → Galley) : (s.updGalley w f).free = s.free := by simp [updGalley]
@[simp] theorem updGalley_now (w : WytheIx) (f : Galley → Galley) : (s.updGalley w f).now = s.now := by simp [updGalley]
@[simp] theorem updGalley_out (w : WytheIx) (f : Galley → Galley) : (s.updGalley w f).out = s.out := by simp [updGalley]
@[simp] theorem updGalley_readData (w : WytheIx) (f : Galley → Galley) : (s.updGalley w f).readData = s.readData := by simp [updGalley]
@[simp] theorem updGalley_regs (w : WytheIx) (f : Galley → Galley) : (s.updGalley w f).regs = s.regs := by simp [updGalley]
@[simp] theorem updGalley_staged (w : WytheIx) (f : Galley → Galley) : (s.updGalley w f).staged = s.staged := by simp [updGalley]
@[simp] theorem updGalley_active (w : WytheIx) (f : Galley → Galley) : (s.updGalley w f).active = s.active := by simp [updGalley]
@[simp] theorem updGalley_previous (w : WytheIx) (f : Galley → Galley) : (s.updGalley w f).previous = s.previous := by simp [updGalley]
@[simp] theorem updGalley_counters (w : WytheIx) (f : Galley → Galley) : (s.updGalley w f).counters = s.counters := by simp [updGalley]
@[simp] theorem updGalley_latches (w : WytheIx) (f : Galley → Galley) : (s.updGalley w f).latches = s.latches := by simp [updGalley]
@[simp] theorem updGalley_keep (w : WytheIx) (f : Galley → Galley) : (s.updGalley w f).keep = s.keep := by simp [updGalley]
@[simp] theorem updGalley_forme (w : WytheIx) (f : Galley → Galley) : (s.updGalley w f).forme = s.forme := by simp [updGalley]
@[simp] theorem updGalley_modes (w : WytheIx) (f : Galley → Galley) : (s.updGalley w f).modes = s.modes := by simp [updGalley]
@[simp] theorem updGalley_proof (w : WytheIx) (f : Galley → Galley) : (s.updGalley w f).proof = s.proof := by simp [updGalley]
@[simp] theorem updGalley_plinth (w : WytheIx) (f : Galley → Galley) : (s.updGalley w f).plinth = s.plinth := by simp [updGalley]
@[simp] theorem updGalley_dbgUnit (w : WytheIx) (f : Galley → Galley) : (s.updGalley w f).dbgUnit = s.dbgUnit := by simp [updGalley]

/-! updPress. -/
@[simp] theorem updPress_pending (w : WytheIx) (f : Press → Press) : (s.updPress w f).pending = s.pending := by simp [updPress]
@[simp] theorem updPress_free (w : WytheIx) (f : Press → Press) : (s.updPress w f).free = s.free := by simp [updPress]
@[simp] theorem updPress_now (w : WytheIx) (f : Press → Press) : (s.updPress w f).now = s.now := by simp [updPress]
@[simp] theorem updPress_out (w : WytheIx) (f : Press → Press) : (s.updPress w f).out = s.out := by simp [updPress]
@[simp] theorem updPress_readData (w : WytheIx) (f : Press → Press) : (s.updPress w f).readData = s.readData := by simp [updPress]
@[simp] theorem updPress_regs (w : WytheIx) (f : Press → Press) : (s.updPress w f).regs = s.regs := by simp [updPress]
@[simp] theorem updPress_staged (w : WytheIx) (f : Press → Press) : (s.updPress w f).staged = s.staged := by simp [updPress]
@[simp] theorem updPress_active (w : WytheIx) (f : Press → Press) : (s.updPress w f).active = s.active := by simp [updPress]
@[simp] theorem updPress_previous (w : WytheIx) (f : Press → Press) : (s.updPress w f).previous = s.previous := by simp [updPress]
@[simp] theorem updPress_counters (w : WytheIx) (f : Press → Press) : (s.updPress w f).counters = s.counters := by simp [updPress]
@[simp] theorem updPress_latches (w : WytheIx) (f : Press → Press) : (s.updPress w f).latches = s.latches := by simp [updPress]
@[simp] theorem updPress_keep (w : WytheIx) (f : Press → Press) : (s.updPress w f).keep = s.keep := by simp [updPress]
@[simp] theorem updPress_forme (w : WytheIx) (f : Press → Press) : (s.updPress w f).forme = s.forme := by simp [updPress]
@[simp] theorem updPress_modes (w : WytheIx) (f : Press → Press) : (s.updPress w f).modes = s.modes := by simp [updPress]
@[simp] theorem updPress_proof (w : WytheIx) (f : Press → Press) : (s.updPress w f).proof = s.proof := by simp [updPress]
@[simp] theorem updPress_plinth (w : WytheIx) (f : Press → Press) : (s.updPress w f).plinth = s.plinth := by simp [updPress]
@[simp] theorem updPress_dbgUnit (w : WytheIx) (f : Press → Press) : (s.updPress w f).dbgUnit = s.dbgUnit := by simp [updPress]

/-! updTie. -/
@[simp] theorem updTie_pending (w : WytheIx) (f : Tie → Tie) : (s.updTie w f).pending = s.pending := by simp [updTie]
@[simp] theorem updTie_free (w : WytheIx) (f : Tie → Tie) : (s.updTie w f).free = s.free := by simp [updTie]
@[simp] theorem updTie_now (w : WytheIx) (f : Tie → Tie) : (s.updTie w f).now = s.now := by simp [updTie]
@[simp] theorem updTie_out (w : WytheIx) (f : Tie → Tie) : (s.updTie w f).out = s.out := by simp [updTie]
@[simp] theorem updTie_readData (w : WytheIx) (f : Tie → Tie) : (s.updTie w f).readData = s.readData := by simp [updTie]
@[simp] theorem updTie_regs (w : WytheIx) (f : Tie → Tie) : (s.updTie w f).regs = s.regs := by simp [updTie]
@[simp] theorem updTie_staged (w : WytheIx) (f : Tie → Tie) : (s.updTie w f).staged = s.staged := by simp [updTie]
@[simp] theorem updTie_active (w : WytheIx) (f : Tie → Tie) : (s.updTie w f).active = s.active := by simp [updTie]
@[simp] theorem updTie_previous (w : WytheIx) (f : Tie → Tie) : (s.updTie w f).previous = s.previous := by simp [updTie]
@[simp] theorem updTie_counters (w : WytheIx) (f : Tie → Tie) : (s.updTie w f).counters = s.counters := by simp [updTie]
@[simp] theorem updTie_latches (w : WytheIx) (f : Tie → Tie) : (s.updTie w f).latches = s.latches := by simp [updTie]
@[simp] theorem updTie_keep (w : WytheIx) (f : Tie → Tie) : (s.updTie w f).keep = s.keep := by simp [updTie]
@[simp] theorem updTie_forme (w : WytheIx) (f : Tie → Tie) : (s.updTie w f).forme = s.forme := by simp [updTie]
@[simp] theorem updTie_modes (w : WytheIx) (f : Tie → Tie) : (s.updTie w f).modes = s.modes := by simp [updTie]
@[simp] theorem updTie_proof (w : WytheIx) (f : Tie → Tie) : (s.updTie w f).proof = s.proof := by simp [updTie]
@[simp] theorem updTie_plinth (w : WytheIx) (f : Tie → Tie) : (s.updTie w f).plinth = s.plinth := by simp [updTie]
@[simp] theorem updTie_dbgUnit (w : WytheIx) (f : Tie → Tie) : (s.updTie w f).dbgUnit = s.dbgUnit := by simp [updTie]

/-! updTables. -/
@[simp] theorem updTables_pending (w : WytheIx) (f : Tables → Tables) : (s.updTables w f).pending = s.pending := by simp [updTables]
@[simp] theorem updTables_free (w : WytheIx) (f : Tables → Tables) : (s.updTables w f).free = s.free := by simp [updTables]
@[simp] theorem updTables_now (w : WytheIx) (f : Tables → Tables) : (s.updTables w f).now = s.now := by simp [updTables]
@[simp] theorem updTables_out (w : WytheIx) (f : Tables → Tables) : (s.updTables w f).out = s.out := by simp [updTables]
@[simp] theorem updTables_readData (w : WytheIx) (f : Tables → Tables) : (s.updTables w f).readData = s.readData := by simp [updTables]
@[simp] theorem updTables_regs (w : WytheIx) (f : Tables → Tables) : (s.updTables w f).regs = s.regs := by simp [updTables]
@[simp] theorem updTables_staged (w : WytheIx) (f : Tables → Tables) : (s.updTables w f).staged = s.staged := by simp [updTables]
@[simp] theorem updTables_active (w : WytheIx) (f : Tables → Tables) : (s.updTables w f).active = s.active := by simp [updTables]
@[simp] theorem updTables_previous (w : WytheIx) (f : Tables → Tables) : (s.updTables w f).previous = s.previous := by simp [updTables]
@[simp] theorem updTables_counters (w : WytheIx) (f : Tables → Tables) : (s.updTables w f).counters = s.counters := by simp [updTables]
@[simp] theorem updTables_latches (w : WytheIx) (f : Tables → Tables) : (s.updTables w f).latches = s.latches := by simp [updTables]
@[simp] theorem updTables_keep (w : WytheIx) (f : Tables → Tables) : (s.updTables w f).keep = s.keep := by simp [updTables]
@[simp] theorem updTables_forme (w : WytheIx) (f : Tables → Tables) : (s.updTables w f).forme = s.forme := by simp [updTables]
@[simp] theorem updTables_modes (w : WytheIx) (f : Tables → Tables) : (s.updTables w f).modes = s.modes := by simp [updTables]
@[simp] theorem updTables_proof (w : WytheIx) (f : Tables → Tables) : (s.updTables w f).proof = s.proof := by simp [updTables]
@[simp] theorem updTables_plinth (w : WytheIx) (f : Tables → Tables) : (s.updTables w f).plinth = s.plinth := by simp [updTables]
@[simp] theorem updTables_dbgUnit (w : WytheIx) (f : Tables → Tables) : (s.updTables w f).dbgUnit = s.dbgUnit := by simp [updTables]

/-! updQuoin. -/
@[simp] theorem updQuoin_pending (w : WytheIx) (f : Quoin → Quoin) : (s.updQuoin w f).pending = s.pending := by simp [updQuoin]
@[simp] theorem updQuoin_free (w : WytheIx) (f : Quoin → Quoin) : (s.updQuoin w f).free = s.free := by simp [updQuoin]
@[simp] theorem updQuoin_now (w : WytheIx) (f : Quoin → Quoin) : (s.updQuoin w f).now = s.now := by simp [updQuoin]
@[simp] theorem updQuoin_out (w : WytheIx) (f : Quoin → Quoin) : (s.updQuoin w f).out = s.out := by simp [updQuoin]
@[simp] theorem updQuoin_readData (w : WytheIx) (f : Quoin → Quoin) : (s.updQuoin w f).readData = s.readData := by simp [updQuoin]
@[simp] theorem updQuoin_regs (w : WytheIx) (f : Quoin → Quoin) : (s.updQuoin w f).regs = s.regs := by simp [updQuoin]
@[simp] theorem updQuoin_staged (w : WytheIx) (f : Quoin → Quoin) : (s.updQuoin w f).staged = s.staged := by simp [updQuoin]
@[simp] theorem updQuoin_active (w : WytheIx) (f : Quoin → Quoin) : (s.updQuoin w f).active = s.active := by simp [updQuoin]
@[simp] theorem updQuoin_previous (w : WytheIx) (f : Quoin → Quoin) : (s.updQuoin w f).previous = s.previous := by simp [updQuoin]
@[simp] theorem updQuoin_counters (w : WytheIx) (f : Quoin → Quoin) : (s.updQuoin w f).counters = s.counters := by simp [updQuoin]
@[simp] theorem updQuoin_latches (w : WytheIx) (f : Quoin → Quoin) : (s.updQuoin w f).latches = s.latches := by simp [updQuoin]
@[simp] theorem updQuoin_keep (w : WytheIx) (f : Quoin → Quoin) : (s.updQuoin w f).keep = s.keep := by simp [updQuoin]
@[simp] theorem updQuoin_forme (w : WytheIx) (f : Quoin → Quoin) : (s.updQuoin w f).forme = s.forme := by simp [updQuoin]
@[simp] theorem updQuoin_modes (w : WytheIx) (f : Quoin → Quoin) : (s.updQuoin w f).modes = s.modes := by simp [updQuoin]
@[simp] theorem updQuoin_proof (w : WytheIx) (f : Quoin → Quoin) : (s.updQuoin w f).proof = s.proof := by simp [updQuoin]
@[simp] theorem updQuoin_plinth (w : WytheIx) (f : Quoin → Quoin) : (s.updQuoin w f).plinth = s.plinth := by simp [updQuoin]
@[simp] theorem updQuoin_dbgUnit (w : WytheIx) (f : Quoin → Quoin) : (s.updQuoin w f).dbgUnit = s.dbgUnit := by simp [updQuoin]

/-! Wythes. -/

theorem wy_setWy (w w' : WytheIx) (v : Wythe) : (s.setWy w v).wy w' = if w' = w then v else s.wy w' := by
  rcases wythe_cases w with h | h <;> rcases wythe_cases w' with h' | h' <;>
    subst h <;> subst h' <;> simp [setWy, wy]
theorem wy_updWy (w w' : WytheIx) (f : Wythe → Wythe) :
    (s.updWy w f).wy w' = if w' = w then f (s.wy w) else s.wy w' := by simp [updWy, wy_setWy]
@[simp] theorem wy_updWy_same (w : WytheIx) (f : Wythe → Wythe) : (s.updWy w f).wy w = f (s.wy w) := by simp [wy_updWy]
theorem wy_updWy_ne {w w' : WytheIx} (f : Wythe → Wythe) (h : w' ≠ w) : (s.updWy w f).wy w' = s.wy w' := by
  simp [wy_updWy, h]

theorem wy_updCore (w : WytheIx) (i : Nat) (f : Core → Core) (w' : WytheIx) :
    (s.updCore w i f).wy w' = if w' = w then { s.wy w with cores := kupd {} (s.wy w).cores i f } else s.wy w' := by
  simp only [updCore, wy_updWy]
@[simp] theorem wy_updCore_same (w : WytheIx) (i : Nat) (f : Core → Core) :
    (s.updCore w i f).wy w = { s.wy w with cores := kupd {} (s.wy w).cores i f } := by simp [wy_updCore]
theorem wy_updTcb (w : WytheIx) (i : Nat) (f : Tcb → Tcb) (w' : WytheIx) :
    (s.updTcb w i f).wy w' = if w' = w then { s.wy w with tcbs := kupd {} (s.wy w).tcbs i f } else s.wy w' := by
  simp only [updTcb, wy_updWy]
@[simp] theorem wy_updTcb_same (w : WytheIx) (i : Nat) (f : Tcb → Tcb) :
    (s.updTcb w i f).wy w = { s.wy w with tcbs := kupd {} (s.wy w).tcbs i f } := by simp [wy_updTcb]
theorem wy_updCourse (w : WytheIx) (c : Nat) (f : Course → Course) (w' : WytheIx) :
    (s.updCourse w c f).wy w' = if w' = w then { s.wy w with courses := kupd {} (s.wy w).courses c f } else s.wy w' := by
  simp only [updCourse, wy_updWy]
@[simp] theorem wy_updCourse_same (w : WytheIx) (c : Nat) (f : Course → Course) :
    (s.updCourse w c f).wy w = { s.wy w with courses := kupd {} (s.wy w).courses c f } := by simp [wy_updCourse]
theorem wy_updPort (w : WytheIx) (c : Nat) (f : PortSt → PortSt) (w' : WytheIx) :
    (s.updPort w c f).wy w' = if w' = w then { s.wy w with ports := kupd {} (s.wy w).ports c f } else s.wy w' := by
  simp only [updPort, wy_updWy]
@[simp] theorem wy_updPort_same (w : WytheIx) (c : Nat) (f : PortSt → PortSt) :
    (s.updPort w c f).wy w = { s.wy w with ports := kupd {} (s.wy w).ports c f } := by simp [wy_updPort]
theorem wy_updCtx (x : CtxId) (f : Ctx → Ctx) (w' : WytheIx) :
    (s.updCtx x f).wy w' = if w' = x.w then { s.wy x.w with ctxs := kupd {} (s.wy x.w).ctxs x.ix f } else s.wy w' := by
  simp only [updCtx, wy_updWy]
@[simp] theorem wy_updCtx_same (x : CtxId) (f : Ctx → Ctx) :
    (s.updCtx x f).wy x.w = { s.wy x.w with ctxs := kupd {} (s.wy x.w).ctxs x.ix f } := by simp [wy_updCtx]
theorem wy_updDs (w : WytheIx) (f : Datestone → Datestone) (w' : WytheIx) :
    (s.updDs w f).wy w' = if w' = w then { s.wy w with ds := f (s.wy w).ds } else s.wy w' := by
  simp only [updDs, wy_updWy]
@[simp] theorem wy_updDs_same (w : WytheIx) (f : Datestone → Datestone) :
    (s.updDs w f).wy w = { s.wy w with ds := f (s.wy w).ds } := by simp [wy_updDs]
theorem wy_updComp (w : WytheIx) (f : Compositor → Compositor) (w' : WytheIx) :
    (s.updComp w f).wy w' = if w' = w then { s.wy w with comp := f (s.wy w).comp } else s.wy w' := by
  simp only [updComp, wy_updWy]
@[simp] theorem wy_updComp_same (w : WytheIx) (f : Compositor → Compositor) :
    (s.updComp w f).wy w = { s.wy w with comp := f (s.wy w).comp } := by simp [wy_updComp]
theorem wy_updColl (w : WytheIx) (f : Collator → Collator) (w' : WytheIx) :
    (s.updColl w f).wy w' = if w' = w then { s.wy w with coll := f (s.wy w).coll } else s.wy w' := by
  simp only [updColl, wy_updWy]
@[simp] theorem wy_updColl_same (w : WytheIx) (f : Collator → Collator) :
    (s.updColl w f).wy w = { s.wy w with coll := f (s.wy w).coll } := by simp [wy_updColl]
theorem wy_updGalley (w : WytheIx) (f : Galley → Galley) (w' : WytheIx) :
    (s.updGalley w f).wy w' = if w' = w then { s.wy w with galley := f (s.wy w).galley } else s.wy w' := by
  simp only [updGalley, wy_updWy]
@[simp] theorem wy_updGalley_same (w : WytheIx) (f : Galley → Galley) :
    (s.updGalley w f).wy w = { s.wy w with galley := f (s.wy w).galley } := by simp [wy_updGalley]
theorem wy_updPress (w : WytheIx) (f : Press → Press) (w' : WytheIx) :
    (s.updPress w f).wy w' = if w' = w then { s.wy w with press := f (s.wy w).press } else s.wy w' := by
  simp only [updPress, wy_updWy]
@[simp] theorem wy_updPress_same (w : WytheIx) (f : Press → Press) :
    (s.updPress w f).wy w = { s.wy w with press := f (s.wy w).press } := by simp [wy_updPress]
theorem wy_updTie (w : WytheIx) (f : Tie → Tie) (w' : WytheIx) :
    (s.updTie w f).wy w' = if w' = w then { s.wy w with tie := f (s.wy w).tie } else s.wy w' := by
  simp only [updTie, wy_updWy]
@[simp] theorem wy_updTie_same (w : WytheIx) (f : Tie → Tie) :
    (s.updTie w f).wy w = { s.wy w with tie := f (s.wy w).tie } := by simp [wy_updTie]
theorem wy_updTables (w : WytheIx) (f : Tables → Tables) (w' : WytheIx) :
    (s.updTables w f).wy w' = if w' = w then { s.wy w with tables := f (s.wy w).tables } else s.wy w' := by
  simp only [updTables, wy_updWy]
@[simp] theorem wy_updTables_same (w : WytheIx) (f : Tables → Tables) :
    (s.updTables w f).wy w = { s.wy w with tables := f (s.wy w).tables } := by simp [wy_updTables]
theorem wy_updQuoin (w : WytheIx) (f : Quoin → Quoin) (w' : WytheIx) :
    (s.updQuoin w f).wy w' = if w' = w then { s.wy w with quoin := f (s.wy w).quoin } else s.wy w' := by
  simp only [updQuoin, wy_updWy]
@[simp] theorem wy_updQuoin_same (w : WytheIx) (f : Quoin → Quoin) :
    (s.updQuoin w f).wy w = { s.wy w with quoin := f (s.wy w).quoin } := by simp [wy_updQuoin]

/-! Registers, counters and the parts of a wythe. -/

theorem rd_wr_ne {a b : Nat} (v : W32) (h : b ≠ a) : (s.wr a v).rd b = s.rd b := by
  simp [rd, wr, sget_sput_ne regReset s.regs v h]
theorem rd_wr_same (a : Nat) (v : W32) (h : swf regReset s.regs = true) : (s.wr a v).rd a = v := by
  simp [rd, wr, sget_sput_same regReset s.regs a v h]
theorem ctr_setCtr_ne {a b : Nat} (v : BitVec 49) (h : b ≠ a) : (s.setCtr a v).ctr b = s.ctr b := by
  simp [ctr, setCtr, sget_sput_ne _ s.counters v h]
theorem ctr_setCtr_same (a : Nat) (v : BitVec 49) (h : swf (fun _ => (0 : BitVec 49)) s.counters = true) :
    (s.setCtr a v).ctr a = v := by
  unfold ctr setCtr; exact sget_sput_same _ s.counters a v h

@[simp] theorem setCtr_rd (a : Nat) (v : BitVec 49) (q : Nat) : (s.setCtr a v).rd q = s.rd q := by simp [rd]
@[simp] theorem count_rd (a n : Nat) (q : Nat) : (s.count a n).rd q = s.rd q := by simp [rd]
@[simp] theorem latch_rd (r : Agent) (lo upper : Nat) (q : Nat) : (s.latch r lo upper).rd q = s.rd q := by simp [rd]
@[simp] theorem emit_rd (o : Output) (q : Nat) : (s.emit o).rd q = s.rd q := by simp [rd]
@[simp] theorem answer_rd (v : W32) (q : Nat) : (s.answer v).rd q = s.rd q := by simp [rd]
@[simp] theorem drop_rd (w : WytheIx) (p : Nat) (c : Cause) (q : Nat) : (s.drop w p c).rd q = s.rd q := by simp [rd]
@[simp] theorem setWy_rd (w : WytheIx) (v : Wythe) (q : Nat) : (s.setWy w v).rd q = s.rd q := by simp [rd]
@[simp] theorem updWy_rd (w : WytheIx) (f : Wythe → Wythe) (q : Nat) : (s.updWy w f).rd q = s.rd q := by simp [rd]
@[simp] theorem updCore_rd (w : WytheIx) (i : Nat) (f : Core → Core) (q : Nat) : (s.updCore w i f).rd q = s.rd q := by simp [rd]
@[simp] theorem updTcb_rd (w : WytheIx) (i : Nat) (f : Tcb → Tcb) (q : Nat) : (s.updTcb w i f).rd q = s.rd q := by simp [rd]
@[simp] theorem updCourse_rd (w : WytheIx) (c : Nat) (f : Course → Course) (q : Nat) : (s.updCourse w c f).rd q = s.rd q := by simp [rd]
@[simp] theorem updPort_rd (w : WytheIx) (c : Nat) (f : PortSt → PortSt) (q : Nat) : (s.updPort w c f).rd q = s.rd q := by simp [rd]
@[simp] theorem updCtx_rd (x : CtxId) (f : Ctx → Ctx) (q : Nat) : (s.updCtx x f).rd q = s.rd q := by simp [rd]
@[simp] theorem updDs_rd (w : WytheIx) (f : Datestone → Datestone) (q : Nat) : (s.updDs w f).rd q = s.rd q := by simp [rd]
@[simp] theorem updComp_rd (w : WytheIx) (f : Compositor → Compositor) (q : Nat) : (s.updComp w f).rd q = s.rd q := by simp [rd]
@[simp] theorem updColl_rd (w : WytheIx) (f : Collator → Collator) (q : Nat) : (s.updColl w f).rd q = s.rd q := by simp [rd]
@[simp] theorem updGalley_rd (w : WytheIx) (f : Galley → Galley) (q : Nat) : (s.updGalley w f).rd q = s.rd q := by simp [rd]
@[simp] theorem updPress_rd (w : WytheIx) (f : Press → Press) (q : Nat) : (s.updPress w f).rd q = s.rd q := by simp [rd]
@[simp] theorem updTie_rd (w : WytheIx) (f : Tie → Tie) (q : Nat) : (s.updTie w f).rd q = s.rd q := by simp [rd]
@[simp] theorem updTables_rd (w : WytheIx) (f : Tables → Tables) (q : Nat) : (s.updTables w f).rd q = s.rd q := by simp [rd]
@[simp] theorem updQuoin_rd (w : WytheIx) (f : Quoin → Quoin) (q : Nat) : (s.updQuoin w f).rd q = s.rd q := by simp [rd]
@[simp] theorem setCtr_enabled (a : Nat) (v : BitVec 49) (q : Nat) : (s.setCtr a v).enabled q = s.enabled q := by simp [enabled]
@[simp] theorem setCtr_frozen (a : Nat) (v : BitVec 49) (q : Nat) : (s.setCtr a v).frozen q = s.frozen q := by simp [frozen]
@[simp] theorem count_enabled (a n : Nat) (q : Nat) : (s.count a n).enabled q = s.enabled q := by simp [enabled]
@[simp] theorem count_frozen (a n : Nat) (q : Nat) : (s.count a n).frozen q = s.frozen q := by simp [frozen]
@[simp] theorem latch_enabled (r : Agent) (lo upper : Nat) (q : Nat) : (s.latch r lo upper).enabled q = s.enabled q := by simp [enabled]
@[simp] theorem latch_frozen (r : Agent) (lo upper : Nat) (q : Nat) : (s.latch r lo upper).frozen q = s.frozen q := by simp [frozen]
@[simp] theorem emit_enabled (o : Output) (q : Nat) : (s.emit o).enabled q = s.enabled q := by simp [enabled]
@[simp] theorem emit_frozen (o : Output) (q : Nat) : (s.emit o).frozen q = s.frozen q := by simp [frozen]
@[simp] theorem answer_enabled (v : W32) (q : Nat) : (s.answer v).enabled q = s.enabled q := by simp [enabled]
@[simp] theorem answer_frozen (v : W32) (q : Nat) : (s.answer v).frozen q = s.frozen q := by simp [frozen]
@[simp] theorem drop_enabled (w : WytheIx) (p : Nat) (c : Cause) (q : Nat) : (s.drop w p c).enabled q = s.enabled q := by simp [enabled]
@[simp] theorem drop_frozen (w : WytheIx) (p : Nat) (c : Cause) (q : Nat) : (s.drop w p c).frozen q = s.frozen q := by simp [frozen]
@[simp] theorem setWy_enabled (w : WytheIx) (v : Wythe) (q : Nat) : (s.setWy w v).enabled q = s.enabled q := by simp [enabled]
@[simp] theorem setWy_frozen (w : WytheIx) (v : Wythe) (q : Nat) : (s.setWy w v).frozen q = s.frozen q := by simp [frozen]
@[simp] theorem updWy_enabled (w : WytheIx) (f : Wythe → Wythe) (q : Nat) : (s.updWy w f).enabled q = s.enabled q := by simp [enabled]
@[simp] theorem updWy_frozen (w : WytheIx) (f : Wythe → Wythe) (q : Nat) : (s.updWy w f).frozen q = s.frozen q := by simp [frozen]
@[simp] theorem updCore_enabled (w : WytheIx) (i : Nat) (f : Core → Core) (q : Nat) : (s.updCore w i f).enabled q = s.enabled q := by simp [enabled]
@[simp] theorem updCore_frozen (w : WytheIx) (i : Nat) (f : Core → Core) (q : Nat) : (s.updCore w i f).frozen q = s.frozen q := by simp [frozen]
@[simp] theorem updTcb_enabled (w : WytheIx) (i : Nat) (f : Tcb → Tcb) (q : Nat) : (s.updTcb w i f).enabled q = s.enabled q := by simp [enabled]
@[simp] theorem updTcb_frozen (w : WytheIx) (i : Nat) (f : Tcb → Tcb) (q : Nat) : (s.updTcb w i f).frozen q = s.frozen q := by simp [frozen]
@[simp] theorem updCourse_enabled (w : WytheIx) (c : Nat) (f : Course → Course) (q : Nat) : (s.updCourse w c f).enabled q = s.enabled q := by simp [enabled]
@[simp] theorem updCourse_frozen (w : WytheIx) (c : Nat) (f : Course → Course) (q : Nat) : (s.updCourse w c f).frozen q = s.frozen q := by simp [frozen]
@[simp] theorem updPort_enabled (w : WytheIx) (c : Nat) (f : PortSt → PortSt) (q : Nat) : (s.updPort w c f).enabled q = s.enabled q := by simp [enabled]
@[simp] theorem updPort_frozen (w : WytheIx) (c : Nat) (f : PortSt → PortSt) (q : Nat) : (s.updPort w c f).frozen q = s.frozen q := by simp [frozen]
@[simp] theorem updCtx_enabled (x : CtxId) (f : Ctx → Ctx) (q : Nat) : (s.updCtx x f).enabled q = s.enabled q := by simp [enabled]
@[simp] theorem updCtx_frozen (x : CtxId) (f : Ctx → Ctx) (q : Nat) : (s.updCtx x f).frozen q = s.frozen q := by simp [frozen]
@[simp] theorem updDs_enabled (w : WytheIx) (f : Datestone → Datestone) (q : Nat) : (s.updDs w f).enabled q = s.enabled q := by simp [enabled]
@[simp] theorem updDs_frozen (w : WytheIx) (f : Datestone → Datestone) (q : Nat) : (s.updDs w f).frozen q = s.frozen q := by simp [frozen]
@[simp] theorem updComp_enabled (w : WytheIx) (f : Compositor → Compositor) (q : Nat) : (s.updComp w f).enabled q = s.enabled q := by simp [enabled]
@[simp] theorem updComp_frozen (w : WytheIx) (f : Compositor → Compositor) (q : Nat) : (s.updComp w f).frozen q = s.frozen q := by simp [frozen]
@[simp] theorem updColl_enabled (w : WytheIx) (f : Collator → Collator) (q : Nat) : (s.updColl w f).enabled q = s.enabled q := by simp [enabled]
@[simp] theorem updColl_frozen (w : WytheIx) (f : Collator → Collator) (q : Nat) : (s.updColl w f).frozen q = s.frozen q := by simp [frozen]
@[simp] theorem updGalley_enabled (w : WytheIx) (f : Galley → Galley) (q : Nat) : (s.updGalley w f).enabled q = s.enabled q := by simp [enabled]
@[simp] theorem updGalley_frozen (w : WytheIx) (f : Galley → Galley) (q : Nat) : (s.updGalley w f).frozen q = s.frozen q := by simp [frozen]
@[simp] theorem updPress_enabled (w : WytheIx) (f : Press → Press) (q : Nat) : (s.updPress w f).enabled q = s.enabled q := by simp [enabled]
@[simp] theorem updPress_frozen (w : WytheIx) (f : Press → Press) (q : Nat) : (s.updPress w f).frozen q = s.frozen q := by simp [frozen]
@[simp] theorem updTie_enabled (w : WytheIx) (f : Tie → Tie) (q : Nat) : (s.updTie w f).enabled q = s.enabled q := by simp [enabled]
@[simp] theorem updTie_frozen (w : WytheIx) (f : Tie → Tie) (q : Nat) : (s.updTie w f).frozen q = s.frozen q := by simp [frozen]
@[simp] theorem updTables_enabled (w : WytheIx) (f : Tables → Tables) (q : Nat) : (s.updTables w f).enabled q = s.enabled q := by simp [enabled]
@[simp] theorem updTables_frozen (w : WytheIx) (f : Tables → Tables) (q : Nat) : (s.updTables w f).frozen q = s.frozen q := by simp [frozen]
@[simp] theorem updQuoin_enabled (w : WytheIx) (f : Quoin → Quoin) (q : Nat) : (s.updQuoin w f).enabled q = s.enabled q := by simp [enabled]
@[simp] theorem updQuoin_frozen (w : WytheIx) (f : Quoin → Quoin) (q : Nat) : (s.updQuoin w f).frozen q = s.frozen q := by simp [frozen]
@[simp] theorem wr_ctr (a : Nat) (v : W32) (q : Nat) : (s.wr a v).ctr q = s.ctr q := by simp [ctr]
@[simp] theorem latch_ctr (r : Agent) (lo upper : Nat) (q : Nat) : (s.latch r lo upper).ctr q = s.ctr q := by simp [ctr]
@[simp] theorem emit_ctr (o : Output) (q : Nat) : (s.emit o).ctr q = s.ctr q := by simp [ctr]
@[simp] theorem answer_ctr (v : W32) (q : Nat) : (s.answer v).ctr q = s.ctr q := by simp [ctr]
@[simp] theorem raise_ctr (page : Nat) (bits : W32) (q : Nat) : (s.raise page bits).ctr q = s.ctr q := by simp [ctr]
@[simp] theorem raiseBit_ctr (page i : Nat) (q : Nat) : (s.raiseBit page i).ctr q = s.ctr q := by simp [ctr]
@[simp] theorem setWy_ctr (w : WytheIx) (v : Wythe) (q : Nat) : (s.setWy w v).ctr q = s.ctr q := by simp [ctr]
@[simp] theorem updWy_ctr (w : WytheIx) (f : Wythe → Wythe) (q : Nat) : (s.updWy w f).ctr q = s.ctr q := by simp [ctr]
@[simp] theorem updCore_ctr (w : WytheIx) (i : Nat) (f : Core → Core) (q : Nat) : (s.updCore w i f).ctr q = s.ctr q := by simp [ctr]
@[simp] theorem updTcb_ctr (w : WytheIx) (i : Nat) (f : Tcb → Tcb) (q : Nat) : (s.updTcb w i f).ctr q = s.ctr q := by simp [ctr]
@[simp] theorem updCourse_ctr (w : WytheIx) (c : Nat) (f : Course → Course) (q : Nat) : (s.updCourse w c f).ctr q = s.ctr q := by simp [ctr]
@[simp] theorem updPort_ctr (w : WytheIx) (c : Nat) (f : PortSt → PortSt) (q : Nat) : (s.updPort w c f).ctr q = s.ctr q := by simp [ctr]
@[simp] theorem updCtx_ctr (x : CtxId) (f : Ctx → Ctx) (q : Nat) : (s.updCtx x f).ctr q = s.ctr q := by simp [ctr]
@[simp] theorem updDs_ctr (w : WytheIx) (f : Datestone → Datestone) (q : Nat) : (s.updDs w f).ctr q = s.ctr q := by simp [ctr]
@[simp] theorem updComp_ctr (w : WytheIx) (f : Compositor → Compositor) (q : Nat) : (s.updComp w f).ctr q = s.ctr q := by simp [ctr]
@[simp] theorem updColl_ctr (w : WytheIx) (f : Collator → Collator) (q : Nat) : (s.updColl w f).ctr q = s.ctr q := by simp [ctr]
@[simp] theorem updGalley_ctr (w : WytheIx) (f : Galley → Galley) (q : Nat) : (s.updGalley w f).ctr q = s.ctr q := by simp [ctr]
@[simp] theorem updPress_ctr (w : WytheIx) (f : Press → Press) (q : Nat) : (s.updPress w f).ctr q = s.ctr q := by simp [ctr]
@[simp] theorem updTie_ctr (w : WytheIx) (f : Tie → Tie) (q : Nat) : (s.updTie w f).ctr q = s.ctr q := by simp [ctr]
@[simp] theorem updTables_ctr (w : WytheIx) (f : Tables → Tables) (q : Nat) : (s.updTables w f).ctr q = s.ctr q := by simp [ctr]
@[simp] theorem updQuoin_ctr (w : WytheIx) (f : Quoin → Quoin) (q : Nat) : (s.updQuoin w f).ctr q = s.ctr q := by simp [ctr]
@[simp] theorem wr_stActive (a : Nat) (v : W32) (q : Nat) : (s.wr a v).stActive q = s.stActive q := by simp [stActive]
@[simp] theorem wr_stStaged (a : Nat) (v : W32) (q : Nat) : (s.wr a v).stStaged q = s.stStaged q := by simp [stStaged]
@[simp] theorem wr_stPrevious (a : Nat) (v : W32) (q : Nat) : (s.wr a v).stPrevious q = s.stPrevious q := by simp [stPrevious]
@[simp] theorem setCtr_stActive (a : Nat) (v : BitVec 49) (q : Nat) : (s.setCtr a v).stActive q = s.stActive q := by simp [stActive]
@[simp] theorem setCtr_stStaged (a : Nat) (v : BitVec 49) (q : Nat) : (s.setCtr a v).stStaged q = s.stStaged q := by simp [stStaged]
@[simp] theorem setCtr_stPrevious (a : Nat) (v : BitVec 49) (q : Nat) : (s.setCtr a v).stPrevious q = s.stPrevious q := by simp [stPrevious]
@[simp] theorem count_stActive (a n : Nat) (q : Nat) : (s.count a n).stActive q = s.stActive q := by simp [stActive]
@[simp] theorem count_stStaged (a n : Nat) (q : Nat) : (s.count a n).stStaged q = s.stStaged q := by simp [stStaged]
@[simp] theorem count_stPrevious (a n : Nat) (q : Nat) : (s.count a n).stPrevious q = s.stPrevious q := by simp [stPrevious]
@[simp] theorem latch_stActive (r : Agent) (lo upper : Nat) (q : Nat) : (s.latch r lo upper).stActive q = s.stActive q := by simp [stActive]
@[simp] theorem latch_stStaged (r : Agent) (lo upper : Nat) (q : Nat) : (s.latch r lo upper).stStaged q = s.stStaged q := by simp [stStaged]
@[simp] theorem latch_stPrevious (r : Agent) (lo upper : Nat) (q : Nat) : (s.latch r lo upper).stPrevious q = s.stPrevious q := by simp [stPrevious]
@[simp] theorem emit_stActive (o : Output) (q : Nat) : (s.emit o).stActive q = s.stActive q := by simp [stActive]
@[simp] theorem emit_stStaged (o : Output) (q : Nat) : (s.emit o).stStaged q = s.stStaged q := by simp [stStaged]
@[simp] theorem emit_stPrevious (o : Output) (q : Nat) : (s.emit o).stPrevious q = s.stPrevious q := by simp [stPrevious]
@[simp] theorem answer_stActive (v : W32) (q : Nat) : (s.answer v).stActive q = s.stActive q := by simp [stActive]
@[simp] theorem answer_stStaged (v : W32) (q : Nat) : (s.answer v).stStaged q = s.stStaged q := by simp [stStaged]
@[simp] theorem answer_stPrevious (v : W32) (q : Nat) : (s.answer v).stPrevious q = s.stPrevious q := by simp [stPrevious]
@[simp] theorem raise_stActive (page : Nat) (bits : W32) (q : Nat) : (s.raise page bits).stActive q = s.stActive q := by simp [stActive]
@[simp] theorem raise_stStaged (page : Nat) (bits : W32) (q : Nat) : (s.raise page bits).stStaged q = s.stStaged q := by simp [stStaged]
@[simp] theorem raise_stPrevious (page : Nat) (bits : W32) (q : Nat) : (s.raise page bits).stPrevious q = s.stPrevious q := by simp [stPrevious]
@[simp] theorem raiseBit_stActive (page i : Nat) (q : Nat) : (s.raiseBit page i).stActive q = s.stActive q := by simp [stActive]
@[simp] theorem raiseBit_stStaged (page i : Nat) (q : Nat) : (s.raiseBit page i).stStaged q = s.stStaged q := by simp [stStaged]
@[simp] theorem raiseBit_stPrevious (page i : Nat) (q : Nat) : (s.raiseBit page i).stPrevious q = s.stPrevious q := by simp [stPrevious]
@[simp] theorem drop_stActive (w : WytheIx) (p : Nat) (c : Cause) (q : Nat) : (s.drop w p c).stActive q = s.stActive q := by simp [stActive]
@[simp] theorem drop_stStaged (w : WytheIx) (p : Nat) (c : Cause) (q : Nat) : (s.drop w p c).stStaged q = s.stStaged q := by simp [stStaged]
@[simp] theorem drop_stPrevious (w : WytheIx) (p : Nat) (c : Cause) (q : Nat) : (s.drop w p c).stPrevious q = s.stPrevious q := by simp [stPrevious]
@[simp] theorem setWy_stActive (w : WytheIx) (v : Wythe) (q : Nat) : (s.setWy w v).stActive q = s.stActive q := by simp [stActive]
@[simp] theorem setWy_stStaged (w : WytheIx) (v : Wythe) (q : Nat) : (s.setWy w v).stStaged q = s.stStaged q := by simp [stStaged]
@[simp] theorem setWy_stPrevious (w : WytheIx) (v : Wythe) (q : Nat) : (s.setWy w v).stPrevious q = s.stPrevious q := by simp [stPrevious]
@[simp] theorem updWy_stActive (w : WytheIx) (f : Wythe → Wythe) (q : Nat) : (s.updWy w f).stActive q = s.stActive q := by simp [stActive]
@[simp] theorem updWy_stStaged (w : WytheIx) (f : Wythe → Wythe) (q : Nat) : (s.updWy w f).stStaged q = s.stStaged q := by simp [stStaged]
@[simp] theorem updWy_stPrevious (w : WytheIx) (f : Wythe → Wythe) (q : Nat) : (s.updWy w f).stPrevious q = s.stPrevious q := by simp [stPrevious]
@[simp] theorem updCore_stActive (w : WytheIx) (i : Nat) (f : Core → Core) (q : Nat) : (s.updCore w i f).stActive q = s.stActive q := by simp [stActive]
@[simp] theorem updCore_stStaged (w : WytheIx) (i : Nat) (f : Core → Core) (q : Nat) : (s.updCore w i f).stStaged q = s.stStaged q := by simp [stStaged]
@[simp] theorem updCore_stPrevious (w : WytheIx) (i : Nat) (f : Core → Core) (q : Nat) : (s.updCore w i f).stPrevious q = s.stPrevious q := by simp [stPrevious]
@[simp] theorem updTcb_stActive (w : WytheIx) (i : Nat) (f : Tcb → Tcb) (q : Nat) : (s.updTcb w i f).stActive q = s.stActive q := by simp [stActive]
@[simp] theorem updTcb_stStaged (w : WytheIx) (i : Nat) (f : Tcb → Tcb) (q : Nat) : (s.updTcb w i f).stStaged q = s.stStaged q := by simp [stStaged]
@[simp] theorem updTcb_stPrevious (w : WytheIx) (i : Nat) (f : Tcb → Tcb) (q : Nat) : (s.updTcb w i f).stPrevious q = s.stPrevious q := by simp [stPrevious]
@[simp] theorem updCourse_stActive (w : WytheIx) (c : Nat) (f : Course → Course) (q : Nat) : (s.updCourse w c f).stActive q = s.stActive q := by simp [stActive]
@[simp] theorem updCourse_stStaged (w : WytheIx) (c : Nat) (f : Course → Course) (q : Nat) : (s.updCourse w c f).stStaged q = s.stStaged q := by simp [stStaged]
@[simp] theorem updCourse_stPrevious (w : WytheIx) (c : Nat) (f : Course → Course) (q : Nat) : (s.updCourse w c f).stPrevious q = s.stPrevious q := by simp [stPrevious]
@[simp] theorem updPort_stActive (w : WytheIx) (c : Nat) (f : PortSt → PortSt) (q : Nat) : (s.updPort w c f).stActive q = s.stActive q := by simp [stActive]
@[simp] theorem updPort_stStaged (w : WytheIx) (c : Nat) (f : PortSt → PortSt) (q : Nat) : (s.updPort w c f).stStaged q = s.stStaged q := by simp [stStaged]
@[simp] theorem updPort_stPrevious (w : WytheIx) (c : Nat) (f : PortSt → PortSt) (q : Nat) : (s.updPort w c f).stPrevious q = s.stPrevious q := by simp [stPrevious]
@[simp] theorem updCtx_stActive (x : CtxId) (f : Ctx → Ctx) (q : Nat) : (s.updCtx x f).stActive q = s.stActive q := by simp [stActive]
@[simp] theorem updCtx_stStaged (x : CtxId) (f : Ctx → Ctx) (q : Nat) : (s.updCtx x f).stStaged q = s.stStaged q := by simp [stStaged]
@[simp] theorem updCtx_stPrevious (x : CtxId) (f : Ctx → Ctx) (q : Nat) : (s.updCtx x f).stPrevious q = s.stPrevious q := by simp [stPrevious]
@[simp] theorem updDs_stActive (w : WytheIx) (f : Datestone → Datestone) (q : Nat) : (s.updDs w f).stActive q = s.stActive q := by simp [stActive]
@[simp] theorem updDs_stStaged (w : WytheIx) (f : Datestone → Datestone) (q : Nat) : (s.updDs w f).stStaged q = s.stStaged q := by simp [stStaged]
@[simp] theorem updDs_stPrevious (w : WytheIx) (f : Datestone → Datestone) (q : Nat) : (s.updDs w f).stPrevious q = s.stPrevious q := by simp [stPrevious]
@[simp] theorem updComp_stActive (w : WytheIx) (f : Compositor → Compositor) (q : Nat) : (s.updComp w f).stActive q = s.stActive q := by simp [stActive]
@[simp] theorem updComp_stStaged (w : WytheIx) (f : Compositor → Compositor) (q : Nat) : (s.updComp w f).stStaged q = s.stStaged q := by simp [stStaged]
@[simp] theorem updComp_stPrevious (w : WytheIx) (f : Compositor → Compositor) (q : Nat) : (s.updComp w f).stPrevious q = s.stPrevious q := by simp [stPrevious]
@[simp] theorem updColl_stActive (w : WytheIx) (f : Collator → Collator) (q : Nat) : (s.updColl w f).stActive q = s.stActive q := by simp [stActive]
@[simp] theorem updColl_stStaged (w : WytheIx) (f : Collator → Collator) (q : Nat) : (s.updColl w f).stStaged q = s.stStaged q := by simp [stStaged]
@[simp] theorem updColl_stPrevious (w : WytheIx) (f : Collator → Collator) (q : Nat) : (s.updColl w f).stPrevious q = s.stPrevious q := by simp [stPrevious]
@[simp] theorem updGalley_stActive (w : WytheIx) (f : Galley → Galley) (q : Nat) : (s.updGalley w f).stActive q = s.stActive q := by simp [stActive]
@[simp] theorem updGalley_stStaged (w : WytheIx) (f : Galley → Galley) (q : Nat) : (s.updGalley w f).stStaged q = s.stStaged q := by simp [stStaged]
@[simp] theorem updGalley_stPrevious (w : WytheIx) (f : Galley → Galley) (q : Nat) : (s.updGalley w f).stPrevious q = s.stPrevious q := by simp [stPrevious]
@[simp] theorem updPress_stActive (w : WytheIx) (f : Press → Press) (q : Nat) : (s.updPress w f).stActive q = s.stActive q := by simp [stActive]
@[simp] theorem updPress_stStaged (w : WytheIx) (f : Press → Press) (q : Nat) : (s.updPress w f).stStaged q = s.stStaged q := by simp [stStaged]
@[simp] theorem updPress_stPrevious (w : WytheIx) (f : Press → Press) (q : Nat) : (s.updPress w f).stPrevious q = s.stPrevious q := by simp [stPrevious]
@[simp] theorem updTie_stActive (w : WytheIx) (f : Tie → Tie) (q : Nat) : (s.updTie w f).stActive q = s.stActive q := by simp [stActive]
@[simp] theorem updTie_stStaged (w : WytheIx) (f : Tie → Tie) (q : Nat) : (s.updTie w f).stStaged q = s.stStaged q := by simp [stStaged]
@[simp] theorem updTie_stPrevious (w : WytheIx) (f : Tie → Tie) (q : Nat) : (s.updTie w f).stPrevious q = s.stPrevious q := by simp [stPrevious]
@[simp] theorem updTables_stActive (w : WytheIx) (f : Tables → Tables) (q : Nat) : (s.updTables w f).stActive q = s.stActive q := by simp [stActive]
@[simp] theorem updTables_stStaged (w : WytheIx) (f : Tables → Tables) (q : Nat) : (s.updTables w f).stStaged q = s.stStaged q := by simp [stStaged]
@[simp] theorem updTables_stPrevious (w : WytheIx) (f : Tables → Tables) (q : Nat) : (s.updTables w f).stPrevious q = s.stPrevious q := by simp [stPrevious]
@[simp] theorem updQuoin_stActive (w : WytheIx) (f : Quoin → Quoin) (q : Nat) : (s.updQuoin w f).stActive q = s.stActive q := by simp [stActive]
@[simp] theorem updQuoin_stStaged (w : WytheIx) (f : Quoin → Quoin) (q : Nat) : (s.updQuoin w f).stStaged q = s.stStaged q := by simp [stStaged]
@[simp] theorem updQuoin_stPrevious (w : WytheIx) (f : Quoin → Quoin) (q : Nat) : (s.updQuoin w f).stPrevious q = s.stPrevious q := by simp [stPrevious]
@[simp] theorem wr_core (a : Nat) (v : W32) (w' : WytheIx) (k : Nat) : (s.wr a v).core w' k = s.core w' k := by simp [core]
@[simp] theorem wr_ctx (a : Nat) (v : W32) (y : CtxId) : (s.wr a v).ctx y = s.ctx y := by simp [ctx]
@[simp] theorem wr_tcb (a : Nat) (v : W32) (w' : WytheIx) (k : Nat) : (s.wr a v).tcb w' k = s.tcb w' k := by simp [tcb]
@[simp] theorem wr_course (a : Nat) (v : W32) (w' : WytheIx) (k : Nat) : (s.wr a v).course w' k = s.course w' k := by simp [course]
@[simp] theorem wr_port (a : Nat) (v : W32) (w' : WytheIx) (k : Nat) : (s.wr a v).port w' k = s.port w' k := by simp [port]
@[simp] theorem wr_ds (a : Nat) (v : W32) (w' : WytheIx) : (s.wr a v).ds w' = s.ds w' := by simp [ds]
@[simp] theorem setCtr_core (a : Nat) (v : BitVec 49) (w' : WytheIx) (k : Nat) : (s.setCtr a v).core w' k = s.core w' k := by simp [core]
@[simp] theorem setCtr_ctx (a : Nat) (v : BitVec 49) (y : CtxId) : (s.setCtr a v).ctx y = s.ctx y := by simp [ctx]
@[simp] theorem setCtr_tcb (a : Nat) (v : BitVec 49) (w' : WytheIx) (k : Nat) : (s.setCtr a v).tcb w' k = s.tcb w' k := by simp [tcb]
@[simp] theorem setCtr_course (a : Nat) (v : BitVec 49) (w' : WytheIx) (k : Nat) : (s.setCtr a v).course w' k = s.course w' k := by simp [course]
@[simp] theorem setCtr_port (a : Nat) (v : BitVec 49) (w' : WytheIx) (k : Nat) : (s.setCtr a v).port w' k = s.port w' k := by simp [port]
@[simp] theorem setCtr_ds (a : Nat) (v : BitVec 49) (w' : WytheIx) : (s.setCtr a v).ds w' = s.ds w' := by simp [ds]
@[simp] theorem count_core (a n : Nat) (w' : WytheIx) (k : Nat) : (s.count a n).core w' k = s.core w' k := by simp [core]
@[simp] theorem count_ctx (a n : Nat) (y : CtxId) : (s.count a n).ctx y = s.ctx y := by simp [ctx]
@[simp] theorem count_tcb (a n : Nat) (w' : WytheIx) (k : Nat) : (s.count a n).tcb w' k = s.tcb w' k := by simp [tcb]
@[simp] theorem count_course (a n : Nat) (w' : WytheIx) (k : Nat) : (s.count a n).course w' k = s.course w' k := by simp [course]
@[simp] theorem count_port (a n : Nat) (w' : WytheIx) (k : Nat) : (s.count a n).port w' k = s.port w' k := by simp [port]
@[simp] theorem count_ds (a n : Nat) (w' : WytheIx) : (s.count a n).ds w' = s.ds w' := by simp [ds]
@[simp] theorem latch_core (r : Agent) (lo upper : Nat) (w' : WytheIx) (k : Nat) : (s.latch r lo upper).core w' k = s.core w' k := by simp [core]
@[simp] theorem latch_ctx (r : Agent) (lo upper : Nat) (y : CtxId) : (s.latch r lo upper).ctx y = s.ctx y := by simp [ctx]
@[simp] theorem latch_tcb (r : Agent) (lo upper : Nat) (w' : WytheIx) (k : Nat) : (s.latch r lo upper).tcb w' k = s.tcb w' k := by simp [tcb]
@[simp] theorem latch_course (r : Agent) (lo upper : Nat) (w' : WytheIx) (k : Nat) : (s.latch r lo upper).course w' k = s.course w' k := by simp [course]
@[simp] theorem latch_port (r : Agent) (lo upper : Nat) (w' : WytheIx) (k : Nat) : (s.latch r lo upper).port w' k = s.port w' k := by simp [port]
@[simp] theorem latch_ds (r : Agent) (lo upper : Nat) (w' : WytheIx) : (s.latch r lo upper).ds w' = s.ds w' := by simp [ds]
@[simp] theorem emit_core (o : Output) (w' : WytheIx) (k : Nat) : (s.emit o).core w' k = s.core w' k := by simp [core]
@[simp] theorem emit_ctx (o : Output) (y : CtxId) : (s.emit o).ctx y = s.ctx y := by simp [ctx]
@[simp] theorem emit_tcb (o : Output) (w' : WytheIx) (k : Nat) : (s.emit o).tcb w' k = s.tcb w' k := by simp [tcb]
@[simp] theorem emit_course (o : Output) (w' : WytheIx) (k : Nat) : (s.emit o).course w' k = s.course w' k := by simp [course]
@[simp] theorem emit_port (o : Output) (w' : WytheIx) (k : Nat) : (s.emit o).port w' k = s.port w' k := by simp [port]
@[simp] theorem emit_ds (o : Output) (w' : WytheIx) : (s.emit o).ds w' = s.ds w' := by simp [ds]
@[simp] theorem answer_core (v : W32) (w' : WytheIx) (k : Nat) : (s.answer v).core w' k = s.core w' k := by simp [core]
@[simp] theorem answer_ctx (v : W32) (y : CtxId) : (s.answer v).ctx y = s.ctx y := by simp [ctx]
@[simp] theorem answer_tcb (v : W32) (w' : WytheIx) (k : Nat) : (s.answer v).tcb w' k = s.tcb w' k := by simp [tcb]
@[simp] theorem answer_course (v : W32) (w' : WytheIx) (k : Nat) : (s.answer v).course w' k = s.course w' k := by simp [course]
@[simp] theorem answer_port (v : W32) (w' : WytheIx) (k : Nat) : (s.answer v).port w' k = s.port w' k := by simp [port]
@[simp] theorem answer_ds (v : W32) (w' : WytheIx) : (s.answer v).ds w' = s.ds w' := by simp [ds]
@[simp] theorem raise_core (page : Nat) (bits : W32) (w' : WytheIx) (k : Nat) : (s.raise page bits).core w' k = s.core w' k := by simp [core]
@[simp] theorem raise_ctx (page : Nat) (bits : W32) (y : CtxId) : (s.raise page bits).ctx y = s.ctx y := by simp [ctx]
@[simp] theorem raise_tcb (page : Nat) (bits : W32) (w' : WytheIx) (k : Nat) : (s.raise page bits).tcb w' k = s.tcb w' k := by simp [tcb]
@[simp] theorem raise_course (page : Nat) (bits : W32) (w' : WytheIx) (k : Nat) : (s.raise page bits).course w' k = s.course w' k := by simp [course]
@[simp] theorem raise_port (page : Nat) (bits : W32) (w' : WytheIx) (k : Nat) : (s.raise page bits).port w' k = s.port w' k := by simp [port]
@[simp] theorem raise_ds (page : Nat) (bits : W32) (w' : WytheIx) : (s.raise page bits).ds w' = s.ds w' := by simp [ds]
@[simp] theorem raiseBit_core (page i : Nat) (w' : WytheIx) (k : Nat) : (s.raiseBit page i).core w' k = s.core w' k := by simp [core]
@[simp] theorem raiseBit_ctx (page i : Nat) (y : CtxId) : (s.raiseBit page i).ctx y = s.ctx y := by simp [ctx]
@[simp] theorem raiseBit_tcb (page i : Nat) (w' : WytheIx) (k : Nat) : (s.raiseBit page i).tcb w' k = s.tcb w' k := by simp [tcb]
@[simp] theorem raiseBit_course (page i : Nat) (w' : WytheIx) (k : Nat) : (s.raiseBit page i).course w' k = s.course w' k := by simp [course]
@[simp] theorem raiseBit_port (page i : Nat) (w' : WytheIx) (k : Nat) : (s.raiseBit page i).port w' k = s.port w' k := by simp [port]
@[simp] theorem raiseBit_ds (page i : Nat) (w' : WytheIx) : (s.raiseBit page i).ds w' = s.ds w' := by simp [ds]
@[simp] theorem drop_core (w : WytheIx) (p : Nat) (c : Cause) (w' : WytheIx) (k : Nat) : (s.drop w p c).core w' k = s.core w' k := by simp [core]
@[simp] theorem drop_ctx (w : WytheIx) (p : Nat) (c : Cause) (y : CtxId) : (s.drop w p c).ctx y = s.ctx y := by simp [ctx]
@[simp] theorem drop_tcb (w : WytheIx) (p : Nat) (c : Cause) (w' : WytheIx) (k : Nat) : (s.drop w p c).tcb w' k = s.tcb w' k := by simp [tcb]
@[simp] theorem drop_course (w : WytheIx) (p : Nat) (c : Cause) (w' : WytheIx) (k : Nat) : (s.drop w p c).course w' k = s.course w' k := by simp [course]
@[simp] theorem drop_port (w : WytheIx) (p : Nat) (c : Cause) (w' : WytheIx) (k : Nat) : (s.drop w p c).port w' k = s.port w' k := by simp [port]
@[simp] theorem drop_ds (w : WytheIx) (p : Nat) (c : Cause) (w' : WytheIx) : (s.drop w p c).ds w' = s.ds w' := by simp [ds]
@[simp] theorem updCore_ctx (w : WytheIx) (i : Nat) (f : Core → Core) (y : CtxId) : (s.updCore w i f).ctx y = s.ctx y := by
  simp only [ctx, wy_updCore]; split <;> simp_all
@[simp] theorem updCore_tcb (w : WytheIx) (i : Nat) (f : Core → Core) (w' : WytheIx) (k : Nat) : (s.updCore w i f).tcb w' k = s.tcb w' k := by
  simp only [tcb, wy_updCore]; split <;> simp_all
@[simp] theorem updCore_course (w : WytheIx) (i : Nat) (f : Core → Core) (w' : WytheIx) (k : Nat) : (s.updCore w i f).course w' k = s.course w' k := by
  simp only [course, wy_updCore]; split <;> simp_all
@[simp] theorem updCore_port (w : WytheIx) (i : Nat) (f : Core → Core) (w' : WytheIx) (k : Nat) : (s.updCore w i f).port w' k = s.port w' k := by
  simp only [port, wy_updCore]; split <;> simp_all
@[simp] theorem updCore_ds (w : WytheIx) (i : Nat) (f : Core → Core) (w' : WytheIx) : (s.updCore w i f).ds w' = s.ds w' := by
  simp only [ds, wy_updCore]; split <;> simp_all
@[simp] theorem updTcb_core (w : WytheIx) (i : Nat) (f : Tcb → Tcb) (w' : WytheIx) (k : Nat) : (s.updTcb w i f).core w' k = s.core w' k := by
  simp only [core, wy_updTcb]; split <;> simp_all
@[simp] theorem updTcb_ctx (w : WytheIx) (i : Nat) (f : Tcb → Tcb) (y : CtxId) : (s.updTcb w i f).ctx y = s.ctx y := by
  simp only [ctx, wy_updTcb]; split <;> simp_all
@[simp] theorem updTcb_course (w : WytheIx) (i : Nat) (f : Tcb → Tcb) (w' : WytheIx) (k : Nat) : (s.updTcb w i f).course w' k = s.course w' k := by
  simp only [course, wy_updTcb]; split <;> simp_all
@[simp] theorem updTcb_port (w : WytheIx) (i : Nat) (f : Tcb → Tcb) (w' : WytheIx) (k : Nat) : (s.updTcb w i f).port w' k = s.port w' k := by
  simp only [port, wy_updTcb]; split <;> simp_all
@[simp] theorem updTcb_ds (w : WytheIx) (i : Nat) (f : Tcb → Tcb) (w' : WytheIx) : (s.updTcb w i f).ds w' = s.ds w' := by
  simp only [ds, wy_updTcb]; split <;> simp_all
@[simp] theorem updCourse_core (w : WytheIx) (c : Nat) (f : Course → Course) (w' : WytheIx) (k : Nat) : (s.updCourse w c f).core w' k = s.core w' k := by
  simp only [core, wy_updCourse]; split <;> simp_all
@[simp] theorem updCourse_ctx (w : WytheIx) (c : Nat) (f : Course → Course) (y : CtxId) : (s.updCourse w c f).ctx y = s.ctx y := by
  simp only [ctx, wy_updCourse]; split <;> simp_all
@[simp] theorem updCourse_tcb (w : WytheIx) (c : Nat) (f : Course → Course) (w' : WytheIx) (k : Nat) : (s.updCourse w c f).tcb w' k = s.tcb w' k := by
  simp only [tcb, wy_updCourse]; split <;> simp_all
@[simp] theorem updCourse_port (w : WytheIx) (c : Nat) (f : Course → Course) (w' : WytheIx) (k : Nat) : (s.updCourse w c f).port w' k = s.port w' k := by
  simp only [port, wy_updCourse]; split <;> simp_all
@[simp] theorem updCourse_ds (w : WytheIx) (c : Nat) (f : Course → Course) (w' : WytheIx) : (s.updCourse w c f).ds w' = s.ds w' := by
  simp only [ds, wy_updCourse]; split <;> simp_all
@[simp] theorem updPort_core (w : WytheIx) (c : Nat) (f : PortSt → PortSt) (w' : WytheIx) (k : Nat) : (s.updPort w c f).core w' k = s.core w' k := by
  simp only [core, wy_updPort]; split <;> simp_all
@[simp] theorem updPort_ctx (w : WytheIx) (c : Nat) (f : PortSt → PortSt) (y : CtxId) : (s.updPort w c f).ctx y = s.ctx y := by
  simp only [ctx, wy_updPort]; split <;> simp_all
@[simp] theorem updPort_tcb (w : WytheIx) (c : Nat) (f : PortSt → PortSt) (w' : WytheIx) (k : Nat) : (s.updPort w c f).tcb w' k = s.tcb w' k := by
  simp only [tcb, wy_updPort]; split <;> simp_all
@[simp] theorem updPort_course (w : WytheIx) (c : Nat) (f : PortSt → PortSt) (w' : WytheIx) (k : Nat) : (s.updPort w c f).course w' k = s.course w' k := by
  simp only [course, wy_updPort]; split <;> simp_all
@[simp] theorem updPort_ds (w : WytheIx) (c : Nat) (f : PortSt → PortSt) (w' : WytheIx) : (s.updPort w c f).ds w' = s.ds w' := by
  simp only [ds, wy_updPort]; split <;> simp_all
@[simp] theorem updCtx_core (x : CtxId) (f : Ctx → Ctx) (w' : WytheIx) (k : Nat) : (s.updCtx x f).core w' k = s.core w' k := by
  simp only [core, wy_updCtx]; split <;> simp_all
@[simp] theorem updCtx_tcb (x : CtxId) (f : Ctx → Ctx) (w' : WytheIx) (k : Nat) : (s.updCtx x f).tcb w' k = s.tcb w' k := by
  simp only [tcb, wy_updCtx]; split <;> simp_all
@[simp] theorem updCtx_course (x : CtxId) (f : Ctx → Ctx) (w' : WytheIx) (k : Nat) : (s.updCtx x f).course w' k = s.course w' k := by
  simp only [course, wy_updCtx]; split <;> simp_all
@[simp] theorem updCtx_port (x : CtxId) (f : Ctx → Ctx) (w' : WytheIx) (k : Nat) : (s.updCtx x f).port w' k = s.port w' k := by
  simp only [port, wy_updCtx]; split <;> simp_all
@[simp] theorem updCtx_ds (x : CtxId) (f : Ctx → Ctx) (w' : WytheIx) : (s.updCtx x f).ds w' = s.ds w' := by
  simp only [ds, wy_updCtx]; split <;> simp_all
@[simp] theorem updDs_core (w : WytheIx) (f : Datestone → Datestone) (w' : WytheIx) (k : Nat) : (s.updDs w f).core w' k = s.core w' k := by
  simp only [core, wy_updDs]; split <;> simp_all
@[simp] theorem updDs_ctx (w : WytheIx) (f : Datestone → Datestone) (y : CtxId) : (s.updDs w f).ctx y = s.ctx y := by
  simp only [ctx, wy_updDs]; split <;> simp_all
@[simp] theorem updDs_tcb (w : WytheIx) (f : Datestone → Datestone) (w' : WytheIx) (k : Nat) : (s.updDs w f).tcb w' k = s.tcb w' k := by
  simp only [tcb, wy_updDs]; split <;> simp_all
@[simp] theorem updDs_course (w : WytheIx) (f : Datestone → Datestone) (w' : WytheIx) (k : Nat) : (s.updDs w f).course w' k = s.course w' k := by
  simp only [course, wy_updDs]; split <;> simp_all
@[simp] theorem updDs_port (w : WytheIx) (f : Datestone → Datestone) (w' : WytheIx) (k : Nat) : (s.updDs w f).port w' k = s.port w' k := by
  simp only [port, wy_updDs]; split <;> simp_all
@[simp] theorem updComp_core (w : WytheIx) (f : Compositor → Compositor) (w' : WytheIx) (k : Nat) : (s.updComp w f).core w' k = s.core w' k := by
  simp only [core, wy_updComp]; split <;> simp_all
@[simp] theorem updComp_ctx (w : WytheIx) (f : Compositor → Compositor) (y : CtxId) : (s.updComp w f).ctx y = s.ctx y := by
  simp only [ctx, wy_updComp]; split <;> simp_all
@[simp] theorem updComp_tcb (w : WytheIx) (f : Compositor → Compositor) (w' : WytheIx) (k : Nat) : (s.updComp w f).tcb w' k = s.tcb w' k := by
  simp only [tcb, wy_updComp]; split <;> simp_all
@[simp] theorem updComp_course (w : WytheIx) (f : Compositor → Compositor) (w' : WytheIx) (k : Nat) : (s.updComp w f).course w' k = s.course w' k := by
  simp only [course, wy_updComp]; split <;> simp_all
@[simp] theorem updComp_port (w : WytheIx) (f : Compositor → Compositor) (w' : WytheIx) (k : Nat) : (s.updComp w f).port w' k = s.port w' k := by
  simp only [port, wy_updComp]; split <;> simp_all
@[simp] theorem updComp_ds (w : WytheIx) (f : Compositor → Compositor) (w' : WytheIx) : (s.updComp w f).ds w' = s.ds w' := by
  simp only [ds, wy_updComp]; split <;> simp_all
@[simp] theorem updColl_core (w : WytheIx) (f : Collator → Collator) (w' : WytheIx) (k : Nat) : (s.updColl w f).core w' k = s.core w' k := by
  simp only [core, wy_updColl]; split <;> simp_all
@[simp] theorem updColl_ctx (w : WytheIx) (f : Collator → Collator) (y : CtxId) : (s.updColl w f).ctx y = s.ctx y := by
  simp only [ctx, wy_updColl]; split <;> simp_all
@[simp] theorem updColl_tcb (w : WytheIx) (f : Collator → Collator) (w' : WytheIx) (k : Nat) : (s.updColl w f).tcb w' k = s.tcb w' k := by
  simp only [tcb, wy_updColl]; split <;> simp_all
@[simp] theorem updColl_course (w : WytheIx) (f : Collator → Collator) (w' : WytheIx) (k : Nat) : (s.updColl w f).course w' k = s.course w' k := by
  simp only [course, wy_updColl]; split <;> simp_all
@[simp] theorem updColl_port (w : WytheIx) (f : Collator → Collator) (w' : WytheIx) (k : Nat) : (s.updColl w f).port w' k = s.port w' k := by
  simp only [port, wy_updColl]; split <;> simp_all
@[simp] theorem updColl_ds (w : WytheIx) (f : Collator → Collator) (w' : WytheIx) : (s.updColl w f).ds w' = s.ds w' := by
  simp only [ds, wy_updColl]; split <;> simp_all
@[simp] theorem updGalley_core (w : WytheIx) (f : Galley → Galley) (w' : WytheIx) (k : Nat) : (s.updGalley w f).core w' k = s.core w' k := by
  simp only [core, wy_updGalley]; split <;> simp_all
@[simp] theorem updGalley_ctx (w : WytheIx) (f : Galley → Galley) (y : CtxId) : (s.updGalley w f).ctx y = s.ctx y := by
  simp only [ctx, wy_updGalley]; split <;> simp_all
@[simp] theorem updGalley_tcb (w : WytheIx) (f : Galley → Galley) (w' : WytheIx) (k : Nat) : (s.updGalley w f).tcb w' k = s.tcb w' k := by
  simp only [tcb, wy_updGalley]; split <;> simp_all
@[simp] theorem updGalley_course (w : WytheIx) (f : Galley → Galley) (w' : WytheIx) (k : Nat) : (s.updGalley w f).course w' k = s.course w' k := by
  simp only [course, wy_updGalley]; split <;> simp_all
@[simp] theorem updGalley_port (w : WytheIx) (f : Galley → Galley) (w' : WytheIx) (k : Nat) : (s.updGalley w f).port w' k = s.port w' k := by
  simp only [port, wy_updGalley]; split <;> simp_all
@[simp] theorem updGalley_ds (w : WytheIx) (f : Galley → Galley) (w' : WytheIx) : (s.updGalley w f).ds w' = s.ds w' := by
  simp only [ds, wy_updGalley]; split <;> simp_all
@[simp] theorem updPress_core (w : WytheIx) (f : Press → Press) (w' : WytheIx) (k : Nat) : (s.updPress w f).core w' k = s.core w' k := by
  simp only [core, wy_updPress]; split <;> simp_all
@[simp] theorem updPress_ctx (w : WytheIx) (f : Press → Press) (y : CtxId) : (s.updPress w f).ctx y = s.ctx y := by
  simp only [ctx, wy_updPress]; split <;> simp_all
@[simp] theorem updPress_tcb (w : WytheIx) (f : Press → Press) (w' : WytheIx) (k : Nat) : (s.updPress w f).tcb w' k = s.tcb w' k := by
  simp only [tcb, wy_updPress]; split <;> simp_all
@[simp] theorem updPress_course (w : WytheIx) (f : Press → Press) (w' : WytheIx) (k : Nat) : (s.updPress w f).course w' k = s.course w' k := by
  simp only [course, wy_updPress]; split <;> simp_all
@[simp] theorem updPress_port (w : WytheIx) (f : Press → Press) (w' : WytheIx) (k : Nat) : (s.updPress w f).port w' k = s.port w' k := by
  simp only [port, wy_updPress]; split <;> simp_all
@[simp] theorem updPress_ds (w : WytheIx) (f : Press → Press) (w' : WytheIx) : (s.updPress w f).ds w' = s.ds w' := by
  simp only [ds, wy_updPress]; split <;> simp_all
@[simp] theorem updTie_core (w : WytheIx) (f : Tie → Tie) (w' : WytheIx) (k : Nat) : (s.updTie w f).core w' k = s.core w' k := by
  simp only [core, wy_updTie]; split <;> simp_all
@[simp] theorem updTie_ctx (w : WytheIx) (f : Tie → Tie) (y : CtxId) : (s.updTie w f).ctx y = s.ctx y := by
  simp only [ctx, wy_updTie]; split <;> simp_all
@[simp] theorem updTie_tcb (w : WytheIx) (f : Tie → Tie) (w' : WytheIx) (k : Nat) : (s.updTie w f).tcb w' k = s.tcb w' k := by
  simp only [tcb, wy_updTie]; split <;> simp_all
@[simp] theorem updTie_course (w : WytheIx) (f : Tie → Tie) (w' : WytheIx) (k : Nat) : (s.updTie w f).course w' k = s.course w' k := by
  simp only [course, wy_updTie]; split <;> simp_all
@[simp] theorem updTie_port (w : WytheIx) (f : Tie → Tie) (w' : WytheIx) (k : Nat) : (s.updTie w f).port w' k = s.port w' k := by
  simp only [port, wy_updTie]; split <;> simp_all
@[simp] theorem updTie_ds (w : WytheIx) (f : Tie → Tie) (w' : WytheIx) : (s.updTie w f).ds w' = s.ds w' := by
  simp only [ds, wy_updTie]; split <;> simp_all
@[simp] theorem updTables_core (w : WytheIx) (f : Tables → Tables) (w' : WytheIx) (k : Nat) : (s.updTables w f).core w' k = s.core w' k := by
  simp only [core, wy_updTables]; split <;> simp_all
@[simp] theorem updTables_ctx (w : WytheIx) (f : Tables → Tables) (y : CtxId) : (s.updTables w f).ctx y = s.ctx y := by
  simp only [ctx, wy_updTables]; split <;> simp_all
@[simp] theorem updTables_tcb (w : WytheIx) (f : Tables → Tables) (w' : WytheIx) (k : Nat) : (s.updTables w f).tcb w' k = s.tcb w' k := by
  simp only [tcb, wy_updTables]; split <;> simp_all
@[simp] theorem updTables_course (w : WytheIx) (f : Tables → Tables) (w' : WytheIx) (k : Nat) : (s.updTables w f).course w' k = s.course w' k := by
  simp only [course, wy_updTables]; split <;> simp_all
@[simp] theorem updTables_port (w : WytheIx) (f : Tables → Tables) (w' : WytheIx) (k : Nat) : (s.updTables w f).port w' k = s.port w' k := by
  simp only [port, wy_updTables]; split <;> simp_all
@[simp] theorem updTables_ds (w : WytheIx) (f : Tables → Tables) (w' : WytheIx) : (s.updTables w f).ds w' = s.ds w' := by
  simp only [ds, wy_updTables]; split <;> simp_all
@[simp] theorem updQuoin_core (w : WytheIx) (f : Quoin → Quoin) (w' : WytheIx) (k : Nat) : (s.updQuoin w f).core w' k = s.core w' k := by
  simp only [core, wy_updQuoin]; split <;> simp_all
@[simp] theorem updQuoin_ctx (w : WytheIx) (f : Quoin → Quoin) (y : CtxId) : (s.updQuoin w f).ctx y = s.ctx y := by
  simp only [ctx, wy_updQuoin]; split <;> simp_all
@[simp] theorem updQuoin_tcb (w : WytheIx) (f : Quoin → Quoin) (w' : WytheIx) (k : Nat) : (s.updQuoin w f).tcb w' k = s.tcb w' k := by
  simp only [tcb, wy_updQuoin]; split <;> simp_all
@[simp] theorem updQuoin_course (w : WytheIx) (f : Quoin → Quoin) (w' : WytheIx) (k : Nat) : (s.updQuoin w f).course w' k = s.course w' k := by
  simp only [course, wy_updQuoin]; split <;> simp_all
@[simp] theorem updQuoin_port (w : WytheIx) (f : Quoin → Quoin) (w' : WytheIx) (k : Nat) : (s.updQuoin w f).port w' k = s.port w' k := by
  simp only [port, wy_updQuoin]; split <;> simp_all
@[simp] theorem updQuoin_ds (w : WytheIx) (f : Quoin → Quoin) (w' : WytheIx) : (s.updQuoin w f).ds w' = s.ds w' := by
  simp only [ds, wy_updQuoin]; split <;> simp_all

theorem CtxId_ix_inj {x y : CtxId} (hw : x.w = y.w) (h : x.ix = y.ix) : x = y := by
  rcases x with ⟨w, c, k, n⟩; rcases y with ⟨w', c', k', n'⟩
  simp only [CtxId.ix, coreIx] at h hw
  subst hw
  simp only [CtxId.mk.injEq, true_and]
  refine ⟨Fin.ext ?_, Fin.ext ?_, Fin.ext ?_⟩ <;> omega

@[simp] theorem core_updCore_same (w : WytheIx) (i : Nat) (f : Core → Core) : (s.updCore w i f).core w i = f (s.core w i) := by
  simp [core]
@[simp] theorem ctx_updCtx_same (x : CtxId) (f : Ctx → Ctx) : (s.updCtx x f).ctx x = f (s.ctx x) := by simp [ctx]
theorem ctx_updCtx_ne {x y : CtxId} (f : Ctx → Ctx) (h : y ≠ x) : (s.updCtx x f).ctx y = s.ctx y := by
  simp only [ctx, wy_updCtx]
  split
  · next hw =>
    have : y.ix ≠ x.ix := fun e => h (CtxId_ix_inj hw e)
    simp [kget_kupd_ne _ _ _ this, hw]
  · rfl
@[simp] theorem tcb_updTcb_same (w : WytheIx) (i : Nat) (f : Tcb → Tcb) : (s.updTcb w i f).tcb w i = f (s.tcb w i) := by
  simp [tcb]
@[simp] theorem course_updCourse_same (w : WytheIx) (i : Nat) (f : Course → Course) :
    (s.updCourse w i f).course w i = f (s.course w i) := by simp [course]
@[simp] theorem port_updPort_same (w : WytheIx) (i : Nat) (f : PortSt → PortSt) :
    (s.updPort w i f).port w i = f (s.port w i) := by simp [port]
@[simp] theorem ds_updDs_same (w : WytheIx) (f : Datestone → Datestone) : (s.updDs w f).ds w = f (s.ds w) := by simp [ds]

/-- A change of a context is the change of what it holds. -/
theorem updCtx_congr (x : CtxId) (f g : Ctx → Ctx) (h : f (s.ctx x) = g (s.ctx x)) : s.updCtx x f = s.updCtx x g := by
  simp only [ctx] at h
  simp only [updCtx, updWy, kupd, h]

end State
end Sys2Proof.Machine
end

