-- ==== Sys2Proof/Laws/Mason.lean ====
section
/-! SUPPORT. What the issue of an Eoren instruction does, once for all instructions: the accounting, counters and fetch checks
change nothing that a program sees, and an instruction that changes its context's registers changes nothing else. -/

namespace Sys2Proof.Machine
namespace State

/-- A wythe but for its courses, cores, tasks and contexts. -/
def bare (y : Wythe) : Wythe := { y with courses := [], cores := [], tcbs := [], ctxs := [] }
/-- A course but for the count of its quiescence detector. -/
def plain (c : Course) : Course := { c with quiet := 0 }
/-- The parts of a core that programs see. -/
def seen (c : Core) : (SMap Byte × SMap Byte × Nat) × W24 × W16 × W24 × W16 := ((c.data, c.inst, c.undef), c.spcx, c.ssr, c.sa0, c.sd0)

/-- What every step of an issue's bookkeeping leaves as it was, whatever it counts: each memory, each course and each core as programs see
them, the formes, and every context but `x`. -/
def Quiet (s t : State) (x : CtxId) : Prop :=
  (t.active = s.active ∧ t.previous = s.previous) ∧
    ∀ w, bare (t.wy w) = bare (s.wy w) ∧ (∀ c, plain (t.course w c) = plain (s.course w c)) ∧ (∀ k, seen (t.core w k) = seen (s.core w k)) ∧
      ∀ y : CtxId, y.w = w → y ≠ x → t.ctx y = s.ctx y

namespace Quiet
variable {s t u : State} {x : CtxId}

theorem wy (h : Quiet s t x) (w : WytheIx) : bare (t.wy w) = bare (s.wy w) := (h.2 w).1
theorem course (h : Quiet s t x) (w : WytheIx) (c : Nat) : plain (t.course w c) = plain (s.course w c) := (h.2 w).2.1 c
theorem core (h : Quiet s t x) (w : WytheIx) (k : Nat) : seen (t.core w k) = seen (s.core w k) := (h.2 w).2.2.1 k
theorem ctx (h : Quiet s t x) (y : CtxId) (hy : y ≠ x) : t.ctx y = s.ctx y := (h.2 y.w).2.2.2 y rfl hy

theorem refl (s : State) (x : CtxId) : Quiet s s x := by simp [Quiet]
theorem trans (h : Quiet s t x) (g : Quiet t u x) : Quiet s u x := by
  refine ⟨⟨g.1.1.trans h.1.1, g.1.2.trans h.1.2⟩, fun w => ⟨?_, ?_, ?_, ?_⟩⟩
  · rw [g.wy, h.wy]
  · intro c; rw [g.course, h.course]
  · intro k; rw [g.core, h.core]
  · intro y _ hy; rw [g.ctx y hy, h.ctx y hy]

theorem bankByte (h : Quiet s t x) (w : WytheIx) (c off : Nat) : t.bankByte w c off = s.bankByte w c off := by
  have hc := h.course w c
  simp only [plain, Course.mk.injEq] at hc
  simp [State.bankByte, hc]
theorem marches (h : Quiet s t x) (w : WytheIx) : (t.wy w).marches = (s.wy w).marches := by
  have := congrArg Wythe.marches (h.wy w)
  simpa [bare] using this
theorem bankView (h : Quiet s t x) (w : WytheIx) (c b : Nat) : t.bankView w c b = s.bankView w c b := by
  have hc := h.course w c
  simp only [plain, Course.mk.injEq] at hc
  simp [State.bankView, State.marching, h.marches, hc]
theorem memByte (h : Quiet s t x) (y : CtxId) (hy : t.ctx y = s.ctx y) (a : Nat) : t.memByte y a = s.memByte y a := by
  have hc := h.core y.w y.core.ix
  simp only [seen, Prod.mk.injEq] at hc
  simp only [State.memByte, hy, hc.1.1, hc.1.2.1, hc.1.2.2, h.bankView, h.bankByte]

/-- What is quiet for every context changes none. -/
theorem ctx_all (h : ∀ x, Quiet s t x) (y : CtxId) : t.ctx y = s.ctx y := by
  refine (h { y with x := y.x + 1 }).ctx y fun he => ?_
  have hx : ∀ n : CtxIx, n ≠ n + 1 := by decide
  exact hx y.x (congrArg CtxId.x he)

theorem elsewhere (h : Quiet s t x) : Elsewhere s t x := by
  refine ⟨fun y hy => ⟨h.ctx y hy, h.memByte y (h.ctx y hy)⟩, fun w k => ?_⟩
  have hc := h.core w k
  simp only [seen, Prod.mk.injEq] at hc
  exact ⟨hc.2.1, hc.2.2.1, hc.2.2.2.1, hc.2.2.2.2⟩
end Quiet

variable (s : State)

theorem each_induct {α : Type} (P : State → Prop) (f : State → α → State) (hf : ∀ s e, P s → P (f s e)) :
    ∀ (l : List α) (s : State), P s → P (s.each l f)
  | [], _, h => h
  | e :: l, s, h => by
    have := each_induct P f hf l (f s e) (hf s e h)
    simpa [each] using this

theorem seen_core_updCore (w w' : WytheIx) (i k : Nat) (f : Core → Core) (hf : ∀ c, seen (f c) = seen c) :
    seen ((s.updCore w i f).core w' k) = seen (s.core w' k) := by
  simp only [core, wy_updCore]
  split
  · next h => subst h; simp only [kget_kupd]; split
              · next h => subst h; exact hf _
              · rfl
  · rfl

/-- The counters, events and cores' own counts do not matter to programs. -/
theorem quiet_count (x : CtxId) (a n : Nat) : Quiet s (s.count a n) x := by
  simp [Quiet]
theorem quiet_raiseBit (x : CtxId) (p i : Nat) : Quiet s (s.raiseBit p i) x := by
  simp [Quiet]
theorem quiet_wr (x : CtxId) (a : Nat) (v : W32) : Quiet s (s.wr a v) x := by
  simp [Quiet]
theorem quiet_updCore (x : CtxId) (w : WytheIx) (i : Nat) (f : Core → Core) (hf : ∀ c, seen (f c) = seen c) :
    Quiet s (s.updCore w i f) x := by
  refine ⟨⟨by simp, by simp⟩, fun w' => ⟨?_, by simp, fun k => seen_core_updCore s w w' i k f hf, by simp⟩⟩
  simp only [wy_updCore]; split
  · next h => subst h; rfl
  · rfl
theorem quiet_updTcb (x : CtxId) (w : WytheIx) (i : Nat) (f : Tcb → Tcb) : Quiet s (s.updTcb w i f) x := by
  refine ⟨⟨by simp, by simp⟩, fun w' => ⟨?_, by simp, by simp, by simp⟩⟩
  simp only [wy_updTcb]; split
  · next h => subst h; rfl
  · rfl
theorem quiet_updCtx (x : CtxId) (f : Ctx → Ctx) : Quiet s (s.updCtx x f) x := by
  refine ⟨⟨by simp, by simp⟩, fun w' => ⟨?_, by simp, by simp, fun y _ hy => ctx_updCtx_ne s f hy⟩⟩
  simp only [wy_updCtx]; split
  · next h => subst h; rfl
  · rfl
theorem quiet_onlyIf (x : CtxId) (b : Bool) (f : State → State) (hf : ∀ s, Quiet s (f s) x) : Quiet s (s.onlyIf b f) x := by
  unfold onlyIf; split
  · exact hf s
  · exact .refl s x
theorem quiet_each {α : Type} (x : CtxId) (l : List α) (f : State → α → State) (hf : ∀ s e, Quiet s (f s e) x) :
    Quiet s (s.each l f) x :=
  each_induct (fun t => Quiet s t x) f (fun t e h => h.trans (hf t e)) l s (.refl s x)

theorem quiet_pmcOne (x : CtxId) (w : WytheIx) (i n : Nat) (c : Option CtxIx) (k : Nat) : Quiet s (s.pmcOne w i n c k) x := by
  have h1 : Quiet s (s.count (pmcCtr w i n) k) x := quiet_count s x _ _
  unfold pmcOne
  dsimp only
  split
  · split
    · exact h1.trans (quiet_raiseBit _ x _ _)
    · exact h1
  · have h2 : Quiet s (if ((s.count (pmcCtr w i n) k).ctr (pmcCtr w i n)).msb && decide ((s.count (pmcCtr w i n) k).ctrVal (pmcCtr w i n) < k) &&
        !s.frozen (pgPerf w i) then (s.count (pmcCtr w i n) k).raiseBit (pgPerf w i) 0 else s.count (pmcCtr w i n) k) x := by
      split
      · exact h1.trans (quiet_raiseBit _ x _ _)
      · exact h1
    split
    · exact h2.trans (quiet_updCore _ x _ _ _ (fun _ => rfl))
    · exact h2.trans (quiet_updCore _ x _ _ _ (fun _ => rfl))
theorem quiet_pmc (x : CtxId) (w : WytheIx) (i code : Nat) (c : Option CtxIx) (k : Nat) : Quiet s (s.pmc w i code c k) x := by
  unfold pmc
  exact quiet_each s x _ _ (fun s e => quiet_onlyIf s x _ _ (fun s => quiet_pmcOne s x _ _ _ _ _))

@[simp] theorem pmc_ctx (w : WytheIx) (i code : Nat) (c : Option CtxIx) (k : Nat) (y : CtxId) :
    (s.pmc w i code c k).ctx y = s.ctx y := Quiet.ctx_all (fun x => quiet_pmc s x w i code c k) y
@[simp] theorem onlyIf_ctx (b : Bool) (f : State → State) (y : CtxId) (hf : ∀ s, (f s).ctx y = s.ctx y) :
    (s.onlyIf b f).ctx y = s.ctx y := by
  unfold onlyIf; split
  · exact hf s
  · rfl

theorem quiet_nameSample (x : CtxId) (w : WytheIx) (i : Nat) (d : SampleDue) (n : CtxIx) (pc : W24) (task : Option TcbIx) (next : Bool) :
    Quiet s (s.nameSample w i d n pc task next) x := by
  unfold nameSample
  have h1 := quiet_updCore s x w i (fun c => { c with due := c.due.erase d }) (fun _ => rfl)
  dsimp only
  split
  · exact h1.trans (quiet_count _ x _ _)
  · split
    · refine ((h1.trans (quiet_updCore _ x w i _ ?_)).trans (quiet_count _ x _ _)).trans (quiet_raiseBit _ x _ _)
      exact fun _ => rfl
    · refine (h1.trans (quiet_updCore _ x w i _ ?_)).trans (quiet_count _ x _ _)
      exact fun _ => rfl
theorem quiet_nameSamples (x : CtxId) (w : WytheIx) (i : Nat) (n : CtxIx) (c : Ctx) (own : Bool) : Quiet s (s.nameSamples w i n c own) x := by
  unfold nameSamples
  dsimp only
  refine Quiet.trans (t := _) ?_ (quiet_each _ x _ _ (fun s e => quiet_each s x _ _ (fun s d => quiet_nameSample s x _ _ _ _ _ _ _)))
  split
  · exact quiet_updCore s x _ _ _ (fun _ => rfl)
  · exact .refl s x
theorem quiet_takeCycle (x y : CtxId) (t gap : Nat) : Quiet s (s.takeCycle y t gap) x := by
  unfold takeCycle runTo
  dsimp only
  have h1 := fun s : State => quiet_updCore s x y.w y.core.ix
  refine Quiet.trans (((h1 _ _ ?_).trans (h1 _ _ ?_)).trans (quiet_onlyIf _ _ _ _ (fun s => ?_))) (quiet_pmc _ _ _ _ _ _ _)
  · exact fun _ => rfl
  · exact fun _ => rfl
  · exact (quiet_count s _ _ _).trans (quiet_pmc _ _ _ _ _ _ _)

theorem quiet_countPair (x : CtxId) (i : Issue) : Quiet s (s.countPair i) x := by
  unfold countPair
  dsimp only
  have h1 := (quiet_nameSamples s x i.id.w i.id.core.ix i.id.x (s.ctx i.id) false).trans (quiet_updCore _ x i.id.w i.id.core.ix
    (fun k => { k with last := none }) (fun _ => rfl))
  exact ((h1.trans (quiet_count _ _ _ _)).trans (quiet_pmc _ _ _ _ _ _ _)).trans (quiet_pmc _ _ _ _ _ _ _)
theorem quiet_countAlone (x : CtxId) (i : Issue) (half : Option Half) : Quiet s (s.countAlone i half) x := by
  unfold countAlone
  dsimp only
  have h1 := (quiet_takeCycle s x i.id (s.issueCycle i) i.gap).trans (quiet_nameSamples _ x i.id.w i.id.core.ix i.id.x (s.ctx i.id) true)
  refine Quiet.trans (Quiet.trans (Quiet.trans (h1.trans (quiet_updCore _ _ _ _ _ ?_)) (quiet_count _ _ _ _)) (quiet_pmc _ _ _ _ _ _ _))
    (quiet_pmc _ _ _ _ _ _ _)
  exact fun _ => rfl
theorem quiet_countIssue (x : CtxId) (i : Issue) (half : Option Half) : Quiet s (s.countIssue i half) x := by
  unfold countIssue; split
  · exact quiet_countPair s x i
  · exact quiet_countAlone s x i half
@[simp] theorem countIssue_ctx (i : Issue) (half : Option Half) (y : CtxId) : (s.countIssue i half).ctx y = s.ctx y :=
  Quiet.ctx_all (fun x => quiet_countIssue s x i half) y
theorem quiet_waitingEnds (x y : CtxId) (t : Nat) : Quiet s (s.waitingEnds y t) x := by
  unfold waitingEnds; split
  · exact .refl _ _
  · exact quiet_updTcb _ _ _ _ _
@[simp] theorem waitingEnds_ctx (x : CtxId) (t : Nat) (y : CtxId) : (s.waitingEnds x t).ctx y = s.ctx y :=
  Quiet.ctx_all (fun z => quiet_waitingEnds s z x t) y
theorem quiet_accounting (i : Issue) (half : Option Half) : Quiet s (s.accounting i half) i.id := by
  unfold accounting
  exact ((quiet_countIssue s i.id i half).trans (quiet_waitingEnds _ i.id i.id _)).trans (quiet_updCtx _ i.id _)

@[simp] theorem accounting_ctx (i : Issue) (half : Option Half) : (s.accounting i half).ctx i.id = s.settled i := by
  simp [accounting, settled]

theorem quiet_bankCorrected (x : CtxId) (w : WytheIx) (c : Nat) : Quiet s (s.bankCorrected w c) x := quiet_count s x _ _
theorem quiet_bankUncorrectable (x : CtxId) (w : WytheIx) (c off : Nat) : Quiet s (s.bankUncorrectable w c off) x := by
  unfold bankUncorrectable
  exact ((quiet_count s x _ _).trans (quiet_wr _ x _ _)).trans (quiet_raiseBit _ x _ _)
theorem quiet_fetchCheck (x : CtxId) (i : Issue) (pc : Nat) : Quiet s (s.fetchCheck i pc) x := by
  unfold fetchCheck
  split
  · exact .refl _ _
  · split
    · exact .refl _ _
    · exact quiet_bankCorrected _ _ _ _
    · exact quiet_bankUncorrectable _ _ _ _ _
@[simp] theorem fetchCheck_ctx (i : Issue) (pc : Nat) (y : CtxId) : (s.fetchCheck i pc).ctx y = s.ctx y :=
  Quiet.ctx_all (fun x => quiet_fetchCheck s x i pc) y
theorem quiet_cacheLine (x y : CtxId) (pc : Nat) : Quiet s (s.cacheLine y pc) x := by
  unfold cacheLine
  dsimp only
  split
  · exact .refl _ _
  · refine Quiet.trans (quiet_updCore s x _ _ _ ?_) (quiet_pmc _ x _ _ _ _ _)
    exact fun _ => rfl
@[simp] theorem cacheLine_ctx (x : CtxId) (pc : Nat) (y : CtxId) : (s.cacheLine x pc).ctx y = s.ctx y :=
  Quiet.ctx_all (fun z => quiet_cacheLine s z x pc) y

/-- The state in which an instruction that is ready has its effect. -/
def fetched (i : Issue) (half : Option Half := none) : State :=
  ((s.accounting i half).fetchCheck i (s.ctx i.id).pcx.toNat).cacheLine i.id (s.ctx i.id).pcx.toNat
theorem quiet_fetched (i : Issue) (half : Option Half) : Quiet s (s.fetched i half) i.id := by
  unfold fetched
  exact ((quiet_accounting s i half).trans (quiet_fetchCheck _ i.id i _)).trans (quiet_cacheLine _ i.id i.id _)
@[simp] theorem fetched_ctx (i : Issue) (half : Option Half) : (s.fetched i half).ctx i.id = s.settled i := by simp [fetched]

theorem landOne_keeps (c : Ctx) (p : Product) : (landOne c p).pcx = c.pcx ∧ (landOne c p).state = c.state ∧ (landOne c p).stepping = c.stepping ∧
    (landOne c p).a = c.a ∧ (landOne c p).d = c.d ∧ (landOne c p).sr = c.sr := by
  unfold landOne Ctx.setX; split <;> simp
theorem landFold_keeps (l : List Product) : ∀ c : Ctx, (l.foldl landOne c).pcx = c.pcx ∧ (l.foldl landOne c).state = c.state ∧
    (l.foldl landOne c).stepping = c.stepping ∧ (l.foldl landOne c).a = c.a ∧ (l.foldl landOne c).d = c.d ∧ (l.foldl landOne c).sr = c.sr := by
  induction l with
  | nil => intro c; simp
  | cons p l ih =>
    intro c
    have h1 := ih (landOne c p)
    have h2 := landOne_keeps c p
    simp only [List.foldl_cons]
    and_intros <;> simp_all
/-- Landing products change the product registers and the accumulators alone. -/
theorem settleCtx_keeps (t : Nat) (c : Ctx) : (settleCtx t c).pcx = c.pcx ∧ (settleCtx t c).state = c.state ∧
    (settleCtx t c).stepping = c.stepping ∧ (settleCtx t c).a = c.a ∧ (settleCtx t c).d = c.d ∧ (settleCtx t c).sr = c.sr := by
  have h := landFold_keeps (c.products.filter (fun p => decide (p.lands ≤ t))) { c with products := c.products.filter (fun p => !decide (p.lands ≤ t)) }
  unfold settleCtx
  dsimp only
  split
  · split <;> simpa using h
  · simpa using h
@[simp] theorem settled_pcx (i : Issue) : (s.settled i).pcx = (s.ctx i.id).pcx := (settleCtx_keeps _ _).1
@[simp] theorem settled_state (i : Issue) : (s.settled i).state = (s.ctx i.id).state := (settleCtx_keeps _ _).2.1
@[simp] theorem settled_stepping (i : Issue) : (s.settled i).stepping = (s.ctx i.id).stepping := (settleCtx_keeps _ _).2.2.1
@[simp] theorem settled_a (i : Issue) : (s.settled i).a = (s.ctx i.id).a := (settleCtx_keeps _ _).2.2.2.1
@[simp] theorem settled_d (i : Issue) : (s.settled i).d = (s.ctx i.id).d := (settleCtx_keeps _ _).2.2.2.2.1
@[simp] theorem settled_sr (i : Issue) : (s.settled i).sr = (s.ctx i.id).sr := (settleCtx_keeps _ _).2.2.2.2.2

theorem mayIssue_running {s : State} {i : Issue} {reads : List Reg} {half : Option Half} {addrs : List Reg}
    (h : s.mayIssue i reads half addrs = true) : (s.ctx i.id).state = .running := by
  simp only [mayIssue, issuable, Bool.and_eq_true, beq_iff_eq] at h
  exact h.1.1.1.1.2.1.1.1.1

/-- A ready instruction has its effect in the state that the accounting and the fetch leave. -/
theorem issue_ready {i : Issue} {long : Bool} {reads addrs : List Reg} {f : State → Effect} {half : Option Half}
    (h : s.Ready i reads (if long then 4 else 2) half addrs) :
    s.issue i long reads f half addrs = match f (s.fetched i half) with
      | .done t => (t.updCtx i.id (fun c => { c with pcx := (s.ctx i.id).pcx + BitVec.ofNat 24 (if long then 4 else 2) })).stepEnds i.id
      | .jump a t => (t.updCtx i.id (fun c => { c with pcx := a &&& 0xFFFFFE#24 })).stepEnds i.id
      | .hold t => t.stepEnds i.id
      | .fault code addr t => t.fault i.id code addr
      | .wait => s := by
  obtain ⟨h1, h2, h3⟩ := h
  unfold issue
  simp only [h1, Bool.not_true, Bool.false_eq_true, if_false, h2, h3, decide_false, Bool.false_and]
  rfl
/-- A ready instruction that completes: its effect, and the context goes on at the next instruction. -/
theorem issue_done {i : Issue} {long : Bool} {reads addrs : List Reg} {f : State → Effect} {t : State} {half : Option Half}
    (h : s.Ready i reads (if long then 4 else 2) half addrs) (hf : f (s.fetched i half) = .done t) :
    s.issue i long reads f half addrs =
      (t.updCtx i.id (fun c => { c with pcx := (s.ctx i.id).pcx + BitVec.ofNat 24 (if long then 4 else 2) })).stepEnds i.id := by
  rw [issue_ready s h, hf]

theorem quiet_interrupt (x : CtxId) (w : WytheIx) (i n : Nat) : Quiet s (s.interrupt w i n) x :=
  quiet_updCore s x _ _ _ (fun _ => rfl)
theorem quiet_unquiet (x : CtxId) (w : WytheIx) (c : Nat) : Quiet s (s.unquiet w c) x := by
  unfold unquiet
  refine ⟨⟨by simp, by simp⟩, fun w' => ⟨?_, fun c' => ?_, by simp, by simp⟩⟩
  · simp only [wy_updCourse]; split
    · next h => subst h; rfl
    · rfl
  · simp only [course, wy_updCourse]; split
    · next h =>
      subst h; simp only [kget_kupd]; split
      · next h => subst h; rfl
      · rfl
    · rfl
theorem quiet_setCtxState (x : CtxId) (st : CtxState) : Quiet s (s.setCtxState x st) x := by
  unfold setCtxState
  dsimp only
  refine Quiet.trans (Quiet.trans (Quiet.trans (t := _) ?_ (quiet_onlyIf _ _ _ _ (fun s => quiet_interrupt s _ _ _ _)))
    (quiet_onlyIf _ _ _ _ (fun s => quiet_unquiet s _ _ _))) (quiet_onlyIf _ _ _ _ (fun s => quiet_raiseBit s _ _ _))
  split
  · exact (quiet_updCtx s x _).trans (quiet_updTcb _ _ _ _ _)
  · exact quiet_updCtx s x _
@[simp] theorem interrupt_ctx (w : WytheIx) (i n : Nat) (y : CtxId) : (s.interrupt w i n).ctx y = s.ctx y := by simp [interrupt]
@[simp] theorem setCtxState_ctx (x : CtxId) (st : CtxState) : (s.setCtxState x st).ctx x = { s.ctx x with state := st } := by
  unfold setCtxState
  dsimp only
  rw [onlyIf_ctx _ _ _ _ (fun s => by simp), onlyIf_ctx _ _ _ _ (fun s => by simp [unquiet]), onlyIf_ctx _ _ _ _ (fun s => by simp)]
  split <;> simp
theorem quiet_stepEnds (x : CtxId) : Quiet s (s.stepEnds x) x := by
  unfold stepEnds
  split
  · exact ((quiet_updCtx s x _).trans (quiet_setCtxState _ x _)).trans (quiet_count _ x _ _)
  · exact .refl _ _
theorem stepEnds_ctx (x : CtxId) (h : (s.ctx x).state = .running) : (s.stepEnds x).ctx x = afterStep (s.ctx x) := by
  unfold stepEnds afterStep
  by_cases hs : (s.ctx x).stepping = true
  · simp [hs, h]
  · simp [hs]

/-- The one law of the instructions that change their context's registers alone: they complete, and nothing else changes. -/
theorem issue_regsOnly {i : Issue} {long : Bool} {reads : List Reg} {f : State → Effect} {g : Ctx → Ctx}
    {half : Option Half} (h : s.Ready i reads (if long then 4 else 2) half)
    (hf : f (s.fetched i half) = (s.fetched i half).regsOnly i.id g) (hst : (g (s.settled i)).state = (s.settled i).state) :
    Advanced s (s.issue i long reads f half) i (if long then 4 else 2) g ∧ Elsewhere s (s.issue i long reads f half) i.id := by
  have hr := mayIssue_running h.1
  rw [issue_done s h hf]
  constructor
  · unfold Advanced
    rw [stepEnds_ctx]
    · simp
    · simp [hst, hr]
  · exact (((quiet_fetched s i half).trans (quiet_updCtx _ _ _)).trans ((quiet_updCtx _ _ _).trans (quiet_stepEnds _ _))).elsewhere

end State
end Sys2Proof.Machine
end

