-- ==== Sys2Proof/Machine/Package.lean ====
section
/-! DEFINITION. The package's limits and ball assignment (chapter 21): figures that no command reads. The events they bring (SUPPLY,
POWER_ON, MAIN_RAILS_FALL, VKEEP_LOSS, PWRFAIL, SHUTDN_REQ, PERST_N_RELEASE, TAMPER_ASSERT) are commands. -/

namespace Sys2Proof.Machine.Package

/-! Rails and limits (R548–R552). -/

/-- Supply rails; VDD_SD has two voltages. -/
inductive Rail where
  | vddW0 | vddW1 | vddSram | vddSd075 | vddSd120 | vddqLp | vddLpio | vddIo | vkeep | vkeepIo
  deriving DecidableEq, Repr

/-- Minimum, nominal and maximum in 0.1 mV (R549). -/
def railRange : Rail → Nat × Nat × Nat
  | .vddW0 => (7275, 7500, 7725)
  | .vddW1 => (7275, 7500, 7725)
  | .vddSram => (7760, 8000, 8240)
  | .vddSd075 => (7275, 7500, 7725)
  | .vddSd120 => (11640, 12000, 12360)
  | .vddqLp => (4850, 5000, 5150)
  | .vddLpio => (10185, 10500, 10815)
  | .vddIo => (17100, 18000, 18900)
  | .vkeep => (7600, 8000, 8400)
  | .vkeepIo => (17100, 18000, 18900)

/-- Maximum current in mA (R549); VKEEP takes 40 mA for 10 ms after Brace. -/
def railCurrent : Rail → Nat
  | .vddW0 => 34800 | .vddW1 => 34800 | .vddSram => 25900 | .vddSd075 => 9300 | .vddSd120 => 3800
  | .vddqLp => 2000 | .vddLpio => 1900 | .vddIo => 280 | .vkeep => 5 | .vkeepIo => 10

/-- Absolute maximum in 0.1 mV; the minimum of every rail is −300 mV (R548). -/
def railAbsMax : Rail → Nat
  | .vddW0 => 9000 | .vddW1 => 9000 | .vddSd075 => 9000 | .vddSram => 9500 | .vkeep => 9500 | .vddSd120 => 14000
  | .vddqLp => 6500 | .vddLpio => 12500 | .vddIo => 21000 | .vkeepIo => 21000

/-- A rail lies in its range. -/
def railOk (r : Rail) (level : Int) : Bool := decide ((railRange r).1 ≤ level) && decide (level ≤ (railRange r).2.2)
/-- A core rail below its minimum, the condition of SUPPLY while PWRFAIL_N is high (R549). -/
def railLow (r : Rail) (level : Int) : Bool := decide (level < (railRange r).1)
/-- A core rail within ±3 % of nominal, as Proof asks (R497). -/
def railProof (r : Rail) (level : Int) : Bool :=
  decide (97 * (railRange r).2.1 ≤ 100 * level) && decide (100 * level ≤ 103 * (railRange r).2.1)
/-- VKEEP below which the Keep store may be corrupted when VDD_IO or a logic rail rises (R552). -/
def vkeepFloor : Nat := 7000

/-- The steps in which the rails rise (R551). -/
def riseStep : Rail → Nat
  | .vkeep => 1 | .vkeepIo => 1 | .vddIo => 2 | .vddW0 => 3 | .vddW1 => 3 | .vddSram => 3
  | .vddSd075 => 4 | .vddSd120 => 4 | .vddLpio => 4 | .vddqLp => 4

/-- Junction temperature in °C: operating range, and the limits of R548. -/
def tjOperates (t : Int) : Bool := decide (-40 ≤ t) && decide (t ≤ 125)
def tjSurvives (t : Int) : Bool := decide (-55 ≤ t) && decide (t ≤ 150)

/-- Device power in mW, typical and maximum (R550): RUN, PLUMB and HALF; PROOF; SETTING; BRACE; DORMANT; OFF. -/
def powerRun : Nat × Nat := (55000, 88000)
def powerProof : Nat × Nat := (40000, 65000)
def powerSetting : Nat × Nat := (30000, 60000)
def powerBrace : Nat × Nat := (6000, 9000)
def powerDormant : Nat × Nat := (2400, 3500)
def powerOff : Nat × Nat := (2, 4)

/-- Clock inputs: frequency in Hz and tolerance in ppm (R555). -/
def sysclk : Nat × Nat := (25000000, 50)
def sdRefclk : Nat × Nat := (156250000, 100)
def pcieRefclk : Nat × Nat := (100000000, 300)
def ptpclk : Nat × Nat := (10000000, 10)

/-- Hold times of the control inputs in ns (R554). -/
def resetLow : Nat := 10000
def pwrfailLow : Nat := 100
def shutdnHigh : Nat := 10000
def tamperLow : Nat := 100000
def perstAfterClock : Nat := 100000
def ppsHigh : Nat := 100
def trstLow : Nat := 1000

/-- Thermal resistances in 0.01 °C/W, junction to case and to board (R557). -/
def thetaJC : Nat := 8
def thetaJB : Nat := 210
/-- Powered hours at and above each junction temperature of the mission profile (R558). -/
def missionHours : List (Int × Nat) := [(125, 2000), (110, 8000), (95, 30000), (75, 40000), (40, 15000), (-40, 5000)]

/-! Balls (R559–R563). -/

/-- Letters of a row, in order: I, O, Q, R, S, X and Z are not used (R559). -/
def rowLetters : List Char := ['A', 'B', 'C', 'D', 'E', 'F', 'G', 'H', 'J', 'K', 'L', 'M', 'N', 'P', 'T', 'U', 'V', 'W', 'Y']
/-- The name of the row with ordinal `k`, 1 to 54: one letter, and then with A and with B before it. -/
def rowName (k : Nat) : List Char :=
  let last := rowLetters.getD ((k - 1) % 19) 'A'
  if k ≤ 19 then [last] else if k ≤ 38 then ['A', last] else ['B', last]

/-- Single signals of R562 and of R560's lone balls. -/
inductive Lone where
  | sysclkIn | resetN | pwrfailN | shutdnReq | ppsIn | ppsOut | ptpclkIn | evtN | qspiClk | qspiCsN | uartTx | uartRx
  | braceClk | braceCsN | braceMosi | braceMiso | tck | tms | tdi | tdo | trstN | pcieRefclkP | pcieRefclkN | perstN
  deriving DecidableEq, Repr

/-- What a ball carries: `n` is true for the negative side of a pair. -/
inductive Signal where
  | sdTx (lane : Fin 48) (n : Bool)
  | sdRx (lane : Fin 48) (n : Bool)
  | sdRefclk (k : Fin 6) (n : Bool)
  | pcieTx (i : Fin 8) (n : Bool)
  | pcieRx (i : Fin 8) (n : Bool)
  | lpch (c : Fin 8) (s : Fin 37)
  | gpio (g : Fin 16)
  | tamper (k : Fin 4)
  | qspiIo (k : Fin 4)
  | lone (l : Lone)
  deriving DecidableEq, Repr

/-- Ordinal of the row and column of a single signal (R560, R562). -/
def loneBall : Lone → Nat × Nat
  | .sysclkIn => (28, 1) | .resetN => (28, 3)
  | .pwrfailN => (29, 1) | .shutdnReq => (29, 3)
  | .ppsIn => (30, 1) | .ppsOut => (30, 3)
  | .ptpclkIn => (31, 1) | .evtN => (31, 3)
  | .qspiClk => (32, 1) | .qspiCsN => (32, 3)
  | .uartTx => (34, 1) | .uartRx => (34, 3)
  | .braceClk => (40, 1) | .braceCsN => (40, 3) | .braceMosi => (40, 5) | .braceMiso => (40, 7)
  | .tck => (35, 1) | .tms => (35, 3) | .tdi => (35, 5) | .tdo => (35, 7) | .trstN => (35, 9)
  | .pcieRefclkP => (8, 1) | .pcieRefclkN => (8, 2) | .perstN => (8, 4)

/-- Ordinal of the row and column of a signal (R560–R562). -/
def ballOf : Signal → Nat × Nat
  | .sdTx l n => (if l.val < 24 then 2 else 53, 2 * (l.val % 24) + 3 + n.toNat)
  | .sdRx l n => (if l.val < 24 then 5 else 50, 2 * (l.val % 24) + 3 + n.toNat)
  | .sdRefclk k n => (if k.val < 3 then 7 else 48, 16 * (k.val % 3) + 7 + n.toNat)
  | .pcieTx i n => (10 + 2 * i.val, 1 + n.toNat)
  | .pcieRx i n => (10 + 2 * i.val, 4 + n.toNat)
  | .lpch c s => ((if c.val < 4 then 8 + 5 * c.val else 28 + 5 * (c.val - 4)) + s.val / 8, 47 + s.val % 8)
  | .gpio g => if g.val < 8 then (36, 2 * g.val + 1) else (37, 2 * (g.val - 8) + 1)
  | .tamper k => (39, 2 * k.val + 1)
  | .qspiIo k => (33, 2 * k.val + 1)
  | .lone l => loneBall l

/-- Signals of a DRAM channel by their index (R561): clock, chip select, command and address, data, mask, strobes, write clocks, reset. -/
inductive DramSignal where
  | ckT | ckC | cs
  | ca (i : Fin 7)
  | dq (i : Fin 16)
  | dmi (i : Fin 2)
  | rdqsT (i : Fin 2) | rdqsC (i : Fin 2)
  | wckT (i : Fin 2) | wckC (i : Fin 2)
  | resetN
  deriving DecidableEq, Repr
def dramIndex : DramSignal → Nat
  | .ckT => 0 | .ckC => 1 | .cs => 2
  | .ca i => 3 + i.val
  | .dq i => 10 + i.val
  | .dmi i => 26 + i.val
  | .rdqsT i => 28 + 2 * i.val
  | .rdqsC i => 29 + 2 * i.val
  | .wckT i => 32 + 2 * i.val
  | .wckC i => 33 + 2 * i.val
  | .resetN => 36

/-- The rail that a supply ball is joined to (R563); none where the ball carries a signal or VSS. -/
def supplyBall (row col : Nat) : Option Rail :=
  let odd := (row + col) % 2 == 1
  let rowIn := fun (a b : Nat) => decide (a ≤ row) && decide (row ≤ b)
  let colIn := fun (a b : Nat) => decide (a ≤ col) && decide (col ≤ b)
  let quiet := colIn 3 49 && col % 2 == 1
  if rowIn 9 27 && colIn 17 38 && odd then some .vddW0
  else if rowIn 28 46 && colIn 17 38 && odd then some .vddW1
  else if rowIn 9 46 && colIn 39 44 && odd then some .vddSram
  else if ((row == 3 || row == 52) && quiet) || (col == 3 && rowIn 10 24 && row % 2 == 0) then some .vddSd075
  else if ((row == 4 || row == 51) && quiet) || (col == 3 && rowIn 11 25 && row % 2 == 1) then some .vddSd120
  else if col == 45 && rowIn 9 47 && row % 2 == 1 then some .vddLpio
  else if col == 46 && rowIn 8 46 && row % 2 == 0 then some .vddqLp
  else if col == 16 && rowIn 9 45 && row % 2 == 1 then some .vddIo
  else if row == 41 && (col == 1 || col == 3) then some .vkeep
  else if row == 41 && (col == 5 || col == 7) then some .vkeepIo
  else none

end Sys2Proof.Machine.Package
end

