-- ==== Sys2Proof/WellFormed.lean ====
section
/-! DEFINITION. Which commands are well formed: their operands lie in the ranges the manual gives the event. -/

namespace Sys2Proof

/-- A word-aligned BAR0 offset (R28, R446, R447). -/
def bar0Word (a : Nat) : Bool := a % 4 == 0 && decide (a < 0x2000000)

/-- A word-aligned offset in BAR0, or in the windows of BAR2, which lie above it (R124, R446). -/
def barWord (a : Nat) : Bool := a % 4 == 0 && decide (a < 0x2020000)

/-- A page base in BAR0 (R28). -/
def bar0Page (a : Nat) : Bool := a % 0x1000 == 0 && decide (a < 0x2000000)

/-- Operands that their types do not already hold in range. -/
def Instr.wellFormed : Instr → Bool
  | .frameArrival _ _ data => !data.isEmpty
  | .stFieldWrite a _ _ => bar0Word a
  | .registerWrite _ a _ _ => barWord a
  | .eventClear _ a _ => bar0Page a
  | .evForce _ a _ => bar0Page a
  | .counterLoRead _ a => bar0Word a
  | .overflowClear _ a => bar0Word a
  | .rcRead _ a => barWord a
  | .freezeCounters _ a _ => bar0Page a
  | .disable _ a => bar0Page a
  | .abort _ a => bar0Page a
  | .mr4Poll _ codes => codes.length == 4
  | .dramRequest _ u => decide (1 ≤ u.len) && decide (u.addr % 32 + u.len ≤ 32)
  | .wake cause index _ => decide (1 ≤ cause.toNat) && decide (cause.toNat ≤ 5) && decide (index.toNat < 48)
  | _ => true

end Sys2Proof
end

