-- ==== Sys2Proof/Tests/Slice0.lean ====
section
/-! SUPPORT. Tests: the well-formedness smoke, small checks whose expected values are worked from the manual, and for each obligation
states and operands that meet what its clauses assume. -/

namespace Sys2Proof.Tests
open Sys2Proof.Machine Sys2Proof.Machine.State

theorem exSome {α : Type} {o : Option α} {P : α → Prop} (h : o.isSome = true) (p : P (o.get h)) : ∃ v, o = some v ∧ P v :=
  ⟨o.get h, (Option.some_get h).symm, p⟩

theorem exSomeT {α : Type} {o : Option α} (h : o.isSome = true) : ∃ v, o = some v := ⟨o.get h, (Option.some_get h).symm⟩

theorem exCons {α : Type} {l : List α} {P : α → List α → Prop} (h : l ≠ []) (p : P (l.head h) l.tail) : ∃ x r, l = x :: r ∧ P x r :=
  ⟨l.head h, l.tail, (List.cons_head_tail h).symm, p⟩

theorem exConsT {α : Type} {l : List α} (h : l ≠ []) : ∃ x r, l = x :: r := ⟨l.head h, l.tail, (List.cons_head_tail h).symm⟩

theorem exPair {α β : Type} {o : Option (α × β)} {P : α → β → Prop} (h : o.isSome = true) (p : P (o.get h).1 (o.get h).2) :
    ∃ x y, o = some (x, y) ∧ P x y := ⟨_, _, (Option.some_get h).symm, p⟩

theorem exPairT {α β : Type} {o : Option (α × β)} (h : o.isSome = true) : ∃ x y, o = some (x, y) := ⟨_, _, (Option.some_get h).symm⟩

theorem exGot {o : AllocRes × State} (h : (match o.1 with | .got _ => true | _ => false) = true) : ∃ h s, o = (.got h, s) := by
  obtain ⟨r, s⟩ := o
  cases r <;> simp_all

theorem canon_of {s : State} (h : (swf regReset s.regs && swf regReset s.staged && swf regReset s.active && swf regReset s.previous &&
    swf (fun _ => (0 : BitVec 49)) s.counters) = true) : s.Canon := by
  simpa [State.Canon, and_assoc] using h

/-- Every memory that a state lists is in canonical form. -/
def memOk (s : State) : Bool :=
  [s.w0, s.w1].all (fun y =>
    y.cores.all (fun e => swf (undefByte e.2.undef 2) e.2.data && swf (undefByte e.2.undef 3) e.2.inst) &&
    y.courses.all (fun e => swf (undefByte e.2.undef (16 + e.1)) e.2.banks) && y.ctxs.all (fun e => swf (fun _ => (0 : Byte)) e.2.areas))

theorem kget_ok {α : Type} {d : α} {m : SMap α} {p : Nat × α → Bool} (k : Nat) (h : m.all p = true) (hd : p (k, d) = true) :
    p (k, kget d m k) = true := by
  unfold kget
  induction m with
  | nil => simpa [sfind] using hd
  | cons e r ih =>
    simp only [List.all_cons, Bool.and_eq_true] at h
    simp only [sfind]
    split
    · next he => subst he; exact h.1
    · exact ih h.2

theorem memCanon_of {s : State} (h : memOk s = true) : s.MemCanon := by
  have hw : ∀ w : WytheIx, ((s.wy w).cores.all (fun e => swf (undefByte e.2.undef 2) e.2.data && swf (undefByte e.2.undef 3) e.2.inst) &&
      (s.wy w).courses.all (fun e => swf (undefByte e.2.undef (16 + e.1)) e.2.banks) &&
      (s.wy w).ctxs.all (fun e => swf (fun _ => (0 : Byte)) e.2.areas)) = true := by
    intro w
    simp only [memOk, List.all_cons, List.all_nil, Bool.and_true, Bool.and_eq_true] at h
    simp only [State.wy, Bool.and_eq_true]
    split
    · exact h.1
    · exact h.2
  refine ⟨fun w k => ?_, fun w k => ?_, fun x => ?_⟩
  · have h1 := hw w
    simp only [Bool.and_eq_true] at h1
    have := kget_ok (d := ({} : Core)) k h1.1.1 rfl
    exact Bool.and_eq_true_iff.mp this
  · have h1 := hw w
    simp only [Bool.and_eq_true] at h1
    exact kget_ok (d := ({} : Course)) k h1.1.2 rfl
  · have h1 := hw x.w
    simp only [Bool.and_eq_true] at h1
    exact kget_ok (d := ({} : Ctx)) x.ix h1.2 rfl

theorem ready_of {s : State} {i : Issue} {r : List Reg} {n : Nat} {half : Option Half} {addrs : List Reg}
    (h : (s.mayIssue i r half addrs && (s.fetchFault (s.plumbAt i.id.w i.id.core.ix (s.issueCycle i)) i.id (s.ctx i.id).pcx.toNat n).isNone &&
      decide (i.fetchEcc ≠ .uncorrectable)) = true) :
    s.Ready i r n half addrs := by
  simp only [Bool.and_eq_true, Option.isNone_iff_eq_none, decide_eq_true_eq] at h
  exact ⟨h.1.1, h.1.2, h.2⟩

theorem sound_of {s : State} {i : Issue} {a n : Nat} (h : ((s.accessFault i.id a n).isNone && (accessParts a n).all (fun p =>
    decide (s.areaView i.id (areaOf i.id (s.ctx i.id).sr p) = .on)) && !areaAwaited (s.settled i) a n && decide (i.dataEcc = .good)) = true) :
    s.Sound i a n := by
  simp only [Bool.and_eq_true, Option.isNone_iff_eq_none, decide_eq_true_eq, List.all_eq_true, Bool.not_eq_true'] at h
  exact ⟨h.1.1.1, h.1.1.2, h.1.2, h.2⟩

/-- `Writable` as a decision. -/
def writableB (s : State) (x : CtxId) (a : Nat) : Bool :=
  match areaOf x (s.ctx x).sr a with
  | .data _ => true
  | .inst _ => true
  | .slug o => decide (0xC0 ≤ o) || (s.ctx x).slug.isSome
  | .bank c o => decide (s.bankView x.w c (o / 0x40000) = .on)
  | .far c o => decide (s.bankView x.w c (o / 0x40000) = .on)
  | _ => false

theorem writable_of {s : State} {x : CtxId} {l : List Nat} (h : l.all (writableB s x) = true) : ∀ b ∈ l, s.Writable x b := by
  intro b hb
  have := List.all_eq_true.mp h b hb
  simp only [writableB] at this
  simp only [State.Writable]
  split <;> simp_all

def x000 : CtxId := ⟨0, 0, 0, 0⟩
def x001 : CtxId := ⟨0, 0, 0, 1⟩
def c (n : Nat) : Ctx :=
  let x : Ctx := {}
  let x := { x with a := #v[0x400000#24, 0x400100#24, 0x1000#24, 0x30000#24, 0x500#24, 0x7FFFFC#24, 0xFFFFFF#24, 0x400200#24] }
  let x := { x with d := #v[0x8000#16, 0x7FFF#16, 0xFFFF#16, 1#16, 0x1234#16, 0x5678#16, 0#16, 17#16, 3#16, 0x80#16, 0xFF00#16, 32#16, 0xABCD#16, 2#16, 0x8001#16, 33#16] }
  let x := { x with x := #v[0x7FFFFFFFFF#40, 1#40, 0xFF80000000#40, 0x80000000#40] }
  { x with pcx := 0x100, sr := BitVec.ofNat 16 n, state := .running }
def run (s : State) (w : WytheIx) : State := s.updWy w (fun y => { y with mode := .run })
def base (n : Nat) : State := (run (run (({State.reset with pending := [.trstN, .bypass]} : State).updCtx x000 (fun _ => c n)) 0) 1).updCtx x001 (fun _ => c n)
def i0 : Issue := ⟨x000,0,.good,.good,false,0⟩
def i1 : Issue := ⟨x001,0,.good,.good,false,0⟩
def act (s : State) (a : Nat) (v : W32) : State := { s with active := sput regReset s.active a v }
def metered (s : State) (w : WytheIx) (i : Nat) : State :=
  (s.updCore w i (fun k => {k with image := some ⟨[0,0,0,1,0,1,0,1,0,0,0,0,0,0,1,1]⟩})).updDs w (fun d => { d with lc := .commissioned })
def lay (size n : Nat) : Pool := { open_ := true, size := size, count := n, cache := [0,1,2], fresh := 3 }
def net : State :=
  let s := (base 0).updWy 0 (fun y => { y with forme := 7, outputsClosed := false, ports := (List.range 25).map (fun i => (i, ({ up := true } : PortSt))) })
  let s := (s.updPool 0 2 (fun _ => lay 256 400)).updPool 0 5 (fun _ => lay 2048 200)
  s
def rxf (id port : Nat) (n : Nat) : RxFrame := 
  let d : Bytes := (List.range n).map (fun i => BitVec.ofNat 8 (i * 7 + id))
  ⟨id, port, d ++ fcsBytes d, 100, none, 0, false, false, none, false, false, 0⟩
def rx (s : State) (l : List RxFrame) : State := s.updWy 0 (fun y => {y with rx := l, nextFrame := 50})
def ent (id port : Nat) (st : CompStage) : CompEntry := ⟨id, port, 7, st, true, 8, List.replicate 64 0, [(1, 0x11), (3, 0x22)], 0, List.replicate 8 0xFF, 0, 0, 0, 0, 0, 0, 0, [0,0,0,0], none, none, 0, [], 0⟩
def comp (s : State) (l : List CompEntry) : State := s.updComp 0 (fun c => {c with entries := l})

/-! Well-formedness: an operand outside its range is refused, one inside is not. -/

theorem test_wf_frame_has_bytes : Instr.wellFormed (.frameArrival 0 0 []) = false ∧ Instr.wellFormed (.frameArrival 0 23 [1]) = true := by decide
theorem test_wf_st_address : Instr.wellFormed (.stFieldWrite 0x102 0 0) = false ∧ Instr.wellFormed (.stFieldWrite 0x2000000 0 0) = false ∧
    Instr.wellFormed (.stFieldWrite 0x1FFFFFC 0 0) = true := by decide
theorem test_wf_register_address : Instr.wellFormed (.registerWrite .host 0x101 0 0xF) = false ∧
    Instr.wellFormed (.registerWrite .host 0x2020000 0 0xF) = false ∧ Instr.wellFormed (.registerWrite .host 0x201FFFC 0 0xF) = true := by decide
theorem test_wf_rc_address : Instr.wellFormed (.rcRead .host 0x103) = false ∧ Instr.wellFormed (.rcRead .host 0x104) = true := by decide
theorem test_wf_counter_address : Instr.wellFormed (.counterLoRead .host 0x42) = false ∧ Instr.wellFormed (.overflowClear .host 0x2000044) = false ∧
    Instr.wellFormed (.counterLoRead .host 0x40) = true := by decide
theorem test_wf_page : Instr.wellFormed (.disable .host 0x1004) = false ∧ Instr.wellFormed (.abort .host 0x2000000) = false ∧
    Instr.wellFormed (.eventClear .host 0x10 0) = false ∧ Instr.wellFormed (.evForce .host 0x800 0) = false ∧
    Instr.wellFormed (.freezeCounters .host 4 true) = false ∧ Instr.wellFormed (.disable .host 0x1FFF000) = true := by decide
theorem test_wf_mr4 : Instr.wellFormed (.mr4Poll 0 [3, 3, 3]) = false ∧ Instr.wellFormed (.mr4Poll 0 [3, 3, 3, 3]) = true := by decide
theorem test_wf_dram_unit : Instr.wellFormed (.dramRequest 0 ⟨false, 0, 0, .good⟩) = false ∧
    Instr.wellFormed (.dramRequest 0 ⟨false, 16, 17, .good⟩) = false ∧ Instr.wellFormed (.dramRequest 0 ⟨false, 16, 16, .good⟩) = true := by decide
theorem test_wf_wake : Instr.wellFormed (.wake 0 0 true) = false ∧ Instr.wellFormed (.wake 6 0 true) = false ∧
    Instr.wellFormed (.wake 1 48 true) = false ∧ Instr.wellFormed (.wake 5 47 true) = true := by decide

/-! Checks against worked examples of the manual. -/

/-- The state that a command leaves. -/
def after (r : Host.Outcome State Fault Refusal) : State :=
  match r with
  | .next t => t
  | _ => State.reset

/-- spec/06: a ring of 32 bytes wraps from 0x4E1C to 0x4E00. -/
theorem test_modulo_wraps : effAddr { c 0 with a := (c 0).a.set 2 0x4E1C } ⟨2, .modulo 3, true⟩ 4 = some ⟨0x4E1C, 0x4E00⟩ := by decide +kernel

/-- spec/06: bit-reversed indices run 0, 4, … and 7 is followed by 0. -/
theorem test_bitrev_order : (effAddr { c 0 with a := (c 0).a.set 3 0x6000 } ⟨3, .bitrev 2, true⟩ 2).map (·.base) = some 0x6008 ∧
    (effAddr { c 0 with a := (c 0).a.set 3 0x600C } ⟨3, .bitrev 2, true⟩ 2).map (·.base) = some 0x6002 ∧
    (effAddr { c 0 with a := (c 0).a.set 3 0x600E } ⟨3, .bitrev 2, true⟩ 2).map (·.base) = some 0x6000 := by decide +kernel

/-- Context 3 of spec/05's example: D2 = 0x0123, D3 = 0x0040, MLO = 0x0010. -/
def example05 : State := (base 0).updCtx ⟨0, 0, 0, 3⟩ (fun _ =>
  { c 0 with d := ((c 0).d.set 2 0x0123).set 3 0x0040, mlo := 0x0010, mhi := 0 })

/-- spec/05: the MOV in the cycle after MUL reads the stale 0x0010, the one two issue cycles on reads 0x48C0. -/
theorem test_product_delay :
    let i : Issue := ⟨⟨0, 0, 0, 3⟩, 0, .good, .good, false, 0⟩
    let s1 := after (exec (.mul i false 2 3) example05)
    let s2 := after (exec (.movr i (.d 4) .mlo false) s1)
    let s3 := after (exec (.add i (.alu (.short 6 7))) s2)
    let s4 := after (exec (.movr i (.d 5) .mlo false) s3)
    (s4.ctx i.id).d[4] = 0x0010#16 ∧ (s4.ctx i.id).d[5] = 0x48C0#16 ∧ (s3.ctx i.id).mhi = 0 := by decide +kernel

/-- spec/15: four channels of 2 GiB, a 4 KiB grain, ECC: address 0x12_3456 lies on channel 3 at 0x4_8456, physically at 0x4_D156. -/
theorem test_dram_address : dramMap 0x0F020104 0x123456 = (3, 0x48456) ∧ dramPhysical 0x0F020104 0x48456 = 0x4D156 := by decide +kernel

/-- spec/16: `SHAPE_LEVEL3` of port 12 on wythe 1 lies at BAR0 offset 0x10E_C28C; its page is PRESS (0x40), instance 12. -/
theorem test_page_address : pgPress 1 12 + 0x28C = 0x10EC28C ∧ (pageOf 0x10EC28C).map (fun p => (p.type, p.inst)) = some (0x40, 12) := by decide +kernel

/-- spec/16: a host of versions 1 to 2 is answered version 2. -/
theorem test_hello : (State.serveHello (State.reset.wr (pgPlinth + 0x108) 3) [1, 2]).1 = 0 ∧
    (State.serveHello (State.reset.wr (pgPlinth + 0x108) 3) [1, 2]).2.1 = [2] := by decide +kernel

/-- spec/00: LO reads 0xFFFF_FFFF, the counter moves on, and HI still gives the latched 0x0001. -/
theorem test_counter_latch :
    let a := pgColl 0 + 0x40
    let s1 := after (exec (.counterLoRead .host a) (State.reset.setCtr a 0x1FFFFFFFF#49))
    let s2 := s1.setCtr a 0x200000000#49
    s1.readData = 0xFFFFFFFF#32 ∧ (s2.busRead .host (a + 4)).1 = 1#32 := by decide +kernel

/-- spec/09: a frame of 1,242 bytes with 64 bytes of headroom takes a buffer of pool 4 of the default sizes, of pool 5 when pool 4 is empty. -/
theorem test_pool_choice :
    let s := ((State.reset.updPool 0 3 (fun _ => lay 512 100)).updPool 0 4 (fun _ => lay 2048 100)).updPool 0 5 (fun _ => lay 9728 100)
    let e := s.updPool 0 4 (fun p => { p with cache := [], fresh := 100 })
    (s.alloc 0 0xFF 1306 true .ingress).1 = .got (mkHandle 4 0) ∧ (e.alloc 0 0xFF 1306 true .ingress).1 = .got (mkHandle 5 0) := by decide +kernel

/-- spec/04: AGE 0x12 at EPOCH 0xA8 is 150 epochs old, a candidate at AGE_LIMIT 150. -/
theorem test_age : aged 0xA8 150 ⟨false, false, false, 0x12, 0, 0, 0, 0⟩ = true ∧ aged 0xA7 150 ⟨false, false, false, 0x12, 0, 0, 0, 0⟩ = false := by
  decide +kernel

/-- spec/13: the 64 bytes of the SHAPER_FORGIVE record 0x4A03. -/
theorem test_record :
    let s := { (State.reset.updWy 0 (fun y => { y with forme := 58, clock := { y.clock with valid := true } })).updDs 0 (fun d =>
      { d with lc := .commissioned, boot := 0x11 }) with now := 0x3D0A54 * 1000000 }
    s.recordBytes 0 0x4A03 [0xA0, 0xA1, 0xA2, 0xA3, 0xA4, 0xA5, 0xA6, 0xA7] 2 0x0C03 0x15D3EF79828
        [0, 0, 0x04, 0xB0, 0xFF, 0xFF, 0xFB, 0x50, 0, 0, 0, 0, 6] false 0 =
      [0, 0, 0, 0, 0x4A, 3, 0, 2, 0, 0, 1, 0x5D, 0x3E, 0xF7, 0x98, 0x28, 0, 0x3D, 0x0A, 0x54, 0, 0x40, 0, 0x11, 0, 0x3A, 1, 0, 0x0C, 3, 0, 0] ++
      [0, 0, 4, 0xB0, 0xFF, 0xFF, 0xFB, 0x50, 0, 0, 0, 0, 6, 0, 0, 0, 0, 0, 0, 0, 0, 0, 0, 0, 0xA0, 0xA1, 0xA2, 0xA3, 0xA4, 0xA5, 0xA6, 0xA7] := by
  decide +kernel

/-- R488: MODE.CURRENT reads 0x0000_0101 after reset. -/
theorem test_reset_mode : (State.reset.busRead .host (pgMode + 0x100)).1 = 0x101#32 := by decide +kernel

/-- FIPS 180-4: SHA-256 of "abc". -/
theorem test_sha256 : beAt (sha256 [0x61, 0x62, 0x63]) 0 32 = 0xBA7816BF8F01CFEA414140DE5DAE2223B00361A396177A9CB410FF61F20015AD := by decide +kernel

/-- IEEE 802.3 and RFC 3720 give these check values of CRC-32 and CRC-32C for the digits 1 to 9. -/
theorem test_crc : crc32 (List.range 9 |>.map (fun i => BitVec.ofNat 8 (0x31 + i))) = 0xCBF43926 ∧
    crc32c (List.range 9 |>.map (fun i => BitVec.ofNat 8 (0x31 + i))) = 0xE3069283 := by decide +kernel

/-- A 16-bit sum that wraps sets Z and C, and no V; one past the largest positive sets N and V. -/
theorem test_add_flags : addFlags 0xFFFF#16 1#16 false = (0, ⟨false, true, true, false⟩) ∧
    addFlags 0x7FFF#16 1#16 false = (0x8000, ⟨true, false, false, true⟩) := by decide +kernel

/-- The queue: a step takes the command at its front, and the rest stays. -/
theorem test_step_takes_front : (after (step { State.reset with pending := [.bypass, .trstN] })).pending = [.trstN] ∧
    (after (step { State.reset with pending := [.bypass, .trstN] })).dbgUnit.ir = 0x1F := by decide +kernel

/-- The NIST point 2·G of P-256. -/
theorem test_p256_double : (ecMul 2 2 (some p256G)).map (·.1) = some 0x7CF27B188D034F7E8A52380304B51AC3C08969E277F21B35A60B48FC47669978 := by
  decide +kernel

/-- spec/21: LPCH5_DQ[3] lies at AT52, its strobe pair in row AV, columns 51 and 52; the rows' ordinals. -/
theorem test_ball : Package.rowName (Package.ballOf (.lpch 5 13)).1 = ['A', 'T'] ∧ (Package.ballOf (.lpch 5 13)).2 = 52 ∧ Package.dramIndex (.dq 3) = 13 ∧
    Package.ballOf (.lpch 5 28) = (36, 51) ∧ Package.ballOf (.lpch 5 29) = (36, 52) ∧
    [19, 20, 38, 39, 48, 54].map Package.rowName = [['Y'], ['A', 'A'], ['A', 'Y'], ['B', 'A'], ['B', 'K'], ['B', 'U']] := by decide

namespace ArithmeticAndLogic

/-- What each clause of `Obligations.ArithmeticAndLogic` assumes is met. -/
theorem test_ArithmeticAndLogic_hypotheses :
    (∃ f : AluForm, State.aluOk f = true ∧ ∃ s : State, ∃ i : Issue, s.Ready i (State.aluReads f) (if State.aluIsLong f then 4 else 2)
      (State.aluHalf true f)) ∧
    (∃ f : AluForm, State.aluOk f = true ∧ ∃ s : State, ∃ i : Issue, s.Ready i (State.aluReads f) (if State.aluIsLong f then 4 else 2)
      (State.aluHalf false f) ∧ State.noDest f = true) ∧
    (∃ s : State, ∃ i : Issue, ∃ d : Fin 16, ∃ r : Fin 16, s.Ready i [.d d, .d r] 2 (dataHalf [])) ∧
    (∃ s : State, ∃ i : Issue, ∃ d : Fin 16, ∃ r : Fin 16, s.Ready i [.d r] 2 (dataHalf [.d d])) := by
  and_intros
  · refine ⟨(AluForm.short 1 2), by decide +kernel, (base 0), i0, ?_⟩
    exact ready_of (by decide +kernel)
  · refine ⟨(AluForm.short 1 2), by decide +kernel, (base 0), i0, ready_of (by decide +kernel), ?_⟩
    decide +kernel
  · refine ⟨(base 0), i0, 0, 0, ?_⟩
    exact ready_of (by decide +kernel)
  · refine ⟨(base 0), i0, 0, 0, ?_⟩
    exact ready_of (by decide +kernel)

end ArithmeticAndLogic

namespace ImmediatesAndMoves

/-- What each clause of `Obligations.ImmediatesAndMoves` assumes is met. -/
theorem test_ImmediatesAndMoves_hypotheses :
    (∃ s : State, ∃ i : Issue, ∃ d : Fin 16, s.Ready i [] 2 (dataHalf [.d d])) ∧
    (∃ s : State, ∃ i : Issue, ∃ d : Fin 16, s.Ready i [] 4 (dataHalf [.d d])) ∧
    (∃ s : State, ∃ i : Issue, ∃ n : Fin 8, s.Ready i [] 4 (addrHalf [.a n])) ∧
    (∃ s : State, ∃ i : Issue, ∃ x : Fin 4, s.Ready i [] 4 (dataHalf [.x x])) ∧
    (∃ s : State, ∃ i : Issue, s.Ready i [] 4) ∧
    (∃ s : State, ∃ i : Issue, ∃ d : Fin 16, s.Ready i [.d d] 2 (dataHalf [.d d])) ∧
    (∃ s : State, ∃ i : Issue, ∃ d : Fin 16, s.Ready i [.d d] 2 (dataHalf [])) ∧
    (∃ s : State, ∃ i : Issue, ∃ d : Fin 16, s.Ready i [.d d] 4 (dataHalf [.d d])) ∧
    (∃ s : State, ∃ i : Issue, ∃ d : Fin 16, s.Ready i [.d d] 4 (dataHalf [])) ∧
    (∃ s : State, ∃ i : Issue, ∃ n : Fin 8, s.Ready i [.a n] 2 (addrHalf [.a n])) ∧
    (∃ s : State, ∃ i : Issue, ∃ n : Fin 8, s.Ready i [.a n] 4 (addrHalf [.a n])) ∧
    (∃ s : State, ∃ i : Issue, ∃ n : Fin 4, s.Ready i [.x n] 4 (dataHalf [.x n])) ∧
    (∃ s : State, ∃ i : Issue, ∃ d : Fin 16, ∃ r : Fin 16, s.Ready i [.d r] 2 (dataHalf [.d d])) ∧
    (∃ s : State, ∃ i : Issue, ∃ r : Fin 16, ∃ n : Fin 8, s.Ready i [.d r] 2 (addrHalf [.a n])) ∧
    (∃ s : State, ∃ i : Issue, ∃ n : Fin 8, ∃ m : Fin 8, s.Ready i [.a m] 2 (addrHalf [.a n])) ∧
    (∃ s : State, ∃ i : Issue, ∃ d : Fin 16, ∃ m : Fin 8, s.Ready i [.a m] 2 (dataHalf [.d d])) ∧
    (∃ s : State, ∃ i : Issue, ∃ n : Fin 8, ∃ m : Fin 8, s.Ready i [.a n, .a m] 2 (addrHalf [.a n])) ∧
    (∃ s : State, ∃ i : Issue, ∃ r : Fin 16, ∃ n : Fin 8, s.Ready i [.a n, .d r] 2 (addrHalf [.a n])) ∧
    (∃ s : State, ∃ i : Issue, ∃ n : Fin 8, ∃ m : Fin 8, s.Ready i [.a m] 4 (addrHalf [.a n]) [.a m]) ∧
    (∃ s : State, ∃ i : Issue, ∃ r : Fin 16, ∃ n : Fin 8, ∃ m : Fin 8, s.Ready i [.a m, .d r] 4 (addrHalf [.a n]) [.a m]) ∧
    (∃ s : State, ∃ i : Issue, ∃ r : Fin 16, s.Ready i [.d r] 4) ∧
    (∃ s : State, ∃ i : Issue, ∃ y : Fin 4, s.Ready i [.x y] 4 ∧ ∃ d : Fin 16, evenReg d = true) ∧
    (∃ s : State, ∃ i : Issue, ∃ m : Fin 8, s.Ready i [.a m] 4) ∧
    (∃ s : State, ∃ i : Issue, ∃ r : Fin 16, s.Ready i (pairRegs r) 4 ∧ evenReg r = true) := by
  and_intros
  · refine ⟨(base 0x8003), i1, 2, ?_⟩
    exact ready_of (by decide +kernel)
  · refine ⟨(base 0x8003), i1, 2, ?_⟩
    exact ready_of (by decide +kernel)
  · refine ⟨(base 0x8003), i1, 1, ?_⟩
    exact ready_of (by decide +kernel)
  · refine ⟨(base 0x8003), i1, 2, ?_⟩
    exact ready_of (by decide +kernel)
  · refine ⟨(base 0x8003), i1, ?_⟩
    exact ready_of (by decide +kernel)
  · refine ⟨(base 0x8003), i1, 2, ?_⟩
    exact ready_of (by decide +kernel)
  · refine ⟨(base 0x8003), i1, 2, ?_⟩
    exact ready_of (by decide +kernel)
  · refine ⟨(base 0x8003), i1, 2, ?_⟩
    exact ready_of (by decide +kernel)
  · refine ⟨(base 0x8003), i1, 2, ?_⟩
    exact ready_of (by decide +kernel)
  · refine ⟨(base 0x8003), i1, 1, ?_⟩
    exact ready_of (by decide +kernel)
  · refine ⟨(base 0x8003), i1, 1, ?_⟩
    exact ready_of (by decide +kernel)
  · refine ⟨(base 0x8003), i1, 2, ?_⟩
    exact ready_of (by decide +kernel)
  · refine ⟨(base 0x8003), i1, 2, 2, ?_⟩
    exact ready_of (by decide +kernel)
  · refine ⟨(base 0x8003), i1, 2, 1, ?_⟩
    exact ready_of (by decide +kernel)
  · refine ⟨(base 0x8003), i1, 1, 1, ?_⟩
    exact ready_of (by decide +kernel)
  · refine ⟨(base 0x8003), i1, 2, 1, ?_⟩
    exact ready_of (by decide +kernel)
  · refine ⟨(base 0x8003), i1, 1, 1, ?_⟩
    exact ready_of (by decide +kernel)
  · refine ⟨(base 0x8003), i1, 2, 1, ?_⟩
    exact ready_of (by decide +kernel)
  · refine ⟨(base 0x8003), i1, 1, 1, ?_⟩
    exact ready_of (by decide +kernel)
  · refine ⟨(base 0x8003), i1, 2, 1, 1, ?_⟩
    exact ready_of (by decide +kernel)
  · refine ⟨(base 0x8003), i1, 2, ?_⟩
    exact ready_of (by decide +kernel)
  · refine ⟨(base 0x8003), i1, 2, ready_of (by decide +kernel), 2, ?_⟩
    decide +kernel
  · refine ⟨(base 0x8003), i1, 1, ?_⟩
    exact ready_of (by decide +kernel)
  · refine ⟨(base 0x8003), i1, 2, ready_of (by decide +kernel), ?_⟩
    decide +kernel

end ImmediatesAndMoves

namespace Shifts

/-- What each clause of `Obligations.Shifts` assumes is met. -/
theorem test_Shifts_hypotheses :
    (∃ f : ShiftForm, State.shiftOk f = true ∧ ∃ s : State, ∃ i : Issue, s.Ready i (State.shiftReads f) (if State.shiftIsLong f then 4
      else 2) (State.shiftHalf f)) ∧
    (∃ s : State, ∃ i : Issue, ∃ d : Fin 16, s.Ready i [.d d] 2 (dataHalf [.d d]) ∧ ∃ n : BitVec 7, n.toNat ≤ 15) ∧
    (∃ s : State, ∃ i : Issue, ∃ d : Fin 16, s.Ready i [.d d] 2 (dataHalf [.d d]) ∧ ∃ n : BitVec 7, 15 < n.toNat ∧ s.Canon ∧ s.FaultsOnce
      i.id) := by
  and_intros
  · refine ⟨(ShiftForm.short 1 2), by decide +kernel, (base 0x8003), i0, ?_⟩
    exact ready_of (by decide +kernel)
  · refine ⟨(base 0x8003), i0, 0, ready_of (by decide +kernel), 0x0#7, ?_⟩
    decide +kernel
  · refine ⟨(base 0x8003), i0, 0, ready_of (by decide +kernel), 0x10#7, by decide +kernel, canon_of (by decide +kernel), ?_⟩
    decide +kernel

end Shifts

namespace FieldsAndCharacters

/-- What each clause of `Obligations.FieldsAndCharacters` assumes is met. -/
theorem test_FieldsAndCharacters_hypotheses :
    (∃ p : Fin 32, ∃ w : Fin 16, p.val + w.val + 1 ≤ 16 ∧ ∃ s : State, ∃ i : Issue, ∃ d : Fin 16, ∃ r : Fin 16, s.Ready i [.d r] 4
      (dataHalf [.d d])) ∧
    (∃ p : Fin 32, ∃ w : Fin 16, p.val + w.val + 1 ≤ 16 ∧ ∃ s : State, ∃ i : Issue, ∃ d : Fin 16, ∃ r : Fin 16, s.Ready i [.d r, .d d] 4
      (dataHalf [.d d])) ∧
    (∃ p : Fin 32, ∃ w : Fin 16, p.val + w.val + 1 ≤ 32 ∧ ∃ r : Fin 16, evenReg r = true ∧ ∃ s : State, ∃ i : Issue, ∃ d : Fin 16, s.Ready
      i (pairRegs r) 4 (dataHalf [.d d])) ∧
    (∃ p : Fin 32, ∃ w : Fin 16, p.val + w.val + 1 ≤ 32 ∧ ∃ d : Fin 16, evenReg d = true ∧ ∃ s : State, ∃ i : Issue, ∃ r : Fin 16, s.Ready
      i (.d r :: pairRegs d) 4 (dataHalf (pairRegs d))) ∧
    (∃ d : Fin 16, evenReg d = true ∧ ∃ s : State, ∃ i : Issue, ∃ x : Fin 4, s.Ready i [.x x] 4 (dataHalf (pairRegs d))) ∧
    (∃ d : Fin 16, evenReg d = true ∧ ∃ s : State, ∃ i : Issue, ∃ r : Fin 16, s.Ready i (.d r :: pairRegs d) 2 (dataHalf (pairRegs d))) ∧
    (∃ s : State, ∃ i : Issue, ∃ d : Fin 16, ∃ r : Fin 16, s.Ready i [.d r] 2 (dataHalf [.d d])) := by
  and_intros
  · refine ⟨0, 0, by decide +kernel, (base 0x8003), i0, 0, 0, ?_⟩
    exact ready_of (by decide +kernel)
  · refine ⟨0, 0, by decide +kernel, (base 0x8003), i0, 0, 0, ?_⟩
    exact ready_of (by decide +kernel)
  · refine ⟨0, 0, by decide +kernel, 0, by decide +kernel, (base 0x8003), i0, 0, ?_⟩
    exact ready_of (by decide +kernel)
  · refine ⟨0, 0, by decide +kernel, 0, by decide +kernel, (base 0x8003), i0, 0, ?_⟩
    exact ready_of (by decide +kernel)
  · refine ⟨0, by decide +kernel, (base 0x8003), i0, 0, ?_⟩
    exact ready_of (by decide +kernel)
  · refine ⟨0, by decide +kernel, (base 0x8003), i0, 0, ?_⟩
    exact ready_of (by decide +kernel)
  · refine ⟨(base 0x8003), i0, 0, 0, ?_⟩
    exact ready_of (by decide +kernel)

end FieldsAndCharacters

namespace Multiplies

/-- What each clause of `Obligations.Multiplies` assumes is met. -/
theorem test_Multiplies_hypotheses :
    (∃ s : State, ∃ i : Issue, ∃ a : Fin 16, ∃ b : Fin 16, ∃ long : Bool, s.Ready i [.d a, .d b] (if long then 4 else 2) (dataHalf [.mlo,
      .mhi])) ∧
    (∃ s : State, ∃ i : Issue, ∃ a : Fin 16, ∃ b : Fin 16, ∃ x : Fin 4, s.Ready i [.d a, .d b] 4 (dataHalf [.x x])) ∧
    (∃ c : Ctx, ∃ p : Product, c.products = [p] ∧ ∃ t : Nat, p.lands ≤ t) ∧
    (∃ c : Ctx, ∃ p : Product, c.products = [p] ∧ ∃ t : Nat, t < p.lands) := by
  and_intros
  · refine ⟨(base 0x8003), i0, 0, 0, false, ?_⟩
    exact ready_of (by decide +kernel)
  · refine ⟨(base 0x8003), i0, 0, 0, 0, ?_⟩
    exact ready_of (by decide +kernel)
  · refine ⟨{ c 3 with products := [⟨.pair, 0x123456789A, 5⟩] }, ({ dest := ProductTo.pair, value := 0x123456789a#40, lands := 5 }),
    by decide +kernel, 15, ?_⟩
    decide +kernel
  · refine ⟨{ c 3 with products := [⟨.pair, 0x123456789A, 5⟩] }, ({ dest := ProductTo.pair, value := 0x123456789a#40, lands := 5 }),
    by decide +kernel, 0, ?_⟩
    decide +kernel

end Multiplies

namespace ControlFlow

/-- What each clause of `Obligations.ControlFlow` assumes is met. -/
theorem test_ControlFlow_hypotheses :
    (∃ s : State, ∃ i : Issue, s.Ready i [] 2 ∧ ∃ cc : BitVec 4, cc ≠ 0xF) ∧
    (∃ s : State, ∃ i : Issue, s.Ready i [] 4 ∧ ∃ cc : BitVec 4, cc ≠ 0xF) ∧
    (∃ s : State, ∃ i : Issue, s.Ready i [] 2 ∧ s.Canon ∧ s.FaultsOnce i.id) ∧
    (∃ s : State, ∃ i : Issue, ∃ n : Fin 8, s.Ready i [.a n] 2 none [.a n]) ∧
    (∃ s : State, s.MemCanon ∧ ∃ i : Issue, s.Ready i [.a 7] 4 none [.a 7] ∧ s.stackFault i.id ((s.ctx i.id).a[7] - 4#24).toNat = none ∧
      s.storesHeld i.id = false ∧ s.Sound i ((s.ctx i.id).a[7] - 4#24).toNat 4) ∧
    (∃ s : State, s.MemCanon ∧ ∃ i : Issue, ∃ n : Fin 8, s.Ready i [.a n, .a 7] 2 none [.a n, .a 7] ∧ s.stackFault i.id ((s.ctx i.id).a[7]
      - 4#24).toNat = none ∧ s.storesHeld i.id = false ∧ s.Sound i ((s.ctx i.id).a[7] - 4#24).toNat 4) ∧
    (∃ s : State, s.MemCanon ∧ ∃ i : Issue, s.Ready i [.a 7] 2 none [.a 7] ∧ s.stackFault i.id (s.ctx i.id).a[7].toNat = none ∧ s.Sound i
      (s.ctx i.id).a[7].toNat 4) ∧
    (∃ s : State, s.MemCanon ∧ ∃ i : Issue, s.Ready i [.a 7] 4 none [.a 7] ∧ s.Canon ∧ s.FaultsOnce i.id ∧ (∃ o, areaOf i.id (s.ctx
      i.id).sr (((s.ctx i.id).a[7] - 4#24).toNat - ((s.ctx i.id).a[7] - 4#24).toNat % 2) = .slug o)) ∧
    (∃ s : State, ∃ i : Issue, s.Ready i [] 2 ∧ i.id.x = 0) ∧
    (∃ s : State, ∃ i : Issue, s.Ready i [] 2 ∧ s.Canon ∧ i.id.x ≠ 0) := by
  and_intros
  · refine ⟨(base 0x8003), i0, ready_of (by decide +kernel), 0x0#4, ?_⟩
    decide +kernel
  · refine ⟨(base 0x8003), i0, ready_of (by decide +kernel), 0x0#4, ?_⟩
    decide +kernel
  · refine ⟨(base 0x8003), i0, ready_of (by decide +kernel), canon_of (by decide +kernel), ?_⟩
    decide +kernel
  · refine ⟨(base 0x8003), i0, 1, ?_⟩
    exact ready_of (by decide +kernel)
  · refine ⟨(base 0x8003), memCanon_of (by decide +kernel), i0, ready_of (by decide +kernel), by decide +kernel, by decide +kernel, ?_⟩
    exact sound_of (by decide +kernel)
  · refine ⟨(base 0x8003), memCanon_of (by decide +kernel), i0, 1, ready_of (by decide +kernel), by decide +kernel, by decide +kernel, ?_⟩
    exact sound_of (by decide +kernel)
  · refine ⟨(base 0x8003), memCanon_of (by decide +kernel), i0, ready_of (by decide +kernel), by decide +kernel, ?_⟩
    exact sound_of (by decide +kernel)
  · refine ⟨(((base 0x4).updCtx x000 (fun c => {c with a := c.a.set 7 0x30000})).updCtx x001 (fun c => {c with a := c.a.set 7 0x30004})),
    memCanon_of (by decide +kernel), i1, ready_of (by decide +kernel), canon_of (by decide +kernel), by decide +kernel, ?_⟩
    exact ⟨0, by decide +kernel⟩
  · refine ⟨(base 0x8003), i0, ready_of (by decide +kernel), ?_⟩
    decide +kernel
  · refine ⟨(base 0x8003), i1, ready_of (by decide +kernel), canon_of (by decide +kernel), ?_⟩
    decide +kernel

end ControlFlow

namespace SystemAndContexts
def b2 (n : Nat) : State := (base n).updCtx ⟨0,0,0,2⟩ (fun _ => {c 4 with state := .stopped, pcx := 0x200})

/-- What each clause of `Obligations.SystemAndContexts` assumes is met. -/
theorem test_SystemAndContexts_hypotheses :
    (∃ s : State, ∃ i : Issue, s.Ready i [] 2 ∧ (s.ctx i.id).bkpt = false) ∧
    (∃ s : State, ∃ i : Issue, s.Ready i [] 2 ∧ (s.ctx i.id).bkpt = true ∧ s.debugAllowed i.id.w i.id.c.val = false) ∧
    (∃ s : State, ∃ i : Issue, s.Ready i [] 2 ∧ (s.ctx i.id).bkpt = true ∧ s.debugAllowed i.id.w i.id.c.val = true) ∧
    (∃ s : State, ∃ i : Issue, ∃ n : Fin 8, s.Ready i [.a n] 4 none [.a n]) ∧
    (∃ i : Issue, i.id.x = 0 ∧ ∃ c : CtxIx, c ≠ 0 ∧ ∃ s : State, ∃ m : Fin 16, s.Ready i [.d m] 4 ∧ s.ctxIdle (CtxId.sib i.id c) = true) ∧
    (∃ i : Issue, i.id.x = 0 ∧ ∃ c : CtxIx, c ≠ 0 ∧ ∃ s : State, ∃ m : Fin 16, s.Ready i [.d m] 4 ∧ s.Canon ∧ s.FaultsOnce i.id) ∧
    (∃ i : Issue, i.id.x = 0 ∧ ∃ c : CtxIx, c ≠ 0 ∧ ∃ s : State, ∃ m : Fin 16, s.Ready i [.d m] 4 ∧ s.ctxIdle (CtxId.sib i.id c) = false) ∧
    (∃ i : Issue, i.id.x = 0 ∧ ∃ c : CtxIx, c ≠ 0 ∧ ∃ s : State, s.Ready i [] 4 ∧ s.ctxIdle (CtxId.sib i.id c) = true) ∧
    (∃ i : Issue, i.id.x = 0 ∧ ∃ c : CtxIx, c ≠ 0 ∧ ∃ s : State, s.Ready i [] 4 ∧ s.ctxIdle (CtxId.sib i.id c) = false) ∧
    (∃ i : Issue, i.id.x = 0 ∧ ∃ c : CtxIx, c ≠ 0 ∧ ∃ s : State, s.Ready i [] 4 ∧ s.chaseOwned (CtxId.sib i.id c) = false ∧ ((s.ctx
      (CtxId.sib i.id c)).state = .running ∨ (s.ctx (CtxId.sib i.id c)).state = .waiting)) ∧
    (∃ i : Issue, i.id.x = 0 ∧ ∃ c : CtxIx, c ≠ 0 ∧ ∃ s : State, s.Ready i [] 4 ∧ s.chaseOwned (CtxId.sib i.id c) = true) := by
  and_intros
  · refine ⟨(b2 0x8003), i0, ready_of (by decide +kernel), ?_⟩
    decide +kernel
  · refine ⟨(metered (((b2 1).updCtx x000 (fun c => {c with bkpt := true})).updDs 0 (fun d => {d with lc := .service})) 0 0), i0, ready_of
    (by decide +kernel), ?_⟩
    decide +kernel
  · refine ⟨(act (((b2 0x8003).updCtx x001 (fun c => {c with bkpt := true})).updCtx ⟨0,0,0,2⟩ (fun c => { c with state := .running}))
    (pgCore 0 0 + 0x104) 0), i1, ready_of (by decide +kernel), ?_⟩
    decide +kernel
  · refine ⟨(b2 0x8003), i0, 1, ?_⟩
    exact ready_of (by decide +kernel)
  · refine ⟨i0, by decide +kernel, 2, by decide +kernel, (b2 0x8003), 2, ready_of (by decide +kernel), ?_⟩
    decide +kernel
  · refine ⟨i0, by decide +kernel, 1, by decide +kernel, (b2 0x8003), 2, ready_of (by decide +kernel), canon_of (by decide +kernel), ?_⟩
    decide +kernel
  · refine ⟨i0, by decide +kernel, 1, by decide +kernel, (b2 0x8003), 2, ready_of (by decide +kernel), ?_⟩
    decide +kernel
  · refine ⟨i0, by decide +kernel, 2, by decide +kernel, (b2 0x8003), ready_of (by decide +kernel), ?_⟩
    decide +kernel
  · refine ⟨i0, by decide +kernel, 1, by decide +kernel, (b2 0x8003), ready_of (by decide +kernel), ?_⟩
    decide +kernel
  · refine ⟨i0, by decide +kernel, 1, by decide +kernel, (act (((b2 0x8003).updCtx x001 (fun c => {c with bkpt := true})).updCtx ⟨0,0,0,2⟩
    (fun c => { c with state := .running})) (pgCore 0 0 + 0x104) 0), ready_of (by decide +kernel), ?_⟩
    decide +kernel
  · refine ⟨i0, by decide +kernel, 1, by decide +kernel, (b2 0x8003), ready_of (by decide +kernel), ?_⟩
    decide +kernel

end SystemAndContexts

namespace Loads
def bank (s : State) : State := s.updCourse 0 0 (fun c => {c with banks := [(0x100, 0x12), (0x101, 0x34), (0x102,0x56), (0x103, 0x78), (0x200, 0x80)]})
def l1 (s : State) : State := (s.updCtx x001 (fun c => { c with loads := [⟨.d 2, 0x800100, 4, 0x90, some 0x12345678, 0⟩, ⟨.a 2, 0x800100, 2, 0x90, some 0x1234, 0⟩]}))

/-- What each clause of `Obligations.Loads` assumes is met. -/
theorem test_Loads_hypotheses :
    (∃ r : Reg, ∃ size : Nat, memRegOk r size = true ∧ ∃ s : State, ∃ i : Issue, ∃ m : MemOp, ∃ e : EffAddr, effAddr (s.ctx i.id) m size =
      some e ∧ s.Ready i (memReads m) (if m.long then 4 else 2) (s.accessHalf i.id (dataRegs r size) m size) [.a m.an] ∧ s.Sound i
      e.addr.toNat size ∧ ∃ c : Instr, ((c = .ldB i r m ∧ size = 1) ∨ (c = .ld i r m ∧ size = 2) ∨ (c = .ldL i r m ∧ size = 4)) ∧ (∃ o,
      (areaOf i.id (s.ctx i.id).sr e.addr.toNat) = .data o ∨ (areaOf i.id (s.ctx i.id).sr e.addr.toNat) = .inst o ∨ (areaOf i.id (s.ctx
      i.id).sr e.addr.toNat) = .slug o ∨ (areaOf i.id (s.ctx i.id).sr e.addr.toNat) = .bank i.id.c.val o)) ∧
    (∃ r : Reg, ∃ size : Nat, memRegOk r size = true ∧ ∃ s : State, ∃ i : Issue, ∃ m : MemOp, ∃ e : EffAddr, effAddr (s.ctx i.id) m size =
      some e ∧ s.Ready i (memReads m) (if m.long then 4 else 2) (s.accessHalf i.id (dataRegs r size) m size) [.a m.an] ∧ s.Sound i
      e.addr.toNat size ∧ ∃ c : Instr, ((c = .ldB i r m ∧ size = 1) ∨ (c = .ld i r m ∧ size = 2) ∨ (c = .ldL i r m ∧ size = 4)) ∧ (∃ k o,
      (areaOf i.id (s.ctx i.id).sr e.addr.toNat) = .far k o)) ∧
    (∃ s : State, ∃ x : CtxId, ∃ n : Nat, ∃ l : PendingLoad, (s.ctx x).loads[n]? = some l ∧ ∃ v : Nat, l.value = some v ∧ ∃ after : Nat,
      s.cycleOf x + after < s.loadEarliest x l) ∧
    (∃ s : State, ∃ x : CtxId, ∃ n : Nat, ∃ l : PendingLoad, (s.ctx x).loads[n]? = some l ∧ ∃ v : Nat, l.value = some v ∧ ∃ after : Nat,
      s.loadEarliest x l ≤ s.cycleOf x + after) := by
  and_intros
  · refine ⟨(Reg.d 0), 1, by decide +kernel, (bank (base 0x8003)), i1, ({ an := 1, mode := Mode.postInc, long := false }), ?_⟩
    refine exSome (by decide +kernel) ?_
    refine ⟨ready_of (by decide +kernel), sound_of (by decide +kernel), .ldB i1 (Reg.d 0)
      ({ an := 1, mode := Mode.postInc, long := false }), .inl ⟨rfl, rfl⟩, ?_⟩
    exact ⟨256, by decide +kernel⟩
  · refine ⟨(Reg.d 0), 1, by decide +kernel, (((bank (base 0x8003)).updCtx x001 (fun c => { c with a := c.a.set 1 0x800100}))), i1,
    ({ an := 1, mode := Mode.postInc, long := false }), ?_⟩
    refine exSome (by decide +kernel) ?_
    refine ⟨ready_of (by decide +kernel), sound_of (by decide +kernel), .ldB i1 (Reg.d 0)
      ({ an := 1, mode := Mode.postInc, long := false }), .inl ⟨rfl, rfl⟩, ?_⟩
    exact ⟨0, 256, by decide +kernel⟩
  · refine ⟨(l1 (base 3)), ⟨0, 0, 0, 1⟩, 0, ?_⟩
    refine exSome (by decide +kernel) ?_
    refine exSome (by decide +kernel) ?_
    refine ⟨0, ?_⟩
    decide +kernel
  · refine ⟨(l1 (base 3)), ⟨0, 0, 0, 1⟩, 0, ?_⟩
    refine exSome (by decide +kernel) ?_
    refine exSome (by decide +kernel) ?_
    refine ⟨300, ?_⟩
    decide +kernel

end Loads

namespace Stores
def bank (s : State) : State := s.updCourse 0 0 (fun c => {c with banks := [(0x100, 0x12), (0x101, 0x34), (0x102,0x56), (0x103, 0x78), (0x200, 0x80)]})

/-- What each clause of `Obligations.Stores` assumes is met. -/
theorem test_Stores_hypotheses :
    (∃ s : State, s.MemCanon ∧ ∃ i : Issue, (s.ctx i.id).slugEnds = none ∧ ∃ r : Reg, ∃ size : Nat, memRegOk r size = true ∧ ∃ m : MemOp,
      ∃ e : EffAddr, effAddr (s.ctx i.id) m size = some e ∧ s.Ready i (dataRegs r size ++ memReads m) (if m.long then 4 else 2)
      (s.accessHalf i.id [] m size) [.a m.an] ∧ s.Sound i e.addr.toNat size ∧ (∀ b ∈ accessBytes e.addr.toNat size, s.Writable i.id b) ∧
      s.storeFull i.id = false ∧ size = 1) ∧
    (∃ s : State, s.MemCanon ∧ ∃ i : Issue, (s.ctx i.id).slugEnds = none ∧ ∃ r : Reg, ∃ size : Nat, memRegOk r size = true ∧ ∃ m : MemOp,
      ∃ e : EffAddr, effAddr (s.ctx i.id) m size = some e ∧ s.Ready i (dataRegs r size ++ memReads m) (if m.long then 4 else 2)
      (s.accessHalf i.id [] m size) [.a m.an] ∧ s.Sound i e.addr.toNat size ∧ (∀ b ∈ accessBytes e.addr.toNat size, s.Writable i.id b) ∧
      s.storeFull i.id = false ∧ size = 2) ∧
    (∃ s : State, s.MemCanon ∧ ∃ i : Issue, (s.ctx i.id).slugEnds = none ∧ ∃ r : Reg, ∃ size : Nat, memRegOk r size = true ∧ ∃ m : MemOp,
      ∃ e : EffAddr, effAddr (s.ctx i.id) m size = some e ∧ s.Ready i (dataRegs r size ++ memReads m) (if m.long then 4 else 2)
      (s.accessHalf i.id [] m size) [.a m.an] ∧ s.Sound i e.addr.toNat size ∧ (∀ b ∈ accessBytes e.addr.toNat size, s.Writable i.id b) ∧
      s.storeFull i.id = false ∧ size = 4) := by
  and_intros
  · refine ⟨(bank (base 0x8003)), memCanon_of (by decide +kernel), i1, by decide +kernel, (Reg.d 0), 1, by decide +kernel,
    ({ an := 1, mode := Mode.postInc, long := false }), ?_⟩
    refine exSome (by decide +kernel) ?_
    refine ⟨ready_of (by decide +kernel), sound_of (by decide +kernel), writable_of (by decide +kernel), ?_⟩
    decide +kernel
  · refine ⟨(bank (base 0x8003)), memCanon_of (by decide +kernel), i1, by decide +kernel, (Reg.d 0), 2, by decide +kernel,
    ({ an := 1, mode := Mode.postInc, long := false }), ?_⟩
    refine exSome (by decide +kernel) ?_
    refine ⟨ready_of (by decide +kernel), sound_of (by decide +kernel), writable_of (by decide +kernel), ?_⟩
    decide +kernel
  · refine ⟨(bank (base 0x8003)), memCanon_of (by decide +kernel), i1, by decide +kernel, (Reg.d 0), 4, by decide +kernel,
    ({ an := 1, mode := Mode.postInc, long := false }), ?_⟩
    refine exSome (by decide +kernel) ?_
    refine ⟨ready_of (by decide +kernel), sound_of (by decide +kernel), writable_of (by decide +kernel), ?_⟩
    decide +kernel

end Stores

namespace AccessFaults
def at1 (a : W24) : State := ((base 0x8003).updCtx x001 (fun c => { c with a := c.a.set 1 a}))

/-- What each clause of `Obligations.AccessFaults` assumes is met. -/
theorem test_AccessFaults_hypotheses :
    (∃ s : State, s.Canon ∧ ∃ i : Issue, s.FaultsOnce i.id ∧ ∃ m : MemOp, ∃ e : EffAddr, effAddr (s.ctx i.id) m 2 = some e ∧ ∃ r : Reg,
      memRegOk r 2 = true ∧ s.Ready i (memReads m) (if m.long then 4 else 2) (s.accessHalf i.id (dataRegs r 2) m 2) [.a m.an] ∧ areaOf
      i.id (s.ctx i.id).sr (e.addr.toNat - e.addr.toNat % 2) = .unmapped ∧ areaOf i.id (s.ctx i.id).sr e.addr.toNat = .unmapped) ∧
    (∃ s : State, s.Canon ∧ ∃ i : Issue, s.FaultsOnce i.id ∧ ∃ m : MemOp, ∃ e : EffAddr, effAddr (s.ctx i.id) m 2 = some e ∧ ∃ r : Reg,
      memRegOk r 2 = true ∧ s.Ready i (memReads m) (if m.long then 4 else 2) (s.accessHalf i.id (dataRegs r 2) m 2) [.a m.an] ∧
      e.addr.toNat % 2 = 1 ∧ (∃ d, areaOf i.id (s.ctx i.id).sr e.addr.toNat = .device d)) ∧
    (∃ s : State, s.Canon ∧ ∃ i : Issue, s.FaultsOnce i.id ∧ ∃ m : MemOp, ∃ e : EffAddr, effAddr (s.ctx i.id) m 1 = some e ∧ ∃ r : Reg,
      memRegOk r 1 = true ∧ s.Ready i (memReads m) (if m.long then 4 else 2) (s.accessHalf i.id (dataRegs r 1) m 1) [.a m.an] ∧ (∃ d,
      areaOf i.id (s.ctx i.id).sr e.addr.toNat = .device d)) ∧
    (∃ s : State, s.Canon ∧ ∃ i : Issue, s.FaultsOnce i.id ∧ ∃ r : Reg, ∃ m : MemOp, s.Ready i (memReads ⟨m.an, .reserved, true⟩) 4
      (s.accessHalf i.id (dataRegs r 2) ⟨m.an, .reserved, true⟩ 2) [.a m.an] ∧ memRegOk r 2 = true) := by
  and_intros
  · refine ⟨(at1 0x18000), canon_of (by decide +kernel), i1, by decide +kernel, ({ an := 1, mode := Mode.postInc, long := false }), ?_⟩
    refine exSome (by decide +kernel) ?_
    refine ⟨(Reg.d 0), by decide +kernel, ready_of (by decide +kernel), ?_⟩
    decide +kernel
  · refine ⟨(at1 0xC10001), canon_of (by decide +kernel), i1, by decide +kernel, ({ an := 1, mode := Mode.postInc, long := false }), ?_⟩
    refine exSome (by decide +kernel) ?_
    refine ⟨(Reg.d 0), by decide +kernel, ready_of (by decide +kernel), by decide +kernel, ?_⟩
    exact ⟨65537, by decide +kernel⟩
  · refine ⟨(at1 0xC10001), canon_of (by decide +kernel), i1, by decide +kernel, ({ an := 1, mode := Mode.postInc, long := false }), ?_⟩
    refine exSome (by decide +kernel) ?_
    refine ⟨(Reg.d 0), by decide +kernel, ready_of (by decide +kernel), ?_⟩
    exact ⟨65537, by decide +kernel⟩
  · refine ⟨(at1 0x18000), canon_of (by decide +kernel), i1, by decide +kernel, (Reg.d 0),
    ({ an := 1, mode := Mode.postInc, long := false }), ready_of (by decide +kernel), ?_⟩
    decide +kernel

end AccessFaults

namespace UnalignedWindows
def at1 (a : W24) : State := ((base 0x8003).updCtx x001 (fun c => { c with a := c.a.set 1 a}))

/-- What each clause of `Obligations.UnalignedWindows` assumes is met. -/
theorem test_UnalignedWindows_hypotheses :
    (∃ s : State, ∃ i : Issue, ∃ m : MemOp, ∃ size : Nat, ∃ e : EffAddr, effAddr (s.ctx i.id) m size = some e ∧ ∃ r : Reg, memRegOk r size
      = true ∧ (∃ d, areaOf i.id (s.ctx i.id).sr e.addr.toNat = .device d) ∧ i.id.x ≠ 0 ∧ s.Canon ∧ size = 4 ∧ e.addr.toNat % 4 ≠ 0 ∧
      s.Ready i (memReads m) (if m.long then 4 else 2) (s.accessHalf i.id (dataRegs r 4) m 4) [.a m.an]) ∧
    (∃ s : State, ∃ i : Issue, ∃ m : MemOp, ∃ size : Nat, ∃ e : EffAddr, effAddr (s.ctx i.id) m size = some e ∧ ∃ r : Reg, memRegOk r size
      = true ∧ (∃ d, areaOf i.id (s.ctx i.id).sr e.addr.toNat = .device d) ∧ i.id.x ≠ 0 ∧ s.Canon ∧ size = 4 ∧ e.addr.toNat % 4 ≠ 0 ∧
      s.Ready i (dataRegs r 4 ++ memReads m) (if m.long then 4 else 2) (s.accessHalf i.id [] m 4) [.a m.an]) ∧
    (∃ s : State, ∃ i : Issue, ∃ m : MemOp, ∃ size : Nat, ∃ e : EffAddr, effAddr (s.ctx i.id) m size = some e ∧ ∃ r : Reg, memRegOk r size
      = true ∧ (∃ d, areaOf i.id (s.ctx i.id).sr e.addr.toNat = .device d) ∧ i.id.x ≠ 0 ∧ s.Canon ∧ size = 2 ∧ e.addr.toNat % 2 = 1 ∧
      s.Ready i (memReads m) (if m.long then 4 else 2) (s.accessHalf i.id (dataRegs r 2) m 2) [.a m.an]) ∧
    (∃ s : State, ∃ i : Issue, ∃ m : MemOp, ∃ size : Nat, ∃ e : EffAddr, effAddr (s.ctx i.id) m size = some e ∧ ∃ r : Reg, memRegOk r size
      = true ∧ (∃ d, areaOf i.id (s.ctx i.id).sr e.addr.toNat = .device d) ∧ i.id.x ≠ 0 ∧ s.Canon ∧ size = 2 ∧ e.addr.toNat % 2 = 1 ∧
      s.Ready i (dataRegs r 2 ++ memReads m) (if m.long then 4 else 2) (s.accessHalf i.id [] m 2) [.a m.an]) := by
  and_intros
  · refine ⟨(at1 0xC10001), i1, ({ an := 1, mode := Mode.postInc, long := false }), 4, ?_⟩
    refine exSome (by decide +kernel) ?_
    refine ⟨(Reg.d 0), by decide +kernel, ⟨65537, by decide +kernel⟩, by decide +kernel, canon_of (by decide +kernel), by decide +kernel,
      by decide +kernel, ?_⟩
    exact ready_of (by decide +kernel)
  · refine ⟨(at1 0xC10001), i1, ({ an := 1, mode := Mode.postInc, long := false }), 4, ?_⟩
    refine exSome (by decide +kernel) ?_
    refine ⟨(Reg.d 0), by decide +kernel, ⟨65537, by decide +kernel⟩, by decide +kernel, canon_of (by decide +kernel), by decide +kernel,
      by decide +kernel, ?_⟩
    exact ready_of (by decide +kernel)
  · refine ⟨(at1 0xC10001), i1, ({ an := 1, mode := Mode.postInc, long := false }), 2, ?_⟩
    refine exSome (by decide +kernel) ?_
    refine ⟨(Reg.d 0), by decide +kernel, ⟨65537, by decide +kernel⟩, by decide +kernel, canon_of (by decide +kernel), by decide +kernel,
      by decide +kernel, ?_⟩
    exact ready_of (by decide +kernel)
  · refine ⟨(at1 0xC10001), i1, ({ an := 1, mode := Mode.postInc, long := false }), 2, ?_⟩
    refine exSome (by decide +kernel) ?_
    refine ⟨(Reg.d 0), by decide +kernel, ⟨65537, by decide +kernel⟩, by decide +kernel, canon_of (by decide +kernel), by decide +kernel,
      by decide +kernel, ?_⟩
    exact ready_of (by decide +kernel)

end UnalignedWindows

namespace ShadowRegisters
def at1 (a : W24) : State := ((base 0x8003).updCtx x001 (fun c => { c with a := c.a.set 1 a}))

/-- What each clause of `Obligations.ShadowRegisters` assumes is met. -/
theorem test_ShadowRegisters_hypotheses :
    (∃ r : Reg, Reg.shadow r = true ∧ ∃ i : Issue, i.id.x ≠ 0 ∧ ∃ s : State, s.Canon ∧ ∃ other : Reg, ∃ p : Bool, s.Ready i (regReads
      other p) 4) ∧
    (∃ r : Reg, Reg.shadow r = true ∧ ∃ i : Issue, i.id.x ≠ 0 ∧ ∃ s : State, s.Canon ∧ ∃ p : Bool, s.Ready i (regReads r p) 4) ∧
    (∃ r : Reg, Reg.shadow r = true ∧ ∃ i : Issue, i.id.x ≠ 0 ∧ ∃ s : State, s.Canon ∧ s.Ready i [] 4) ∧
    (∃ r : Reg, Reg.shadow r = true ∧ ∃ i : Issue, i.id.x ≠ 0 ∧ ∃ s : State, s.Canon ∧ ∃ m : MemOp, (s.Ready i (memReads m) (if m.long
      then 4 else 2) (s.accessHalf i.id (dataRegs r 1) m 1) [.a m.an])) ∧
    (∃ r : Reg, Reg.shadow r = true ∧ ∃ i : Issue, i.id.x ≠ 0 ∧ ∃ s : State, s.Canon ∧ ∃ m : MemOp, (s.Ready i (memReads m) (if m.long
      then 4 else 2) (s.accessHalf i.id (dataRegs r 2) m 2) [.a m.an])) ∧
    (∃ r : Reg, Reg.shadow r = true ∧ ∃ i : Issue, i.id.x ≠ 0 ∧ ∃ s : State, s.Canon ∧ ∃ m : MemOp, (s.Ready i (memReads m) (if m.long
      then 4 else 2) (s.accessHalf i.id (dataRegs r 4) m 4) [.a m.an])) ∧
    (∃ r : Reg, Reg.shadow r = true ∧ ∃ i : Issue, i.id.x ≠ 0 ∧ ∃ s : State, s.Canon ∧ ∃ m : MemOp, (s.Ready i (dataRegs r 1 ++ memReads
      m) (if m.long then 4 else 2) (s.accessHalf i.id [] m 1) [.a m.an])) ∧
    (∃ r : Reg, Reg.shadow r = true ∧ ∃ i : Issue, i.id.x ≠ 0 ∧ ∃ s : State, s.Canon ∧ ∃ m : MemOp, (s.Ready i (dataRegs r 2 ++ memReads
      m) (if m.long then 4 else 2) (s.accessHalf i.id [] m 2) [.a m.an])) ∧
    (∃ r : Reg, Reg.shadow r = true ∧ ∃ i : Issue, i.id.x ≠ 0 ∧ ∃ s : State, s.Canon ∧ ∃ m : MemOp, (s.Ready i (dataRegs r 4 ++ memReads
      m) (if m.long then 4 else 2) (s.accessHalf i.id [] m 4) [.a m.an])) := by
  and_intros
  · refine ⟨(Reg.spcx), by decide +kernel, i1, by decide +kernel, (at1 0x18000), canon_of (by decide +kernel), (Reg.d 0), false, ?_⟩
    exact ready_of (by decide +kernel)
  · refine ⟨(Reg.spcx), by decide +kernel, i1, by decide +kernel, (at1 0x18000), canon_of (by decide +kernel), false, ?_⟩
    exact ready_of (by decide +kernel)
  · refine ⟨(Reg.spcx), by decide +kernel, i1, by decide +kernel, (at1 0x18000), canon_of (by decide +kernel), ?_⟩
    exact ready_of (by decide +kernel)
  · refine ⟨(Reg.spcx), by decide +kernel, i1, by decide +kernel, (at1 0x18000), canon_of (by decide +kernel),
    ({ an := 1, mode := Mode.postInc, long := false }), ?_⟩
    exact ready_of (by decide +kernel)
  · refine ⟨(Reg.spcx), by decide +kernel, i1, by decide +kernel, (at1 0x18000), canon_of (by decide +kernel),
    ({ an := 1, mode := Mode.postInc, long := false }), ?_⟩
    exact ready_of (by decide +kernel)
  · refine ⟨(Reg.spcx), by decide +kernel, i1, by decide +kernel, (at1 0x18000), canon_of (by decide +kernel),
    ({ an := 1, mode := Mode.postInc, long := false }), ?_⟩
    exact ready_of (by decide +kernel)
  · refine ⟨(Reg.spcx), by decide +kernel, i1, by decide +kernel, (at1 0x18000), canon_of (by decide +kernel),
    ({ an := 1, mode := Mode.postInc, long := false }), ?_⟩
    exact ready_of (by decide +kernel)
  · refine ⟨(Reg.spcx), by decide +kernel, i1, by decide +kernel, (at1 0x18000), canon_of (by decide +kernel),
    ({ an := 1, mode := Mode.postInc, long := false }), ?_⟩
    exact ready_of (by decide +kernel)
  · refine ⟨(Reg.spcx), by decide +kernel, i1, by decide +kernel, (at1 0x18000), canon_of (by decide +kernel),
    ({ an := 1, mode := Mode.postInc, long := false }), ?_⟩
    exact ready_of (by decide +kernel)

end ShadowRegisters

namespace Events
def tk (s : State) (x : CtxId) (n : TcbIx) (f : Tcb → Tcb) : State := (s.updCtx x (fun c => {c with task := some n})).updTcb x.w (tcbIx x.core.ix n) (fun t => f {t with state := .running, ctx := x.x})
def ev (evw fl : W32) : State := tk ((base 0x8003).updCtx x001 (fun c => {c with evw := evw})) x001 5 (fun t => {t with flags := fl})

/-- What each clause of `Obligations.Events` assumes is met. -/
theorem test_Events_hypotheses :
    (∃ s : State, ∃ i : Issue, ∃ d : Fin 16, s.Ready i [.d d] 4 ∧ s.storesHeld i.id = false ∧ ((s.ctx i.id).d[d.val]).toNat / 4096 = 0 ∧
      ((s.ctx i.id).d[d.val]).toNat / 512 % 8 < 6) ∧
    (∃ s : State, ∃ i : Issue, ∃ d : Fin 16, s.Ready i [.d d] 4 ∧ s.FaultsOnce i.id ∧ s.Canon ∧ (((s.ctx i.id).d[d.val]).toNat / 4096 ≠ 0
      ∨ 6 ≤ ((s.ctx i.id).d[d.val]).toNat / 512 % 8)) ∧
    (∃ s : State, ∃ i : Issue, s.Ready i [] 4 ∧ ∃ d : Fin 16, evenReg d = true ∧ ∃ n, (s.ctx i.id).task = some n ∧ ∃ all : Bool, (((s.ctx
      i.id).evw) = 0 ∨ (if all = true then (s.taskOn i.id.core n).flags &&& ((s.ctx i.id).evw) = ((s.ctx i.id).evw) else (s.taskOn
      i.id.core n).flags &&& ((s.ctx i.id).evw) ≠ 0))) ∧
    (∃ s : State, ∃ i : Issue, s.Ready i [] 4 ∧ ∃ d : Fin 16, evenReg d = true ∧ ∃ n, (s.ctx i.id).task = some n ∧ ∃ all : Bool, ¬
      (((s.ctx i.id).evw) = 0 ∨ (if all = true then (s.taskOn i.id.core n).flags &&& ((s.ctx i.id).evw) = ((s.ctx i.id).evw) else
      (s.taskOn i.id.core n).flags &&& ((s.ctx i.id).evw) ≠ 0))) ∧
    (∃ s : State, ∃ i : Issue, s.Ready i [] 4 ∧ ∃ d : Fin 16, evenReg d = true ∧ s.FaultsOnce i.id ∧ s.Canon ∧ (s.ctx i.id).task = none) := by
  and_intros
  · refine ⟨(ev 0 0), i0, 6, ready_of (by decide +kernel), ?_⟩
    decide +kernel
  · refine ⟨(ev 0 0), i0, 0, ready_of (by decide +kernel), by decide +kernel, canon_of (by decide +kernel), ?_⟩
    decide +kernel
  · refine ⟨(ev 0 0), i1, ready_of (by decide +kernel), 0, by decide +kernel, ?_⟩
    refine exSome (by decide +kernel) ?_
    refine ⟨false, ?_⟩
    decide +kernel
  · refine ⟨(ev 3 1), i1, ready_of (by decide +kernel), 0, by decide +kernel, ?_⟩
    refine exSome (by decide +kernel) ?_
    refine ⟨true, ?_⟩
    decide +kernel
  · refine ⟨(ev 0 0), i0, ready_of (by decide +kernel), 0, by decide +kernel, by decide +kernel, canon_of (by decide +kernel), ?_⟩
    decide +kernel

end Events

namespace Channels
def ch (s : State) (n : Nat) (f : Chan → Chan) : State := s.updCourse 0 0 (fun k => {k with channels := kupd {} k.channels n f})
def mine (s : State) : ChOwner := s.writerOf x001
def o0 : ChOwner := ⟨3, true, 2⟩
def full : List ChMsg := (List.range 32).map (fun _ => ⟨[1,2],false⟩)
def s0 := base 0x8003

/-- What each clause of `Obligations.Channels` assumes is met. -/
theorem test_Channels_hypotheses :
    (∃ s : State, ∃ i : Issue, s.storesHeld i.id = true ∧ s.Ready i [] 4) ∧
    (∃ s : State, ∃ i : Issue, s.storesHeld i.id = false ∧ s.Ready i [] 4 ∧ ∃ ch : Fin 64, (s.chan i.id.w i.id.c.val ch.val).owner = none) ∧
    (∃ s : State, ∃ i : Issue, s.storesHeld i.id = false ∧ s.Ready i [] 4 ∧ ∃ ch : Fin 64, ∃ o, (s.chan i.id.w i.id.c.val ch.val).owner =
      some o ∧ o ≠ s.writerOf i.id) ∧
    (∃ s : State, ∃ i : Issue, s.storesHeld i.id = false ∧ s.Ready i [] 4 ∧ s.Canon ∧ s.FaultsOnce i.id ∧ ∃ ch : Fin 64, (s.chan i.id.w
      i.id.c.val ch.val).owner = some (s.writerOf i.id)) ∧
    (∃ s : State, ∃ i : Issue, s.storesHeld i.id = false ∧ s.Ready i [] 4 ∧ s.Canon ∧ s.FaultsOnce i.id ∧ ∃ ch : Fin 64, (s.chan i.id.w
      i.id.c.val ch.val).owner ≠ some (s.writerOf i.id)) ∧
    (∃ s : State, ∃ i : Issue, s.storesHeld i.id = false ∧ ∃ d : Fin 16, s.Ready i (pairRegs d) 4 ∧ evenReg d = true ∧ ∃ ch : Fin 64,
      (s.chan i.id.w i.id.c.val ch.val).owner = some (s.writerOf i.id) ∧ (s.chan i.id.w i.id.c.val ch.val).words.length < 32 ∧ chanPlaces
      (s.chan i.id.w i.id.c.val ch.val) < 32) ∧
    (∃ s : State, ∃ i : Issue, s.storesHeld i.id = false ∧ ∃ d : Fin 16, s.Ready i (pairRegs d) 4 ∧ evenReg d = true ∧ ∃ ch : Fin 64,
      (s.chan i.id.w i.id.c.val ch.val).owner = some (s.writerOf i.id) ∧ (s.chan i.id.w i.id.c.val ch.val).words.length < 32 ∧ 32 ≤
      chanPlaces (s.chan i.id.w i.id.c.val ch.val)) ∧
    (∃ s : State, ∃ i : Issue, s.storesHeld i.id = false ∧ ∃ d : Fin 16, s.Ready i (pairRegs d) 4 ∧ evenReg d = true ∧ s.Canon ∧
      s.FaultsOnce i.id ∧ ∃ ch : Fin 64, ((s.chan i.id.w i.id.c.val ch.val).owner ≠ some (s.writerOf i.id) ∨ 32 ≤ (s.chan i.id.w
      i.id.c.val ch.val).words.length)) ∧
    (∃ s : State, ∃ i : Issue, ∃ n : Fin 8, s.Ready i [.a n] 4 none [.a n] ∧ s.storesHeld i.id = false ∧ ∃ ch : Fin 64, (s.chan i.id.w
      i.id.c.val ch.val).msgs = [] ∧ ∃ block : Bool, ¬ (block = true ∧ (((s.wy i.id.w).mode) = .setting ∨ ((s.wy i.id.w).mode) = .proof ∨
      (s.course i.id.w i.id.c.val).recovery = true))) ∧
    (∃ s : State, ∃ i : Issue, ∃ n : Fin 8, s.Ready i [.a n] 4 none [.a n] ∧ s.storesHeld i.id = false ∧ ∃ ch : Fin 64, (s.chan i.id.w
      i.id.c.val ch.val).msgs = [] ∧ ∃ block : Bool, (block = true ∧ (((s.wy i.id.w).mode) = .setting ∨ ((s.wy i.id.w).mode) = .proof ∨
      (s.course i.id.w i.id.c.val).recovery = true))) ∧
    (∃ s : State, ∃ i : Issue, ∃ n : Fin 8, s.Ready i [.a n] 4 none [.a n] ∧ s.storesHeld i.id = false ∧ ∃ ch : Fin 64, ∃ m r, (s.chan
      i.id.w i.id.c.val ch.val).msgs = m :: r ∧ m.words = []) ∧
    (∃ s : State, ∃ i : Issue, ∃ n : Fin 8, s.Ready i [.a n] 4 none [.a n] ∧ s.storesHeld i.id = false ∧ ∃ ch : Fin 64, ∃ m r, (s.chan
      i.id.w i.id.c.val ch.val).msgs = m :: r ∧ ∃ u, ∃ v, m.words = [u, v] ∧ s.MemCanon ∧ (s.ctx i.id).slugEnds = none ∧ s.Sound i ((s.ctx
      i.id).a[n.val].toNat - (s.ctx i.id).a[n.val].toNat % 4) 4 ∧ (∀ b ∈ accessBytes ((s.ctx i.id).a[n.val].toNat - (s.ctx
      i.id).a[n.val].toNat % 4) 4, s.Writable i.id b)) := by
  and_intros
  · refine ⟨(s0.updCore 0 0 (fun k => {k with storeQ := [⟨1, 0, 0xC00000, 4, 5⟩]})), i1, by decide +kernel, ?_⟩
    exact ready_of (by decide +kernel)
  · refine ⟨s0, i1, by decide +kernel, ready_of (by decide +kernel), 0, ?_⟩
    decide +kernel
  · refine ⟨(ch s0 1 (fun h => {h with owner := some o0})), i1, by decide +kernel, ready_of (by decide +kernel), 1, ?_⟩
    refine exSome (by decide +kernel) ?_
    decide +kernel
  · refine ⟨(ch s0 1 (fun h => {h with owner := some (mine s0), words := [1,2,3,4]})), i1, by decide +kernel, ready_of
    (by decide +kernel), canon_of (by decide +kernel), by decide +kernel, 1, ?_⟩
    decide +kernel
  · refine ⟨s0, i1, by decide +kernel, ready_of (by decide +kernel), canon_of (by decide +kernel), by decide +kernel, 0, ?_⟩
    decide +kernel
  · refine ⟨(ch s0 1 (fun h => {h with owner := some (mine s0), words := [1,2,3,4]})), i1, by decide +kernel, 0, ready_of
    (by decide +kernel), by decide +kernel, 1, ?_⟩
    decide +kernel
  · refine ⟨(ch s0 1 (fun h => {h with owner := some (mine s0), msgs := full})), i1, by decide +kernel, 0, ready_of (by decide +kernel),
    by decide +kernel, 1, ?_⟩
    decide +kernel
  · refine ⟨s0, i1, by decide +kernel, 0, ready_of (by decide +kernel), by decide +kernel, canon_of (by decide +kernel),
    by decide +kernel, 0, ?_⟩
    decide +kernel
  · refine ⟨s0, i1, 0, ready_of (by decide +kernel), by decide +kernel, 0, by decide +kernel, false, ?_⟩
    decide +kernel
  · refine ⟨(s0.updWy 0 (fun y => {y with mode := .setting})), i1, 0, ready_of (by decide +kernel), by decide +kernel, 0,
    by decide +kernel, true, ?_⟩
    decide +kernel
  · refine ⟨(ch s0 1 (fun h => {h with msgs := [⟨[],true⟩]})), i1, 0, ready_of (by decide +kernel), by decide +kernel, 1, ?_⟩
    refine exCons (by decide +kernel) ?_
    decide +kernel
  · refine ⟨(ch s0 1 (fun h => {h with owner := some (mine s0), msgs := full})), i1, 0, ready_of (by decide +kernel), by decide +kernel,
    1, ?_⟩
    refine exCons (by decide +kernel) ?_
    refine ⟨0x1#16, 0x2#16, by decide +kernel, memCanon_of (by decide +kernel), by decide +kernel, sound_of (by decide +kernel), ?_⟩
    exact writable_of (by decide +kernel)

end Channels

namespace LooksAndCoprocessors
def s0 : State := (base 0x8003).updCtx x001 (fun c => {c with a := (c.a.set 1 0x400100).set 4 0x1000})
def un (s : State) (u : Nat) (f : CpUnit → CpUnit) : State := s.updCourse 0 0 (fun k => {k with units := kupd {} k.units u f})
def h1 (s : State) := s.holderOf x001
def pl (o : Holder) (u : Nat) (st : PlaceState) : Place := ⟨o, 0, u, List.replicate 32 0, 0, false, 1, st, 5, none⟩
def claimed := (List.range 4).foldl (fun s u => un s u (fun k => {k with holder := some (h1 s0), state := if u = 1 then [2,0,0] else []})) s0
def tt : PendingLook := ⟨1, 2, .index, 5, 0, 0, 0, false, false, 0, 0⟩
def withPlaces (s : State) : State := s.updCourse 0 0 (fun k => {k with places := [(0, pl (h1 s0) 3 .done), (1, pl .host 2 .queued), (2, pl (h1 s0) 2 .queued)], gens := [(1, 3), (3, 15)]})

/-- What each clause of `Obligations.LooksAndCoprocessors` assumes is met. -/
theorem test_LooksAndCoprocessors_hypotheses :
    (∃ s : State, ∃ i : Issue, ∃ n : Fin 8, s.Ready i [.a n] 4 none [.a n] ∧ i.dataEcc = .good ∧ ∃ d : Fin 16, evenReg d = true ∧ ∃ tb :
      LookTable, ∃ learn : Bool, ∃ refresh : Bool, (learn = true ∨ refresh = true → tb = .learn) ∧ ∃ tag : Fin 4, (∀ l ∈ (s.ctx
      i.id).looks, l.tag ≠ tag) ∧ areaAwaited (s.ctx i.id) ((s.ctx i.id).a[n.val].toNat) (keyLen tb) = false ∧ s.keyFault i.id ((s.ctx
      i.id).a[n.val].toNat) (keyLen tb) = none) ∧
    (∃ s : State, ∃ x : CtxId, ∃ p : PendingLook, (s.ctx x).looks.find? (fun l => l.tag == p.tag) = some p ∧ evenReg p.dest = true ∧ ∃
      after : Nat, (s.plumbAt x.w x.core.ix p.issued = true → p.issued + lookDeadline p.table ≤ s.cycleOf x + after)) ∧
    (∃ s : State, ∃ i : Issue, ∃ n : Fin 8, s.Ready i [.a n] 4 none [.a n] ∧ i.dataEcc = .good ∧ ∃ u : Fin 4, (s.cpUnit i.id.w i.id.c.val
      u.val).holder = some (s.holderOf i.id) ∧ ∃ p, (List.range 16).find? (fun n => (sfind (s.course i.id.w i.id.c.val).places n).isNone)
      = some p ∧ s.enabled (pgCoproc i.id.w i.id.c) = true ∧ ((s.ctx i.id).a[n.val].toNat) % 4 = 0 ∧ 0x400000 ≤ ((s.ctx
      i.id).a[n.val].toNat) ∧ ((s.ctx i.id).a[n.val].toNat) + 32 ≤ 0x800000 ∧ s.bankRange i.id.w i.id.c.val (((s.ctx i.id).a[n.val].toNat)
      - 0x400000) 32 = .on) ∧
    (∃ s : State, ∃ i : Issue, ∃ n : Fin 8, s.Ready i [.a n] 4 none [.a n] ∧ i.dataEcc = .good ∧ ∃ u : Fin 4, (s.cpUnit i.id.w i.id.c.val
      u.val).holder = some (s.holderOf i.id) ∧ s.cpOutstanding i.id.w i.id.c.val (fun p => p.unit == u.val && p.owner == s.holderOf i.id)
      = false ∧ ((s.ctx i.id).a[n.val].toNat) % 8 = 0 ∧ 0x400000 ≤ ((s.ctx i.id).a[n.val].toNat) ∧ ((s.ctx i.id).a[n.val].toNat) + 80 ≤
      0x800000 ∧ s.bankRange i.id.w i.id.c.val (((s.ctx i.id).a[n.val].toNat) - 0x400000) (stateSize u.val) = .on ∧ 0 < stateSize u.val ∧
      s.MemCanon ∧ (s.cpUnit i.id.w i.id.c.val u.val).state.length ≤ stateSize u.val) ∧
    (∃ s : State, ∃ i : Issue, ∃ r : Fin 16, s.Ready i [.d r] 4 ∧ ∃ p : Place, sfind (s.course i.id.w i.id.c.val).places ((((s.ctx
      i.id).d[r.val]).toNat % 256) % 16) = some p ∧ kget 15 (s.course i.id.w i.id.c.val).gens ((((s.ctx i.id).d[r.val]).toNat % 256) % 16)
      = (((s.ctx i.id).d[r.val]).toNat % 256) / 16 ∧ p.owner = s.holderOf i.id ∧ p.state = .done) ∧
    (∃ s : State, ∃ i : Issue, ∃ r : Fin 16, s.Ready i [.d r] 4 ∧ sfind (s.course i.id.w i.id.c.val).places ((((s.ctx
      i.id).d[r.val]).toNat % 256) % 16) = none) ∧
    (∃ s : State, ∃ i : Issue, ∃ n : Fin 8, s.Ready i [.a n] 4 none [.a n] ∧ s.Canon ∧ s.FaultsOnce i.id ∧ ∃ u : Fin 4, (s.cpUnit i.id.w
      i.id.c.val u.val).holder ≠ some (s.holderOf i.id)) := by
  and_intros
  · refine ⟨s0, i1, 0, ready_of (by decide +kernel), by decide +kernel, 0, by decide +kernel, (LookTable.trie4), false, false,
    by decide +kernel, 0, ?_⟩
    decide +kernel
  · refine ⟨(withPlaces (s0.updCtx x001 (fun c =>
    {c with slug := some ⟨List.replicate 192 7, 1, 1⟩, looks := [tt, {tt with tag := 2, dest := 4, table := .trie6, key := 77}, {tt with tag := 3, table := .learn}]}))),
    ⟨0, 0, 0, 1⟩,
    ({ tag := 1, dest := 2, table := LookTable.index, key := 0x5#64, data := 0x0#32, flags := 0x0#8, port := 0x0#8, learn := false, refresh := false, forme := 0x0#16, issued := 0 }),
    by decide +kernel, by decide +kernel, 0, ?_⟩
    decide +kernel
  · refine ⟨claimed, i1, 0, ready_of (by decide +kernel), by decide +kernel, 0, by decide +kernel, ?_⟩
    refine exSome (by decide +kernel) ?_
    decide +kernel
  · refine ⟨claimed, i1, 0, ready_of (by decide +kernel), by decide +kernel, 0, by decide +kernel, by decide +kernel, by decide +kernel,
    ⟨by decide +kernel, by decide +kernel, by decide +kernel, ⟨by decide +kernel, memCanon_of (by decide +kernel), ?_⟩⟩⟩
    decide +kernel
  · refine ⟨(claimed.updCourse 0 0 (fun k => { k with places := [(0, pl (h1 s0) 3 .done)] })).updCtx x001 (fun c =>
    { c with d := c.d.set 1 0xF0 }), i1, 1, ready_of (by decide +kernel), ?_⟩
    refine exSome (by decide +kernel) ?_
    decide +kernel
  · refine ⟨s0, i1, 0, ready_of (by decide +kernel), ?_⟩
    decide +kernel
  · refine ⟨s0, i1, 0, ready_of (by decide +kernel), canon_of (by decide +kernel), by decide +kernel, 0, ?_⟩
    decide +kernel

end LooksAndCoprocessors

namespace Verdicts
def slug : SlugRec := ⟨(List.range 192).map (BitVec.ofNat 8), 3, 9⟩
def s0 : State := (base 0x8003).updCtx x001 (fun c => {c with a := (c.a.set 1 0x400100).set 4 0x1000, slug := some slug})

/-- What each clause of `Obligations.Verdicts` assumes is met. -/
theorem test_Verdicts_hypotheses :
    (∃ s : State, ∃ i : Issue, s.Ready i [] 4 ∧ ∃ g : SlugRec, (s.settled i).slug = some g) ∧
    (∃ s : State, ∃ i : Issue, ∃ n : Fin 8, s.Ready i [.a n] 4 none [.a n] ∧ areaAwaited (s.ctx i.id) ((s.ctx i.id).a[n.val].toNat) 32 =
      false ∧ (∀ k < 32, s.accessFault i.id ((((s.ctx i.id).a[n.val].toNat) + k) % 0x1000000) 1 = none ∧ s.areaView i.id (areaOf i.id
      (s.ctx i.id).sr ((((s.ctx i.id).a[n.val].toNat) + k) % 0x1000000)) = .on) ∧ i.dataEcc = .good ∧ ∃ g : SlugRec, (s.settled i).slug =
      some g) ∧
    (∃ s : State, ∃ i : Issue, ∃ n : Fin 8, s.Ready i [.a n] 4 none [.a n] ∧ areaAwaited (s.ctx i.id) ((s.ctx i.id).a[n.val].toNat) 100 =
      false ∧ (∀ k < 100, s.accessFault i.id ((((s.ctx i.id).a[n.val].toNat) + k) % 0x1000000) 1 = none ∧ s.areaView i.id (areaOf i.id
      (s.ctx i.id).sr ((((s.ctx i.id).a[n.val].toNat) + k) % 0x1000000)) = .on) ∧ i.dataEcc = .good ∧ (((s.ripe i).seenBy i.id).memByte
      i.id ((((s.ctx i.id).a[n.val].toNat) + 32) % 0x1000000)).toNat ≤ 16 ∧ ∃ g : SlugRec, (s.settled i).slug = some g) ∧
    (∃ s : State, ∃ i : Issue, s.Ready i [] 4 ∧ (s.settled i).slug = none ∧ s.Canon ∧ s.FaultsOnce i.id) := by
  and_intros
  · refine ⟨s0, i1, ready_of (by decide +kernel), ?_⟩
    exact exSomeT (by decide +kernel)
  · refine ⟨s0, i1, 0, ready_of (by decide +kernel), by decide +kernel, by decide +kernel, by decide +kernel, ?_⟩
    exact exSomeT (by decide +kernel)
  · refine ⟨s0, i1, 0, ready_of (by decide +kernel), by decide +kernel, by decide +kernel, by decide +kernel, ⟨by decide +kernel, ?_⟩⟩
    exact exSomeT (by decide +kernel)
  · refine ⟨(s0.updCtx x001 (fun c => {c with slug := none})), i1, ready_of (by decide +kernel), by decide +kernel, canon_of
    (by decide +kernel), ?_⟩
    decide +kernel

end Verdicts

namespace Buffers
def pp (s : State) (n : Nat) (f : Pool → Pool) : State := s.updPool 0 n f
def s0 : State := pp (pp (base 0) 2 (fun _ => lay 256 40)) 5 (fun _ => {lay 2048 200 with cache := [7,8], refs := [(3, 1), (4, 2), (5, 255), (6, 250)], ring := [9,10], fresh := 11})

/-- What each clause of `Obligations.Buffers` assumes is met. -/
theorem test_Buffers_hypotheses :
    (∃ s : State, ∃ a : Agent, ∃ w : WytheIx, s.reach a w = true ∧ s.enabled (pgGalley w) = true ∧ ∃ u : Fin 256, ∃ p, ((s.poolRank
      w).filter (fun p => bitOf 0xFF p && decide (64 * (u.val + 1) ≤ s.rankSize w p))).head? = some p ∧ s.poolNone w p .firmware = false ∧
      ∃ b r, (s.pool w p).cache = b :: r) ∧
    (∃ s : State, ∃ a : Agent, ∃ w : WytheIx, s.reach a w = true ∧ s.enabled (pgGalley w) = false) ∧
    (∃ s : State, ∃ a : Agent, ∃ w : WytheIx, s.reach a w = true ∧ ∃ v : W32, s.badHandle w (fld v 26 0) = false ∧ s.refCount w (fld v 26
      0) = 1) ∧
    (∃ s : State, ∃ a : Agent, ∃ w : WytheIx, s.reach a w = true ∧ ∃ v : W32, s.badHandle w (fld v 26 0) = false ∧ 1 < s.refCount w (fld v
      26 0)) ∧
    (∃ s : State, ∃ a : Agent, ∃ w : WytheIx, s.reach a w = true ∧ ∃ v : W32, s.badHandle w (fld v 26 0) = false ∧ s.refCount w (fld v 26
      0) = 0) ∧
    (∃ s : State, ∃ a : Agent, ∃ w : WytheIx, s.reach a w = true ∧ ∃ v : W32, s.badHandle w (fld v 26 0) = false ∧ 0 < s.refCount w (fld v
      26 0) ∧ s.refCount w (fld v 26 0) + fld v 31 28 ≤ 255) ∧
    (∃ s : State, ∃ a : Agent, ∃ w : WytheIx, s.reach a w = true ∧ ∃ v : W32, s.badHandle w (fld v 26 0) = false ∧ 0 < s.refCount w (fld v
      26 0) ∧ 255 < s.refCount w (fld v 26 0) + fld v 31 28) ∧
    (∃ s : State, ∃ w : WytheIx, ∃ p : PoolIx, (s.pool w p.val).refilling = true) ∧
    (∃ s : State, ∃ w : WytheIx, ∃ p : PoolIx, (s.pool w p.val).spilling = true) := by
  and_intros
  · refine ⟨s0, (Agent.host), 0, by decide +kernel, by decide +kernel, 0, ?_⟩
    refine exSome (by decide +kernel) ?_
    refine ⟨by decide +kernel, ?_⟩
    exact exConsT (by decide +kernel)
  · refine ⟨(s0.wr (pgGalley 0 + 8) 0), (Agent.host), 0, ?_⟩
    decide +kernel
  · refine ⟨s0, (Agent.host), 0, by decide +kernel, 0x5000003#32, ?_⟩
    decide +kernel
  · refine ⟨s0, (Agent.host), 0, by decide +kernel, 0x5000004#32, ?_⟩
    decide +kernel
  · refine ⟨s0, (Agent.host), 0, by decide +kernel, 0x5000001#32, ?_⟩
    decide +kernel
  · refine ⟨s0, (Agent.host), 0, by decide +kernel, 0x5000003#32, ?_⟩
    decide +kernel
  · refine ⟨s0, (Agent.host), 0, by decide +kernel, 0x15000005#32, ?_⟩
    decide +kernel
  · refine ⟨(pp s0 2 (fun q => {q with refilling := true, cache := []})), 0, 2, ?_⟩
    decide +kernel
  · refine ⟨(pp s0 5 (fun q => {q with spilling := true, cache := List.range 128})), 0, 5, ?_⟩
    decide +kernel

end Buffers

namespace MovesAndRelaying
def blk (dir : Nat) (h off len course bank : Nat) : Bytes := toBe 4 (dir * 2^31 + h) ++ toBe 2 off ++ toBe 2 len ++ toBe 4 (course * 2^29 + bank) ++ toBe 4 0
def s0 : State := ((base 0).updPool 0 5 (fun _ => {lay 2048 200 with refs := [(3,1)]})).updCourse 0 2 (fun k => {k with banks := [(0x100, 0x80), (0x101, 1), (0x110, 3)] ++ (List.range 70).map (fun i => (0x200+i, BitVec.ofNat 8 (i+1)))})
def mv (s : State) (m : List Move) : State := s.updGalley 0 (fun g => {g with moves := m, moveStatus := [(0, 3), (2, 5)]})
def m0 : Move := ⟨none, 2, some 0x100, none, false⟩
def rel (s : State) (d : Bool) (r : Relay) := s.setRelay 0 d r
def cfg1 (d : W32) : List W32 := [0x80000004 + d, 0, 0x80000007 + d, 0, 0, 0, 0, 0, 300, 0, 0, 5, 0, 0, 0, 0]

/-- What each clause of `Obligations.MovesAndRelaying` assumes is met. -/
theorem test_MovesAndRelaying_hypotheses :
    (∃ s : State, ∃ w : WytheIx, ∃ m r, ((s.wy w).galley).moves = m :: r ∧ m.desc = none ∧ ∃ o, m.block = some o ∧ s.bankRange w m.course
      o 16 = .on) ∧
    (∃ s : State, ∃ w : WytheIx, ∃ m r, ((s.wy w).galley).moves = m :: r ∧ ∃ d, m.desc = some d ∧ d.length = 16 ∧ m.bad = false ∧
      s.MemCanon ∧ (∀ n < 48, (s.core w n).storeQ = []) ∧ bitsOf (beAt d 0 4) 30 27 = 0 ∧ bitsOf (beAt d 8 4) 28 22 = 0 ∧ beAt d 12 4 = 0
      ∧ (bitsOf (beAt d 8 4) 31 29) < 6 ∧ (bitsOf (beAt d 8 4) 21 0) + (beAt d 6 2) ≤ 0x400000 ∧ s.bankRange w (bitsOf (beAt d 8 4) 31 29)
      (bitsOf (beAt d 8 4) 21 0) (beAt d 6 2) = .on ∧ s.goodHandle w (bitsOf (beAt d 0 4) 26 0) = true ∧ s.bufRetained w (bitsOf (beAt d 0
      4) 26 0) = false ∧ (beAt d 4 2) + (beAt d 6 2) ≤ s.poolSize w (handlePool (bitsOf (beAt d 0 4) 26 0)) ∧ 0 < (beAt d 6 2) ∧ (beAt d 6
      2) ≤ 2048) ∧
    (∃ s : State, ∃ w : WytheIx, ∃ a : Agent, s.reach a w = true ∧ s.moveWaits w (moveOwner a) = false) ∧
    (∃ s : State, ∃ w : WytheIx, ∃ a : Agent, s.reach a w = true ∧ s.moveWaits w (moveOwner a) = true) ∧
    (∃ s : State, ∃ w : WytheIx, ∃ dram : Bool, ∃ since, s.relay w dram = .draining since ∧ since + s.drainLimit ≤ s.now) ∧
    (∃ s : State, ∃ w : WytheIx, ∃ dram : Bool, ∃ cfg, s.relay w dram = .building false cfg) := by
  and_intros
  · refine ⟨(mv s0 [m0]), 0, ?_⟩
    refine exCons (by decide +kernel) ?_
    refine ⟨by decide +kernel, ?_⟩
    refine exSome (by decide +kernel) ?_
    decide +kernel
  · refine ⟨(mv s0 [{m0 with desc := some (blk 1 0x5000003 2040 8 2 0x200)}]), 0, ?_⟩
    refine exCons (by decide +kernel) ?_
    refine exSome (by decide +kernel) ?_
    refine ⟨by decide +kernel, by decide +kernel, memCanon_of (by decide +kernel), ?_⟩
    decide +kernel
  · refine ⟨s0, 0, (Agent.host), ?_⟩
    decide +kernel
  · refine ⟨(mv s0 [m0]), 0, (Agent.host), ?_⟩
    decide +kernel
  · refine ⟨({(rel s0 false (.draining 0)).updPool 0 5 (fun p => {p with retiring := true, open_ := false}) with now := 2000000000}), 0,
    false, 0, ?_⟩
    decide +kernel
  · refine ⟨(rel s0 false (.building false (cfg1 0))), 0, false, ([0x80000004#32, 0x0#32, 0x80000007#32, 0x0#32, 0x0#32, 0x0#32, 0x0#32,
    0x0#32, 0x12c#32, 0x0#32, 0x0#32, 0x5#32, 0x0#32, 0x0#32, 0x0#32, 0x0#32]), ?_⟩
    decide +kernel

end MovesAndRelaying

namespace ReceptionAndLinks
def s0 := net
def st (t : TxStamp) : State := s0.updPort 0 2 (fun p => {p with txts := [t], txtsOverflow := true})
def md (s : State) (v : W32) : State := act s (pgPort 0 2 + 0x100) v
def bw (s : State) (q : PortSt → PortSt) : State := (s.updPort 0 2 (fun p => q {p with rxBw := {bytes := 4001, frames := 3, bytesMin := 7, bytesMax := 8}, txBw := {bytes := 17, frames := 1}})).wr (pgPort 0 2 + 0x10C) 1000

/-- What each clause of `Obligations.ReceptionAndLinks` assumes is met. -/
theorem test_ReceptionAndLinks_hypotheses :
    (∃ s : State, ∃ w : WytheIx, ∃ p : EthIx, s.rxAlive w p.val = true ∧ s.receiving w p.val = none ∧ s.rxRefusal w p.val = none) ∧
    (∃ s : State, ∃ w : WytheIx, ∃ p : EthIx, s.rxAlive w p.val = false) ∧
    (∃ s : State, ∃ w : WytheIx, ∃ p : EthIx, ∃ f, (s.wy w).rx.find? (fun f => f.port == p.val && f.handle.isNone && !f.refused) = some f
      ∧ f.ended = true ∧ ∃ h, ∃ s1, s.alloc w (fld (s.galleyPortCfg w p.val) 23 16) (s.headroom w p.val + f.data.length) true .ingress =
      (.got h, s1)) ∧
    (∃ s : State, ∃ w : WytheIx, ∃ p : EthIx, ∃ f, s.receiving w p.val = some f ∧ s.Canon ∧ f.refused = false ∧ f.released = false ∧ f.err
      = 0) ∧
    (∃ s : State, ∃ w : WytheIx, ∃ p : EthIx, laneInUse (s.portCfg w p.val) = true ∧ s.quadHeld w p.val = false ∧ (s.wy w).mode ≠ .dormant
      ∧ (s.wy w).mode ≠ .brace ∧ ∃ speed : BitVec 2, (speedMatters (s.portCfg w p.val) = false ∨ fld (s.portCfg w p.val) 21 20 =
      speed.toNat)) ∧
    (∃ s : State, ∃ w : WytheIx, ∃ p : EthIx, laneInUse (s.portCfg w p.val) = true ∧ s.quadHeld w p.val = false ∧ (s.wy w).mode ≠ .dormant
      ∧ (s.wy w).mode ≠ .brace ∧ speedMatters (s.portCfg w p.val) = true ∧ ∃ speed : BitVec 2, fld (s.portCfg w p.val) 21 20 ≠
      speed.toNat) ∧
    (∃ s : State, ∃ w : WytheIx, ∃ p : EthIx, (s.port w p.val).up = true ∧ s.Canon) ∧
    (∃ s : State, ∃ w : WytheIx, ∃ p : EthIx, s.bwEnd w p.val ≤ s.bwTime w ∧ s.bwLen w p.val ≠ 0 ∧ (s.port w p.val).bwCut = false) ∧
    (∃ s : State, ∃ w : WytheIx, ∃ a : Agent, s.reach a w = true ∧ ∃ p : EthIx, ∃ e l, (s.port w p.val).txts = e :: l) := by
  and_intros
  · refine ⟨s0, 0, 2, ?_⟩
    decide +kernel
  · refine ⟨s0, 1, 2, ?_⟩
    decide +kernel
  · refine ⟨(rx net [{ rxf 3 2 60 with ended := true }]), 0, 2, ?_⟩
    refine exSome (by decide +kernel) ?_
    exact ⟨by decide +kernel, exGot (by decide +kernel)⟩
  · refine ⟨(rx s0 [rxf 3 2 60]), 0, 2, ?_⟩
    refine exSome (by decide +kernel) ?_
    refine ⟨canon_of (by decide +kernel), ?_⟩
    decide +kernel
  · refine ⟨(md s0 0x012005EE), 0, 2, by decide +kernel, by decide +kernel, by decide +kernel, ⟨by decide +kernel, 0x0#2, ?_⟩⟩
    decide +kernel
  · refine ⟨(md s0 0x022005EE), 0, 2, by decide +kernel, by decide +kernel, by decide +kernel, ⟨by decide +kernel, by decide +kernel,
    0x0#2, ?_⟩⟩
    decide +kernel
  · refine ⟨s0, 0, 2, by decide +kernel, ?_⟩
    exact canon_of (by decide +kernel)
  · refine ⟨({bw s0 id with now := 5000000}), 0, 2, ?_⟩
    decide +kernel
  · refine ⟨(st ⟨77, 0x13, 0x101, 0x1FFFF⟩), 0, (Agent.host), by decide +kernel, 2, ?_⟩
    exact exConsT (by decide +kernel)

end ReceptionAndLinks

namespace CompositorPath
def s0 := rx net [{rxf 3 2 60 with ended := true}, {rxf 4 1 100 with handle := some 0x2000001}, {rxf 9 2 200 with handle := some 0x2000002, ended := true, taken := true}]
def graph (s : State) (e : Nat) : State := act (act (act s (pgGraph 0 0 + 0x100) (w32 (0x80400021 + e * 4096))) (pgGraph 0 0 + 0x104) 14) (pgGraph 0 0 + 0x110) 0x08600010

/-- What each clause of `Obligations.CompositorPath` assumes is met. -/
theorem test_CompositorPath_hypotheses :
    (∃ s : State, ∃ w : WytheIx, s.compStopped w = true) ∧
    (∃ s : State, ∃ w : WytheIx, ∃ p : PortIx, ∃ f, s.intakeReady w p.val = some f ∧ s.enabled (pgComp w) = true ∧ (s.wy w).outputsClosed
      = false ∧ s.compStopped w = false ∧ s.intakeTurn w p.val = true) ∧
    (∃ s : State, ∃ w : WytheIx, ∃ p : PortIx, ∃ e, ((s.wy w).comp.entries).find? (fun e => e.port == p.val && e.stage == .recirculating)
      = some e ∧ s.compStopped w = false) ∧
    (∃ s : State, ∃ w : WytheIx, ∃ p : PortIx, ∃ e, ((s.wy w).comp.entries).find? (fun e => e.port == p.val && e.stage == .pipeline) =
      some e ∧ ∃ f, (s.wy w).rx.find? (fun f => f.id == e.frame) = some f ∧ ((s.wy w).comp.entries).any (fun e => e.port == p.val &&
      e.stage == .held) = false ∧ e.parsed = true ∧ 8 ≤ e.nextSlot ∧ earlyPort w (s.stOf w e.forme) p.val = false) ∧
    (∃ s : State, ∃ w : WytheIx, ∃ p : PortIx, ∃ e, ((s.wy w).comp.entries).find? (fun e => e.port == p.val && e.stage == .pipeline) =
      some e ∧ ∃ f, (s.wy w).rx.find? (fun f => f.id == e.frame) = some f ∧ ((s.wy w).comp.entries).any (fun e => e.port == p.val &&
      e.stage == .held) = false ∧ e.parsed = false ∧ earlyPort w (s.stOf w e.forme) p.val = false ∧ 8 ≤ (parseFrame (s.stOf w e.forme) w
      p.val f.data).entry) ∧
    (∃ s : State, ∃ w : WytheIx, ∃ p : PortIx, ∃ e, ((s.wy w).comp.entries).find? (fun e => e.port == p.val && e.stage == .held) = some e
      ∧ ∃ f, (s.wy w).rx.find? (fun f => f.id == e.frame) = some f ∧ s.heldReady w e = true ∧ f.ended = true ∧ (s.placeOf w e).1 = false ∧
      (s.course w ((s.placeOf w e).2.1)).held = false ∧ s.compStopped w = false ∧ s.releaseTurn w e = true) ∧
    (∃ s : State, ∃ w : WytheIx, ∃ p : PortIx, ∃ e, ((s.wy w).comp.entries).find? (fun e => e.port == p.val && e.stage == .held) = some e
      ∧ ∃ f, (s.wy w).rx.find? (fun f => f.id == e.frame) = some f ∧ s.heldReady w e = true ∧ f.ended = true ∧ (s.course w (s.placeOf w
      e).2.1).held = true ∧ s.compStopped w = false ∧ s.releaseTurn w e = true) := by
  and_intros
  · refine ⟨((comp s0 [ent 9 2 .held]).updWy 0 (fun y =>
    {y with courses := (List.range 6).map (fun c => (c, {dq := List.replicate 256 ⟨[],0,5⟩}))})), 0, ?_⟩
    decide +kernel
  · refine ⟨(comp (graph s0 8) [{ent 9 2 .pipeline with parsed := false}]), 0, 2, ?_⟩
    refine exSome (by decide +kernel) ?_
    decide +kernel
  · refine ⟨(comp s0 [ent 9 2 .recirculating, ent 10 1 .pipeline]), 0, 2, ?_⟩
    refine exSome (by decide +kernel) ?_
    decide +kernel
  · refine ⟨(comp s0 [ent 9 2 .pipeline]), 0, 2, ?_⟩
    refine exSome (by decide +kernel) ?_
    refine exSome (by decide +kernel) ?_
    decide +kernel
  · refine ⟨(comp (graph s0 8) [{ent 9 2 .pipeline with parsed := false}]), 0, 2, ?_⟩
    refine exSome (by decide +kernel) ?_
    refine exSome (by decide +kernel) ?_
    decide +kernel
  · refine ⟨(comp s0 [ent 9 2 .held, ent 4 1 .held]), 0, 2, ?_⟩
    refine exSome (by decide +kernel) ?_
    refine exSome (by decide +kernel) ?_
    decide +kernel
  · refine ⟨((comp s0 [ent 9 2 .held, ent 4 1 .held]).updCourse 0 0 (fun c => {c with held := true})), 0, 2, ?_⟩
    refine exSome (by decide +kernel) ?_
    refine exSome (by decide +kernel) ?_
    decide +kernel

end CompositorPath

namespace VerdictsAndReleases
def pp (s : State) (n : Nat) (f : Pool → Pool) : State := s.updPool 0 n f
def s1 : State := pp net 5 (fun q => {q with refs := [(1, 1), (2, 2), (3, 255)]})
def sl (st : SlotState) (p : Nat := 2) : SeqSlot := ⟨st, 6, 9, 7, p, 0x5000001, 4, none⟩
def fw (target n : Nat) (h : Nat) (len : Nat) : Bytes := toBe 4 target ++ toBe 1 n ++ [0,0,0] ++ toBe 4 h ++ toBe 2 16 ++ toBe 2 len ++ List.replicate 16 0
def cl (s : State) (l : SMap SeqSlot) (v : List VerdMsg) : State := s.updColl 0 (fun c => {c with slots := l, verdicts := v, order := [(6, l.map (·.1))], headSince := [(6, 0)], flights := [(4, ⟨7, 1⟩)], nextSerial := 30})
def vm (k n : Nat) (v : Verdict) : VerdMsg := ⟨some (k, n), v, 0x5000001⟩
def d0 := fw 0x02400003 1 0x5000001 100

/-- What each clause of `Obligations.VerdictsAndReleases` assumes is met. -/
theorem test_VerdictsAndReleases_hypotheses :
    (∃ s : State, ∃ w : WytheIx, ∃ i : Nat, ∃ m : VerdMsg, (s.wy w).coll.verdicts[i]? = some m ∧ s.Canon ∧ ∃ k, ∃ x, m.slot = some (k,
      x.serial) ∧ s.collSlot w k = some x ∧ x.state = .pending) ∧
    (∃ s : State, ∃ w : WytheIx, ∃ i : Nat, ∃ m : VerdMsg, (s.wy w).coll.verdicts[i]? = some m ∧ s.Canon ∧ ∃ k, ∃ x, m.slot = some (k,
      x.serial) ∧ s.collSlot w k = some x ∧ ∃ v, x.state = .ready v) ∧
    (∃ s : State, ∃ w : WytheIx, ∃ i : Nat, ∃ m : VerdMsg, (s.wy w).coll.verdicts[i]? = some m ∧ s.Canon ∧ ∃ k, ∃ x, m.slot = some (k,
      x.serial) ∧ s.collSlot w k = some x ∧ x.state = .discarded) ∧
    (∃ s : State, ∃ w : WytheIx, ∃ i : Nat, ∃ m : VerdMsg, (s.wy w).coll.verdicts[i]? = some m ∧ s.Canon ∧ ∃ k, ∃ x, m.slot = some (k,
      x.serial) ∧ s.collSlot w k = some x ∧ x.state = .orphan) ∧
    (∃ s : State, ∃ w : WytheIx, ∃ i : Nat, ∃ m : VerdMsg, (s.wy w).coll.verdicts[i]? = some m ∧ s.Canon ∧ (m.slot = none ∨ (∃ k n, m.slot
      = some (k, n) ∧ ∀ x, s.collSlot w k = some x → x.serial ≠ n))) ∧
    (∃ s : State, ∃ w : WytheIx, ∃ d : DomainIx, ∃ i x, s.collHead w d.val = some (i, x) ∧ s.Canon ∧ x.state = .ready .drop ∧ s.heldBefore
      w d.val = false) ∧
    (∃ s : State, ∃ w : WytheIx, ∃ d : DomainIx, ∃ i x, s.collHead w d.val = some (i, x) ∧ s.Canon ∧ x.state = .ready .hold ∧ s.heldBefore
      w d.val = false) ∧
    (∃ s : State, ∃ w : WytheIx, ∃ d : DomainIx, ∃ i x, s.collHead w d.val = some (i, x) ∧ s.Canon ∧ ∃ b, x.state = .ready (.forward b) ∧
      s.heldBefore w d.val = false ∧ s.badDescriptor w (.forward b) = false ∧ targetW (beAt b 0 4) = w ∧ s.refsTooHigh w (segsOf b) 0 =
      false ∧ x.frame = none) ∧
    (∃ s : State, ∃ w : WytheIx, ∃ d : DomainIx, ∃ i x, s.collHead w d.val = some (i, x) ∧ s.Canon ∧ x.state = .pending ∧ s.holdLimit w
      x.forme d.val ≠ 0 ∧ kget 0 (s.wy w).coll.headSince d.val + s.holdLimit w x.forme d.val ≤ s.now) := by
  and_intros
  · refine ⟨(cl s1 [(3, sl .pending)] [vm 3 4 .drop, vm 3 5 .drop, ⟨none, .hold, 0⟩, vm 9 4 (.forward d0)]), 0, 0, ?_⟩
    refine exSome (by decide +kernel) ?_
    refine ⟨canon_of (by decide +kernel), 3,
      ({ state := SlotState.pending, domain := 6, seq := 0x9#16, forme := 0x7#16, port := 2, handle := 0x5000001#32, serial := 4, frame := none }),
      ?_⟩
    decide +kernel
  · refine ⟨(cl s1 [(3, sl (.ready .drop) 24)] [vm 3 4 .drop]), 0, 0, ?_⟩
    refine exSome (by decide +kernel) ?_
    refine ⟨canon_of (by decide +kernel), 3,
      ({ state := SlotState.ready (Verdict.drop), domain := 6, seq := 0x9#16, forme := 0x7#16, port := 24, handle := 0x5000001#32, serial := 4, frame := none }),
      by decide +kernel, by decide +kernel, (Verdict.drop), ?_⟩
    decide +kernel
  · refine ⟨(cl s1 [(3, sl .discarded)] [vm 3 4 .hold]), 0, 0, ?_⟩
    refine exSome (by decide +kernel) ?_
    refine ⟨canon_of (by decide +kernel), 3,
      ({ state := SlotState.discarded, domain := 6, seq := 0x9#16, forme := 0x7#16, port := 2, handle := 0x5000001#32, serial := 4, frame := none }),
      ?_⟩
    decide +kernel
  · refine ⟨(cl s1 [(3, sl .orphan)] [vm 3 4 .hold, vm 3 4 (.forward d0)]), 0, 0, ?_⟩
    refine exSome (by decide +kernel) ?_
    refine ⟨canon_of (by decide +kernel), 3,
      ({ state := SlotState.orphan, domain := 6, seq := 0x9#16, forme := 0x7#16, port := 2, handle := 0x5000001#32, serial := 4, frame := none }),
      ?_⟩
    decide +kernel
  · refine ⟨(cl s1 [(3, sl .pending)] [⟨none, .hold, 0⟩]), 0, 0, ?_⟩
    refine exSome (by decide +kernel) ?_
    exact ⟨canon_of (by decide +kernel), .inl (by decide +kernel)⟩
  · refine ⟨(cl s1 [(3, sl (.ready .drop) 24)] [vm 3 4 .drop]), 0, 6, ?_⟩
    refine exPair (by decide +kernel) ?_
    refine ⟨canon_of (by decide +kernel), ?_⟩
    decide +kernel
  · refine ⟨(cl s1 [(3, sl (.ready .hold))] []), 0, 6, ?_⟩
    refine exPair (by decide +kernel) ?_
    refine ⟨canon_of (by decide +kernel), ?_⟩
    decide +kernel
  · refine ⟨(cl s1 [(3, sl (.ready (.forward d0)))] []), 0, 6, ?_⟩
    refine exPair (by decide +kernel) ?_
    refine ⟨canon_of (by decide +kernel), ([0x2#8, 0x40#8, 0x0#8, 0x3#8, 0x1#8, 0x0#8, 0x0#8, 0x0#8, 0x5#8, 0x0#8, 0x0#8, 0x1#8, 0x0#8,
      0x10#8, 0x0#8, 0x64#8] ++ List.replicate 16 0x0#8), ?_⟩
    decide +kernel
  · refine ⟨({act (cl s1 [(3, sl .pending), (4, {sl .discarded with serial := 5})] []) (pgColl 0 + 0x110) 5 with now := 1000}), 0, 6, ?_⟩
    refine exPair (by decide +kernel) ?_
    refine ⟨canon_of (by decide +kernel), ?_⟩
    decide +kernel

end VerdictsAndReleases

namespace Admission
def cp (cls : Nat) (seg : Seg := ⟨0x5000001, 0, 100⟩) : Copy := ⟨4, false, 2, cls, 3, [seg], 7, 0, 1, 0x5000001, none, false, 104, 104, false, false⟩
def s1 : State := ((act net (pgPort 0 2 + 0x100) 0x022005EE).updPool 0 5 (fun q => {q with refs := [(1, 1), (2, 2)]})).updColl 0 (fun c => {c with flights := [(4, ⟨7, 1⟩)], nextSerial := 30})
def pr (s : State) (f : Press → Press) : State := s.updPress 0 f
def lim (s : State) (v : W32) : State := (List.range 8).foldl (fun s i => act s (pgPress 0 2 + 0x140 + 4 * i) (w32 (v.toNat * 65536))) s

/-- What each clause of `Obligations.Admission` assumes is met. -/
theorem test_Admission_hypotheses :
    (∃ s : State, ∃ w : WytheIx, ∃ tie : Bool, ∃ c r, (if tie = true then (s.wy w).press.tieArrivals else (s.wy w).press.arrivals) = c ::
      r ∧ s.enabled (pgPressMain w) = true ∧ s.egressUp w c = true ∧ (s.wy w).outputsClosed = false ∧ (c.hostq = true ∨ s.tamperClosed w
      c.port = false) ∧ s.filterOf w c = none ∧ (s.wy w).press.store.length < 65536 ∧ (s.queuedBytes w c.hostq c.port c.cls + s.admitLen w
      c) ≤ (s.queueLimit w c).1) ∧
    (∃ s : State, ∃ w : WytheIx, ∃ tie : Bool, ∃ c r, (if tie = true then (s.wy w).press.tieArrivals else (s.wy w).press.arrivals) = c ::
      r ∧ s.enabled (pgPressMain w) = true ∧ s.egressUp w c = true ∧ (s.wy w).outputsClosed = false ∧ (c.hostq = true ∨ s.tamperClosed w
      c.port = false) ∧ s.filterOf w c = none ∧ (s.wy w).press.store.length < 65536 ∧ (s.queueLimit w c).1 < (s.queuedBytes w c.hostq
      c.port c.cls + s.admitLen w c) ∧ s.Canon ∧ c.hostq = false) := by
  and_intros
  · refine ⟨(pr s1 (fun p => {p with arrivals := [cp 3, cp 4]})), 0, false, ?_⟩
    refine exCons (by decide +kernel) ?_
    decide +kernel
  · refine ⟨(lim (pr s1 (fun p => {p with tieArrivals := [{cp 3 with group := 99}], arrivals := [cp 1], store := [cp 1]})) 0), 0, false,
    ?_⟩
    refine exCons (by decide +kernel) ?_
    refine ⟨by decide +kernel, by decide +kernel, by decide +kernel, ⟨by decide +kernel, by decide +kernel, by decide +kernel,
      ⟨by decide +kernel, canon_of (by decide +kernel), ?_⟩⟩⟩
    decide +kernel

end Admission

namespace Transmission
def cp (cls : Nat) (seg : Seg := ⟨0x5000001, 0, 100⟩) : Copy := ⟨4, false, 2, cls, 3, [seg], 7, 0, 1, 0x5000001, none, false, 104, 104, false, false⟩
def s1 : State := ((act net (pgPort 0 2 + 0x100) 0x022005EE).updPool 0 5 (fun q => {q with refs := [(1, 1), (2, 2)]})).updColl 0 (fun c => {c with flights := [(4, ⟨7, 1⟩)], nextSerial := 30})
def pr (s : State) (f : Press → Press) : State := s.updPress 0 f
def sd (s : State) (c : Copy) (b : Bool := false) := pr s (fun p => {p with sending := [(1, ⟨{cp 2 with port := 1}, false, false, 0⟩), (2, ⟨{c with started := true}, b, false, 0⟩)], store := p.store ++ [{c with started := true}]})

/-- What each clause of `Obligations.Transmission` assumes is met. -/
theorem test_Transmission_hypotheses :
    (∃ s : State, ∃ w : WytheIx, (s.wy w).outputsClosed = false ∧ ∃ p : EthIx, s.enabled (pgPress w p.val) = true ∧ sfind (s.wy
      w).press.sending p.val = none ∧ s.tamperClosed w p.val = false ∧ ((s.wy w).mode = .plumb → s.gptp w % 8 = 0) ∧ ∃ c, ∃ h r, s.queueOf
      w false p.val c = h :: r ∧ (s.port w p.val).up = true ∧ s.enabled (pgPort w p.val) = true ∧ ((s.selectClass w p.val (s.gptp w)).1 =
      some c ∨ ((s.wy w).mode = .plumb ∧ c < 8 ∧ s.eligible w p.val c (s.gptp w) = true ∧ ∀ e < 8, c < e → s.eligible w p.val e (s.gptp w)
      = false))) ∧
    (∃ s : State, ∃ w : WytheIx, ∃ p : EthIx, ∃ x, sfind (s.wy w).press.sending p.val = some x ∧ x.copy.early = none ∧ x.cutBad = false ∧
      x.copy.cls < 8 ∧ s.Canon) := by
  and_intros
  · refine ⟨(pr s1 (fun p => {p with store := [cp 0, cp 3, cp 8]})), 0, by decide +kernel, 2, by decide +kernel, by decide +kernel,
    by decide +kernel, ⟨by decide +kernel, 3, ?_⟩⟩
    refine exCons (by decide +kernel) ?_
    decide +kernel
  · refine ⟨(sd s1 (cp 3)), 0, 2, ?_⟩
    refine exSome (by decide +kernel) ?_
    refine ⟨by decide +kernel, by decide +kernel, by decide +kernel, ?_⟩
    exact canon_of (by decide +kernel)

end Transmission

namespace ShapersMetersGates
def pr (s : State) (f : Press → Press) : State := s.updPress 0 f
def sh : State := [(0, 0x80000001#32), (7, 0xA1000000), (8, 0x01000000), (16, 0x80000010)].foldl (fun s (e : Nat × W32) => act (act s (pgPress 0 2 + 0x180 + 4 * e.1) e.2) (pgPress 0 2 + 0x200 + 4 * e.1) (12345 + e.2)) net
def mtr (s : State) : State := act (act (act (act s (pgMeters 0 0 + 0x100) 1000000) (pgMeters 0 0 + 0x104) 500) (pgMeters 0 0 + 0x108) 0x90001000) (pgMeters 0 0 + 0x10C) 0x8000
def g0 : Gate := {running := true, base := 100, cycle := 1000, entries := [(1, 300), (0x80, 400)], pending := none, states := 0, entry := 0}
def states := [sh, mtr sh, pr (mtr sh) (fun p => {p with meters := [(0, {tc := 5, te := 9, tcRem := 3, markRed := true}), (1, {}), (4095, {tc := 77})], blocked := [(3, true), (0, true)]}),
  pr (mtr sh) (fun p => {p with shapers := [(shaperKey 2 2, ⟨-500, 7⟩), (shaperKey 2 7, ⟨100000000000, 7⟩)]}),
  (pr net (fun p => {p with gates := [(2, g0), (1, {g0 with running := false})]})).updWy 0 (fun y => {y with clock := {y.clock with ns := 1350}}),
  (pr net (fun p => {p with gates := [(2, {g0 with pending := some (1350, 100, [(3, 50), (4, 20)])}), (1, {g0 with running := false, pending := some (1351, 200, [(9,5)])})]})).updWy 0 (fun y => {y with clock := {y.clock with ns := 1350}})]

/-- What each clause of `Obligations.ShapersMetersGates` assumes is met. -/
theorem test_ShapersMetersGates_hypotheses :
    (∃ s : State, ∃ w : WytheIx, (s.wy w).press.shaperDue = [] ∧ (s.wy w).press.meterDue = [] ∧ risingFrom 0 (s.wy w).press.meters = true) ∧
    (∃ s : State, ∃ w : WytheIx, ∃ p : EthIx, (s.gate w p.val).running = true) ∧
    (∃ s : State, ∃ w : WytheIx, ∃ p : EthIx, ∃ l, (s.gate w p.val).pending = some l ∧ l.1 ≤ s.gptp w) ∧
    (∃ s : State, ∃ w : WytheIx, ∃ a : Agent, s.reach a w = true) := by
  and_intros
  · refine ⟨sh, 0, ?_⟩
    decide +kernel
  · refine ⟨((pr net (fun p => {p with gates := [(2, g0), (1, {g0 with running := false})]})).updWy 0 (fun y =>
    {y with clock := {y.clock with ns := 1350}})), 0, 2, ?_⟩
    decide +kernel
  · refine ⟨((pr net (fun p =>
    {p with gates := [(2, {g0 with pending := some (1350, 100, [(3, 50), (4, 20)])}), (1, {g0 with running := false, pending := some (1351, 200, [(9,5)])})]})).updWy
    0 (fun y => {y with clock := {y.clock with ns := 1350}})), 0, 2, ?_⟩
    refine exSome (by decide +kernel) ?_
    decide +kernel
  · refine ⟨sh, 0, (Agent.host), ?_⟩
    decide +kernel

end ShapersMetersGates

namespace TableCommands
def wn (s : State) (t : Nat) (f : Window → Window) : State := s.updTables 0 (fun x => {x with windows := kupd {} x.windows t f})
def cmd (op : Nat) (q : Bool) (i : W32 := 5) : WinCmd := ⟨op, 0x42, q, [i, 2, 3] ++ List.replicate 17 0, (List.range 8).map (fun i => w32 (i + 0x01020304)), .plain⟩
def rs (n : Nat) : List WinResp := List.replicate n ⟨1, 2, 0, [], []⟩
def idx (s : State) : State := s.updTables 0 (fun t => {t with index := [(5, ⟨false, List.replicate 32 9⟩), (7, ⟨true, List.replicate 32 9⟩)], overlay := [(7, List.replicate 32 3)]})
def opn (s : State) (x : Session) : State := {s with forme := {s.forme with session := x}}
def fulls (s : State) (n m : Nat) : State := [1,2,3,8,15].foldl (fun s t => wn s t (fun w => {w with fifo := List.replicate n (cmd 1 false), resps := rs m, keys := [(0, 7), (3, 9)], datas := [(1, 4)]})) s
def ops (b : Bool) (q : Bool) (n : W32) : List State := ([0,1,2,3,4,5,6,7,15].map (fun o => wn (if b then idx net else net) 3 (fun w => {w with fifo := [cmd o q n, cmd 1 false], resps := rs 2})))
def other : List State := [1,2,8,9,15].flatMap (fun t => [0,1,2,3,4,5,6,7].flatMap (fun o => [true,false].map (fun q => wn net t (fun w => {w with fifo := [cmd o q]}))))
def states := [net, opn (fulls net 15 0) (.open_ 9), opn (fulls net 3 3) (.pending 9), fulls net 10 6, opn (idx (wn net 3 (fun w => {w with fifo := [cmd 2 false]}))) (.open_ 8)] ++ ops true false 5 ++ ops true true 5 ++ ops true false 7 ++ ops false false 65535 ++ ops false true 65536 ++ other

/-- What each clause of `Obligations.TableCommands` assumes is met. -/
theorem test_TableCommands_hypotheses :
    (∃ s : State, ∃ w : WytheIx, s.reach .host w = true ∧ ∃ tb : Fin 16, windowOk tb.val = true ∧ ((s.window w tb.val).fifo.length +
      (s.window w tb.val).resps.length < 16)) ∧
    (∃ s : State, ∃ w : WytheIx, s.reach .host w = true ∧ ∃ tb : Fin 16, windowOk tb.val = true ∧ ¬ ((s.window w tb.val).fifo.length +
      (s.window w tb.val).resps.length < 16)) ∧
    (∃ s : State, ∃ w : WytheIx, s.reach .host w = true ∧ ∃ tb : Fin 16, windowOk tb.val = true ∧ ∃ a r, (s.window w tb.val).resps = a ::
      r) ∧
    (∃ s : State, ∃ w : WytheIx, ∃ tb : Fin 16, ∃ c rest, (s.window w tb.val).fifo = c :: rest ∧ s.fifoHeld w tb.val = false ∧ s.enabled
      (enginePage w tb.val) = true ∧ c.quiet = false) ∧
    (∃ s : State, ∃ w : WytheIx, ∃ tb : Fin 16, ∃ c rest, (s.window w tb.val).fifo = c :: rest ∧ s.fifoHeld w tb.val = false ∧ s.enabled
      (enginePage w tb.val) = true ∧ (c.op = 0 ∨ 6 < c.op)) ∧
    (∃ s : State, ∃ w : WytheIx, ∃ tb : Fin 16, ∃ c rest, (s.window w tb.val).fifo = c :: rest ∧ s.fifoHeld w tb.val = false ∧ s.enabled
      (enginePage w tb.val) = true ∧ tb = 3 ∧ s.stages w c = false ∧ kw c 0 < 65536 ∧ c.op = 2) ∧
    (∃ s : State, ∃ w : WytheIx, ∃ tb : Fin 16, ∃ c rest, (s.window w tb.val).fifo = c :: rest ∧ s.fifoHeld w tb.val = false ∧ s.enabled
      (enginePage w tb.val) = true ∧ tb = 3 ∧ s.stages w c = false ∧ kw c 0 < 65536 ∧ c.op = 3 ∧ ((sfind (s.tables w).overlay (kw c
      0)).isSome = true ∨ (sfind (s.tables w).index (kw c 0)).isSome = true)) ∧
    (∃ s : State, ∃ w : WytheIx, ∃ tb : Fin 16, ∃ c rest, (s.window w tb.val).fifo = c :: rest ∧ s.fifoHeld w tb.val = false ∧ s.enabled
      (enginePage w tb.val) = true ∧ tb = 3 ∧ s.stages w c = false ∧ kw c 0 < 65536 ∧ c.op = 4 ∧ ((sfind (s.tables w).overlay (kw c
      0)).isSome = true ∨ (sfind (s.tables w).index (kw c 0)).isSome = true)) ∧
    (∃ s : State, ∃ w : WytheIx, ∃ tb : Fin 16, ∃ c rest, (s.window w tb.val).fifo = c :: rest ∧ s.fifoHeld w tb.val = false ∧ s.enabled
      (enginePage w tb.val) = true ∧ tb = 3 ∧ s.stages w c = false ∧ kw c 0 < 65536 ∧ c.op = 1 ∧ ∃ e, indexSee (s.tables w) (s.hostBorn w)
      (kw c 0) = some e) := by
  and_intros
  · refine ⟨net, 0, by decide +kernel, 1, ?_⟩
    decide +kernel
  · refine ⟨(fulls net 10 6), 0, by decide +kernel, 1, ?_⟩
    decide +kernel
  · refine ⟨(opn (fulls net 3 3) (.pending 9)), 0, by decide +kernel, 1, by decide +kernel, ?_⟩
    exact exConsT (by decide +kernel)
  · refine ⟨(opn (fulls net 15 0) (.open_ 9)), 0, 1, ?_⟩
    refine exCons (by decide +kernel) ?_
    decide +kernel
  · refine ⟨(states.getD 5 net), 0, 3, ?_⟩
    refine exCons (by decide +kernel) ?_
    decide +kernel
  · refine ⟨(opn (idx (wn net 3 (fun w => {w with fifo := [cmd 2 false]}))) (.open_ 8)), 0, 3, ?_⟩
    refine exCons (by decide +kernel) ?_
    decide +kernel
  · refine ⟨(states.getD 8 net), 0, 3, ?_⟩
    refine exCons (by decide +kernel) ?_
    decide +kernel
  · refine ⟨(states.getD 9 net), 0, 3, ?_⟩
    refine exCons (by decide +kernel) ?_
    decide +kernel
  · refine ⟨(states.getD 6 net), 0, 3, ?_⟩
    refine exCons (by decide +kernel) ?_
    refine ⟨by decide +kernel, by decide +kernel, by decide +kernel, ⟨by decide +kernel, by decide +kernel, by decide +kernel, ?_⟩⟩
    exact exSomeT (by decide +kernel)

end TableCommands

namespace LearningAndAgeing
def tb (f : Tables → Tables) : State := net.updTables 0 f
def r0 : LearnReq := ⟨0x1122334455667788, 3, 1, 9, 7⟩

/-- What each clause of `Obligations.LearningAndAgeing` assumes is met. -/
theorem test_LearningAndAgeing_hypotheses :
    (∃ s : State, ∃ w : WytheIx, ∃ r rest, (s.tables w).learnQ = r :: rest ∧ s.enabled (pgLearn w) = true ∧ learnCopies (s.tables w).learn
      r.kindKey = [] ∧ (learnPlace (s.tables w).learn (fld (s.rd (pgLearn w + 0x108)) 1 0) (⟨false, false, false, (s.tables w).epoch,
      r.kindKey, r.port, r.flags, r.data⟩ : LearnEntry)).isSome = true) ∧
    (∃ s : State, ∃ w : WytheIx, (s.tables w).epochStart + (s.tables w).epochPeriod * 10000000 ≤ s.now) ∧
    (∃ s : State, ∃ w : WytheIx, s.now < (s.tables w).epochStart + (s.tables w).epochPeriod * 10000000) ∧
    (∃ s : State, ∃ w : WytheIx, ∃ b, (s.tables w).pass = some b ∧ s.enabled (pgLearn w) = true ∧ (s.wy w).sweep ≠ .sweeping) := by
  and_intros
  · refine ⟨(tb (fun t => {t with learnQ := [r0, r0]})), 0, ?_⟩
    refine exCons (by decide +kernel) ?_
    decide +kernel
  · refine ⟨({tb (fun t => {t with epochStart := 5, epochPeriod := 1, epoch := 255}) with now := 10000005}), 0, ?_⟩
    decide +kernel
  · refine ⟨(tb (fun t => {t with learnQ := [r0, r0]})), 0, ?_⟩
    decide +kernel
  · refine ⟨({tb (fun t => {t with epochStart := 5, epochPeriod := 1, epoch := 255, pass := some 3}) with now := 10000004}), 0, ?_⟩
    refine exSome (by decide +kernel) ?_
    decide +kernel

end LearningAndAgeing

namespace TaskCommands
def tcs (s : State) (n : Nat) (f : Tcb → Tcb) : State := s.updTcb 0 n (fun t => f {t with waitMax := 7, prio := 5})
def cfg (s : State) (a v : W32) : State := (s.wr (pgChase 0 0 + 0x10C) v).wr (pgChase 0 0 + 0x108) a
def res (s : State) (n : TcbIx) (x : CtxIx) (st : TaskState) (cs : CtxState) : State := (tcs s n.val (fun t => {t with state := st, ctx := x})).updCtx ⟨0,0,0,x⟩ (fun c => {c with task := some n, state := cs})
def mid (s : State) (n : TcbIx) (evw fl : W32) : State := ((res s n 1 .waiting .waiting).updCtx x001 (fun c => {c with waitDest := some 4, evw := evw})).updTcb 0 n.val (fun t => {t with flags := fl})
def pst (s : State) (l : List Post) : State := s.updWy 0 (fun y => {y with posts := l})

/-- What each clause of `Obligations.TaskCommands` assumes is met. -/
theorem test_TaskCommands_hypotheses :
    (∃ s : State, ∃ a : Agent, ∃ k : CoreId, s.reach a k.w = true ∧ ∃ n : TcbIx, (s.taskOn k n).state = .free ∧ flag (s.rd (pgChase k.w
      k.ix + 0x10C)) 10 = false) ∧
    (∃ s : State, ∃ a : Agent, ∃ k : CoreId, s.reach a k.w = true ∧ ∃ n : TcbIx, (s.taskOn k n).state ≠ .free ∧ (s.rd (pgChase k.w k.ix +
      0x108)).getLsbD 30 = false) ∧
    (∃ s : State, ∃ k : CoreId, ∃ i : Nat, ∃ p : Post, (s.wy k.w).posts[i]? = some p ∧ p.core = k.ix ∧ ∃ n : TcbIx, p.tcb = n ∧ (s.taskOn
      k n).state ≠ .free) ∧
    (∃ s : State, ∃ k : CoreId, ∃ i : Nat, ∃ p : Post, (s.wy k.w).posts[i]? = some p ∧ p.core = k.ix ∧ ∃ n : TcbIx, p.tcb = n ∧ (s.taskOn
      k n).state = .free ∧ s.Canon) ∧
    (∃ s : State, ∃ k : CoreId, ∃ n : TcbIx, (s.taskOn k n).state = .waiting ∧ ∃ d, (s.ctx (s.ctxOf k n)).waitDest = some d ∧ s.waitMet k
      n = true ∧ s.coreRuns k = true ∧ evenReg d = true ∧ (s.ctx (s.ctxOf k n)).task = some n ∧ (s.ctx (s.ctxOf k n)).stepping = false) ∧
    (∃ s : State, ∃ k : CoreId, ∃ n : TcbIx, (s.taskOn k n).state = .saved ∧ satisfied (s.taskOn k n).flags (s.taskOn k n).evw (s.taskOn k
      n).evAll = true) ∧
    (∃ k : CoreId, ∃ x : CtxId, x.core = k ∧ x.x ≠ 0 ∧ ∃ s : State, (s.ctx x).armed = true ∧ (s.ctx x).tcmp.toNat ≤ (s.tnow x).toNat ∧ ∃ n
      : TcbIx, (s.ctx x).task = some n ∧ (s.taskOn k n).state ≠ .free) ∧
    (∃ s : State, ∃ k : CoreId, ∃ n : TcbIx, (s.taskOn k n).state = .saved ∧ (s.taskOn k n).armed = true ∧ (s.taskOn k n).tcmp.toNat ≤
      s.gptp k.w) ∧
    (∃ s : State, ∃ k : CoreId, ∃ a : Agent, s.reach a k.w = true ∧ s.Canon ∧ ∃ v : W32, fld v 4 0 ≤ 29 ∧ fld v 30 28 < 3 ∧ v &&&
      0x0C0FC0E0#32 = 0) := by
  and_intros
  · refine ⟨(cfg net 0x400123 0xA900), (Agent.host), ⟨0, 0, 0⟩, by decide +kernel, 0, ?_⟩
    decide +kernel
  · refine ⟨(cfg (tcs net 1 (fun t => {t with state := .ready})) 0x400123 0xA500), (Agent.host), ⟨0, 0, 0⟩, by decide +kernel, 1, ?_⟩
    decide +kernel
  · refine ⟨(pst (tcs net 1 (fun t => {t with state := .ready})) [⟨0, 1, 0x5⟩, ⟨0, 2, 0x6⟩, ⟨10, 1, 3⟩]), ⟨0, 0, 0⟩, 0, ?_⟩
    refine exSome (by decide +kernel) ?_
    refine ⟨by decide +kernel, 1, ?_⟩
    decide +kernel
  · refine ⟨(pst (tcs net 1 (fun t => {t with state := .ready})) [⟨0, 1, 0x5⟩, ⟨0, 2, 0x6⟩, ⟨10, 1, 3⟩]), ⟨0, 0, 0⟩, 1, ?_⟩
    refine exSome (by decide +kernel) ?_
    refine ⟨by decide +kernel, 2, by decide +kernel, by decide +kernel, ?_⟩
    exact canon_of (by decide +kernel)
  · refine ⟨(mid net 1 3 1), ⟨0, 0, 0⟩, 1, by decide +kernel, ?_⟩
    refine exSome (by decide +kernel) ?_
    decide +kernel
  · refine ⟨(tcs net 1 (fun t => {t with state := .saved, flags := 3, evw := 1})), ⟨0, 0, 0⟩, 1, ?_⟩
    decide +kernel
  · refine ⟨⟨0, 0, 0⟩, ⟨0, 0, 0, 1⟩, by decide +kernel, by decide +kernel, (((res net 1 1 .running .running).updCtx x001 (fun c =>
    {c with armed := true, tcmp := 0}))), by decide +kernel, by decide +kernel, ?_⟩
    refine exSome (by decide +kernel) ?_
    decide +kernel
  · refine ⟨(tcs net 1 (fun t => {t with state := .saved, armed := true, tcmp := 0})), ⟨0, 0, 0⟩, 1, ?_⟩
    decide +kernel
  · refine ⟨(cfg net 0x400123 0xA900), ⟨0, 0, 0⟩, (Agent.host), by decide +kernel, canon_of (by decide +kernel), 0x0#32, ?_⟩
    decide +kernel

end TaskCommands

namespace ResidencyAndSlugs
def tcs (s : State) (n : Nat) (f : Tcb → Tcb) : State := s.updTcb 0 n (fun t => f {t with waitMax := 7, prio := 5})
def res (s : State) (n : TcbIx) (x : CtxIx) (st : TaskState) (cs : CtxState) : State := (tcs s n.val (fun t => {t with state := st, ctx := x})).updCtx ⟨0,0,0,x⟩ (fun _ => {c 0x60E4 with task := some n, state := cs})
def sw (s : State) (l : List Swap) : State := s.updCore 0 0 (fun c => {c with swaps := l})
def g0 : SlugRec := ⟨(List.range 192).map (BitVec.ofNat 8), 3, 9⟩
def dq (s : State) : State := s.updCourse 0 0 (fun c => {c with dq := [g0, {g0 with slot := 8}], lastCore := 7})
def rdy (s : State) : State := tcs s 9 (fun t => {t with state := .ready, a := Vector.replicate 8 5, since := 3})
def fullw (s : State) : State := (List.range 7).foldl (fun s i => (res s (Fin.ofNat 64 (i+20)) (Fin.ofNat 8 (i+1)) .waiting .waiting).updCtx ⟨0,0,0,Fin.ofNat 8 (i+1)⟩ (fun c => {c with waitDest := some 2, evw := 1})) s

/-- What each clause of `Obligations.ResidencyAndSlugs` assumes is met. -/
theorem test_ResidencyAndSlugs_hypotheses :
    (∃ s : State, ∃ k : CoreId, s.chaseRuns k = true ∧ s.portBusy k = false ∧ ∃ x, s.firstEmpty k = some x ∧ ∃ n, s.readyHead k = some n) ∧
    (∃ s : State, ∃ k : CoreId, s.chaseRuns k = true ∧ s.portBusy k = false ∧ s.firstEmpty k = none ∧ ∃ v, s.victim k = some v ∧ ∃ n,
      s.readyHead k = some n) ∧
    (∃ k : CoreId, ∃ x : CtxId, x.core = k ∧ ∃ s : State, s.coreRuns k = true ∧ ∃ v, ∃ n, ∃ g, s.swapIn x = some ⟨x.x, some v, some n, g⟩
      ∧ v ≠ n ∧ (s.ctx x).products = []) ∧
    (∃ k : CoreId, ∃ x : CtxId, x.core = k ∧ ∃ s : State, s.chaseRuns k = true ∧ ∃ n, s.swapIn x = some ⟨x.x, none, some n, none⟩ ∧
      (s.taskOn k n).waitDest = none ∧ (s.ctx x).haltDue = false) ∧
    (∃ s : State, ∃ w : WytheIx, ∃ c : CourseIx, ∃ g, s.nextSlug w (s.course w c.val) = some g ∧ ∃ k n, ((List.range 8).map (fun i => (⟨w,
      c, Fin.ofNat 8 ((s.course w c.val).lastCore.val + 1 + i)⟩ : CoreId))).findSome? (fun k => (s.pickResident k).map (fun t => (k, t)))
      = some (k, n)) ∧
    (∃ s : State, ∃ x : CtxId, s.coreRuns x.core = true ∧ ∃ g, s.swapIn x = some ⟨x.x, none, none, some g⟩ ∧ (∀ n, (s.ctx x).task = some n
      → s.ctxOf x.core n = x)) := by
  and_intros
  · refine ⟨(rdy net), ⟨0, 0, 0⟩, by decide +kernel, by decide +kernel, ?_⟩
    refine exSome (by decide +kernel) ?_
    exact exSomeT (by decide +kernel)
  · refine ⟨(fullw (rdy net)), ⟨0, 0, 0⟩, by decide +kernel, by decide +kernel, by decide +kernel, ?_⟩
    refine exSome (by decide +kernel) ?_
    exact exSomeT (by decide +kernel)
  · refine ⟨⟨0, 0, 0⟩, ⟨0, 0, 0, 1⟩, by decide +kernel, (sw (res net 1 1 .moving .swapping) [⟨1, some 1, some 9, none⟩]),
    by decide +kernel, 1, 9, none, ?_⟩
    decide +kernel
  · refine ⟨⟨0, 0, 0⟩, ⟨0, 0, 0, 1⟩, by decide +kernel, (sw (tcs (res net 1 1 .moving .swapping) 1 (fun t =>
    {t with a := Vector.replicate 8 3, d := Vector.replicate 16 9, sr := 7, tcmp := 66, armed := true})) [⟨2, none, some 3, none⟩, ⟨1,
    none, some 1, none⟩]), by decide +kernel, 1, ?_⟩
    decide +kernel
  · refine ⟨(dq (((res net 1 1 .waiting .waiting).updTcb 0 1 (fun t => {t with taker := true, evw := 0x40000000})).updCtx x001 (fun c =>
    {c with waitDest := some 2, evw := 0x40000000}))), 0, 0, ?_⟩
    refine exSome (by decide +kernel) ?_
    exact exPairT (by decide +kernel)
  · refine ⟨(sw (res net 1 1 .waiting .waiting) [⟨1, none, none, some g0⟩]), ⟨0, 0, 0, 1⟩, by decide +kernel,
    ({ bytes := [0x0#8, 0x1#8, 0x2#8, 0x3#8, 0x4#8, 0x5#8, 0x6#8, 0x7#8, 0x8#8, 0x9#8, 0xa#8, 0xb#8, 0xc#8, 0xd#8, 0xe#8, 0xf#8, 0x10#8, 0x11#8, 0x12#8, 0x13#8, 0x14#8, 0x15#8, 0x16#8, 0x17#8, 0x18#8, 0x19#8, 0x1a#8, 0x1b#8, 0x1c#8, 0x1d#8, 0x1e#8, 0x1f#8, 0x20#8, 0x21#8, 0x22#8, 0x23#8, 0x24#8, 0x25#8, 0x26#8, 0x27#8, 0x28#8, 0x29#8, 0x2a#8, 0x2b#8, 0x2c#8, 0x2d#8, 0x2e#8, 0x2f#8, 0x30#8, 0x31#8, 0x32#8, 0x33#8, 0x34#8, 0x35#8, 0x36#8, 0x37#8, 0x38#8, 0x39#8, 0x3a#8, 0x3b#8, 0x3c#8, 0x3d#8, 0x3e#8, 0x3f#8, 0x40#8, 0x41#8, 0x42#8, 0x43#8, 0x44#8, 0x45#8, 0x46#8, 0x47#8, 0x48#8, 0x49#8, 0x4a#8, 0x4b#8, 0x4c#8, 0x4d#8, 0x4e#8, 0x4f#8, 0x50#8, 0x51#8, 0x52#8, 0x53#8, 0x54#8, 0x55#8, 0x56#8, 0x57#8, 0x58#8, 0x59#8, 0x5a#8, 0x5b#8, 0x5c#8, 0x5d#8, 0x5e#8, 0x5f#8, 0x60#8, 0x61#8, 0x62#8, 0x63#8, 0x64#8, 0x65#8, 0x66#8, 0x67#8, 0x68#8, 0x69#8, 0x6a#8, 0x6b#8, 0x6c#8, 0x6d#8, 0x6e#8, 0x6f#8, 0x70#8, 0x71#8, 0x72#8, 0x73#8, 0x74#8, 0x75#8, 0x76#8, 0x77#8, 0x78#8, 0x79#8, 0x7a#8, 0x7b#8, 0x7c#8, 0x7d#8, 0x7e#8, 0x7f#8, 0x80#8, 0x81#8, 0x82#8, 0x83#8, 0x84#8, 0x85#8, 0x86#8, 0x87#8, 0x88#8, 0x89#8, 0x8a#8, 0x8b#8, 0x8c#8, 0x8d#8, 0x8e#8, 0x8f#8, 0x90#8, 0x91#8, 0x92#8, 0x93#8, 0x94#8, 0x95#8, 0x96#8, 0x97#8, 0x98#8, 0x99#8, 0x9a#8, 0x9b#8, 0x9c#8, 0x9d#8, 0x9e#8, 0x9f#8, 0xa0#8, 0xa1#8, 0xa2#8, 0xa3#8, 0xa4#8, 0xa5#8, 0xa6#8, 0xa7#8, 0xa8#8, 0xa9#8, 0xaa#8, 0xab#8, 0xac#8, 0xad#8, 0xae#8, 0xaf#8, 0xb0#8, 0xb1#8, 0xb2#8, 0xb3#8, 0xb4#8, 0xb5#8, 0xb6#8, 0xb7#8, 0xb8#8, 0xb9#8, 0xba#8, 0xbb#8, 0xbc#8, 0xbd#8, 0xbe#8, 0xbf#8], slot := 3, serial := 9 }),
    ?_⟩
    decide +kernel

end ResidencyAndSlugs

namespace CoursesAndCores
def img : MImage := ⟨[0,0,0,0] ++ toBe 2 1 ++ [0,0] ++ [0,0,0,0] ++ toBe 4 0x123 ++ List.replicate 64 1⟩
def res (s : State) (n : TcbIx) (x : CtxIx) (st : TaskState) (cs : CtxState) : State := (s.updTcb 0 n.val (fun t => {t with state := st, ctx := x})).updCtx ⟨0,0,0,x⟩ (fun _ => {c 0x60E4 with task := some n, state := cs})
def quiet : State := (((net.updCtx x000 (fun _ => {})).updCtx x001 (fun _ => {}))).wr (pgChase 0 0 + 0x1C0) 5
def cdq (s : State) : State := s.updCourse 0 0 (fun c => {c with dq := [⟨[], 1, 1⟩]})
def ch (f : Chan → Chan) (n : Nat) : State := {((net.updCourse 0 0 (fun k => {k with channels := [(1, f {owner := some ⟨0,true,1⟩})]})).wr (pgChase 0 0 + 0x1C8) 2) with now := n}

/-- What each clause of `Obligations.CoursesAndCores` assumes is met. -/
theorem test_CoursesAndCores_hypotheses :
    (∃ s : State, ∃ w : WytheIx, ∃ c : CourseIx, (s.rd (pgChase w (8 * c.val) + 0x1C0)).toNat ≠ 0 ∧ 2 * (s.rd (pgChase w (8 * c.val) +
      0x1C0)).toNat ≤ (s.course w c.val).quiet ∧ (s.course w c.val).recovery = false ∧ ((s.wy w).mode = .run ∨ (s.wy w).mode = .setting ∨
      (s.wy w).mode = .plumb ∨ (s.wy w).mode = .half) ∧ (s.course w c.val).held = false ∧ s.courseQuiet w c = true ∧ s.Canon) ∧
    (∃ s : State, ∃ w : WytheIx, ∃ a : Agent, s.reach a w = true ∧ ∃ c : CourseIx, (s.course w c.val).recovery = true) ∧
    (∃ s : State, ∃ w : WytheIx, ∃ c : CourseIx, ∃ ch : Fin 64, ∃ o, (s.chan w c.val ch.val).owner = some o ∧ (1000 * fld (s.rd (pgChase w
      (8 * c.val) + 0x1C8)) 15 0) ≠ 0 ∧ (s.chan w c.val ch.val).progress + (1000 * fld (s.rd (pgChase w (8 * c.val) + 0x1C8)) 15 0) ≤
      (s.chan w c.val ch.val).stalled.getD s.now ∧ s.Canon) ∧
    (∃ s : State, ∃ a : Agent, ∃ k : CoreId, s.reach a k.w = true ∧ s.Canon ∧ (s.core k.w k.ix).aborted = false) ∧
    (∃ s : State, ∃ a : Agent, ∃ k : CoreId, s.reach a k.w = true ∧ (s.core k.w k.ix).aborted = true ∧ ∃ m, (s.core k.w k.ix).image = some
      m ∧ beAt m.bytes 4 2 = 1 ∧ s.Canon) := by
  and_intros
  · refine ⟨(quiet.updCourse 0 0 (fun c => {c with quiet := 12})), 0, 0, by decide +kernel, by decide +kernel, by decide +kernel,
    ⟨by decide +kernel, by decide +kernel, by decide +kernel, ?_⟩⟩
    exact canon_of (by decide +kernel)
  · refine ⟨(((cdq quiet).updCourse 0 0 (fun c => {c with recovery := true})).updCore 0 3 (fun c => {c with intPend := 0x2010})), 0,
    (Agent.host), by decide +kernel, 0, ?_⟩
    decide +kernel
  · refine ⟨(ch (fun h => {h with words := [1,2]}) 2000), 0, 0, 1, ?_⟩
    refine exSome (by decide +kernel) ?_
    refine ⟨by decide +kernel, by decide +kernel, ?_⟩
    exact canon_of (by decide +kernel)
  · refine ⟨net, (Agent.host), ⟨0, 0, 0⟩, by decide +kernel, canon_of (by decide +kernel), ?_⟩
    decide +kernel
  · refine ⟨((res net 1 1 .running .running).updCore 0 0 (fun c =>
    {c with aborted := true, dead := true, image := some img, data := [(5,5)], inst := [(0, 1)]})), (Agent.host), ⟨0, 0, 0⟩,
    by decide +kernel, by decide +kernel, ?_⟩
    refine exSome (by decide +kernel) ?_
    refine ⟨by decide +kernel, ?_⟩
    exact canon_of (by decide +kernel)

end CoursesAndCores

namespace Coprocessors
def un (s : State) (f : CpUnit → CpUnit) : State := s.updCourse 0 0 (fun k => {k with units := (List.range 4).map (fun u => (u, f {}))})
def h1 : Holder := net.holderOf x001
def o1 : Holder := .task 0 3 5
def blk (op : Nat) (flags : Nat) (course off len : Nat) (num den : Nat) : Bytes := toBe 1 op ++ [0, 0] ++ toBe 1 flags ++ List.replicate 8 0 ++ toBe 4 (course * 2^24 + off) ++ toBe 2 0 ++ toBe 2 len ++ toBe 4 num ++ toBe 4 den ++ List.replicate 4 0
def pl (u : Nat) (b : Bytes) (st : PlaceState) (f : Nat := 0) : Place := ⟨h1, 0, u, b, f, false, 1, st, 0, none⟩
def pls (l : SMap Place) (s : State := net) : State := s.updCourse 0 0 (fun k => {k with places := l})

/-- What each clause of `Obligations.Coprocessors` assumes is met. -/
theorem test_Coprocessors_hypotheses :
    (∃ w : WytheIx, ∃ x : CtxId, x.w = w ∧ ∃ c : CourseIx, x.c = c ∧ ∃ s : State, ∃ u : Fin 4, (s.cpUnit w c.val u.val).holder = none) ∧
    (∃ w : WytheIx, ∃ x : CtxId, x.w = w ∧ ∃ c : CourseIx, x.c = c ∧ ∃ s : State, ∃ u : Fin 4, ∃ o, (s.cpUnit w c.val u.val).holder = some
      o ∧ o ≠ (s.holderOf x) ∧ (∀ q ∈ (s.cpUnit w c.val u.val).waiters, q.1 ≠ (s.holderOf x))) ∧
    (∃ w : WytheIx, ∃ x : CtxId, x.w = w ∧ ∃ c : CourseIx, x.c = c ∧ ∃ s : State, s.reach .host w = true) ∧
    (∃ w : WytheIx, ∃ x : CtxId, x.w = w ∧ ∃ c : CourseIx, x.c = c ∧ ∃ s : State, ∃ u : Fin 4, (s.cpUnit w c.val u.val).holder = some
      (s.holderOf x) ∧ s.cpOutstanding w c.val (fun p => p.unit == u.val && some p.owner == (s.cpUnit w c.val u.val).holder) = false ∧
      (s.cpUnit w c.val u.val).waiters = []) ∧
    (∃ w : WytheIx, ∃ x : CtxId, x.w = w ∧ ∃ c : CourseIx, x.c = c ∧ ∃ s : State, ∃ u : Fin 4, (s.cpUnit w c.val u.val).holder = some
      (s.holderOf x) ∧ s.cpOutstanding w c.val (fun p => p.unit == u.val && some p.owner == (s.cpUnit w c.val u.val).holder) = false ∧ ∃
      c', ∃ k', ∃ n, ∃ g, ∃ r, (s.cpUnit w c.val u.val).waiters = (.task c' k' n, g) :: r) ∧
    (∃ w : WytheIx, ∃ x : CtxId, x.w = w ∧ ∃ c : CourseIx, x.c = c ∧ ∃ s : State, ∃ u : Fin 4, (s.cpUnit w c.val u.val).holder ≠ some
      (s.holderOf x) ∧ s.Canon) ∧
    (∃ s : State, ∃ w : WytheIx, ∃ c : CourseIx, ∃ n : Fin 16, ∃ p : Place, sfind (s.course w c.val).places n.val = some p ∧ p.state =
      .queued ∧ p.cancelled = none) ∧
    (∃ s : State, ∃ w : WytheIx, ∃ c : CourseIx, ∃ n : Fin 16, ∃ p : Place, sfind (s.course w c.val).places n.val = some p ∧ p.state =
      .queued ∧ ∃ b, p.cancelled = some b ∧ p.dead = false ∧ (p.found ≠ 0 ∨ bitOf (beAt p.block 3 1) 0 = false)) ∧
    (∃ s : State, ∃ w : WytheIx, ∃ c : CourseIx, ∃ n : Fin 16, ∃ p : Place, sfind (s.course w c.val).places n.val = some p ∧ p.state =
      .committed ∧ (∀ e ∈ (s.course w c.val).places, e.2.unit = p.unit → e.2.state ≠ .done → p.order ≤ e.2.order) ∧ p.dead = false ∧ bitOf
      (beAt p.block 3 1) 0 = false ∧ p.found ≠ 0) ∧
    (∃ s : State, ∃ w : WytheIx, ∃ c : CourseIx, ∃ n : Fin 16, ∃ p : Place, sfind (s.course w c.val).places n.val = some p ∧ p.state =
      .committed ∧ (∀ e ∈ (s.course w c.val).places, e.2.unit = p.unit → e.2.state ≠ .done → p.order ≤ e.2.order) ∧ p.dead = false ∧ bitOf
      (beAt p.block 3 1) 0 = false ∧ p.found = 0 ∧ cpBadBlock p.unit p.block = true) ∧
    (∃ s : State, ∃ w : WytheIx, ∃ c : CourseIx, ∃ n : Fin 16, ∃ p : Place, sfind (s.course w c.val).places n.val = some p ∧ p.state =
      .committed ∧ (∀ e ∈ (s.course w c.val).places, e.2.unit = p.unit → e.2.state ≠ .done → p.order ≤ e.2.order) ∧ p.dead = false ∧ bitOf
      (beAt p.block 3 1) 0 = false ∧ p.found = 0 ∧ p.unit = 3 ∧ cpBadBlock 3 p.block = false ∧ cpOp p.block = 1 ∧ (cpDst p.block).buf =
      false ∧ (cpDst p.block).course < 6 ∧ (cpDst p.block).off + (cpDst p.block).len ≤ 0x400000 ∧ s.bankRange w (cpDst p.block).course
      (cpDst p.block).off (cpDst p.block).len = .on ∧ s.MemCanon ∧ (beAt p.block 24 4) ≠ 0) ∧
    (∃ s : State, ∃ w : WytheIx, ∃ c : CourseIx, ∃ n : Fin 16, ∃ p : Place, sfind (s.course w c.val).places n.val = some p ∧ p.state =
      .committed ∧ (∀ e ∈ (s.course w c.val).places, e.2.unit = p.unit → e.2.state ≠ .done → p.order ≤ e.2.order) ∧ p.dead = false ∧ bitOf
      (beAt p.block 3 1) 0 = false ∧ p.found = 0 ∧ p.unit = 3 ∧ cpBadBlock 3 p.block = false ∧ cpOp p.block = 1 ∧ (cpDst p.block).buf =
      false ∧ (cpDst p.block).course < 6 ∧ (cpDst p.block).off + (cpDst p.block).len ≤ 0x400000 ∧ s.bankRange w (cpDst p.block).course
      (cpDst p.block).off (cpDst p.block).len = .on ∧ s.MemCanon ∧ (beAt p.block 24 4) = 0) := by
  and_intros
  · refine ⟨0, ⟨0, 0, 0, 1⟩, by decide +kernel, 0, by decide +kernel, (pls [(0, pl 3 (blk 1 0 5 0x3FFFF8 8 0xFFFFFFFF 7) .committed)]), 0,
    ?_⟩
    decide +kernel
  · refine ⟨0, ⟨0, 0, 0, 1⟩, by decide +kernel, 0, by decide +kernel, (un net (fun u =>
    {u with holder := some o1, waiters := [(.host, 3)]})), 0, ?_⟩
    refine exSome (by decide +kernel) ?_
    decide +kernel
  · refine ⟨0, ⟨0, 0, 0, 1⟩, by decide +kernel, 0, by decide +kernel, (pls [(0, pl 3 (blk 1 0 5 0x3FFFF8 8 0xFFFFFFFF 7) .committed)]),
    ?_⟩
    decide +kernel
  · refine ⟨0, ⟨0, 0, 0, 1⟩, by decide +kernel, 0, by decide +kernel, (un net (fun u => {u with holder := some h1, state := [1,2]})), 0,
    ?_⟩
    decide +kernel
  · refine ⟨0, ⟨0, 0, 0, 1⟩, by decide +kernel, 0, by decide +kernel, (un net (fun u =>
    {u with holder := some h1, state := [1,2], waiters := [(o1, 3), (.host, 2)]})), 0, by decide +kernel, by decide +kernel, 0, 3, 5, 3,
    ([(Holder.host, 2)]), ?_⟩
    decide +kernel
  · refine ⟨0, ⟨0, 0, 0, 1⟩, by decide +kernel, 0, by decide +kernel, (pls [(0, pl 3 (blk 1 0 5 0x3FFFF8 8 0xFFFFFFFF 7) .committed)]), 0,
    by decide +kernel, ?_⟩
    exact canon_of (by decide +kernel)
  · refine ⟨(pls [(0, pl 3 (blk 1 0 0 0 0 10 3) .queued)]), 0, 0, 0, ?_⟩
    refine exSome (by decide +kernel) ?_
    decide +kernel
  · refine ⟨(pls [(0, {pl 3 (blk 1 0 0 0 0 10 3) .queued with cancelled := some true}), (1,
    {pl 2 [] .queued 2 with cancelled := some false})]), 0, 0, 0, ?_⟩
    refine exSome (by decide +kernel) ?_
    refine ⟨by decide +kernel, ?_⟩
    refine exSome (by decide +kernel) ?_
    decide +kernel
  · refine ⟨(pls [(0, pl 3 (blk 1 0 0 0 0 10 3) .committed), (1, pl 2 [] .committed 2), (2, pl 1 [] .done 3), (3,
    {pl 3 (blk 1 0 0 0 0 10 0) .committed with order := 2})]), 0, 0, 1, ?_⟩
    refine exSome (by decide +kernel) ?_
    decide +kernel
  · refine ⟨(pls [(0, pl 3 (blk 1 0 0 0 0 10 3) .committed), (1, pl 2 [] .committed 2), (2, pl 1 [] .done 3), (3,
    {pl 3 (blk 1 0 0 0 0 10 0) .committed with order := 2})]), 0, 0, 0, ?_⟩
    refine exSome (by decide +kernel) ?_
    decide +kernel
  · refine ⟨(pls [(0, pl 3 (blk 1 0 5 0x3FFFF8 8 0xFFFFFFFF 7) .committed)]), 0, 0, 0, ?_⟩
    refine exSome (by decide +kernel) ?_
    refine ⟨by decide +kernel, by decide +kernel, by decide +kernel, ⟨by decide +kernel, by decide +kernel, by decide +kernel,
      ⟨by decide +kernel, by decide +kernel, by decide +kernel, ⟨by decide +kernel, by decide +kernel, by decide +kernel, memCanon_of
      (by decide +kernel), ?_⟩⟩⟩⟩
    decide +kernel
  · refine ⟨(pls [(0, pl 3 (blk 1 0 5 0x3FFFF8 8 0xFFFFFFFF 0) .committed)]), 0, 0, 0, ?_⟩
    refine exSome (by decide +kernel) ?_
    refine ⟨by decide +kernel, by decide +kernel, by decide +kernel, ⟨by decide +kernel, by decide +kernel, by decide +kernel,
      ⟨by decide +kernel, by decide +kernel, by decide +kernel, ⟨by decide +kernel, by decide +kernel, by decide +kernel, memCanon_of
      (by decide +kernel), ?_⟩⟩⟩⟩
    decide +kernel

end Coprocessors

namespace BanksAndMarches
def bks (s : State) (b : SMap BankState) : State := s.updCourse 0 0 (fun c => {c with bankState := b, banks := [(0x3FFFF, 7), (0x40000, 9), (0x7FFFF,1), (0x80000,3)]})
def mar (s : State) (e : Nat) (m : March) : State := s.updWy 0 (fun y => {y with marches := [(e, m)]})

/-- What each clause of `Obligations.BanksAndMarches` assumes is met. -/
theorem test_BanksAndMarches_hypotheses :
    (∃ s : State, ∃ w : WytheIx, ∃ a : Agent, s.reach a w = true ∧ (s.wy w).mode ≠ .dormant) ∧
    (∃ s : State, ∃ w : WytheIx, ∃ a : Agent, s.reach a w = true ∧ (s.wy w).mode = .dormant) ∧
    (∃ s : State, ∃ w : WytheIx, ∃ c : CourseIx, ∃ b : Fin 16, ∃ g : Fin 3, kget .on (s.course w c.val).bankState b.val = .changing g) ∧
    (∃ s : State, ∃ a : Agent, ∃ w : WytheIx, s.reach a w = true ∧ ∃ v : W32, ∃ e : Nat, marchEngine (fld v 4 0) = some e ∧ s.enabled
      (pgMarch w) = true ∧ (s.march w e).running = false ∧ s.isolated w (fld v 4 0) (flag v 8) = true) ∧
    (∃ s : State, ∃ a : Agent, ∃ w : WytheIx, s.reach a w = true ∧ ∃ v : W32, ∃ e : Nat, marchEngine (fld v 4 0) = some e ∧ s.enabled
      (pgMarch w) = true ∧ (s.march w e).running = false ∧ s.isolated w (fld v 4 0) (flag v 8) = false) ∧
    (∃ s : State, ∃ a : Agent, ∃ w : WytheIx, s.reach a w = true ∧ ∃ v : W32, marchEngine (fld v 4 0) = none) ∧
    (∃ s : State, ∃ w : WytheIx, ∃ e : Fin 7, (s.march w e.val).running = true ∧ ∃ f : MarchFinding, f.failWords = 0 ∧ f.lost = false ∧
      f.repairs = [] ∧ (s.march w e.val).target.toNat = e.val ∧ e.val < 6 ∧ s.banksOn w e.val = true) := by
  and_intros
  · refine ⟨net, 0, (Agent.host), ?_⟩
    decide +kernel
  · refine ⟨((bks net [(0, .retention)]).updWy 0 (fun y => {y with mode := .dormant})), 0, (Agent.host), ?_⟩
    decide +kernel
  · refine ⟨(bks net [(0, .retention), (1, .off), (2, .changing 0), (3, .changing 2), (15, .on)]), 0, 0, 2, 0, ?_⟩
    decide +kernel
  · refine ⟨net, (Agent.host), 0, by decide +kernel, 0x55555555#32, ?_⟩
    refine exSome (by decide +kernel) ?_
    decide +kernel
  · refine ⟨net, (Agent.host), 0, by decide +kernel, 0x0#32, ?_⟩
    refine exSome (by decide +kernel) ?_
    decide +kernel
  · refine ⟨net, (Agent.host), 0, by decide +kernel, 0x6#32, ?_⟩
    decide +kernel
  · refine ⟨(mar net 0 {running := true, target := 0}), 0, 0, by decide +kernel,
    ({ failWords := 0, failAddr := 0x0#32, repairs := [], lost := false }), ?_⟩
    decide +kernel

end BanksAndMarches

namespace QuoinAndCounters
def hh : Holder := net.holderOf x001
def qs (f : Quoin → Quoin) : State := (act (act net (pgQuoin 0 + 0x200) 0x840001FF) (pgQuoin 0 + 0x204) 0x000001FF).updQuoin 0 f
def smp (f : Core → Core) : State := net.updCore 0 0 f

/-- What each clause of `Obligations.QuoinAndCounters` assumes is met. -/
theorem test_QuoinAndCounters_hypotheses :
    (∃ s : State, ∃ a : Asker, ∃ w : WytheIx, s.askerReach a w = true ∧ ∃ v : W32, (bitOf (fld (s.groupCfg w (fld v 10 0)) 8 0) (rightsBit
      (s.askerHolder a)) = true ∧ s.enabled (pgQuoin w) = true) ∧ ((∀ r ∈ ((s.wy w).quoin).waits, r.holder ≠ (s.askerHolder a)) ∧ (flag
      (s.groupCfg w (fld v 10 0)) 31 = true ∨ quoinHeld ((s.wy w).quoin) (s.askerHolder a) (fld v 10 0) = 0)) ∧ quoinUsed ((s.wy w).quoin)
      (fld v 10 0) < s.quoinMax w (fld v 10 0) ∧ (∀ r ∈ ((s.wy w).quoin).waits, r.object ≠ (fld v 10 0)) ∧ recordShort ((s.wy w).quoin)
      (s.askerHolder a) (fld v 10 0) = false ∧ (((s.wy w).quoin).holds.filter (fun r => r.object == (fld v 10 0) && r.holder ==
      (s.askerHolder a))).length ≤ 1) ∧
    (∃ s : State, ∃ a : Asker, ∃ w : WytheIx, s.askerReach a w = true ∧ ∃ v : W32, (bitOf (fld (s.groupCfg w (fld v 10 0)) 8 0) (rightsBit
      (s.askerHolder a)) = true ∧ s.enabled (pgQuoin w) = true) ∧ ((∀ r ∈ ((s.wy w).quoin).waits, r.holder ≠ (s.askerHolder a)) ∧ (flag
      (s.groupCfg w (fld v 10 0)) 31 = true ∨ quoinHeld ((s.wy w).quoin) (s.askerHolder a) (fld v 10 0) = 0)) ∧ s.quoinMax w (fld v 10 0)
      ≤ quoinUsed ((s.wy w).quoin) (fld v 10 0) ∧ flag v 31 = true) ∧
    (∃ s : State, ∃ a : Asker, ∃ w : WytheIx, s.askerReach a w = true ∧ ∃ v : W32, (bitOf (fld (s.groupCfg w (fld v 10 0)) 8 0) (rightsBit
      (s.askerHolder a)) = true ∧ s.enabled (pgQuoin w) = true) ∧ ((∀ r ∈ ((s.wy w).quoin).waits, r.holder ≠ (s.askerHolder a)) ∧ (flag
      (s.groupCfg w (fld v 10 0)) 31 = true ∨ quoinHeld ((s.wy w).quoin) (s.askerHolder a) (fld v 10 0) = 0)) ∧ s.quoinMax w (fld v 10 0)
      ≤ quoinUsed ((s.wy w).quoin) (fld v 10 0) ∧ flag v 31 = false) ∧
    (∃ s : State, ∃ a : Asker, ∃ w : WytheIx, s.askerReach a w = true ∧ ∃ v : W32, ¬ (bitOf (fld (s.groupCfg w (fld v 10 0)) 8 0)
      (rightsBit (s.askerHolder a)) = true ∧ s.enabled (pgQuoin w) = true)) ∧
    (∃ s : State, ∃ a : Asker, ∃ w : WytheIx, s.askerReach a w = true ∧ ∃ v : W32, quoinHeld ((s.wy w).quoin) (s.askerHolder a) (fld v 10
      0) = 0) ∧
    (∃ s : State, ∃ a : Asker, ∃ w : WytheIx, s.askerReach a w = true ∧ ∃ v : W32, ∃ l, ∃ r, ((s.wy w).quoin).holds = l ++
      [⟨(s.askerHolder a), (fld v 10 0), 1⟩] ++ r ∧ (∀ e ∈ l ++ r, e.object = (fld v 10 0) → e.holder ≠ (s.askerHolder a)) ∧ (∀ e ∈ l ++
      r, e.units ≠ 0) ∧ (∀ e ∈ ((s.wy w).quoin).waits, e.object ≠ (fld v 10 0)) ∧ ((s.wy w).quoin).holds.length < 4096) ∧
    (∃ s : State, ∃ a : Agent, ∃ k : CoreId, s.reach a k.w = true ∧ s.Canon) ∧
    (∃ s : State, ∃ a : Agent, ∃ k : CoreId, s.reach a k.w = true ∧ ∃ n : Fin 8, ∃ d, (s.core k.w k.ix).due.find? (fun d => d.counter ==
      n.val && d.ctx.isSome) = some d ∧ ∃ y, d.ctx = some y ∧ ((s.ctx ⟨k.w, k.c, k.k, y⟩).state = .running ∨ (s.ctx ⟨k.w, k.c, k.k,
      y⟩).state = .entry)) ∧
    (∃ s : State, ∃ a : Agent, ∃ k : CoreId, s.reach a k.w = true ∧ ∃ n : Fin 8, ∃ d, (s.core k.w k.ix).due.find? (fun d => d.counter ==
      n.val && d.ctx.isSome) = some d ∧ ∃ y, d.ctx = some y ∧ (s.ctx ⟨k.w, k.c, k.k, y⟩).state ≠ .running ∧ (s.ctx ⟨k.w, k.c, k.k,
      y⟩).state ≠ .entry ∧ (s.core k.w k.ix).samples.length < 16) ∧
    (∃ s : State, ∃ a : Agent, ∃ k : CoreId, s.reach a k.w = true ∧ ∃ e r, (s.core k.w k.ix).samples = e :: r) ∧
    (∃ s : State, ∃ a : Agent, ∃ k : CoreId, s.reach a k.w = true ∧ (s.core k.w k.ix).samples = []) := by
  and_intros
  · refine ⟨net, (Asker.host), 0, by decide +kernel, 0x0#32, ?_⟩
    decide +kernel
  · refine ⟨(qs (fun q => {q with holds := [⟨.host, 1, 3⟩, ⟨hh, 64, 1⟩]})), (Asker.host), 0, by decide +kernel, 0x80000001#32, ?_⟩
    decide +kernel
  · refine ⟨(qs (fun q => {q with holds := [⟨.host, 1, 3⟩, ⟨hh, 64, 1⟩]})), (Asker.host), 0, by decide +kernel, 0x1#32, ?_⟩
    decide +kernel
  · refine ⟨((qs id).wr (pgQuoin 0 + 8) 0), (Asker.host), 0, by decide +kernel, 0x0#32, ?_⟩
    decide +kernel
  · refine ⟨net, (Asker.host), 0, by decide +kernel, 0x0#32, ?_⟩
    decide +kernel
  · refine ⟨(qs (fun q => {q with holds := [⟨.host, 1, 3⟩, ⟨hh, 64, 1⟩]})), (Asker.mason ⟨0, 0, 0, 1⟩), 0, by decide +kernel, 0x40#32,
    ([{ holder := Holder.host, object := 1, units := 3 }]), ([]), ?_⟩
    decide +kernel
  · refine ⟨net, (Agent.host), ⟨0, 0, 0⟩, by decide +kernel, ?_⟩
    exact canon_of (by decide +kernel)
  · refine ⟨(smp (fun c => {c with due := [⟨0, some 1, 77, 99, 0, false⟩, ⟨7, none, 5, 6, 0, false⟩]})), (Agent.host), ⟨0, 0, 0⟩,
    by decide +kernel, 0, ?_⟩
    refine exSome (by decide +kernel) ?_
    refine exSome (by decide +kernel) ?_
    decide +kernel
  · refine ⟨((smp (fun c => {c with due := [⟨0, some 1, 77, 99, 3, false⟩]})).updCtx x001 (fun c => {c with state := .stopped})),
    (Agent.host), ⟨0, 0, 0⟩, by decide +kernel, 0, ?_⟩
    refine exSome (by decide +kernel) ?_
    refine exSome (by decide +kernel) ?_
    decide +kernel
  · refine ⟨(smp (fun c => {c with due := [⟨0, some 1, 77, 99, 0, false⟩], samples := List.replicate 15 [1,2,3,4]})), (Agent.host), ⟨0, 0,
    0⟩, by decide +kernel, ?_⟩
    exact exConsT (by decide +kernel)
  · refine ⟨net, (Agent.host), ⟨0, 0, 0⟩, ?_⟩
    decide +kernel

end QuoinAndCounters

namespace Interrupts
def co (s : State) (f : Core → Core) : State := (s.updCore 0 0 f).wr (pgCore 0 0 + 0x114) 0xFFFF
def s1 := net.updCtx x000 (fun c => {c with sr := 0x8063, pcx := 0x444})
def en (s : State) : State := s.updCtx x000 (fun c => {c with state := .entry})

/-- What each clause of `Obligations.Interrupts` assumes is met. -/
theorem test_Interrupts_hypotheses :
    (∃ s : State, ∃ k : CoreId, ∃ a : Agent, s.reach a k.w = true) ∧
    (∃ s : State, ∃ k : CoreId, ∃ gap : Nat, ∃ ready : BitVec 8, s.entryMay k gap ready = true ∧ (s.core k.w k.ix).entryStep = 0 ∧ ∃ n,
      topSource ((s.takeCycle (⟨k.w, k.c, k.k, 0⟩ : CtxId) ((s.core k.w k.ix).cycle + gap + 1) gap).takeable k) = some n) ∧
    (∃ s : State, ∃ k : CoreId, ∃ gap : Nat, ∃ ready : BitVec 8, s.entryMay k gap ready = false) ∧
    (∃ s : State, ∃ k : CoreId, ∃ gap : Nat, ∃ ready : BitVec 8, s.entryMay k gap ready = true ∧ (s.core k.w k.ix).entryStep = 1) ∧
    (∃ s : State, ∃ k : CoreId, ∃ gap : Nat, ∃ ready : BitVec 8, s.entryMay k gap ready = true ∧ (s.core k.w k.ix).entryStep = 5 ∧ (s.ctx
      (⟨k.w, k.c, k.k, 0⟩ : CtxId)).haltDue = false ∧ (s.ctx (⟨k.w, k.c, k.k, 0⟩ : CtxId)).stepping = false) := by
  and_intros
  · refine ⟨net, ⟨0, 0, 0⟩, (Agent.host), ?_⟩
    decide +kernel
  · refine ⟨(co s1 (fun c => {c with intPend := 0x8010})), ⟨0, 0, 0⟩, 0, 0x0#8, by decide +kernel, by decide +kernel, ?_⟩
    exact exSomeT (by decide +kernel)
  · refine ⟨net, ⟨0, 0, 0⟩, 0, 0x0#8, ?_⟩
    decide +kernel
  · refine ⟨(en (co s1 (fun c => {c with entryStep := 1, entrySource := 4, intPend := 0x10}))), ⟨0, 0, 0⟩, 0, 0x0#8, ?_⟩
    decide +kernel
  · refine ⟨((en (co s1 (fun c => {c with entryStep := 5, entrySource := 15, intPend := 0x8010}))).wr (pgCore 0 0 + 0x11C) 0x1235), ⟨0, 0,
    0⟩, 0, 0x0#8, ?_⟩
    decide +kernel

end Interrupts

namespace Ledger
def dsx (s : State) (f : Datestone → Datestone) : State := s.updDs 0 f
def st (f : Datestone → Datestone) : State := dsx net (fun d => f {d with started := true, lc := .commissioned, head := List.replicate 32 5, nextSeq := 10, privkey := 77, pubkey := [4], ring := [(4, List.replicate 64 3), (5, List.replicate 64 2)], used := 2, newest := 5, unacked := 1})
def rc : Intake := .record 3 0x1234 99 [1,2,3] false 0

/-- What each clause of `Obligations.Ledger` assumes is met. -/
theorem test_Ledger_hypotheses :
    (∃ s : State, ∃ w : WytheIx, (s.ds w).started = true ∧ ∃ type, ∃ subject, ∃ time, ∃ payload, ∃ off, ∃ missed, ∃ rest, (s.ds w).intake
      = .record type subject time payload off missed :: rest) ∧
    (∃ s : State, ∃ w : WytheIx, (s.ds w).started = true ∧ ∃ reason, ∃ missed, ∃ rest, (s.ds w).intake = .seal reason missed :: rest ∧
      (s.ds w).sealing = none ∧ (s.ds w).clampCount = 0) ∧
    (∃ s : State, ∃ w : WytheIx, ∃ a, (s.ds w).sealing = some a) ∧
    (∃ s : State, ∃ w : WytheIx, ∃ a : Agent, s.reach a w = true ∧ s.ledgering w = true ∧ (s.ds w).intake.length < 256) ∧
    (∃ s : State, ∃ w : WytheIx, ∃ a : Agent, s.reach a w = true ∧ s.Canon) ∧
    (∃ s : State, ∃ w : WytheIx, (s.ds w).started = true ∧ (s.ds w).snapAt + s.snapPeriod w ≤ s.now ∧ swf (fun _ => (0 : BitVec 49)) (s.ds
      w).prevSnap = true) ∧
    (∃ s : State, ∃ w : WytheIx, s.now < (s.ds w).snapAt + s.snapPeriod w) := by
  and_intros
  · refine ⟨(st (fun d => {d with intake := [rc, rc]})), 0, by decide +kernel, 3, 4660, 99, ([0x1#8, 0x2#8, 0x3#8]), false, 0,
    ([Intake.record 3 4660 99 [0x1#8, 0x2#8, 0x3#8] false 0]), ?_⟩
    decide +kernel
  · refine ⟨(st (fun d => {d with intake := [.seal 3 0, rc], clampCount := 0, snapAt := 100})), 0, by decide +kernel, 3, 0,
    ([Intake.record 3 4660 99 [0x1#8, 0x2#8, 0x3#8] false 0]), ?_⟩
    decide +kernel
  · refine ⟨({st (fun d => {d with sealing := some ⟨12, List.replicate 32 8, 6, 2⟩}) with now := 5000000000000}), 0, ?_⟩
    exact exSomeT (by decide +kernel)
  · refine ⟨(st (fun d => {d with intake := [rc, rc]})), 0, (Agent.host), ?_⟩
    decide +kernel
  · refine ⟨net, 0, (Agent.host), by decide +kernel, ?_⟩
    exact canon_of (by decide +kernel)
  · refine ⟨({st (fun d => {d with sealing := some ⟨12, List.replicate 32 8, 6, 2⟩}) with now := 5000000000000}), 0, ?_⟩
    decide +kernel
  · refine ⟨net, 0, ?_⟩
    decide +kernel

end Ledger

namespace Tokens
def pubOf (d : Nat) : Bytes := match ecMul 256 d (some p256G) with | some (x, y) => [4] ++ toBe 32 x ++ toBe 32 y | none => []
def tkn (op slot mins : Nat) (args : Bytes) (d : Nat) : Bytes :=
  let b := toBe 4 0x544B0001 ++ toBe 1 op ++ toBe 1 slot ++ toBe 2 mins ++ uidBytes ++ List.replicate 16 7 ++ args
  let b := padTo 0x80 b
  b ++ ecdsaSign d 12345 b
def dsx (s : State) (w : WytheIx) (f : Datestone → Datestone) : State := s.updDs w f
def prep (t : Bytes) (lc : LifeCycle) (w : WytheIx := 0) : State :=
  let s := [(0 : WytheIx), 1].foldl (fun s v => dsx s v (fun d => {d with started := true, lc := lc, rootKey := pubOf 77, authkey := pubOf 99, imageKeys := [(2, ⟨[1], false, false⟩)], challenge := {bytes := List.replicate 16 7, valid := true, drawnAt := 0}})) net
  dsx s w (fun d => {d with tokenGo := true, token := (t.zipIdx.filter (fun e => e.1 != 0)).map (fun e => (e.2, e.1))})

/-- What each clause of `Obligations.Tokens` assumes is met. -/
theorem test_Tokens_hypotheses :
    (∃ s : State, ∃ w : WytheIx, (s.ds w).started = true ∧ (s.ds w).tokenGo = true ∧ tokenOp (tokenBytes (s.ds w)) = 1) ∧
    (∃ s : State, ∃ w : WytheIx, (s.ds w).started = true ∧ (s.ds w).tokenGo = true ∧ tokenOp (tokenBytes (s.ds w)) = 2) ∧
    (∃ s : State, ∃ w : WytheIx, (s.ds w).started = true ∧ (s.ds w).tokenGo = true ∧ tokenOp (tokenBytes (s.ds w)) = 3) ∧
    (∃ s : State, ∃ w : WytheIx, (s.ds w).started = true ∧ (s.ds w).tokenGo = true ∧ tokenOp (tokenBytes (s.ds w)) = 4) ∧
    (∃ s : State, ∃ w : WytheIx, (s.ds w).started = true ∧ (s.ds w).tokenGo = true ∧ tokenOp (tokenBytes (s.ds w)) = 5) ∧
    (∃ s : State, ∃ w : WytheIx, (s.ds w).started = true ∧ (s.ds w).tokenGo = true ∧ tokenOp (tokenBytes (s.ds w)) = 6) ∧
    (∃ s : State, ∃ a : Agent, s.reach a 0 = true ∧ (s.ds 0).lc = .service) ∧
    (∃ s : State, ∃ w : WytheIx, (s.ds w).lc = .service ∧ (s.ds w).serviceEnd ≤ s.now) ∧
    (∃ s : State, ∃ w : WytheIx, ((s.ds w).lc ≠ .service ∨ s.now < (s.ds w).serviceEnd)) := by
  and_intros
  · refine ⟨(prep (tkn 1 0 0 (pubOf 55 ++ [1]) 77) .blank), 0, ?_⟩
    decide +kernel
  · refine ⟨(prep (tkn 2 0 5 [] 99) .commissioned), 0, ?_⟩
    decide +kernel
  · refine ⟨(prep (tkn 3 0 0 [] 99) .service), 0, ?_⟩
    decide +kernel
  · refine ⟨(prep (tkn 4 3 0 (pubOf 55 ++ [1]) 99) .commissioned), 0, ?_⟩
    decide +kernel
  · refine ⟨(prep (tkn 5 2 0 [] 99) .commissioned), 0, ?_⟩
    decide +kernel
  · refine ⟨(prep (tkn 6 3 0 [0xF3] 99) .commissioned), 0, ?_⟩
    decide +kernel
  · refine ⟨(prep (tkn 3 0 0 [] 99) .service), (Agent.host), ?_⟩
    decide +kernel
  · refine ⟨(prep (tkn 3 0 0 [] 99) .service), 0, ?_⟩
    decide +kernel
  · refine ⟨(prep (tkn 1 0 0 (pubOf 55 ++ [1]) 77) .blank), 0, ?_⟩
    decide +kernel

end Tokens

namespace Tamper
def st (f : Datestone → Datestone) : State := (act net (pgWitness 0 + 0x600) 0x00FF00F).updDs 0 (fun d => f {d with started := true, lc := .commissioned, tamperCfg := 0xA5})

/-- What each clause of `Obligations.Tamper` assumes is met. -/
theorem test_Tamper_hypotheses :
    (∃ s : State, s.modes.vkeep = true ∧ ∃ w : WytheIx, ∃ n : Fin 8, ((s.ds w).tamperActive.getLsbD n.val) = false ∧ s.Canon) ∧
    (∃ s : State, s.modes.vkeep = true ∧ ∃ w : WytheIx, ∃ n : Fin 8, ((s.ds w).tamperActive.getLsbD n.val) = true) ∧
    (∃ s : State, s.modes.vkeep = true ∧ ∃ w : WytheIx, ∃ a : Agent, s.reach a w = true ∧ ∃ n : Fin 8, ((s.ds w).tamperActive.getLsbD
      n.val) = false ∧ ((s.ds w).tamperLatched.getLsbD n.val) = true ∧ swf (fun _ => (0 : Byte)) (s.ds w).closedBy = true) := by
  and_intros
  · refine ⟨net, by decide +kernel, 0, 0, by decide +kernel, ?_⟩
    exact canon_of (by decide +kernel)
  · refine ⟨(st (fun d => {d with tamperActive := 0x21, tamperLatched := 0x23, closedBy := [(0, 0x21), (1,0x20), (4, 2)]})),
    by decide +kernel, 0, 0, ?_⟩
    decide +kernel
  · refine ⟨(st (fun d => {d with tamperActive := 0x21, tamperLatched := 0x23, closedBy := [(0, 0x21), (1,0x20), (4, 2)]})),
    by decide +kernel, 0, (Agent.host), by decide +kernel, 1, ?_⟩
    decide +kernel

end Tamper

namespace TimeOfDay
def ck (s : State) (w : WytheIx) (f : Clock → Clock) : State := s.updClock w f

/-- What each clause of `Obligations.TimeOfDay` assumes is met. -/
theorem test_TimeOfDay_hypotheses :
    (∃ s : State, ∃ w : WytheIx, ∃ a : Agent, s.reach a w = true ∧ s.following w = false) ∧
    (∃ s : State, ∃ w : WytheIx, ∃ a : Agent, s.reach a w = true ∧ s.following w = true) ∧
    (∃ s : State, ∃ w : WytheIx, (s.clock w).slewLeft = 0) ∧
    (∃ s : State, s.following 1 = true ∧ (s.clock 1).ns ≠ (s.clock 0).ns) ∧
    (∃ s : State, s.following 1 = false) ∧
    (∃ s : State, ∃ w : WytheIx, (s.clock w).srcActive = true) ∧
    (∃ s : State, ∃ w : WytheIx, flag (s.rd (pgTime w + 0x100)) 30 = true) ∧
    (∃ s : State, flag (s.rd (pgTime 0 + 0x100)) 29 = true ∧ (s.clock 0).valid = true ∧ (s.clock 0).ppsUntil ≤ s.now ∧ (((s.clock 0).ns :
      Int) + signed 32 (s.rd (pgTime 0 + 0x138)).toNat) % 1000000000 < 2) := by
  and_intros
  · refine ⟨net, 0, (Agent.host), ?_⟩
    decide +kernel
  · refine ⟨net, 1, (Agent.host), ?_⟩
    decide +kernel
  · refine ⟨net, 0, ?_⟩
    decide +kernel
  · refine ⟨(ck (ck net 1 (fun c => {c with ns := 77, srcActive := true})) 0 (fun c => {c with srcActive := true, ns := 76})), ?_⟩
    decide +kernel
  · refine ⟨(ck (net.wr (pgTime 1 + 0x100) 0) 0 (fun c => {c with ns := 1234567890123, frac := 5, slewing := true, slewLeft := -5})), ?_⟩
    decide +kernel
  · refine ⟨(ck (ck net 1 (fun c => {c with ns := 77, srcActive := true})) 0 (fun c => {c with srcActive := true, ns := 76})), 0, ?_⟩
    decide +kernel
  · refine ⟨((net.wr (pgTime 0 + 0x100) 0x60000005)), 0, ?_⟩
    decide +kernel
  · refine ⟨(ck (net.wr (pgTime 0 + 0x100) 0x60000005) 0 (fun c => {c with valid := true, ns := 5000000001})), ?_⟩
    decide +kernel

end TimeOfDay

namespace DramChannels
def dr (s : State) (f : Dram → Dram) : State := s.updWy 0 (fun y => {y with dram := f y.dram})
def c0 : DramCh := {trained := true, delay := 0x10203040, trainTemp := 100, readQ := [⟨0, 5, false, 0, 32⟩]}
def up (f : Dram → Dram) : State := dr net (fun d => f {d with active := 0x0F000101, available := true, channels := [(0, c0), (1, {c0 with selfRefresh := true}), (2, {c0 with nextLane := 1}), (3, {c0 with readQ := List.replicate 32 ⟨0,1,false,0,32⟩, writeQ := List.replicate 32 ⟨0,1,false,0,32⟩})]})
def rt (s : State) : State := {(s.wr (pgDram 0 + 0x114) 0xC0020001) with now := 20000000000}

/-- What each clause of `Obligations.DramChannels` assumes is met. -/
theorem test_DramChannels_hypotheses :
    (∃ s : State, ∃ w : WytheIx, ∃ a : Agent, s.reach a w = true ∧ s.Canon ∧ swf regReset s.keep = true) ∧
    (∃ s : State, ∃ w : WytheIx, ∃ n : Fin 4, ∃ u : DramUnit, (dramMap ((s.dram w).active) u.addr).1 = n.val ∧ (s.dram w).available = true
      ∧ (s.dramCh w n.val).selfRefresh = false ∧ u.addr + u.len ≤ dramSpace ((s.dram w).active) ∧ u.write = false ∧ (s.dramCh w
      n.val).readQ.length < 32) ∧
    (∃ s : State, ∃ w : WytheIx, ∃ n : Fin 4, ∃ u : DramUnit, (dramMap ((s.dram w).active) u.addr).1 = n.val ∧ (s.dram w).available = true
      ∧ (s.dramCh w n.val).selfRefresh = false ∧ u.addr + u.len ≤ dramSpace ((s.dram w).active) ∧ u.write = true ∧ (s.dramCh w
      n.val).writeQ.length < 32 ∧ u.ecc ≠ .uncorrectable) ∧
    (∃ s : State, ∃ w : WytheIx, ∃ n : Fin 4, ∃ u : DramUnit, (dramMap ((s.dram w).active) u.addr).1 = n.val ∧ (s.dram w).available = true
      ∧ (s.dramCh w n.val).selfRefresh = false ∧ u.addr + u.len ≤ dramSpace ((s.dram w).active) ∧ (if u.write then (s.dramCh w
      n.val).writeQ else (s.dramCh w n.val).readQ).length ≥ 32) ∧
    (∃ s : State, ∃ w : WytheIx, (s.dram w).lastPoll + fld (s.rd ((pgDram w) + 0x108)) 7 0 * 1000000 ≤ s.now) ∧
    (∃ s : State, ∃ w : WytheIx, ∃ n : Fin 4, s.dramLive w n.val = true ∧ (s.dramCh w n.val).nextRefresh + (if s.dramTwice w n.val then 0
      else 1950) ≤ s.now) ∧
    (∃ s : State, ∃ w : WytheIx, ∃ n : Fin 4, s.dramLive w n.val = true ∧ s.now < (s.dramCh w n.val).nextRefresh + (if s.dramTwice w n.val
      then 0 else 1950)) ∧
    (∃ s : State, ∃ w : WytheIx, ∃ n : Fin 4, s.dramLive w n.val = true ∧ s.retrainFree w = true ∧ ∃ lane : Fin 2, (s.dramCh w
      n.val).nextLane = lane.val ∧ s.Canon ∧ flag (s.rd ((pgDram w) + 0x114)) 31 = true ∧ (lane = 0 → s.retrainDue w n.val = true)) ∧
    (∃ s : State, ∃ w : WytheIx, ∃ n : Fin 4, s.dramLive w n.val = true ∧ s.retrainFree w = true ∧ ∃ lane : Fin 2, (s.dramCh w
      n.val).nextLane = lane.val ∧ s.Canon ∧ flag (s.rd ((pgDram w) + 0x114)) 30 = true ∧ (lane = 0 → (s.wy w).mode = .plumb →
      s.retrainDue w n.val = true) ∧ ∃ temp : W16, 4 * fld (s.rd ((pgDram w) + 0x114)) 21 16 ≤ (signed 16 temp.toNat - signed 16 (s.dramCh
      w n.val).trainTemp.toNat).natAbs) := by
  and_intros
  · refine ⟨net, 0, (Agent.host), by decide +kernel, canon_of (by decide +kernel), ?_⟩
    decide +kernel
  · refine ⟨(up id), 0, 0, ({ write := false, addr := 0, len := 32, ecc := EccReport.good }), ?_⟩
    decide +kernel
  · refine ⟨(up id), 0, 0, ({ write := true, addr := 0, len := 32, ecc := EccReport.good }), ?_⟩
    decide +kernel
  · refine ⟨(up id), 0, 3, ({ write := false, addr := 1536, len := 32, ecc := EccReport.good }), ?_⟩
    decide +kernel
  · refine ⟨(rt (up id)), 0, ?_⟩
    decide +kernel
  · refine ⟨(rt (up id)), 0, 0, ?_⟩
    decide +kernel
  · refine ⟨(up id), 0, 0, ?_⟩
    decide +kernel
  · refine ⟨(up id), 0, 2, by decide +kernel, by decide +kernel, 1, by decide +kernel, canon_of (by decide +kernel), ?_⟩
    decide +kernel
  · refine ⟨(up id), 0, 0, by decide +kernel, by decide +kernel, 0, by decide +kernel, canon_of (by decide +kernel), by decide +kernel,
    by decide +kernel, 0x0#16, ?_⟩
    decide +kernel

end DramChannels

namespace QueuePairs
def qs (f : QueuePair → QueuePair) : State := {net with plinth := {linkUp := true, version := some 2, rate := 3, width := 4, qps := [(0, f {}), (1, f {}), (63, f {})]}}
def good : Bytes := let d : Bytes := (List.range 60).map (fun i => BitVec.ofNat 8 i); d ++ fcsBytes d
def cp : Copy := ⟨4, true, 0, 0, 3, [⟨0x5000001, 0, 100⟩], 7, 0, 1, 0x5000001, none, false, 104, 104, false, false⟩
def stored (s : State) : State := ((s.updPress 0 (fun p => {p with store := [{cp with port := 1}, cp, cp]})).updPool 0 5 (fun q => {q with refs := [(1, 2)]})).updColl 0 (fun c => {c with flights := [(4, ⟨7, 2⟩)]})
def lost (s : State) : State := ((s.updTie 0 (fun t => {t with split := true, state := .down})).updTie 1 (fun t => {t with split := true, state := .down}))

/-- What each clause of `Obligations.QueuePairs` assumes is met. -/
theorem test_QueuePairs_hypotheses :
    (∃ s : State, ∃ q : Fin 64, ∃ d, (s.qp q).waiting = some d ∧ s.plinthRuns = true ∧ ((qpWythe q) = 0 ∨ wythes.any s.split = false)) ∧
    (∃ s : State, ∃ q : Fin 64, (s.qp q).waiting = none ∧ s.qpFetches q = true ∧ (s.qp q).tx.head ≠ (s.qp q).tx.tail) ∧
    (∃ s : State, ∃ q : Fin 64, (s.qp q).waiting = none ∧ (s.qpFetches q = false ∨ (s.qp q).tx.head = (s.qp q).tx.tail)) ∧
    (∃ s : State, ∃ q : Fin 64, ∃ c r, s.queueOf (qpWythe q) true (q.val % 32) 0 = c :: r ∧ s.qpFetches q = true ∧ (s.qp q).rx.head ≠
      (s.qp q).rx.tail) ∧
    (∃ s : State, ∃ q : Fin 64, s.queueOf (qpWythe q) true (q.val % 32) 0 = []) ∧
    (∃ s : State, ∃ v : WytheIx, (v = 0 ∨ s.tieCut = false)) ∧
    (∃ s : State, s.tieCut = true ∧ s.Canon) ∧
    (∃ s : State, ∃ a : Agent, s.reachGlobal a = true ∧ s.Canon) ∧
    (∃ s : State, ∃ a : Agent, s.reachGlobal a = true ∧ ∃ q : Fin 64, (s.qp q).waiting.isSome = true) ∧
    (∃ s : State, ∃ a : Agent, s.reachGlobal a = true ∧ ∃ q : Fin 64, (s.qp q).waiting = none) := by
  and_intros
  · refine ⟨(qs (fun q => {q with waiting := some good, tx := ⟨3, 5⟩})), 0, ?_⟩
    refine exSome (by decide +kernel) ?_
    decide +kernel
  · refine ⟨(qs (fun q => {q with tx := ⟨0xFFFF, 1⟩, rx := ⟨0xFFFF, 1⟩})), 0, ?_⟩
    decide +kernel
  · refine ⟨net, 0, ?_⟩
    decide +kernel
  · refine ⟨(stored (qs (fun q => {q with tx := ⟨0xFFFF, 1⟩, rx := ⟨0xFFFF, 1⟩}))), 0, ?_⟩
    refine exCons (by decide +kernel) ?_
    decide +kernel
  · refine ⟨net, 0, ?_⟩
    decide +kernel
  · refine ⟨net, 0, ?_⟩
    decide +kernel
  · refine ⟨(lost net), by decide +kernel, ?_⟩
    exact canon_of (by decide +kernel)
  · refine ⟨net, (Agent.host), by decide +kernel, ?_⟩
    exact canon_of (by decide +kernel)
  · refine ⟨(qs (fun q => {q with waiting := some good, tx := ⟨3, 5⟩})), (Agent.host), by decide +kernel, 0, ?_⟩
    decide +kernel
  · refine ⟨net, (Agent.host), by decide +kernel, 0, ?_⟩
    decide +kernel

end QueuePairs

namespace MailboxCommands
def rq (ver op : Nat) (arg : Bytes) (n : Nat := arg.length) : Bytes := toBe 1 ver ++ toBe 1 op ++ toBe 2 n ++ arg ++ List.replicate (252 - arg.length) 0
def pl (v : Option Nat) (r : Bytes) : State := {net with plinth := {linkUp := true, version := v, rate := 3, width := 4, req := some r, resp := [(0, 5), (3, 7)]}}
def led (s : State) : State := s.updDs 0 (fun d => {d with ring := [(4094, List.replicate 64 3), (4095, List.replicate 64 2), (0, List.replicate 64 1)], used := 3, newest := 0})
def vs : List (Option Nat) := [none, some 1, some 2, some 3]
def reqs : List Bytes := [rq 0 1 [1, 3], rq 0 1 [2, 2], rq 0 1 [3, 3], rq 0 1 [2, 1], rq 0 1 [0,255], rq 0 1 [1,2,3], rq 2 2 [], rq 1 2 [], rq 3 2 [1], rq 3 9 [], rq 3 0 [], rq 1 3 (toBe 8 0x1000 ++ toBe 4 64 ++ [5, 0xF1]), rq 3 3 (toBe 8 0x1000 ++ toBe 4 64 ++ [12, 0xF1]), rq 3 3 (toBe 8 0x1000 ++ toBe 4 64 ++ [11, 1]),
  rq 2 4 ([0] ++ toBe 2 4094 ++ toBe 2 3 ++ toBe 8 0x5000), rq 1 4 ([0] ++ toBe 2 4094 ++ toBe 2 3 ++ toBe 8 0x5000), rq 3 4 ([1] ++ toBe 2 0 ++ toBe 2 4096 ++ toBe 8 0x5000), rq 3 5 ([0] ++ toBe 8 77 ++ toBe 4 5), rq 3 5 ([1] ++ toBe 8 77 ++ toBe 4 5),  rq 2 5 ([1] ++ toBe 8 77 ++ toBe 4 5)]
def states := (reqs.flatMap (fun r => vs.map (fun v => led (pl v r)))) ++ [(led (pl (some 3) (rq 3 5 ([0] ++ toBe 8 77 ++ toBe 4 5)))).updWy 0 id |> fun s => {s with forme := {s.forme with flash := [(0x1000000, {bytes := List.replicate 300 7})]}}]

/-- What each clause of `Obligations.MailboxCommands` assumes is met. -/
theorem test_MailboxCommands_hypotheses :
    (∃ s : State, ∃ r : Bytes, s.plinth.req = some r ∧ s.plinth.again = false ∧ beAt r 1 1 = 1 ∧ s.plinth.version = none ∧ beAt r 2 2 = 2
      ∧ max 1 (beAt (slice r 4 (beAt r 2 2)) 0 1) ≤ (min (min 3 (fld (s.rd (pgPlinth + 0x108)) 1 0)) (beAt (slice r 4 (beAt r 2 2)) 1 1))) ∧
    (∃ s : State, ∃ r : Bytes, s.plinth.req = some r ∧ s.plinth.again = false ∧ beAt r 1 1 = 1 ∧ s.plinth.version = none ∧ beAt r 2 2 = 2
      ∧ (min (min 3 (fld (s.rd (pgPlinth + 0x108)) 1 0)) (beAt (slice r 4 (beAt r 2 2)) 1 1)) < max 1 (beAt (slice r 4 (beAt r 2 2)) 0 1)) ∧
    (∃ s : State, ∃ r : Bytes, s.plinth.req = some r ∧ s.plinth.again = false ∧ beAt r 1 1 = 2 ∧ s.plinth.version = none) ∧
    (∃ s : State, ∃ r : Bytes, s.plinth.req = some r ∧ s.plinth.again = false ∧ ∃ v, s.plinth.version = some v ∧ beAt r 1 1 = 2 ∧ beAt r 0
      1 ≠ v) ∧
    (∃ s : State, ∃ r : Bytes, s.plinth.req = some r ∧ s.plinth.again = false ∧ ∃ v, s.plinth.version = some v ∧ beAt r 0 1 = v ∧
      opcodeInfo (beAt r 1 1) = none) ∧
    (∃ s : State, ∃ r : Bytes, s.plinth.req = some r ∧ s.plinth.again = false ∧ ∃ v, s.plinth.version = some v ∧ beAt r 0 1 = v ∧ beAt r 1
      1 = 2 ∧ 1 ≤ v ∧ beAt r 2 2 = 0) ∧
    (∃ s : State, ∃ r : Bytes, s.plinth.req = some r ∧ s.plinth.again = false ∧ ∃ v, s.plinth.version = some v ∧ beAt r 0 1 = v ∧ beAt r 1
      1 = 2 ∧ 1 ≤ v ∧ beAt r 2 2 ≠ 0) ∧
    (∃ s : State, ∃ r : Bytes, s.plinth.req = some r ∧ s.plinth.again = false ∧ ∃ v, s.plinth.version = some v ∧ beAt r 0 1 = v ∧ beAt r 1
      1 = 3 ∧ 1 ≤ v ∧ beAt r 2 2 = 14 ∧ 11 < (beAt (slice r 4 (beAt r 2 2)) 12 1)) ∧
    (∃ s : State, ∃ r : Bytes, s.plinth.req = some r ∧ s.plinth.again = false ∧ ∃ v, s.plinth.version = some v ∧ beAt r 0 1 = v ∧ beAt r 1
      1 = 3 ∧ 1 ≤ v ∧ beAt r 2 2 = 14 ∧ (beAt (slice r 4 (beAt r 2 2)) 12 1) ≤ 11) ∧
    (∃ s : State, ∃ r : Bytes, s.plinth.req = some r ∧ s.plinth.again = false ∧ ∃ v, s.plinth.version = some v ∧ beAt r 0 1 = v ∧ beAt r 1
      1 = 4 ∧ beAt r 2 2 = 13 ∧ v < 2) ∧
    (∃ s : State, ∃ r : Bytes, s.plinth.req = some r ∧ s.plinth.again = false ∧ ∃ v, s.plinth.version = some v ∧ beAt r 0 1 = v ∧ beAt r 1
      1 = 4 ∧ beAt r 2 2 = 13 ∧ 2 ≤ v ∧ beAt (slice r 4 (beAt r 2 2)) 0 1 ≤ 1 ∧ (beAt (slice r 4 (beAt r 2 2)) 1 2) ≤ 4095 ∧ 1 ≤ (beAt
      (slice r 4 (beAt r 2 2)) 3 2) ∧ (beAt (slice r 4 (beAt r 2 2)) 3 2) ≤ 4096 ∧ (beAt (slice r 4 (beAt r 2 2)) 0 1 = 0 ∨ s.tieCut =
      false)) ∧
    (∃ s : State, ∃ r : Bytes, s.plinth.req = some r ∧ s.plinth.again = false ∧ ∃ v, s.plinth.version = some v ∧ beAt r 0 1 = v ∧ beAt r 1
      1 = 5 ∧ beAt r 2 2 = 13 ∧ v < 3) ∧
    (∃ s : State, ∃ r : Bytes, s.plinth.req = some r ∧ s.plinth.again = false ∧ ∃ v, s.plinth.version = some v ∧ beAt r 0 1 = v ∧ beAt r 1
      1 = 5 ∧ beAt r 2 2 = 13 ∧ 3 ≤ v ∧ beAt (slice r 4 (beAt r 2 2)) 0 1 ≤ 1) := by
  and_intros
  · refine ⟨(states.getD 0 net), ?_⟩
    refine exSome (by decide +kernel) ?_
    decide +kernel
  · refine ⟨(states.getD 12 net), ?_⟩
    refine exSome (by decide +kernel) ?_
    decide +kernel
  · refine ⟨(states.getD 24 net), ?_⟩
    refine exSome (by decide +kernel) ?_
    decide +kernel
  · refine ⟨(states.getD 25 net), ?_⟩
    refine exSome (by decide +kernel) ?_
    refine ⟨by decide +kernel, ?_⟩
    refine exSome (by decide +kernel) ?_
    decide +kernel
  · refine ⟨(states.getD 39 net), ?_⟩
    refine exSome (by decide +kernel) ?_
    refine ⟨by decide +kernel, ?_⟩
    refine exSome (by decide +kernel) ?_
    decide +kernel
  · refine ⟨(states.getD 26 net), ?_⟩
    refine exSome (by decide +kernel) ?_
    refine ⟨by decide +kernel, ?_⟩
    refine exSome (by decide +kernel) ?_
    decide +kernel
  · refine ⟨(states.getD 35 net), ?_⟩
    refine exSome (by decide +kernel) ?_
    refine ⟨by decide +kernel, ?_⟩
    refine exSome (by decide +kernel) ?_
    decide +kernel
  · refine ⟨(states.getD 51 net), ?_⟩
    refine exSome (by decide +kernel) ?_
    refine ⟨by decide +kernel, ?_⟩
    refine exSome (by decide +kernel) ?_
    decide +kernel
  · refine ⟨(states.getD 45 net), ?_⟩
    refine exSome (by decide +kernel) ?_
    refine ⟨by decide +kernel, ?_⟩
    refine exSome (by decide +kernel) ?_
    decide +kernel
  · refine ⟨(states.getD 61 net), ?_⟩
    refine exSome (by decide +kernel) ?_
    refine ⟨by decide +kernel, ?_⟩
    refine exSome (by decide +kernel) ?_
    decide +kernel
  · refine ⟨(states.getD 58 net), ?_⟩
    refine exSome (by decide +kernel) ?_
    refine ⟨by decide +kernel, ?_⟩
    refine exSome (by decide +kernel) ?_
    decide +kernel
  · refine ⟨(states.getD 78 net), ?_⟩
    refine exSome (by decide +kernel) ?_
    refine ⟨by decide +kernel, ?_⟩
    refine exSome (by decide +kernel) ?_
    decide +kernel
  · refine ⟨(states.getD 71 net), ?_⟩
    refine exSome (by decide +kernel) ?_
    refine ⟨by decide +kernel, ?_⟩
    refine exSome (by decide +kernel) ?_
    decide +kernel

end MailboxCommands

namespace Staging
def opn (s : State) (x : Session) : State := {s with forme := {s.forme with session := x, restored := true, journal := [1,2], refusedImages := [(3, true)]}}
def pfx : Prefix := ⟨false, 0x0A00000000000000, 8, 5, true, false⟩
def cpy (s : State) : State := s.updTables 0 (fun t => {t with copying := true, trie := [pfx, {pfx with root0 := false, root1 := true}, {pfx with root1 := true}], root1 := false})

/-- What each clause of `Obligations.Staging` assumes is met. -/
theorem test_Staging_hypotheses :
    (∃ s : State, s.forme.session = .none ∧ s.enabled pgForme = true ∧ s.sweeps = false) ∧
    (∃ s : State, s.forme.session = .none ∧ s.enabled pgForme = true ∧ s.sweeps = true) ∧
    (∃ s : State, (s.forme.session ≠ .none ∨ s.enabled pgForme = false)) ∧
    (∃ s : State, ∃ n : W16, s.forme.session = .pending n ∧ s.sweeps = false) ∧
    (∃ addr : Nat, ∃ d : RegDesc, regDesc addr = some d ∧ (d.acc = .st ∨ d.acc = .stKept) ∧ ∃ pg : PageId, pageOf addr = some pg ∧ ∃ s :
      State, (addr < 0x1000000 ∨ s.tieCut = false) ∧ s.Canon) ∧
    (∃ s : State, ∃ a : Agent, s.reachGlobal a = true) ∧
    (∃ s : State, ∃ w : WytheIx, (s.tables w).copying = true) := by
  and_intros
  · refine ⟨net, ?_⟩
    decide +kernel
  · refine ⟨(net.updWy 1 (fun y => {y with sweep := .sweeping})), ?_⟩
    decide +kernel
  · refine ⟨(opn net (.pending 0x99)), ?_⟩
    decide +kernel
  · refine ⟨(opn net (.pending 0x99)), 0x99#16, ?_⟩
    decide +kernel
  · refine ⟨9183488, ?_⟩
    refine exSome (by decide +kernel) ?_
    refine ⟨by decide +kernel, ?_⟩
    refine exSome (by decide +kernel) ?_
    refine ⟨net, by decide +kernel, ?_⟩
    exact canon_of (by decide +kernel)
  · refine ⟨net, (Agent.host), ?_⟩
    decide +kernel
  · refine ⟨(cpy net), 0, ?_⟩
    decide +kernel

end Staging

namespace LockUps
def sst (s : State) (a : Nat) (v : W32) : State := { s with staged := sput regReset s.staged a v }
def img : MImage := ⟨[1,2,3]⟩
def allc (s : State) : State := [(0 : WytheIx), 1].foldl (fun s w => (List.range 48).foldl (fun s i => s.updCore w i (fun c => {c with staged := some img})) s) s
def dig (s : State) : State := 
  let d := sha256 (s.journalBytes s.lockNumber)
  (List.range 8).foldl (fun s i => s.wr (pgForme + 0x110 + 4 * i) (w32 (beAt d (4*i) 4))) s
def opn (s : State) (n : W16) : State := {s with forme := {s.forme with session := .open_ n, journal := [1,2,3]}}
def g0 : State := [(0 : WytheIx), 1].foldl (fun s w => sst (sst s (pgGraph w 0 + 0x100) 0x80400000) (pgForme + 0xFFF000) 0) (allc net)
def lockv (s : State) (n : W16) (p : Bool) : State := {s with forme := {s.forme with locking := some (n, p)}}
def sw (s : State) (x : Sweep) : State := s.updWy 0 (fun y => {y with sweep := x, previous := some 5})
def cp (f : W16) (st : Bool) : Copy := ⟨4, false, 0, 0, 3, [⟨0x5000001, 0, 100⟩], f, 0, 1, 0x5000001, none, false, 104, 104, false, st⟩
def per : Persist := ⟨true, 0x1800000, 9, [5,6,7,8], 3, [(pgForme, 6)], .run⟩

/-- What each clause of `Obligations.LockUps` assumes is met. -/
theorem test_LockUps_hypotheses :
    (∃ s : State, s.forme.locking = none ∧ s.forme.ledgerWait = false ∧ s.enabled pgForme = true) ∧
    (∃ s : State, (s.forme.locking ≠ none ∨ s.forme.ledgerWait = true ∨ s.enabled pgForme = false)) ∧
    (∃ s : State, ∃ n persist, s.forme.locking = some (n, persist) ∧ s.validate n persist true ≠ 0) ∧
    (∃ s : State, ∃ n persist, s.forme.locking = some (n, persist) ∧ s.validate n persist true = 0) ∧
    (∃ s : State, ∃ w : WytheIx, ∃ c : CourseIx, (s.course w c.val).pausing = true ∧ s.oldSlugs w c = false ∧ (s.course w c.val).imageDue
      = true) ∧
    (∃ s : State, ∃ w : WytheIx, ∃ c : CourseIx, (s.course w c.val).pausing = true ∧ s.oldSlugs w c = false ∧ (s.course w c.val).imageDue
      = false) ∧
    (∃ s : State, ∃ w : WytheIx, ∃ c : CourseIx, ((s.course w c.val).pausing = false ∨ s.oldSlugs w c = true)) ∧
    (∃ s : State, ∃ w : WytheIx, ∃ f : W16, (s.wy w).previous = some f ∧ (s.wy w).sweep = .draining ∧ (s.wy w).switchAt + s.drainLimit ≤
      s.now) ∧
    (∃ s : State, ∃ w : WytheIx, ∃ f : W16, (s.wy w).previous = some f ∧ (s.wy w).sweep = .draining ∧ s.flightOf w f = 0) ∧
    (∃ s : State, ∃ w : WytheIx, ∃ f : W16, (s.wy w).previous = some f ∧ (s.wy w).sweep = .draining ∧ s.flightOf w f ≠ 0) ∧
    (∃ s : State, ∃ w : WytheIx, (s.wy w).sweep = .sweeping) ∧
    (∃ s : State, ∃ p, s.forme.persist = some p ∧ (s.ds 0).lc = .retired) ∧
    (∃ s : State, ∃ p, s.forme.persist = some p ∧ (s.ds 0).lc ≠ .retired) := by
  and_intros
  · refine ⟨net, ?_⟩
    decide +kernel
  · refine ⟨(lockv (dig (opn g0 9)) 9 true), ?_⟩
    decide +kernel
  · refine ⟨(lockv (opn g0 9) 9 true), ?_⟩
    refine exPair (by decide +kernel) ?_
    decide +kernel
  · refine ⟨(lockv (dig (opn g0 9)) 9 true), ?_⟩
    refine exPair (by decide +kernel) ?_
    decide +kernel
  · refine ⟨((allc net).updCourse 0 0 (fun c => {c with pausing := true, imageDue := true})), 0, 0, ?_⟩
    decide +kernel
  · refine ⟨((allc net).updCourse 0 0 (fun c => {c with pausing := true})), 0, 0, ?_⟩
    decide +kernel
  · refine ⟨net, 0, 0, ?_⟩
    decide +kernel
  · refine
    ⟨({((sw net .draining).updPress 0 (fun p => {p with store := [cp 5 false, cp 5 true, cp 7 false]})).updColl 0 (fun c => {c with flights := [(4, ⟨5, 2⟩)]}) with now := 3000000000}),
    0, ?_⟩
    refine exSome (by decide +kernel) ?_
    decide +kernel
  · refine ⟨(sw net .draining), 0, ?_⟩
    refine exSome (by decide +kernel) ?_
    decide +kernel
  · refine
    ⟨({((sw net .draining).updPress 0 (fun p => {p with store := [cp 5 false, cp 5 true, cp 7 false]})).updColl 0 (fun c => {c with flights := [(4, ⟨5, 2⟩)]}) with now := 3000000000}),
    0, ?_⟩
    refine exSome (by decide +kernel) ?_
    decide +kernel
  · refine ⟨({sw net .sweeping with forme := {net.forme with sweepOn := [0]}}), 0, ?_⟩
    decide +kernel
  · refine ⟨({net.updDs 0 (fun d => {d with lc := .retired}) with forme := {net.forme with persist := some {per with slotB := false}}}),
    ?_⟩
    refine exSome (by decide +kernel) ?_
    decide +kernel
  · refine ⟨({lockv (dig (opn g0 9)) 9 true with forme := {(lockv (dig (opn g0 9)) 9 true).forme with persist := some per}}), ?_⟩
    refine exSome (by decide +kernel) ?_
    decide +kernel

end LockUps

namespace PageControl

/-- What each clause of `Obligations.PageControl` assumes is met. -/
theorem test_PageControl_hypotheses :
    (∃ s : State, ∃ a : Agent, ∃ w : WytheIx, s.reach a w = true ∧ s.Canon ∧ flag (s.rd ((pgComp w) + 8)) 1 = false) ∧
    (∃ s : State, ∃ a : Agent, ∃ w : WytheIx, s.reach a w = true ∧ s.Canon ∧ flag (s.rd ((pgKeys w) + 8)) 1 = false) ∧
    (∃ s : State, ∃ a : Agent, ∃ w : WytheIx, s.reach a w = true ∧ s.Canon ∧ ∃ n, flag (s.rd ((pgTable w n) + 8)) 1 = false) ∧
    (∃ s : State, ∃ a : Agent, ∃ w : WytheIx, s.reach a w = true ∧ s.Canon ∧ flag (s.rd ((pgGalley w) + 8)) 1 = false) ∧
    (∃ s : State, ∃ a : Agent, ∃ w : WytheIx, s.reach a w = true ∧ s.Canon ∧ flag (s.rd ((pgColl w) + 8)) 1 = false) ∧
    (∃ s : State, ∃ a : Agent, ∃ w : WytheIx, s.reach a w = true ∧ s.Canon ∧ ∃ c : CourseIx, flag (s.rd ((pgCoproc w c.val) + 8)) 1 =
      false) ∧
    (∃ s : State, ∃ a : Agent, ∃ w : WytheIx, s.reach a w = true ∧ s.Canon ∧ flag (s.rd ((pgMarch w) + 8)) 1 = false) ∧
    (∃ s : State, ∃ a : Agent, ∃ w : WytheIx, s.reach a w = true ∧ s.Canon ∧ flag (s.rd ((pgQuoin w) + 8)) 1 = false) ∧
    (∃ s : State, ∃ a : Agent, ∃ w : WytheIx, s.reach a w = true ∧ s.Canon ∧ flag (s.rd ((pgPressMain w) + 8)) 1 = false) ∧
    (∃ s : State, ∃ a : Agent, ∃ w : WytheIx, s.reach a w = true ∧ s.Canon ∧ ∃ p : EthIx, flag (s.rd ((pgPress w p.val) + 8)) 1 = false) ∧
    (∃ s : State, ∃ a : Agent, ∃ w : WytheIx, s.reach a w = true ∧ s.Canon ∧ ∃ p : EthIx, flag (s.rd ((pgPort w p.val) + 8)) 1 = false) ∧
    (∃ s : State, ∃ a : Agent, ∃ w : WytheIx, s.reach a w = true ∧ s.Canon ∧ ∃ addr : Nat, ∃ pg : PageId, pageOf addr = some pg ∧
      pg.region = w.val + 1 ∧ pg.type < 0x48 ∧ pg.type ≠ 0x28 ∧ flag (s.rd ((pageBase addr) + 8)) 1 = false) ∧
    (∃ s : State, ∃ a : Agent, ∃ w : WytheIx, s.reach a w = true ∧ s.Canon ∧ ∃ addr : Nat, ∃ pg : PageId, pageOf addr = some pg ∧
      pg.region = w.val + 1 ∧ pg.type < 0x48 ∧ pg.type ≠ 0x28 ∧ flag (s.rd (pageBase addr + 8)) 1 = false ∧ (pg.type = 0x30 → (s.core w
      (pageCore pg).ix).aborted = false)) ∧
    (∃ s : State, ∃ a : Agent, ∃ w : WytheIx, s.reach a w = true ∧ s.Canon ∧ ∃ c : CourseIx, flag (s.rd (pgBanks w c.val + 8)) 1 = false) ∧
    (∃ s : State, ∃ a : Agent, ∃ w : WytheIx, s.reach a w = true ∧ s.Canon ∧ ∃ addr : Nat, ∃ pg : PageId, pageOf addr = some pg ∧ 0x48 ≤
      pg.type) ∧
    (∃ s : State, ∃ a : Agent, ∃ w : WytheIx, s.reach a w = true ∧ s.Canon ∧ ∃ c : CourseIx, risingFrom 0 (s.course w c.val).places =
      true) ∧
    (∃ s : State, ∃ a : Agent, ∃ w : WytheIx, s.reach a w = true ∧ s.Canon ∧ s.reachGlobal a = true) := by
  and_intros
  · refine ⟨net, (Agent.host), 0, by decide +kernel, canon_of (by decide +kernel), ?_⟩
    decide +kernel
  · refine ⟨net, (Agent.host), 0, by decide +kernel, canon_of (by decide +kernel), ?_⟩
    decide +kernel
  · refine ⟨net, (Agent.host), 0, by decide +kernel, canon_of (by decide +kernel), 0, ?_⟩
    decide +kernel
  · refine ⟨net, (Agent.host), 0, by decide +kernel, canon_of (by decide +kernel), ?_⟩
    decide +kernel
  · refine ⟨net, (Agent.host), 0, by decide +kernel, canon_of (by decide +kernel), ?_⟩
    decide +kernel
  · refine ⟨net, (Agent.host), 0, by decide +kernel, canon_of (by decide +kernel), 0, ?_⟩
    decide +kernel
  · refine ⟨net, (Agent.host), 0, by decide +kernel, canon_of (by decide +kernel), ?_⟩
    decide +kernel
  · refine ⟨net, (Agent.host), 0, by decide +kernel, canon_of (by decide +kernel), ?_⟩
    decide +kernel
  · refine ⟨net, (Agent.host), 0, by decide +kernel, canon_of (by decide +kernel), ?_⟩
    decide +kernel
  · refine ⟨net, (Agent.host), 0, by decide +kernel, canon_of (by decide +kernel), 2, ?_⟩
    decide +kernel
  · refine ⟨net, (Agent.host), 0, by decide +kernel, canon_of (by decide +kernel), 2, ?_⟩
    decide +kernel
  · refine ⟨net, (Agent.host), 0, by decide +kernel, canon_of (by decide +kernel), 8388608, ?_⟩
    refine exSome (by decide +kernel) ?_
    decide +kernel
  · refine ⟨net, (Agent.host), 0, by decide +kernel, canon_of (by decide +kernel), 8388608, ?_⟩
    refine exSome (by decide +kernel) ?_
    decide +kernel
  · refine ⟨net, (Agent.host), 0, by decide +kernel, canon_of (by decide +kernel), 0, ?_⟩
    decide +kernel
  · refine ⟨net, (Agent.host), 0, by decide +kernel, canon_of (by decide +kernel), 9830400, ?_⟩
    refine exSome (by decide +kernel) ?_
    decide +kernel
  · refine ⟨net, (Agent.host), 0, by decide +kernel, canon_of (by decide +kernel), 0, ?_⟩
    decide +kernel
  · refine ⟨net, (Agent.host), 0, by decide +kernel, canon_of (by decide +kernel), ?_⟩
    decide +kernel

end PageControl

namespace ModeRequests
def both (s : State) (f : Wythe → Wythe) : State := (s.updWy 0 f).updWy 1 f
def md (m : DevMode) (f : W16 := 7) (cl : Bool := false) : State := both net (fun y => {y with mode := m, forme := f, outputsClosed := cl})
def ch (s : State) (f : Modes → Modes) : State := {s with modes := f s.modes}

/-- What each clause of `Obligations.ModeRequests` assumes is met. -/
theorem test_ModeRequests_hypotheses :
    (∃ s : State, ∃ a : Agent, s.reachGlobal a = true ∧ s.Canon ∧ s.changing = true) ∧
    (∃ s : State, ∃ a : Agent, s.reachGlobal a = true ∧ s.Canon ∧ s.changing = false ∧ (s.w0.mode = .dormant → s.requestWakes 1 = false)) ∧
    (∃ s : State, ∃ a : Agent, s.reachGlobal a = true ∧ s.Canon ∧ s.changing = false ∧ (s.w0.mode = .dormant → s.requestWakes 2 = false)) ∧
    (∃ s : State, ∃ a : Agent, s.reachGlobal a = true ∧ s.Canon ∧ s.changing = false ∧ (s.w0.mode = .dormant → s.requestWakes 3 = false)) ∧
    (∃ s : State, ∃ a : Agent, s.reachGlobal a = true ∧ s.Canon ∧ s.changing = false ∧ (s.w0.mode = .dormant → s.requestWakes 4 = false)) ∧
    (∃ s : State, ∃ a : Agent, s.reachGlobal a = true ∧ s.Canon ∧ s.changing = false ∧ (s.w0.mode = .dormant → s.requestWakes 7 = false)) ∧
    (∃ s : State, ∃ a : Agent, s.reachGlobal a = true ∧ s.Canon ∧ s.changing = false ∧ (s.w0.mode = .dormant → s.requestWakes 0 = false)) ∧
    (∃ s : State, ∃ a : Agent, s.reachGlobal a = true ∧ s.Canon ∧ s.changing = false ∧ (s.w0.mode = .dormant → s.requestWakes 5 = false)) ∧
    (∃ s : State, ∃ a : Agent, s.reachGlobal a = true ∧ s.Canon ∧ s.changing = false ∧ (s.w0.mode = .dormant → s.requestWakes 6 = false)) := by
  and_intros
  · refine ⟨(ch (md .run) (fun m => {m with change := .closing .setting 0})), (Agent.host), by decide +kernel, canon_of
    (by decide +kernel), ?_⟩
    decide +kernel
  · refine ⟨(md .run), (Agent.host), by decide +kernel, canon_of (by decide +kernel), ?_⟩
    decide +kernel
  · refine ⟨(md .run), (Agent.host), by decide +kernel, canon_of (by decide +kernel), ?_⟩
    decide +kernel
  · refine ⟨(md .run), (Agent.host), by decide +kernel, canon_of (by decide +kernel), ?_⟩
    decide +kernel
  · refine ⟨(md .run), (Agent.host), by decide +kernel, canon_of (by decide +kernel), ?_⟩
    decide +kernel
  · refine ⟨(md .run), (Agent.host), by decide +kernel, canon_of (by decide +kernel), ?_⟩
    decide +kernel
  · refine ⟨(md .run), (Agent.host), by decide +kernel, canon_of (by decide +kernel), ?_⟩
    decide +kernel
  · refine ⟨(md .run), (Agent.host), by decide +kernel, canon_of (by decide +kernel), ?_⟩
    decide +kernel
  · refine ⟨(md .run), (Agent.host), by decide +kernel, canon_of (by decide +kernel), ?_⟩
    decide +kernel

end ModeRequests

namespace ModeChanges
def both (s : State) (f : Wythe → Wythe) : State := (s.updWy 0 f).updWy 1 f
def md (m : DevMode) (f : W16 := 7) (cl : Bool := false) : State := both net (fun y => {y with mode := m, forme := f, outputsClosed := cl})
def ch (s : State) (f : Modes → Modes) : State := {s with modes := f s.modes}
def cl (t : DevMode) : State := ch (md .run) (fun m => {m with change := .closing t 0})
def cp (port : Nat) (h st : Bool) : Copy := ⟨4, h, port, 3, 3, [⟨0x5000001, 0, 100⟩], 7, 0, 1, 0x5000001, none, false, 104, 104, false, st⟩

/-- What each clause of `Obligations.ModeChanges` assumes is met. -/
theorem test_ModeChanges_hypotheses :
    (∃ s : State, ∃ target, ∃ since, s.modes.change = .closing target since ∧ ∃ w : WytheIx, (s.wy w).outputsClosed = false ∧ (s.pathEmpty
      w = true ∨ since + s.drainLimit ≤ s.now) ∧ (s.wy (1 - w)).outputsClosed = false) ∧
    (∃ s : State, ∃ target, ∃ since, s.modes.change = .closing target since ∧ ∃ w : WytheIx, (s.wy w).outputsClosed = false ∧ (s.pathEmpty
      w = true ∨ since + s.drainLimit ≤ s.now) ∧ (s.wy (1 - w)).outputsClosed = true ∧ target = .setting ∧ s.modes.requestWaiting = false
      ∧ s.modes.shutdownDue = false) ∧
    (∃ s : State, ∃ target, ∃ since, s.modes.change = .closing target since ∧ ∃ w : WytheIx, (s.wy w).outputsClosed = false ∧ s.pathEmpty
      w = false ∧ s.now < since + s.drainLimit) ∧
    (∃ s : State, s.w0.mode = .dormant ∧ ∃ cause : BitVec 4, ∃ index : BitVec 6, s.wakeAllowed cause.toNat index.toNat = true ∧
      s.modes.requestWaiting = false ∧ s.modes.shutdownDue = false) ∧
    (∃ s : State, ∃ cause : BitVec 4, ∃ index : BitVec 6, (s.w0.mode ≠ .dormant ∨ s.wakeAllowed cause.toNat index.toNat = false)) ∧
    (∃ s : State, ∃ c : Instr, ((c = .shutdnReq ∧ s.powered = true) ∨ (∃ a, c = .shutdownStart a ∧ s.reachGlobal a = true)) ∧
      s.modes.shutdown ≠ .idle) ∧
    (∃ s : State, ∃ c : Instr, ((c = .shutdnReq ∧ s.powered = true) ∨ (∃ a, c = .shutdownStart a ∧ s.reachGlobal a = true)) ∧
      s.modes.shutdown = .idle ∧ s.curMode ≠ .off ∧ s.curMode ≠ .brace ∧ (s.modes.change ≠ .none ∨ s.proof.running = true ∨
      s.modes.startDue = true ∨ s.curMode = .dormant)) ∧
    (∃ s : State, ∃ c : Instr, ((c = .shutdnReq ∧ s.powered = true) ∨ (∃ a, c = .shutdownStart a ∧ s.reachGlobal a = true)) ∧
      s.modes.shutdown = .idle ∧ s.curMode ≠ .off ∧ s.curMode ≠ .brace ∧ s.modes.change = .none ∧ s.proof.running = false ∧
      s.modes.startDue = false ∧ s.curMode ≠ .dormant ∧ (s.w0.outputsClosed && s.w1.outputsClosed) = false) ∧
    (∃ s : State, s.powered = true ∧ ∃ g : Fin 16, ∃ rising : Bool, s.modes.gpioIn.getLsbD g.val ≠ rising) ∧
    (∃ s : State, ∃ g : Fin 16, ∃ rising : Bool, (s.powered = false ∨ s.modes.gpioIn.getLsbD g.val = rising)) := by
  and_intros
  · refine ⟨(cl .setting), (DevMode.setting), 0, by decide +kernel, 0, ?_⟩
    decide +kernel
  · refine ⟨((cl .setting).updWy 1 (fun y => {y with outputsClosed := true})), (DevMode.setting), 0, by decide +kernel, 0, ?_⟩
    decide +kernel
  · refine
    ⟨({(cl .setting).updWy 0 (fun y => {y with press := {y.press with store := [cp 1 false false, cp 1 false true]}}) with now := 100}),
    (DevMode.setting), 0, by decide +kernel, 0, ?_⟩
    decide +kernel
  · refine ⟨(md .dormant), by decide +kernel, 0x2#4, 0x0#6, ?_⟩
    decide +kernel
  · refine ⟨(md .run), 0x0#4, 0x0#6, ?_⟩
    decide +kernel
  · refine ⟨(ch (md .run) (fun m => {m with shutdown := .closing})), .shutdnReq, .inl ⟨rfl, by decide +kernel⟩, ?_⟩
    decide +kernel
  · refine ⟨(md .run), .shutdnReq, .inl ⟨rfl, by decide +kernel⟩, ?_⟩
    decide +kernel
  · refine ⟨(ch (md .run) (fun m => {m with startDue := false})), .shutdnReq, .inl ⟨rfl, by decide +kernel⟩, ?_⟩
    decide +kernel
  · refine ⟨(md .run), by decide +kernel, 0, true, ?_⟩
    decide +kernel
  · refine ⟨(md .run), 0, false, ?_⟩
    decide +kernel

end ModeChanges

namespace ResetsAndPower
def both (s : State) (f : Wythe → Wythe) : State := (s.updWy 0 f).updWy 1 f
def md (m : DevMode) : State := both net (fun y => {y with mode := m, ds := {y.ds with lc := .commissioned, head := [1,2], nextSeq := 55, ring := [(3, [1])], boot := 7, imageKeys := [(0, ⟨[1], true, false⟩)]}})
def ch (s : State) (f : Modes → Modes) : State := {s with modes := f s.modes}
def ctrs (s : State) : State := (((s.setCtr (pgComp 0 + 0x40) 5).setCtr (witRx 0 3) 7).setCtr (pgDate 1 + 0x48) 9).setCtr (witSkips 1) 8

/-- What each clause of `Obligations.ResetsAndPower` assumes is met. -/
theorem test_ResetsAndPower_hypotheses :
    (∃ s : State, s.powered = true ∧ s.proof.bracing = false ∧ ∃ a, s.reachGlobal a = true ∧ ∃ v, fld v 31 16 = 0xA55A ∧ flag v 0 = true) ∧
    (∃ s : State, s.powered = true ∧ s.proof.bracing = false ∧ s.modes.pwrfailN = true) ∧
    (∃ s : State, ∃ a, s.reachGlobal a = true ∧ ∃ v, (fld v 31 16 ≠ 0xA55A ∨ flag v 0 = false)) ∧
    (∃ s : State, s.modes.pwrfailN = false) ∧
    (∃ s : State, s.powered = false) ∧
    (∃ s : State, s.modes.railsUp = false) ∧
    (∃ s : State, (s.modes.railsUp = false ∨ s.modes.startDue = false ∨ s.modes.pwrfailN = false)) ∧
    (∃ s : State, s.modes.railsUp = true ∧ s.modes.startDue = true ∧ s.modes.pwrfailN = true ∧ s.modes.requestWaiting = false ∧
      s.modes.shutdownDue = false) := by
  and_intros
  · refine ⟨(ctrs (md .run)), by decide +kernel, by decide +kernel, (Agent.host), by decide +kernel, 0xa55a0001#32, ?_⟩
    decide +kernel
  · refine ⟨(ctrs (md .run)), ?_⟩
    decide +kernel
  · refine ⟨(ctrs (md .run)), (Agent.host), by decide +kernel, 0x0#32, ?_⟩
    decide +kernel
  · refine ⟨(ctrs (ch (md .run) (fun m => {m with startDue := false, pwrfailN := false, causes := 3}))), ?_⟩
    decide +kernel
  · refine ⟨(ch (md .off) (fun m => {m with railsUp := false, keepValid := false})), ?_⟩
    decide +kernel
  · refine ⟨(ch (md .off) (fun m => {m with railsUp := false, keepValid := false})), ?_⟩
    decide +kernel
  · refine ⟨(ctrs (ch (md .run) (fun m => {m with startDue := false, pwrfailN := false, causes := 3}))), ?_⟩
    decide +kernel
  · refine ⟨(ctrs (md .run)), ?_⟩
    decide +kernel

end ResetsAndPower

namespace ProofAndBrace
def both (s : State) (f : Wythe → Wythe) : State := (s.updWy 0 f).updWy 1 f
def md (m : DevMode) : State := both net (fun y => {y with mode := m, forme := 5, ds := {y.ds with started := true, lc := .commissioned, head := [1,2], nextSeq := 55, ring := [(3, [1])], boot := 7, intake := [.record 8 1 2 [0,0,0,0,0,0,0,0,0,0] false 0, .record 3 3 3 [] false 0]}})
def pf (s : State) (f : Proof → Proof) : State := {s with proof := f s.proof}
def ch (s : State) (f : Modes → Modes) : State := {s with modes := f s.modes}

/-- What each clause of `Obligations.ProofAndBrace` assumes is met. -/
theorem test_ProofAndBrace_hypotheses :
    (∃ s : State, s.proof.running = true ∧ s.proof.occasion ≠ .shutdown ∧ s.modes.requestWaiting = false ∧ s.modes.shutdownDue = false ∧
      s.Canon) ∧
    (∃ s : State, s.proof.running = false) ∧
    (∃ s : State, s.modes.pwrfailN = true ∧ s.proof.bracing = false ∧ s.powered = true ∧ s.modes.startDue = false) ∧
    (∃ s : State, s.modes.pwrfailN = true ∧ s.proof.bracing = false ∧ (s.powered = false ∨ s.modes.startDue = true)) ∧
    (∃ s : State, (s.modes.pwrfailN = false ∨ s.proof.bracing = true)) ∧
    (∃ s : State, s.proof.bracing = true ∧ s.proof.braceDone = false) ∧
    (∃ s : State, s.proof.braceDone = true ∧ s.proof.imageDone = false ∧ s.modes.vkeep = true) := by
  and_intros
  · refine ⟨(pf (md .proof) (fun p => {p with running := true})), by decide +kernel, by decide +kernel, by decide +kernel,
    ⟨by decide +kernel, ?_⟩⟩
    exact canon_of (by decide +kernel)
  · refine ⟨(md .run), ?_⟩
    decide +kernel
  · refine ⟨(ch (md .run) (fun m => {m with startDue := false})), ?_⟩
    decide +kernel
  · refine ⟨(md .run), ?_⟩
    decide +kernel
  · refine ⟨(pf (md .brace) (fun p => {p with bracing := true})), ?_⟩
    decide +kernel
  · refine ⟨(pf (md .brace) (fun p => {p with bracing := true})), ?_⟩
    decide +kernel
  · refine ⟨(pf (md .brace) (fun p => {p with bracing := true, braceDone := true, powerReturned := true})), ?_⟩
    decide +kernel

end ProofAndBrace

namespace TieCopies
def tc (f : W16) : TieCopy := ⟨4, [(false, 2, 3, 9), (true, 5, 0, 1)], [⟨0x5000001, 0, 100⟩, ⟨0x5000002, 10, 30⟩], (List.range 130).map (BitVec.ofNat 8), f, 1, 24, 3, 0x5000001, none, 0x5000003, 44⟩
def both (s : State) (f : WytheIx → Wythe → Wythe) : State := (s.updWy 0 (f 0)).updWy 1 (f 1)
def s1 : State := both net (fun _ y => {y with mode := .run, forme := 7, galley := {y.galley with pools := [(2, lay 256 40), (5, {lay 2048 200 with refs := [(1,2),(2,1),(3,2)]})]}, tie := {y.tie with state := .up}, coll := {y.coll with flights := [(4, ⟨7, 1⟩), (44, ⟨7, 2⟩)], nextSerial := 60}})
def q (s : State) (w : WytheIx) (a b : List TieCopy) : State := s.updTie w (fun t => {t with txq := a, rxq := b})

/-- What each clause of `Obligations.TieCopies` assumes is met. -/
theorem test_TieCopies_hypotheses :
    (∃ s : State, ∃ w : WytheIx, (s.wy (1 - w : WytheIx)).tie.txq = []) ∧
    (∃ s : State, ∃ w : WytheIx, (s.wy w).tie.rxq = []) ∧
    (∃ s : State, ∃ w : WytheIx, ∃ k rest, (s.wy (1 - w : WytheIx)).tie.txq = k :: rest ∧ s.tieCarries = true ∧ k.early = none ∧ ∃ h :
      Nat, ((s.alloc w 0xFF ((s.segBytes (1 - w : WytheIx) (tieAsCopy k)).length + 4) true .ingress).1) = .got h) ∧
    (∃ s : State, ∃ w : WytheIx, ∃ k rest, (s.wy (1 - w : WytheIx)).tie.txq = k :: rest ∧ s.tieCarries = true ∧ k.early = none ∧ ((s.alloc
      w 0xFF ((s.segBytes (1 - w : WytheIx) (tieAsCopy k)).length + 4) true .ingress).1) = .none) ∧
    (∃ s : State, ∃ w : WytheIx, ∃ k rest, (s.wy (1 - w : WytheIx)).tie.txq = k :: rest ∧ s.tieCarries = true ∧ k.early = none ∧ ((s.alloc
      w 0xFF ((s.segBytes (1 - w : WytheIx) (tieAsCopy k)).length + 4) true .ingress).1) = .wait) ∧
    (∃ s : State, s.tieCarries = false) ∧
    (∃ s : State, ∃ w : WytheIx, ∃ k rest, (s.wy (1 - w : WytheIx)).tie.txq = k :: rest ∧ k.early ≠ none) ∧
    (∃ s : State, ∃ w : WytheIx, ∃ k rest, (s.wy w).tie.rxq = k :: rest) := by
  and_intros
  · refine ⟨s1, 0, ?_⟩
    decide +kernel
  · refine ⟨s1, 0, ?_⟩
    decide +kernel
  · refine ⟨(q s1 1 [tc 7, tc 7] []), 0, ?_⟩
    refine exCons (by decide +kernel) ?_
    refine ⟨by decide +kernel, by decide +kernel, 33554432, ?_⟩
    decide +kernel
  · refine ⟨((q s1 1 [tc 7, tc 7] []).updGalley 0 (fun g => {g with pools := []})), 0, ?_⟩
    refine exCons (by decide +kernel) ?_
    decide +kernel
  · refine ⟨((q s1 1 [tc 7, tc 7] []).updGalley 0 (fun g =>
    {g with pools := [(5, {lay 2048 200 with cache := [], refilling := true, ring := [4]})]})), 0, ?_⟩
    refine exCons (by decide +kernel) ?_
    decide +kernel
  · refine ⟨((q s1 0 [tc 7] [tc 7]).updTie 0 (fun t => {t with split := true, state := .down})), ?_⟩
    decide +kernel
  · refine ⟨((q s1 1 [{tc 7 with early := some 3}] [])), 0, ?_⟩
    refine exCons (by decide +kernel) ?_
    decide +kernel
  · refine ⟨(q s1 0 [tc 7] [tc 7]), 0, ?_⟩
    exact exConsT (by decide +kernel)

end TieCopies

namespace TieLossAndRejoin
def both (s : State) (f : WytheIx → Wythe → Wythe) : State := (s.updWy 0 (f 0)).updWy 1 (f 1)
def s1 : State := both net (fun w y => {y with mode := .run, forme := 7, galley := {y.galley with pools := [(2, lay 256 40), (5, {lay 2048 200 with refs := [(1,2),(2,1),(3,2)]})]}, tie := {y.tie with state := .up}, coll := {y.coll with flights := [(4, ⟨7, 1⟩), (44, ⟨7, 2⟩)], nextSerial := 60}, ds := {y.ds with nextSeq := 5 + w.val, lc := .commissioned}})
def t1 (s : State) (f : Tie → Tie) : State := (s.updTie 0 f).updTie 1 f
def at_ (s : State) (n : Nat) : State := {s with now := n}

/-- What each clause of `Obligations.TieLossAndRejoin` assumes is met. -/
theorem test_TieLossAndRejoin_hypotheses :
    (∃ s : State, ∃ w : WytheIx, (s.tieLost w = false ∧ (s.wy w).mode ∉ [.off, .brace, .dormant]) ∧ ∃ a : Agent, s.reach a w = true) ∧
    (∃ s : State, ∃ w : WytheIx, (s.tieLost w = false ∧ (s.wy w).mode ∉ [.off, .brace, .dormant]) ∧ ((s.wy w).tie).retraining = true ∧
      ((s.wy w).tie).retrainSince + 100000 ≤ s.now) ∧
    (∃ s : State, ∃ w : WytheIx, (s.tieLost w = false ∧ (s.wy w).mode ∉ [.off, .brace, .dormant]) ∧ ∃ x : Byte, ∃ y : Byte, ∃ hot : Bool,
      ∃ diffs : List Nat, skewRaised x y hot diffs = true) ∧
    (∃ x : Byte, ∃ y : Byte, ∃ hot : Bool, ∃ diffs : List Nat, skewRaised x y hot diffs = false) ∧
    (∃ s : State, ∃ w : WytheIx, ((s.wy w).tie).retraining = true ∧ s.now < ((s.wy w).tie).retrainSince + 100000) ∧
    (∃ s : State, ∃ w : WytheIx, s.tieLost w = false ∧ ((s.wy w).tie).retraining = false ∧ ((s.wy w).tie).state ≠ .down) ∧
    (∃ s : State, ∃ w : WytheIx, ((s.wy w).tie).retraining = true ∧ s.now ≤ ((s.wy w).tie).retrainSince + 100000) ∧
    (∃ s : State, ∃ w : WytheIx, s.tieLost w = false ∧ s.Canon) ∧
    (∃ s : State, s.tieLost 0 = false ∧ s.tieLost 1 = false) ∧
    (∃ s : State, ∃ w : WytheIx, ∃ a : Agent, s.reach a w = true ∧ s.tieLost w = true ∧ ((s.wy w).tie).cause = .hostIsolate) ∧
    (∃ s : State, ∃ w : WytheIx, ∃ a : Agent, s.reach a w = true ∧ s.tieLost w = true ∧ ((s.wy w).tie).cause ≠ .hostIsolate ∧ ((s.wy
      w).tie).skewUntil ≤ s.now) ∧
    (∃ s : State, ∃ w : WytheIx, ∃ a : Agent, s.reach a w = true ∧ s.tieLost w = true ∧ ((s.wy w).tie).cause ≠ .hostIsolate ∧ s.now <
      ((s.wy w).tie).skewUntil) ∧
    (∃ s : State, ∃ w : WytheIx, ∃ a : Agent, s.reach a w = true ∧ s.tieLost w = false) ∧
    (∃ s : State, ∃ w : WytheIx, s.retryDue w = true) ∧
    (∃ s : State, ∃ w : WytheIx, s.retryDue w = false) ∧
    (∃ s : State, (s.tieLost 0 || s.tieLost 1) = true ∧ (∀ v, s.tieLost v = true → (s.wy v).tie.state = .training)) ∧
    (∃ s : State, (∃ v, s.tieLost v = true ∧ (s.wy v).tie.state ≠ .training)) := by
  and_intros
  · refine ⟨net, 0, by decide +kernel, (Agent.host), ?_⟩
    decide +kernel
  · refine ⟨(at_ (t1 s1 (fun t => {t with retraining := true, retrainSince := 5})) 100005), 0, ?_⟩
    decide +kernel
  · refine ⟨net, 0, by decide +kernel, 0x80#8, 0xc0#8, false, ([41, 41, 41, 41]), ?_⟩
    decide +kernel
  · refine ⟨0x80#8, 0x80#8, false, ([]), ?_⟩
    decide +kernel
  · refine ⟨(at_ (t1 s1 (fun t => {t with retraining := true, retrainSince := 5})) 100004), 0, ?_⟩
    decide +kernel
  · refine ⟨s1, 0, ?_⟩
    decide +kernel
  · refine ⟨(at_ (t1 s1 (fun t => {t with retraining := true, retrainSince := 5})) 100005), 0, ?_⟩
    decide +kernel
  · refine ⟨net, 0, by decide +kernel, ?_⟩
    exact canon_of (by decide +kernel)
  · refine ⟨net, ?_⟩
    decide +kernel
  · refine ⟨(t1 s1 (fun t => {t with split := true, state := .down, cause := .hostIsolate})), 0, (Agent.host), ?_⟩
    decide +kernel
  · refine ⟨(at_ (t1 s1 (fun t => {t with split := true, state := .down, cause := .tieLost})) 9000000000), 0, (Agent.host), ?_⟩
    decide +kernel
  · refine ⟨(at_ (t1 s1 (fun t => {t with split := true, state := .down, cause := .regionSkew, skewUntil := 10})) 9), 0, (Agent.host), ?_⟩
    decide +kernel
  · refine ⟨net, 0, (Agent.host), ?_⟩
    decide +kernel
  · refine ⟨(at_ (t1 s1 (fun t => {t with split := true, state := .down, cause := .tieLost})) 9000000000), 0, ?_⟩
    decide +kernel
  · refine ⟨net, 0, ?_⟩
    decide +kernel
  · refine ⟨(both (t1 s1 (fun t => {t with split := true, state := .training, cause := .regionSkew})) (fun w y =>
    {y with mode := .half, returnMode := .run, ds := {y.ds with lc := if w = 0 then .service else .commissioned, imageKeys := if w = 0 then [(1, ⟨[4], true, true⟩)] else []}})),
    ?_⟩
    decide +kernel
  · refine ⟨(t1 s1 (fun t => {t with split := true, state := .down, cause := .hostIsolate})), ?_⟩
    exact ⟨0, by decide +kernel⟩

end TieLossAndRejoin

namespace DebugCommands
def y2 : CtxId := ⟨0,0,0,2⟩
def b2 (st : CtxState) : State := ((net.updCtx y2 (fun _ => {c 4 with state := st, pcx := 0x200, products := [⟨.pair, 7, 900⟩]})).wr (pgDebug + 0x104) 0x20).wr (pgDebug + 0x100) 0x20
def sc (s : State) (v : W32) : State := (s.wr (pgDebug + 0x100) v).wr (pgDebug + 0x104) v
def lost (s : State) : State := ((s.updTie 0 (fun t => {t with split := true, state := .down})).updTie 1 (fun t => {t with split := true, state := .down}))

/-- What each clause of `Obligations.DebugCommands` assumes is met. -/
theorem test_DebugCommands_hypotheses :
    (∃ s : State, ∃ a : Agent, s.debugReach a = true ∧ s.Canon ∧ ((targetCtx s.dbgTarget).w = 0 ∨ s.tieCut = false) ∧ s.debugAllowed
      (targetCtx s.dbgTarget).w (targetCtx s.dbgTarget).c.val = false) ∧
    (∃ s : State, ∃ a : Agent, s.debugReach a = true ∧ s.Canon ∧ (targetCtx s.dbgTarget).w = 1 ∧ s.tieCut = true) ∧
    (∃ s : State, ∃ a : Agent, s.debugReach a = true ∧ s.Canon ∧ ((targetCtx s.dbgTarget).w = 0 ∨ s.tieCut = false) ∧ s.debugAllowed
      (targetCtx s.dbgTarget).w (targetCtx s.dbgTarget).c.val = true ∧ fld s.dbgTarget 1 0 = 0 ∧ (s.ctx (targetCtx s.dbgTarget)).state =
      .running) ∧
    (∃ s : State, ∃ a : Agent, s.debugReach a = true ∧ s.Canon ∧ ((targetCtx s.dbgTarget).w = 0 ∨ s.tieCut = false) ∧ s.debugAllowed
      (targetCtx s.dbgTarget).w (targetCtx s.dbgTarget).c.val = true ∧ fld s.dbgTarget 1 0 = 0 ∧ (s.ctx (targetCtx s.dbgTarget)).state =
      .stopped) ∧
    (∃ s : State, ∃ a : Agent, s.debugReach a = true ∧ s.Canon ∧ ((targetCtx s.dbgTarget).w = 0 ∨ s.tieCut = false) ∧ s.debugAllowed
      (targetCtx s.dbgTarget).w (targetCtx s.dbgTarget).c.val = true ∧ fld s.dbgTarget 1 0 = 0 ∧ (s.ctx (targetCtx s.dbgTarget)).state =
      .halted ∧ s.stillWaits (targetCtx s.dbgTarget) = false ∧ (s.ctx (targetCtx s.dbgTarget)).waitDest = none) ∧
    (∃ s : State, ∃ a : Agent, s.debugReach a = true ∧ s.Canon ∧ ((targetCtx s.dbgTarget).w = 0 ∨ s.tieCut = false) ∧ s.debugAllowed
      (targetCtx s.dbgTarget).w (targetCtx s.dbgTarget).c.val = true ∧ fld s.dbgTarget 1 0 = 0 ∧ (s.ctx (targetCtx s.dbgTarget)).state ≠
      .halted) ∧
    (∃ s : State, ∃ a : Agent, s.debugReach a = true ∧ s.Canon ∧ ((targetCtx s.dbgTarget).w = 0 ∨ s.tieCut = false) ∧ s.debugAllowed
      (targetCtx s.dbgTarget).w (targetCtx s.dbgTarget).c.val = true ∧ regsReached (s.ctx (targetCtx s.dbgTarget)).state = false) ∧
    (∃ s : State, ∃ a : Agent, s.debugReach a = true ∧ s.Canon ∧ ((targetCtx s.dbgTarget).w = 0 ∨ s.tieCut = false) ∧ s.debugAllowed
      (targetCtx s.dbgTarget).w (targetCtx s.dbgTarget).c.val = true ∧ (fld (s.rd (pgDebug + 0x108)) 23 2 * 4) < 0x18000 ∧ s.areaView
      (targetCtx s.dbgTarget) (areaOf (targetCtx s.dbgTarget) (s.ctx (targetCtx s.dbgTarget)).sr (fld (s.rd (pgDebug + 0x108)) 23 2 * 4))
      = .on ∧ s.MemCanon) ∧
    (∃ s : State, ∃ a : Agent, s.debugReach a = true ∧ s.Canon ∧ ((targetCtx s.dbgTarget).w = 0 ∨ s.tieCut = false) ∧ s.debugAllowed
      (targetCtx s.dbgTarget).w (targetCtx s.dbgTarget).c.val = true ∧ areaOf (targetCtx s.dbgTarget) (s.ctx (targetCtx s.dbgTarget)).sr
      (fld (s.rd (pgDebug + 0x108)) 23 2 * 4) = .unmapped) := by
  and_intros
  · refine ⟨(metered (b2 .halted) 0 0), (Agent.host), by decide +kernel, canon_of (by decide +kernel), ?_⟩
    decide +kernel
  · refine ⟨(lost (sc net 0x10000)), (Agent.host), by decide +kernel, canon_of (by decide +kernel), ?_⟩
    decide +kernel
  · refine ⟨(b2 .running), (Agent.host), by decide +kernel, canon_of (by decide +kernel), ?_⟩
    decide +kernel
  · refine ⟨(b2 .stopped), (Agent.host), by decide +kernel, canon_of (by decide +kernel), ?_⟩
    decide +kernel
  · refine ⟨(b2 .halted), (Agent.host), by decide +kernel, canon_of (by decide +kernel), ?_⟩
    decide +kernel
  · refine ⟨(b2 .running), (Agent.host), by decide +kernel, canon_of (by decide +kernel), ?_⟩
    decide +kernel
  · refine ⟨(b2 .running), (Agent.host), by decide +kernel, canon_of (by decide +kernel), ?_⟩
    decide +kernel
  · refine ⟨(b2 .running), (Agent.host), by decide +kernel, canon_of (by decide +kernel), by decide +kernel, by decide +kernel,
    by decide +kernel, ⟨by decide +kernel, ?_⟩⟩
    exact memCanon_of (by decide +kernel)
  · refine ⟨((b2 .halted).wr (pgDebug + 0x108) 0x18000), (Agent.host), by decide +kernel, canon_of (by decide +kernel), ?_⟩
    decide +kernel

end DebugCommands

namespace JtagInstructions
def both (s : State) (f : Wythe → Wythe) : State := (s.updWy 0 f).updWy 1 f

/-- What each clause of `Obligations.JtagInstructions` assumes is met. -/
theorem test_JtagInstructions_hypotheses :
    (∃ s : State, s.changing = false ∧ s.curMode = .setting ∧ s.fwHeld = false) ∧
    (∃ s : State, s.changing = true) ∧
    (∃ s : State, s.jtagDebug = false) ∧
    (∃ s : State, s.jtagDebug = true ∧ s.Canon) := by
  and_intros
  · refine ⟨({both net (fun y => {y with mode := .setting}) with dbgUnit := {ir := 5, jtagData := 77}}), ?_⟩
    decide +kernel
  · refine ⟨({net with modes := {net.modes with change := .closing .setting 0}}), ?_⟩
    decide +kernel
  · refine ⟨(metered net 0 0), ?_⟩
    decide +kernel
  · refine ⟨net, by decide +kernel, ?_⟩
    exact canon_of (by decide +kernel)

end JtagInstructions

namespace RegisterPages

/-- What each clause of `Obligations.RegisterPages` assumes is met. -/
theorem test_RegisterPages_hypotheses :
    (∃ addr : Nat, addr % 4 = 0 ∧ ∃ pg : PageId, pageOf addr = some pg ∧ pg.type ≠ 0x07 ∧ ∃ s : State, ∃ a : Agent, s.regionReach a addr =
      true ∧ ∃ d : RegDesc, regDesc addr = some d ∧ 0x40 ≤ (addr % 0x1000) ∧ ctrLo pg (addr % 0x1000) = none ∧ ∃ v : W32, s.actionWrite a
      pg (addr % 0x1000) (mergeBytes 0 v 0xF) 0xF = none ∧ (d.acc = .rw ∨ d.acc = .kept) ∧ pg.type ∉ [0x05, 0x19, 0x22, 0x23, 0x28, 0x31,
      0x32, 0x38, 0x49] ∧ s.Canon) ∧
    (∃ addr : Nat, addr % 4 = 0 ∧ ∃ pg : PageId, pageOf addr = some pg ∧ pg.type ≠ 0x07 ∧ ∃ s : State, ∃ a : Agent, s.regionReach a addr =
      true ∧ ∃ d : RegDesc, regDesc addr = some d ∧ 0x40 ≤ (addr % 0x1000) ∧ ctrLo pg (addr % 0x1000) = none ∧ ∃ v : W32, s.actionWrite a
      pg (addr % 0x1000) (mergeBytes 0 v 0xF) 0xF = none ∧ (d.acc = .st ∨ d.acc = .stKept) ∧ a ≠ .host) ∧
    (∃ addr : Nat, addr % 4 = 0 ∧ ∃ pg : PageId, pageOf addr = some pg ∧ pg.type ≠ 0x07 ∧ ∃ s : State, ∃ a : Agent, s.regionReach a addr =
      true ∧ (addr % 0x1000) = 0 ∧ s.Canon) ∧
    (∃ addr : Nat, addr % 4 = 0 ∧ ∃ pg : PageId, pageOf addr = some pg ∧ pg.type ≠ 0x07 ∧ ∃ s : State, ∃ a : Agent, s.regionReach a addr =
      true ∧ ∃ lo, ctrLo pg (addr % 0x1000) = some lo ∧ (addr % 0x1000) = lo ∧ ctrConflict pg lo = false ∧ (pg.type = 0x05 → lo ≠ 0x58) ∧
      (pg.type = 0x31 → lo ≠ 0x80) ∧ (pg.type = 0x41 → lo < 0x68) ∧ s.Canon ∧ ctrSealed pg lo = false) ∧
    (∃ addr : Nat, addr % 4 = 0 ∧ ∃ pg : PageId, pageOf addr = some pg ∧ pg.type ≠ 0x07 ∧ ∃ s : State, ∃ a : Agent, s.regionReach a addr =
      true ∧ ∃ lo, ctrLo pg (addr % 0x1000) = some lo ∧ (addr % 0x1000) = lo ∧ ctrConflict pg lo = false ∧ (pg.type = 0x05 → lo ≠ 0x58) ∧
      (pg.type = 0x31 → lo ≠ 0x80) ∧ (pg.type = 0x41 → lo < 0x68) ∧ s.Canon ∧ ctrSealed pg lo = true) ∧
    (∃ addr : Nat, addr % 4 = 0 ∧ ∃ pg : PageId, pageOf addr = some pg ∧ pg.type ≠ 0x07 ∧ ∃ s : State, ∃ a : Agent, s.regionReach a addr =
      true ∧ ∃ lo, ctrLo pg (addr % 0x1000) = some lo ∧ (addr % 0x1000) = lo ∧ pg.type = 0x05 ∧ lo = 0x58) ∧
    (∃ addr : Nat, addr % 4 = 0 ∧ ∃ pg : PageId, pageOf addr = some pg ∧ pg.type ≠ 0x07 ∧ ∃ s : State, ∃ a : Agent, s.regionReach a addr =
      true ∧ ∃ lo, ctrLo pg (addr % 0x1000) = some lo ∧ (addr % 0x1000) = lo ∧ ctrConflict pg lo = true) ∧
    (∃ s : State, ∃ a : Agent, ∃ w : WytheIx, s.reach a w = true ∧ s.Canon) := by
  and_intros
  · refine ⟨260, by decide +kernel, ?_⟩
    refine exSome (by decide +kernel) ?_
    refine ⟨by decide +kernel, net, (Agent.host), by decide +kernel, ?_⟩
    refine exSome (by decide +kernel) ?_
    refine ⟨by decide +kernel, by decide +kernel, 0x0#32, by decide +kernel, by decide +kernel, by decide +kernel, ?_⟩
    exact canon_of (by decide +kernel)
  · refine ⟨16656, by decide +kernel, ?_⟩
    refine exSome (by decide +kernel) ?_
    refine ⟨by decide +kernel, net, (Agent.mason ⟨0, 0, 0, 1⟩), by decide +kernel, ?_⟩
    refine exSome (by decide +kernel) ?_
    refine ⟨by decide +kernel, by decide +kernel, 0x0#32, ?_⟩
    decide +kernel
  · refine ⟨0, by decide +kernel, ?_⟩
    refine exSome (by decide +kernel) ?_
    refine ⟨by decide +kernel, net, (Agent.host), by decide +kernel, by decide +kernel, ?_⟩
    exact canon_of (by decide +kernel)
  · refine ⟨64, by decide +kernel, ?_⟩
    refine exSome (by decide +kernel) ?_
    refine ⟨by decide +kernel, net, (Agent.host), by decide +kernel, ?_⟩
    refine exSome (by decide +kernel) ?_
    refine ⟨by decide +kernel, by decide +kernel, by decide +kernel, ⟨by decide +kernel, by decide +kernel, canon_of (by decide +kernel),
      ?_⟩⟩
    decide +kernel
  · refine ⟨9830464, by decide +kernel, ?_⟩
    refine exSome (by decide +kernel) ?_
    refine ⟨by decide +kernel, net, (Agent.host), by decide +kernel, ?_⟩
    refine exSome (by decide +kernel) ?_
    refine ⟨by decide +kernel, by decide +kernel, by decide +kernel, ⟨by decide +kernel, by decide +kernel, canon_of (by decide +kernel),
      ?_⟩⟩
    decide +kernel
  · refine ⟨16472, by decide +kernel, ?_⟩
    refine exSome (by decide +kernel) ?_
    refine ⟨by decide +kernel, net, (Agent.host), by decide +kernel, ?_⟩
    refine exSome (by decide +kernel) ?_
    decide +kernel
  · refine ⟨8520192, by decide +kernel, ?_⟩
    refine exSome (by decide +kernel) ?_
    refine ⟨by decide +kernel, net, (Agent.host), by decide +kernel, ?_⟩
    refine exSome (by decide +kernel) ?_
    decide +kernel
  · refine ⟨net, (Agent.host), 0, by decide +kernel, ?_⟩
    exact canon_of (by decide +kernel)

end RegisterPages

namespace PairIssue
def pr (s : State) (l : PairHalf) : State := (act s (pgCore 0 0 + 0x124) 8).updCore 0 0 (fun k => {k with last := some l, cycle := 40})

/-- What each clause of `Obligations.PairIssue` assumes is met. -/
theorem test_PairIssue_hypotheses :
    (∃ s : State, s.Canon ∧ ∃ i : Issue, ∃ d : Fin 16, ∃ r : Fin 16, s.Ready i [.d r] 2 (dataHalf [.d d]) ∧ i.pair = true) ∧
    (∃ s : State, s.Canon ∧ ∃ i : Issue, ∃ n : Fin 8, ∃ m : Fin 8, s.Ready i [.a n, .a m] 2 (addrHalf [.a n]) ∧ i.pair = true) ∧
    (∃ s : State, s.Canon ∧ ∃ i : Issue, s.Ready i [] 2) := by
  and_intros
  · refine ⟨(pr (base 0) ⟨0, .address, [.a 1], 40⟩), canon_of (by decide +kernel), {i0 with pair := true}, 1, 1, ready_of
    (by decide +kernel), ?_⟩
    decide +kernel
  · refine ⟨(pr (base 0) ⟨0, .data, [.d 7], 40⟩), canon_of (by decide +kernel), {i0 with pair := true}, 1, 1, ready_of
    (by decide +kernel), ?_⟩
    decide +kernel
  · refine ⟨(base 0x8003), canon_of (by decide +kernel), i0, ?_⟩
    exact ready_of (by decide +kernel)

end PairIssue

namespace WholeMachine

/-- What the statements on the whole machine assume is met. -/
theorem test_WholeMachine_hypotheses :
    (∃ (s : State) (c : Instr) (rest : List Instr), s.pending = c :: rest) ∧
    (∃ s : State, s.pending = []) ∧
    (∃ (c : Instr) (s t : State), exec c s = .next t) ∧
    (∃ s t : State, s.Canon ∧ step s = .next t) ∧
    (∃ s t : State, s.MemCanon ∧ step s = .next t) ∧
    (∃ (s : State) (a : Agent) (addr : Nat) (pg : PageId), pageOf addr = some pg ∧ 0x48 ≤ pg.type ∧ s.regionReach a (pageBase addr + 8) = true) := by
  refine ⟨⟨base 0, .trstN, [.bypass], by decide +kernel⟩, ⟨State.reset, by decide +kernel⟩, ⟨.trstN, State.reset, _, rfl⟩,
    ⟨base 0, _, canon_of (by decide +kernel), rfl⟩, ⟨base 0, _, memCanon_of (by decide +kernel), rfl⟩, ?_⟩
  exact ⟨State.reset, .host, pgDate 0, (pageOf (pgDate 0)).get (by decide +kernel), by decide +kernel⟩

end WholeMachine

end Sys2Proof.Tests
end

/-!
# Registers stay canonical

`Keeps s₀ s` is the invariant: `s` has the waiting commands of `s₀` and is canonical when `s₀` is. The model's state
changes only through `wr`, `setCtr`, the three copies of the forme and changes of other fields, so there is one rule
for each of those, one lemma `Keeps.f` for each function `f` of the model (in the order of the model's files) that
follows the function's branches, and the invariant of a step at the end.
-/

section

namespace Sys2Proof.Machine

theorem swf_filter {α : Type} [DecidableEq α] (d : Nat → α) (p : Nat × α → Bool) {m : SMap α} (h : swf d m = true) :
    swf d (m.filter p) = true := by
  simp only [swf, Bool.and_eq_true, List.all_eq_true] at h ⊢
  exact ⟨risingFrom_filter p m h.1, fun e he => h.2 e (List.mem_filter.mp he).1⟩

theorem risingFrom_append {α : Type} {a b : SMap α} {k : Nat} (hb : risingFrom k b = true) :
    ∀ {lo : Nat}, lo ≤ k → risingFrom lo a = true → (∀ e ∈ a, e.1 < k) → risingFrom lo (a ++ b) = true := by
  induction a with
  | nil => intro lo hlo _ _; exact risingFrom_mono hlo hb
  | cons e r ih =>
    intro lo _ ha hk
    simp only [risingFrom, List.cons_append, Bool.and_eq_true, decide_eq_true_eq] at ha ⊢
    have he := hk e (by simp)
    exact ⟨ha.1, ih (by omega) ha.2 fun x hx => hk x (by simp [hx])⟩

theorem risingFrom_of_le {α : Type} {m : SMap α} {k : Nat} (h : risingFrom 0 m = true) (hk : ∀ e ∈ m, k ≤ e.1) : risingFrom k m = true := by
  cases m with
  | nil => rfl
  | cons e r =>
    simp only [risingFrom, Bool.and_eq_true, decide_eq_true_eq] at h ⊢
    exact ⟨hk e (by simp), h.2⟩

/-- Two canonical maps joined at key `k` are canonical. -/
theorem swf_join {α : Type} [DecidableEq α] (d : Nat → α) {a b : SMap α} (k : Nat) (ha : swf d a = true) (hb : swf d b = true) :
    swf d (a.filter (fun e => decide (e.1 < k)) ++ b.filter (fun e => decide (k ≤ e.1))) = true := by
  have fa := swf_filter d (fun e => decide (e.1 < k)) ha
  have fb := swf_filter d (fun e => decide (k ≤ e.1)) hb
  simp only [swf, Bool.and_eq_true, List.all_append] at fa fb ⊢
  refine ⟨risingFrom_append (risingFrom_of_le fb.1 ?_) (Nat.zero_le k) fa.1 ?_, fa.2, fb.2⟩
  · intro e he; simpa using (List.mem_filter.mp he).2
  · intro e he; simpa using (List.mem_filter.mp he).2

namespace State
theorem Canon.regs {s : State} (h : s.Canon) : swf regReset s.regs = true := h.1
theorem Canon.staged {s : State} (h : s.Canon) : swf regReset s.staged = true := h.2.1
theorem Canon.active {s : State} (h : s.Canon) : swf regReset s.active = true := h.2.2.1
theorem Canon.previous {s : State} (h : s.Canon) : swf regReset s.previous = true := h.2.2.2.1
theorem Canon.counters {s : State} (h : s.Canon) : swf (fun _ => (0 : BitVec 49)) s.counters = true := h.2.2.2.2

theorem swf_takeCopy (s : State) {old new : SMap W32} (ho : swf regReset old = true) (hn : swf regReset new = true) :
    swf regReset (s.takeCopy old new) = true := by
  unfold takeCopy
  split
  · exact swf_join regReset _ hn ho
  · exact hn

/-- `t` stands for what the machine makes of `s`: the same commands wait, and it is canonical when `s` is. -/
def Keeps (s t : State) : Prop := t.pending = s.pending ∧ (s.Canon → t.Canon)

/-- The fields that `Keeps` speaks of: a change of any other field keeps it (`Keeps.other`). -/
def words (s : State) : List Instr × SMap W32 × SMap W32 × SMap W32 × SMap W32 × SMap (BitVec 49) :=
  (s.pending, s.regs, s.staged, s.active, s.previous, s.counters)

/-- A command's outcome is a next state, and that state keeps `s₀`. -/
inductive KeepsRes (s₀ : State) : Res → Prop
  | next {t : State} (h : Keeps s₀ t) : KeepsRes s₀ (.next t)

/-- Whatever state an instruction's effect carries keeps `s₀`. -/
inductive KeepsEff (s₀ : State) : Effect → Prop
  | done {t : State} (h : Keeps s₀ t) : KeepsEff s₀ (.done t)
  | jump {a : W24} {t : State} (h : Keeps s₀ t) : KeepsEff s₀ (.jump a t)
  | hold {t : State} (h : Keeps s₀ t) : KeepsEff s₀ (.hold t)
  | fault {c a : Nat} {t : State} (h : Keeps s₀ t) : KeepsEff s₀ (.fault c a t)
  | wait : KeepsEff s₀ .wait

/-- The state answered beside a value keeps `s₀`, where there is an answer. -/
inductive KeepsOpt {α : Type} (s₀ : State) : Option (α × State) → Prop
  | some {r : α × State} (h : Keeps s₀ r.2) : KeepsOpt s₀ (.some r)
  | none : KeepsOpt s₀ .none

/-- The state answered keeps `s₀`, where there is an answer. -/
inductive KeepsSome (s₀ : State) : Option State → Prop
  | some {t : State} (h : Keeps s₀ t) : KeepsSome s₀ (.some t)
  | none : KeepsSome s₀ .none

section
variable {s₀ : State}
theorem KeepsEff.ite {e e' : Effect} {c : Prop} {_ : Decidable c} (h : KeepsEff s₀ e) (h' : KeepsEff s₀ e') :
    KeepsEff s₀ (if c then e else e') :=
  iteInduction (motive := KeepsEff s₀) (fun _ => h) (fun _ => h')
theorem KeepsRes.ite {e e' : Res} {c : Prop} {_ : Decidable c} (h : KeepsRes s₀ e) (h' : KeepsRes s₀ e') :
    KeepsRes s₀ (if c then e else e') :=
  iteInduction (motive := KeepsRes s₀) (fun _ => h) (fun _ => h')
theorem KeepsOpt.ite {α : Type} {e e' : Option (α × State)} {c : Prop} {_ : Decidable c} (h : KeepsOpt s₀ e) (h' : KeepsOpt s₀ e') :
    KeepsOpt s₀ (if c then e else e') :=
  iteInduction (motive := KeepsOpt s₀) (fun _ => h) (fun _ => h')
theorem KeepsSome.ite {e e' : Option State} {c : Prop} {_ : Decidable c} (h : KeepsSome s₀ e) (h' : KeepsSome s₀ e') :
    KeepsSome s₀ (if c then e else e') :=
  iteInduction (motive := KeepsSome s₀) (fun _ => h) (fun _ => h')
end

namespace Keeps
variable {s₀ s t : State}

theorem refl (s : State) : Keeps s s := ⟨rfl, id⟩

/-- Closes every change of a field that is neither a canonical map nor the queue. -/
theorem other (h : Keeps s₀ s) (e : t.words = s.words := by rfl) : Keeps s₀ t := by
  simp only [words, Prod.mk.injEq] at e
  obtain ⟨hp, hr, hs, ha, hv, hc⟩ := e
  refine ⟨hp.trans h.1, fun c => ?_⟩
  simpa only [Canon, hr, hs, ha, hv, hc] using h.2 c

theorem ite {c : Prop} {_ : Decidable c} (h : Keeps s₀ s) (h' : Keeps s₀ t) :
    Keeps s₀ (if c then s else t) :=
  iteInduction (motive := Keeps s₀) (fun _ => h) (fun _ => h')

/-- A change made only on a condition; `orElse` has the branches the other way round. -/
theorem maybe {c : Prop} {_ : Decidable c} (h : Keeps s₀ s) (hf : Keeps s₀ s → Keeps s₀ t) :
    Keeps s₀ (if c then t else s) := .ite (hf h) h
theorem orElse {c : Prop} {_ : Decidable c} (h : Keeps s₀ s) (hf : Keeps s₀ s → Keeps s₀ t) :
    Keeps s₀ (if c then s else t) := .ite h (hf h)
theorem ite2 {α : Type} {r q : α × State} {c : Prop} {_ : Decidable c} (h : Keeps s₀ r.2) (h' : Keeps s₀ q.2) :
    Keeps s₀ (if c then r else q).2 :=
  iteInduction (motive := fun r : α × State => Keeps s₀ r.2) (fun _ => h) (fun _ => h')
theorem ite3 {α β : Type} {r q : α × β × State} {c : Prop} {_ : Decidable c} (h : Keeps s₀ r.2.2) (h' : Keeps s₀ q.2.2) :
    Keeps s₀ (if c then r else q).2.2 :=
  iteInduction (motive := fun r : α × β × State => Keeps s₀ r.2.2) (fun _ => h) (fun _ => h')

theorem of_eq {α : Type} {p : α × State} {a : α} {t : State} (e : p = (a, t)) (h : Keeps s₀ p.2) : Keeps s₀ t := by
  subst e; exact h
theorem of_eq_some {o : Option State} {t : State} (e : o = some t) (h : KeepsSome s₀ o) : Keeps s₀ t := by
  subst e; cases h; assumption
theorem of_eq_opt {α : Type} {o : Option (α × State)} {r : α × State} (e : o = some r) (h : KeepsOpt s₀ o) : Keeps s₀ r.2 := by
  subst e; cases h; assumption

theorem of_done {e : Effect} {t : State} (q : e = .done t) (h : KeepsEff s₀ e) : Keeps s₀ t := by
  subst q; cases h; assumption
theorem of_jump {e : Effect} {a : W24} {t : State} (q : e = .jump a t) (h : KeepsEff s₀ e) : Keeps s₀ t := by
  subst q; cases h; assumption
theorem of_hold {e : Effect} {t : State} (q : e = .hold t) (h : KeepsEff s₀ e) : Keeps s₀ t := by
  subst q; cases h; assumption
theorem of_fault {e : Effect} {c a : Nat} {t : State} (q : e = .fault c a t) (h : KeepsEff s₀ e) : Keeps s₀ t := by
  subst q; cases h; assumption

theorem of (h : Keeps s₀ s) (hp : t.pending = s.pending) (hc : s.Canon → t.Canon) : Keeps s₀ t := ⟨hp.trans h.1, fun c => hc (h.2 c)⟩
theorem withRegs (h : Keeps s₀ s) {m} (hm : s.Canon → swf regReset m = true) : Keeps s₀ { s with regs := m } :=
  h.of rfl fun c => ⟨hm c, c.staged, c.active, c.previous, c.counters⟩
theorem withStaged (h : Keeps s₀ s) {m} (hm : s.Canon → swf regReset m = true) : Keeps s₀ { s with staged := m } :=
  h.of rfl fun c => ⟨c.regs, hm c, c.active, c.previous, c.counters⟩
theorem withActive (h : Keeps s₀ s) {m} (hm : s.Canon → swf regReset m = true) : Keeps s₀ { s with active := m } :=
  h.of rfl fun c => ⟨c.regs, c.staged, hm c, c.previous, c.counters⟩
theorem withCounters (h : Keeps s₀ s) {m} (hm : s.Canon → swf (fun _ => (0 : BitVec 49)) m = true) : Keeps s₀ { s with counters := m } :=
  h.of rfl fun c => ⟨c.regs, c.staged, c.active, c.previous, hm c⟩

theorem each {α : Type} {f : State → α → State} {l : List α} (h : Keeps s₀ s) (hf : ∀ s e, Keeps s₀ s → Keeps s₀ (f s e)) :
    Keeps s₀ (s.each l f) := each_induct (Keeps s₀) f hf l s h

theorem wr (h : Keeps s₀ s) {a v} : Keeps s₀ (s.wr a v) :=
  h.withRegs fun c => swf_sput _ _ _ _ c.regs
theorem setCtr (h : Keeps s₀ s) {a v} : Keeps s₀ (s.setCtr a v) :=
  h.withCounters fun c => swf_sput _ _ _ _ c.counters
theorem withFree (h : Keeps s₀ s) {v} : Keeps s₀ { s with free := v } := .other h
theorem withNow (h : Keeps s₀ s) {v} : Keeps s₀ { s with now := v } := .other h
theorem withOut (h : Keeps s₀ s) {v} : Keeps s₀ { s with out := v } := .other h
theorem withReadData (h : Keeps s₀ s) {v} : Keeps s₀ { s with readData := v } := .other h
theorem withLatches (h : Keeps s₀ s) {v} : Keeps s₀ { s with latches := v } := .other h
theorem withKeep (h : Keeps s₀ s) {v} : Keeps s₀ { s with keep := v } := .other h
theorem withForme (h : Keeps s₀ s) {v} : Keeps s₀ { s with forme := v } := .other h
theorem withModes (h : Keeps s₀ s) {v} : Keeps s₀ { s with modes := v } := .other h
theorem withProof (h : Keeps s₀ s) {v} : Keeps s₀ { s with proof := v } := .other h
theorem withPlinth (h : Keeps s₀ s) {v} : Keeps s₀ { s with plinth := v } := .other h
theorem withDbgUnit (h : Keeps s₀ s) {v} : Keeps s₀ { s with dbgUnit := v } := .other h
theorem updWy (h : Keeps s₀ s) {w f} : Keeps s₀ (s.updWy w f) := h.other (by simp [words])
theorem setWy (h : Keeps s₀ s) {w v} : Keeps s₀ (s.setWy w v) := h.other (by simp [words])

/-! ### The functions of Machine/Regs -/
theorem emit (h : Keeps s₀ s) {o} : Keeps s₀ (s.emit o) := h.withOut
theorem answer (h : Keeps s₀ s) {v} : Keeps s₀ (s.answer v) := h.withReadData
theorem draw (h : Keeps s₀ s) : Keeps s₀ s.draw.2 := h.withFree
theorem count (h : Keeps s₀ s) {a n} : Keeps s₀ (s.count a n) := .ite h h.setCtr
theorem raise (h : Keeps s₀ s) {page bits} : Keeps s₀ (s.raise page bits) := .ite h.wr h.wr.emit
theorem raiseBit (h : Keeps s₀ s) {page i} : Keeps s₀ (s.raiseBit page i) := h.raise
theorem latch (h : Keeps s₀ s) {r lo upper} : Keeps s₀ (s.latch r lo upper) := h.withLatches

/-! ### The functions of Machine/Ops -/
theorem updCore (h : Keeps s₀ s) {w i f} : Keeps s₀ (s.updCore w i f) := h.updWy
theorem updCtx (h : Keeps s₀ s) {x f} : Keeps s₀ (s.updCtx x f) := h.updWy
theorem updTcb (h : Keeps s₀ s) {w i f} : Keeps s₀ (s.updTcb w i f) := h.updWy
theorem updCourse (h : Keeps s₀ s) {w c f} : Keeps s₀ (s.updCourse w c f) := h.updWy
theorem updPort (h : Keeps s₀ s) {w p f} : Keeps s₀ (s.updPort w p f) := h.updWy
theorem updDs (h : Keeps s₀ s) {w f} : Keeps s₀ (s.updDs w f) := h.updWy
theorem updComp (h : Keeps s₀ s) {w f} : Keeps s₀ (s.updComp w f) := h.updWy
theorem updColl (h : Keeps s₀ s) {w f} : Keeps s₀ (s.updColl w f) := h.updWy
theorem updGalley (h : Keeps s₀ s) {w f} : Keeps s₀ (s.updGalley w f) := h.updWy
theorem updPress (h : Keeps s₀ s) {w f} : Keeps s₀ (s.updPress w f) := h.updWy
theorem updTie (h : Keeps s₀ s) {w f} : Keeps s₀ (s.updTie w f) := h.updWy
theorem updTables (h : Keeps s₀ s) {w f} : Keeps s₀ (s.updTables w f) := h.updWy
theorem updQuoin (h : Keeps s₀ s) {w f} : Keeps s₀ (s.updQuoin w f) := h.updWy
theorem onlyIf (h : Keeps s₀ s) {b f} (hf : ∀ s, Keeps s₀ s → Keeps s₀ (f s)) : Keeps s₀ (s.onlyIf b f) := .ite (hf s h) h
theorem viaPage (h : Keeps s₀ s) {a w f} (hf : ∀ s, Keeps s₀ s → Keeps s₀ (f s)) : Keeps s₀ (s.viaPage a w f) := .ite (hf s h) h
theorem viaGlobal (h : Keeps s₀ s) {a f} (hf : ∀ s, Keeps s₀ s → Keeps s₀ (f s)) : Keeps s₀ (s.viaGlobal a f) := .ite (hf s h) h
theorem drop (h : Keeps s₀ s) {w p c} : Keeps s₀ (s.drop w p c) := h.count.count
theorem enterIntake (h : Keeps s₀ s) {w type r} : Keeps s₀ (s.enterIntake w type r) := .ite h.updDs h.updDs.count
theorem record (h : Keeps s₀ s) {w type subject payload} : Keeps s₀ (s.record w type subject payload) := .ite h.enterIntake h
theorem sealReq (h : Keeps s₀ s) {w reason} : Keeps s₀ (s.sealReq w reason) := .ite h.enterIntake h
theorem postFlags (h : Keeps s₀ s) {w i t mask} : Keeps s₀ (s.postFlags w i t mask) := h.updWy
theorem postBindingsOf (h : Keeps s₀ s) {w i kind index} : Keeps s₀ (s.postBindingsOf w i kind index) :=
  .each h (fun _ _ h => .onlyIf h (fun _ h => h.postFlags))
theorem postBindings (h : Keeps s₀ s) {w kind index} : Keeps s₀ (s.postBindings w kind index) := .each h (fun _ _ h => h.postBindingsOf)
theorem postCourseBindings (h : Keeps s₀ s) {w c kind index} : Keeps s₀ (s.postCourseBindings w c kind index) :=
  .each h (fun _ _ h => h.postBindingsOf)
theorem interrupt (h : Keeps s₀ s) {w i src} : Keeps s₀ (s.interrupt w i src) := h.updCore
theorem interruptEnabled (h : Keeps s₀ s) {w src} : Keeps s₀ (s.interruptEnabled w src) :=
  .each h (fun _ _ h => .onlyIf h (fun _ h => h.interrupt))
theorem notice (h : Keeps s₀ s) {w code} : Keeps s₀ (s.notice w code) := h.postBindings.interruptEnabled
theorem noteClamp (h : Keeps s₀ s) {a n} : Keeps s₀ (s.noteClamp a n) := .ite h (.ite h.wr.updDs h.wr)

/-! ### The functions of Machine/Banks -/
theorem setBankByte (h : Keeps s₀ s) {w c off v} : Keeps s₀ (s.setBankByte w c off v) := h.updCourse
theorem setBankBytes (h : Keeps s₀ s) {w c off v} : Keeps s₀ (s.setBankBytes w c off v) := .each h (fun _ _ h => .ite h.setBankByte h)
theorem bankUncorrectable (h : Keeps s₀ s) {w c off} : Keeps s₀ (s.bankUncorrectable w c off) := h.count.wr.raiseBit
theorem bankCorrected (h : Keeps s₀ s) {w c} : Keeps s₀ (s.bankCorrected w c) := h.count
theorem setBankEcc (h : Keeps s₀ s) {w c off v ecc} : Keeps s₀ (s.setBankEcc w c off v ecc) := by
  unfold State.setBankEcc
  refine .ite h.setBankBytes ?_
  dsimp only
  split
  · exact h.setBankBytes
  · exact h.setBankBytes.bankCorrected
  · exact h.bankUncorrectable.setBankBytes.setBankBytes
theorem bankRefused (h : Keeps s₀ s) {w c v} : Keeps s₀ (s.bankRefused w c v) := by
  unfold State.bankRefused
  split
  · exact h
  · exact h.count.raiseBit
  · exact h.count.raiseBit
theorem settleConflicts (h : Keeps s₀ s) {w c} : Keeps s₀ (s.settleConflicts w c) := .ite h (.updWy (.each h (fun _ _ h => h.draw.count)))
theorem clearBank (h : Keeps s₀ s) {w c b} : Keeps s₀ (s.clearBank w c b) := h.updCourse
theorem bankChange (h : Keeps s₀ s) {w c b t} : Keeps s₀ (s.bankChange w c b t) := .ite h (.updCourse (.ite h.clearBank h))
theorem bankPower (h : Keeps s₀ s) {w c v} : Keeps s₀ (s.bankPower w c v) :=
  .ite h.wr.noteClamp (.each h.wr.noteClamp (fun _ _ h => h.bankChange))
theorem bankSettled (h : Keeps s₀ s) {w c b} : Keeps s₀ (s.bankSettled w c b) := by
  unfold State.bankSettled
  split
  · exact h.updCourse
  · exact h
theorem execBankPowerWrite (h : Keeps s₀ s) {a w c value} : KeepsRes s₀ (Machine.execBankPowerWrite a w c value s) :=
  .next (.viaPage h (fun _ h => h.bankPower))
theorem execBankTransitionEnd (h : Keeps s₀ s) {w c b} : KeepsRes s₀ (Machine.execBankTransitionEnd w c b s) := .next h.bankSettled

/-! ### The functions of Machine/Galley -/
theorem updPool (h : Keeps s₀ s) {w p f} : Keeps s₀ (s.updPool w p f) := h.updGalley
theorem refillDone (h : Keeps s₀ s) {w p} : Keeps s₀ (s.refillDone w p) := h.updPool
theorem takeHandle (h : Keeps s₀ s) {w p} : Keeps s₀ (s.takeHandle w p).2 := by
  unfold State.takeHandle
  split
  · exact h
  · exact .maybe h.updPool.updGalley.count (fun h => h.raiseBit)
theorem allocTry (h : Keeps s₀ s) {w k ps} : Keeps s₀ (State.allocTry w k ps s).2 := by
  induction ps generalizing s with
  | nil => exact h
  | cons p ps ih =>
    have h1 {b} : Keeps s₀ (s.onlyIf b (fun s => s.count (pgGalley w + 0x78) 1)) := .onlyIf h (fun _ h => h.count)
    exact .ite2 (ih (.ite h1 h1.count)) h.takeHandle
theorem alloc (h : Keeps s₀ s) {w mask need fallback k} : Keeps s₀ (s.alloc w mask need fallback k).2 := .ite2 h h.allocTry
theorem allocLoad (h : Keeps s₀ s) {w u fallback} : Keeps s₀ (s.allocLoad w u fallback).2 := by
  unfold State.allocLoad
  dsimp only
  split
  · next e => exact .of_eq e h.alloc
  · next e => exact .count (.of_eq e h.alloc)
  · have h1 : Keeps s₀ (s.each (List.range 8) (fun s p => s.onlyIf ((s.pool w p).refilling && (s.pool w p).cache.isEmpty)
        (fun s => s.refillDone w p))) :=
      .each h (fun _ _ h => .onlyIf h (fun _ h => h.refillDone))
    split
    · next e => exact .of_eq e h1.alloc
    · next e => exact .count (.of_eq e h1.alloc)
theorem refDown (h : Keeps s₀ s) {w hd} : Keeps s₀ (s.refDown w hd) := .ite h.count (.ite h.count (.ite h.updPool.count h.updPool))
theorem refUp (h : Keeps s₀ s) {w hd n} : Keeps s₀ (s.refUp w hd n) := .ite h (.ite h.count (.ite h.count (.ite h.count h.updPool)))
theorem dramUncorrectable (h : Keeps s₀ s) {w addr} : Keeps s₀ (s.dramUncorrectable w addr) := h.count.wr.raiseBit
theorem bufNote (h : Keeps s₀ s) {w hd ecc} : Keeps s₀ (s.bufNote w hd ecc) := by
  unfold State.bufNote
  dsimp only
  split
  · exact h
  · exact .ite h.count h
  · exact .ite h.draw.dramUncorrectable h.raiseBit
theorem setBufBytes (h : Keeps s₀ s) {w hd off v} : Keeps s₀ (s.setBufBytes w hd off v) := h.updGalley
theorem movePost (h : Keeps s₀ s) {w owner course addr} : Keeps s₀ (s.movePost w owner course addr) := h.updGalley
theorem setMoveStatus (h : Keeps s₀ s) {w owner v} : Keeps s₀ (s.setMoveStatus w owner v) := h.updGalley
theorem moveBegin (h : Keeps s₀ s) {w ecc} : Keeps s₀ (s.moveBegin w ecc) := by
  unfold State.moveBegin
  split
  · extract_lets v desc found s1 s2
    clear_value found
    have h1 : Keeps s₀ s1 := .onlyIf h (fun _ h => h.bankRefused)
    have h2 : Keeps s₀ s2 := by
      unfold s2
      split
      · exact h1
      · exact h1.bankCorrected
      · exact h1.bankUncorrectable
    exact .ite h h2.updGalley
  · exact h
theorem moveRun (h : Keeps s₀ s) {w d ecc dst} : Keeps s₀ (s.moveRun w d ecc dst).2 := by
  unfold State.moveRun
  refine .ite2 h ?_
  refine .ite2 h.bankRefused ?_
  refine .ite2 h.bankRefused ?_
  refine .ite2 h.bankRefused ?_
  refine .ite2 ?_ (.ite2 h.bankRefused.bufNote h.bankRefused.bufNote.setBankEcc)
  split
  · exact h.bankRefused.bankUncorrectable
  · exact .setBufBytes (.onlyIf h.bankRefused (fun _ h => h.bankCorrected))
theorem answerStatus (h : Keeps s₀ s) {w} : Keeps s₀ (s.answerStatus w) := .each h.updGalley (fun _ _ h => h.answer)
theorem readStatus (h : Keeps s₀ s) {w a} : Keeps s₀ (s.readStatus w a).2 := .ite2 h.updGalley h
theorem moveFinish (h : Keeps s₀ s) {w ecc dst} : Keeps s₀ (s.moveFinish w ecc dst) := by
  unfold State.moveFinish
  split
  · split
    · exact h
    · exact .answerStatus (.setMoveStatus (.ite2 h.updGalley h.updGalley.moveRun))
  · exact h
theorem galleyAbortMoves (h : Keeps s₀ s) {w} : Keeps s₀ (s.galleyAbortMoves w) :=
  .answerStatus (.updGalley (.each h (fun _ _ h => h.setMoveStatus)))
theorem moveStore (h : Keeps s₀ s) {w a v} : Keeps s₀ (s.moveStore w a v) := by
  unfold State.moveStore
  split <;> exact h.movePost
theorem layBacking (h : Keeps s₀ s) {view w dram} : Keeps s₀ (s.layBacking view w dram) :=
  .each h (fun _ _ h => .ite h.updPool (.ite h.updPool h))
theorem setRelay (h : Keeps s₀ s) {w dram r} : Keeps s₀ (s.setRelay w dram r) := h.updGalley
theorem retirePools (h : Keeps s₀ s) {w dram} : Keeps s₀ (s.retirePools w dram) := .each h (fun _ _ h => .ite h.updPool h)
theorem relaySwitch (h : Keeps s₀ s) {w dram first} : Keeps s₀ (s.relaySwitch w dram first) := by
  unfold State.relaySwitch
  refine .ite h.layBacking ?_
  split
  · exact h.retirePools.setRelay
  · exact h.retirePools.setRelay
  · exact h.setRelay
theorem relayBuild (h : Keeps s₀ s) {w dram} : Keeps s₀ (s.relayBuild w dram) := by
  unfold State.relayBuild
  split
  · exact .ite (.setRelay (.each h (fun _ _ h => h.updPool))) h
  · exact h
theorem relayOpen (h : Keeps s₀ s) {w dram} : Keeps s₀ (s.relayOpen w dram) := by
  unfold State.relayOpen
  split
  · exact .ite h.layBacking.setRelay.retirePools.setRelay h.layBacking.setRelay
  · exact h
theorem execAlloc (h : Keeps s₀ s) {a w u} : KeepsRes s₀ (Machine.execAlloc a w u s) :=
  .ite (.next h.allocLoad.withReadData) (.next h.withReadData)
theorem execAllocExact (h : Keeps s₀ s) {a w u} : KeepsRes s₀ (Machine.execAllocExact a w u s) :=
  .ite (.next h.allocLoad.withReadData) (.next h.withReadData)
theorem execFree (h : Keeps s₀ s) {a w value} : KeepsRes s₀ (Machine.execFree a w value s) := .next (.viaPage h (fun _ h => h.refDown))
theorem execRefAdd (h : Keeps s₀ s) {a w value} : KeepsRes s₀ (Machine.execRefAdd a w value s) := .next (.viaPage h (fun _ h => h.refUp))
theorem execPoolRefillEnd (h : Keeps s₀ s) {w p ecc} : KeepsRes s₀ (Machine.execPoolRefillEnd w p ecc s) := by
  unfold Machine.execPoolRefillEnd
  refine .ite (.next h) ?_
  dsimp only
  split
  · exact .next h.refillDone
  · exact .next (.ite h.refillDone.count h.refillDone)
  · exact .ite (.next h.updPool.draw.dramUncorrectable.count) (.next h.refillDone.raiseBit)
theorem execPoolSpillEnd (h : Keeps s₀ s) {w p} : KeepsRes s₀ (Machine.execPoolSpillEnd w p s) := .next (.ite h.updPool h)
theorem execMovePost (h : Keeps s₀ s) {a w value} : KeepsRes s₀ (Machine.execMovePost a w value s) :=
  .next (.viaPage h (fun _ h => h.moveStore))
theorem execMoveStart (h : Keeps s₀ s) {w ecc} : KeepsRes s₀ (Machine.execMoveStart w ecc s) := .next h.moveBegin
theorem execMoveStatus (h : Keeps s₀ s) {a w} : KeepsRes s₀ (Machine.execMoveStatus a w s) := .next (.ite h.answer h.readStatus.answer)
theorem execPoolRelayBuild (h : Keeps s₀ s) {w dram} : KeepsRes s₀ (Machine.execPoolRelayBuild w dram s) := .next h.relayBuild
theorem execPoolOpen (h : Keeps s₀ s) {w dram} : KeepsRes s₀ (Machine.execPoolOpen w dram s) := .next h.relayOpen

/-! ### The functions of Machine/Perf -/
theorem pmcOne (h : Keeps s₀ s) {w i n x k} : Keeps s₀ (s.pmcOne w i n x k) :=
  .orElse (.ite h.count.raiseBit h.count) (fun h => .ite h.updCore h.updCore)
theorem pmc (h : Keeps s₀ s) {w i code x k} : Keeps s₀ (s.pmc w i code x k) := .each h (fun _ _ h => .onlyIf h (fun _ h => h.pmcOne))
theorem nameSample (h : Keeps s₀ s) {w i d x pc task next} : Keeps s₀ (s.nameSample w i d x pc task next) :=
  .ite h.updCore.count (.maybe h.updCore.updCore.count (fun h => h.raiseBit))
theorem nameSamples (h : Keeps s₀ s) {w i x c own} : Keeps s₀ (s.nameSamples w i x c own) :=
  .each (.ite h.updCore h) (fun _ _ h => .each h (fun _ _ h => h.nameSample))
theorem takeSample (h : Keeps s₀ s) {w i n view} : Keeps s₀ (s.takeSample w i n view) := by
  unfold State.takeSample
  split
  · exact h
  · exact .ite h.updCore h.nameSample
theorem readSample0 (h : Keeps s₀ s) {w i} : Keeps s₀ (s.readSample0 w i).2 := by
  unfold State.readSample0
  split <;> exact h.updCore
theorem clearPmc (h : Keeps s₀ s) {w i mask} : Keeps s₀ (s.clearPmc w i mask) := .each h (fun _ _ h => .onlyIf h (fun _ h => h.setCtr))
theorem clearOvf (h : Keeps s₀ s) {a} : Keeps s₀ (s.clearOvf a) := h.setCtr
theorem execPmcClear (h : Keeps s₀ s) {a k mask} : KeepsRes s₀ (Machine.execPmcClear a k mask s) :=
  .next (.viaPage h (fun _ h => h.clearPmc))
theorem execPmcOvfClear (h : Keeps s₀ s) {a k mask} : KeepsRes s₀ (Machine.execPmcOvfClear a k mask s) :=
  .next (.viaPage h (fun _ h => .each h (fun _ _ h => .onlyIf h (fun _ h => h.clearOvf))))
theorem execSampleTaken (h : Keeps s₀ s) {k n} : KeepsRes s₀ (Machine.execSampleTaken k n s) := .next h.takeSample
theorem execSample0Read (h : Keeps s₀ s) {a k} : KeepsRes s₀ (Machine.execSample0Read a k s) := .next (.ite h.readSample0.answer h.answer)

/-! ### The functions of Machine/Quoin -/
theorem quoinFlag (h : Keeps s₀ s) {w r} : Keeps s₀ (s.quoinFlag w r) := by
  unfold State.quoinFlag
  split
  · exact h.postFlags
  · exact h
theorem quoinPump (h : Keeps s₀ s) {w obj n} : Keeps s₀ (State.quoinPump w obj n s) := by
  induction n generalizing s with
  | zero => exact h
  | succ n ih =>
    unfold State.quoinPump
    dsimp only
    split
    · exact h
    · exact .ite h (.ite (.ite h h.updQuoin.count) (ih h.updQuoin.count.quoinFlag))
theorem quoinPumpAll (h : Keeps s₀ s) {w} : Keeps s₀ (s.quoinPumpAll w) := .each h (fun _ _ h => h.quoinPump)
theorem quoinAcquire (h : Keeps s₀ s) {w hd v} : Keeps s₀ (s.quoinAcquire w hd v) :=
  .ite h.noteClamp.updQuoin.count.raiseBit (.ite h.noteClamp.updQuoin (.ite h.noteClamp.updQuoin (.ite h.noteClamp.updQuoin.count (.ite
    (.updQuoin (.ite h.noteClamp.count h.noteClamp)) (.count (.updQuoin (.updQuoin (.ite h.noteClamp.count h.noteClamp))))))))
theorem quoinRelease (h : Keeps s₀ s) {w hd v} : Keeps s₀ (s.quoinRelease w hd v) :=
  .ite h.count.raiseBit (.onlyIf (.quoinPump (.ite h.updQuoin.updQuoin h.updQuoin)) (fun _ h => h.quoinPumpAll))
theorem quoinReset (h : Keeps s₀ s) {w p} : Keeps s₀ (s.quoinReset w p) :=
  .quoinPumpAll (.each (.ite h.updQuoin h.updQuoin.count.raiseBit) (fun _ _ h => h.quoinPump))
theorem quoinAbortAll (h : Keeps s₀ s) {w} : Keeps s₀ (s.quoinAbortAll w) :=
  .orElse (.each h.updQuoin (fun _ _ h => h.updQuoin.quoinFlag)) (fun h => h.count.raiseBit)
theorem quoinSwitch (h : Keeps s₀ s) {w} : Keeps s₀ (s.quoinSwitch w) := .quoinPumpAll (.each h (fun _ _ h => h.updQuoin.quoinFlag))
theorem execAcquire (h : Keeps s₀ s) {a w value} : KeepsRes s₀ (Machine.execAcquire a w value s) := .next (.ite h.quoinAcquire h)
theorem execQuoinRelease (h : Keeps s₀ s) {a w value} : KeepsRes s₀ (Machine.execQuoinRelease a w value s) := .next (.ite h.quoinRelease h)

/-! ### The functions of Machine/Coproc -/
theorem updUnit (h : Keeps s₀ s) {w c u f} : Keeps s₀ (s.updUnit w c u f) := h.updCourse
theorem cpGrant (h : Keeps s₀ s) {w c u abandoned} : Keeps s₀ (s.cpGrant w c u abandoned) := by
  unfold State.cpGrant
  split
  · exact h.updUnit
  · dsimp only
    split
    · exact h.updUnit.count.postFlags
    · exact h.updUnit.count
theorem cpFree (h : Keeps s₀ s) {w c u abandoned} : Keeps s₀ (s.cpFree w c u abandoned) :=
  .cpGrant (.onlyIf h.updUnit (fun _ h => h.count.raiseBit))
theorem cpRelease (h : Keeps s₀ s) {w c u abandoned} : Keeps s₀ (s.cpRelease w c u abandoned) := .ite h.updUnit h.cpFree
theorem cpSettle (h : Keeps s₀ s) {w c u} : Keeps s₀ (s.cpSettle w c u) := by
  unfold State.cpSettle
  split
  · exact h.cpRelease
  · exact h
theorem cpClaim (h : Keeps s₀ s) {a w c u f} : Keeps s₀ (s.cpClaim a w c u f).2 := by
  unfold State.cpClaim
  split
  · exact .ite2 h (.ite2 h (.ite2 h.updUnit.count (.ite2 h h.updUnit)))
  · exact h
theorem cpReleaseStore (h : Keeps s₀ s) {a w c u} : Keeps s₀ (s.cpReleaseStore a w c u) := .ite h.cpRelease h.count
theorem regionTouch (h : Keeps s₀ s) {w r} : Keeps s₀ (s.regionTouch w r) := .ite h h.bankRefused
theorem regionNote (h : Keeps s₀ s) {w r ecc} : Keeps s₀ (s.regionNote w r ecc) := by
  unfold State.regionNote
  refine .ite h.bufNote ?_
  split
  · exact h
  · exact h.bankCorrected
  · exact h.bankUncorrectable
theorem regionWrite (h : Keeps s₀ s) {w r v ecc} : Keeps s₀ (s.regionWrite w r v ecc) := .ite h.setBufBytes h.setBankEcc
theorem cpRun (h : Keeps s₀ s) {w c p ecc} : Keeps s₀ (s.cpRun w c p ecc).2 := by
  unfold State.cpRun
  refine .ite2 h ?_
  refine .ite2 h ?_
  dsimp only
  split
  · exact h
  · exact .ite2 (.each h (fun _ _ h => h.regionTouch)) (.ite2 (.regionNote (.regionNote (.each h (fun _ _ h => h.regionTouch)))) (.ite2
    (.regionNote (.regionNote (.each h (fun _ _ h => h.regionTouch)))) (.onlyIf (.updUnit (.regionNote (.regionNote (.each h (fun _ _ h =>
    h.regionTouch))))) (fun _ h => h.regionWrite))))
theorem cpComplete (h : Keeps s₀ s) {w c place p status} : Keeps s₀ (s.cpComplete w c place p status) :=
  .cpSettle (.updCourse (.maybe (.onlyIf (.onlyIf h.count (fun _ h => h.count)) (fun _ h => h.count.raiseBit.interrupt)) (fun h => .ite
    h.count (by split; exacts [h.postFlags, h]))))
theorem cpWorked (h : Keeps s₀ s) {w c u least exact_} : Keeps s₀ (s.cpWorked w c u least exact_) := .ite h.count h.draw.count
theorem cpCancel (h : Keeps s₀ s) {w c place p abort} : Keeps s₀ (s.cpCancel w c place p abort) :=
  .cpComplete (.cpWorked (.onlyIf h (fun _ h => h.count)))
theorem cpCommit (h : Keeps s₀ s) {w c place} : Keeps s₀ (s.cpCommit w c place) := by
  unfold State.cpCommit
  split
  · refine .ite ?_ h
    dsimp only
    split
    · exact h.updCourse.pmc.cpCancel
    · exact h.updCourse.pmc
  · exact h
theorem cpFinish (h : Keeps s₀ s) {w c place ecc} : Keeps s₀ (s.cpFinish w c place ecc) := by
  unfold State.cpFinish
  split
  · exact .ite h.cpRun.cpWorked.cpComplete h
  · exact h
theorem cpKill (h : Keeps s₀ s) {w c q} : Keeps s₀ (s.cpKill w c q) :=
  .each (.each (.onlyIf h.updCourse (fun _ h => h.count)) (fun _ _ h => h.cpWorked)) (fun _ _ h => h.cpSettle)
theorem cpReset (h : Keeps s₀ s) {w c q} : Keeps s₀ (s.cpReset w c q) := .each h.cpKill.updCourse (fun _ _ h => by
  dsimp only
  split
  · exact .ite h.updUnit.cpRelease h.updUnit
  · exact h.updUnit)
theorem cpAbort (h : Keeps s₀ s) {w c} : Keeps s₀ (s.cpAbort w c) := .each h (fun _ _ h => .ite h.cpCancel h.updCourse)
theorem cpBlock (h : Keeps s₀ s) {w c addr ecc} : Keeps s₀ (s.cpBlock w c addr ecc).2.2 := by
  unfold State.cpBlock
  extract_lets o v
  clear_value o
  split
  · exact h
  · split
    · exact h.bankUncorrectable
    · exact .onlyIf h.bankRefused (fun _ h => h.bankCorrected)
theorem cpSave (h : Keeps s₀ s) {w c u o} : Keeps s₀ (s.cpSave w c u o) := h.setBankBytes
theorem cpRest (h : Keeps s₀ s) {w c u o} : Keeps s₀ (s.cpRest w c u o) := .ite h.updUnit h.updUnit.count
theorem execClaim (h : Keeps s₀ s) {a w c u f} : KeepsRes s₀ (Machine.execClaim a w c u f s) := .next (.ite h.cpClaim.answer h.answer)
theorem execCoprocRelease (h : Keeps s₀ s) {a w c u} : KeepsRes s₀ (Machine.execCoprocRelease a w c u s) :=
  .next (.viaPage h (fun _ h => h.cpReleaseStore))
theorem execCommit (h : Keeps s₀ s) {w c place} : KeepsRes s₀ (Machine.execCommit w c place s) := .next h.cpCommit
theorem execCoprocCompletion (h : Keeps s₀ s) {w c place ecc} : KeepsRes s₀ (Machine.execCoprocCompletion w c place ecc s) :=
  .next h.cpFinish

/-! ### The functions of Machine/Operands -/
theorem readReg (h : Keeps s₀ s) {x r} : Keeps s₀ (s.readReg x r).2 := by
  unfold State.readReg
  dsimp only
  split
  any_goals exact h
  · exact .ite2 h.updCtx h
theorem readRegP (h : Keeps s₀ s) {x r p} : Keeps s₀ (s.readRegP x r p).2 := by
  unfold State.readRegP
  split
  · exact h
  · exact h.readReg
theorem orFree {n : Nat} (h : Keeps s₀ s) {v : Option (BitVec n)} : Keeps s₀ (s.orFree v).2 := by
  unfold State.orFree
  split
  · exact h
  · exact h.draw
theorem writeReg (h : Keeps s₀ s) {x r p v} : Keeps s₀ (s.writeReg x r p v) := by
  unfold State.writeReg
  dsimp only
  split
  · exact .ite h.orFree.updCtx h.updCtx
  · exact h.orFree.updCtx
  · exact h.orFree.updCtx
  · exact h.updCtx
  · exact h.updCtx
  · exact h.updCtx
  · exact h.orFree.updCtx
  · exact h.updCtx
  · exact h.updCtx
  · exact h.updCtx
  · exact h.updCtx
  · exact h.updCtx
  · exact h.orFree.updCore
  · exact h.updCore
  · exact h.orFree.updCore
  · exact h.updCore
  · exact h
  · exact h
  · exact h

/-! ### The functions of Machine/Press -/
theorem flightDone (h : Keeps s₀ s) {w group} : Keeps s₀ (s.flightDone w group) := by
  unfold State.flightDone
  split
  · exact h
  · exact h.updColl
theorem countStream (h : Keeps s₀ s) {w c which n} : Keeps s₀ (s.countStream w c which n) := by
  unfold State.countStream
  split
  · exact h
  · exact h.count
theorem releaseSegs (h : Keeps s₀ s) {w c} : Keeps s₀ (s.releaseSegs w c) := .each h (fun _ _ h => h.refDown)
theorem dropCopy (h : Keeps s₀ s) {w c cause ctrOff} : Keeps s₀ (s.dropCopy w c cause ctrOff) := by
  unfold State.dropCopy
  extract_lets s1 s2
  have h1 : Keeps s₀ s1 := h.releaseSegs.flightDone.countStream
  have h2 : Keeps s₀ s2 := by
    unfold s2
    split
    · exact h1.count
    · exact h1
  exact .ite h1.count.drop h2.drop
theorem setShaper (h : Keeps s₀ s) {w p n v} : Keeps s₀ (s.setShaper w p n v) := h.updPress
theorem creditSettle (h : Keeps s₀ s) {w p c} : Keeps s₀ (s.creditSettle w p c) := .ite h.setShaper h
theorem setDeficit (h : Keeps s₀ s) {w p c v} : Keeps s₀ (s.setDeficit w p c v) := h.updPress
theorem queueLeft (h : Keeps s₀ s) {w c} : Keeps s₀ (s.queueLeft w c) := .ite h h.setDeficit.creditSettle
theorem dropQueued (h : Keeps s₀ s) {w p cause} : Keeps s₀ (s.dropQueued w p cause) :=
  .each (.each h.updPress (fun _ _ h => h.dropCopy)) (fun _ _ h => h.queueLeft)
theorem countSel (h : Keeps s₀ s) {w f i} : Keeps s₀ (s.countSel w f i) := .ite h h.updPress
theorem gateRefresh (h : Keeps s₀ s) {w p} : Keeps s₀ (s.gateRefresh w p) := .ite h (.each h.updPress (fun _ _ h => h.creditSettle))
theorem gateReplace (h : Keeps s₀ s) {w p} : Keeps s₀ (s.gateReplace w p) := by
  unfold State.gateReplace
  dsimp only
  split
  · exact h
  · exact .ite h h.updPress.gateRefresh
theorem admitFilter (h : Keeps s₀ s) {w c l} : Keeps s₀ (s.admitFilter w c l).2.2 := by
  unfold State.admitFilter
  split
  · exact .ite h.count h
  · exact .ite3 h.countSel.countSel (.ite3 (.ite h.countSel.countSel.updPress.raiseBit h.countSel.countSel) (.ite3 h.countSel.countSel
    (.ite3 (.ite3 (.countSel (.ite h.countSel.updPress.raiseBit h.countSel.updPress)) (.ite h.countSel.updPress.raiseBit
    h.countSel.updPress)) h.countSel)))
theorem admitCopy (h : Keeps s₀ s) {w c} : Keeps s₀ (s.admitCopy w c) := by
  unfold State.admitCopy
  refine .ite h.dropCopy ?_
  refine .ite h.dropCopy ?_
  refine .ite h.dropCopy ?_
  dsimp only
  split
  · exact h.admitFilter.dropCopy
  · exact .ite (.dropCopy (.ite h.admitFilter h.admitFilter.updPress.raiseBit)) (.ite h.admitFilter.updPress.dropCopy (.ite
    h.admitFilter.updPress.dropCopy (.count (.maybe (.updPress (.onlyIf h.admitFilter.updPress (fun _ h => h.creditSettle))) (fun h =>
    h.wr)))))
theorem shaperDebit (h : Keeps s₀ s) {w p l n} : Keeps s₀ (s.shaperDebit w p l n) := .ite h.setShaper h
theorem shaperRefill (h : Keeps s₀ s) {w p n} : Keeps s₀ (s.shaperRefill w p n) :=
  .ite h (.ite h.setShaper (.ite h (.ite h.setShaper.creditSettle h.creditSettle)))
theorem shaperReset (h : Keeps s₀ s) {w p n old} : Keeps s₀ (s.shaperReset w p n old) :=
  .ite (.maybe h.setShaper.count.count.raiseBit (fun h => h.record)) h.setShaper
theorem refill (h : Keeps s₀ s) {w} : Keeps s₀ (s.refill w) :=
  .each (.each (.each (.each h.updPress (fun _ _ h => h.shaperReset)) (fun _ _ h => h.updPress)) (fun _ _ h => .ite h h.shaperRefill)) (fun
    _ _ h => .ite h h.updPress)
theorem drr (h : Keeps s₀ s) {w p b e} : Keeps s₀ (s.drr w p b e).2 := .updPress (.ite h (.each h (fun _ _ h => h.setDeficit)))
theorem selectClass (h : Keeps s₀ s) {w p t} : Keeps s₀ (s.selectClass w p t).2 := by
  unfold State.selectClass
  refine .ite2 h ?_
  dsimp only
  split
  · exact h
  · exact h.drr
theorem debit (h : Keeps s₀ s) {w p c l} : Keeps s₀ (s.debit w p c l) :=
  .ite h.shaperDebit.shaperDebit.shaperDebit.setDeficit h.shaperDebit.shaperDebit.shaperDebit.setDeficit
theorem startFrame (h : Keeps s₀ s) {w p} : Keeps s₀ (s.startFrame w p) := by
  unfold State.startFrame
  refine .ite h ?_
  dsimp only
  split
  · exact h
  · split
    · exact h
    · exact .ite (.ite (.onlyIf h.selectClass.updPress.count (fun _ h => h.setDeficit)) h.selectClass.updPress.debit) (.dropCopy (.ite
      h.selectClass.updPress.count.queueLeft h.selectClass.updPress.debit))
theorem stampTx (h : Keeps s₀ s) {w p d t} : Keeps s₀ (s.stampTx w p d t) := by
  unfold State.stampTx
  split
  · exact h
  · exact .ite h.updPort h.updPort.count.raiseBit
theorem endFrame (h : Keeps s₀ s) {w p ecc} : Keeps s₀ (s.endFrame w p ecc) := by
  unfold State.endFrame
  split
  · exact h
  · exact .ite h (.creditSettle (.flightDone (.releaseSegs (.maybe (.ite h.updPress.emit.draw.dramUncorrectable.count (.ite
    h.updPress.emit.count h.updPress.emit)) (fun h => .stampTx (.maybe h.count.count.updPort.count.count.countStream.countStream.count.count
    (fun h => h.count)))))))
theorem pressArrive (h : Keeps s₀ s) {w fromTie c} : Keeps s₀ (s.pressArrive w fromTie c) :=
  .ite h.updPress (.ite h.updPress (.ite h.updPress h.updPress))
theorem lateDebits (h : Keeps s₀ s) {w f n going} : Keeps s₀ (s.lateDebits w f n going) :=
  .each (.each h.updPress (fun _ _ h => .ite h.debit h)) (fun _ _ h => h.debit)
theorem earlyEnd (h : Keeps s₀ s) {w f n} : Keeps s₀ (s.earlyEnd w f n) := h.updPress.updTie.lateDebits
theorem earlyBad (h : Keeps s₀ s) {w f n} : Keeps s₀ (s.earlyBad w f n) :=
  .each (.lateDebits (.each (.each (.each h.updPress.updTie (fun _ _ h => .each h.releaseSegs.flightDone (fun _ _ h => h.drop))) (fun _ _ h
    => h.dropCopy)) (fun _ _ h => h.queueLeft))) (fun _ _ h => h.count.drop.raiseBit)
theorem execPressAdmission (h : Keeps s₀ s) {w fromTie} : KeepsRes s₀ (Machine.execPressAdmission w fromTie s) := by
  unfold Machine.execPressAdmission
  dsimp only
  split
  · exact .next h
  · exact .next (.admitCopy (.ite h.updPress h.updPress))
theorem execFrameStart (h : Keeps s₀ s) {w p} : KeepsRes s₀ (Machine.execFrameStart w p s) := .next h.startFrame
theorem execTransmissionEnd (h : Keeps s₀ s) {w p ecc} : KeepsRes s₀ (Machine.execTransmissionEnd w p ecc s) := .next h.endFrame
theorem execRefillTick (h : Keeps s₀ s) {w} : KeepsRes s₀ (Machine.execRefillTick w s) := .next h.refill
theorem execGateEvent (h : Keeps s₀ s) {w p} : KeepsRes s₀ (Machine.execGateEvent w p s) := .next h.gateRefresh
theorem execGateListChange (h : Keeps s₀ s) {w p} : KeepsRes s₀ (Machine.execGateListChange w p s) := .next h.gateReplace
theorem execFilterUnblock (h : Keeps s₀ s) {a w f} : KeepsRes s₀ (Machine.execFilterUnblock a w f s) :=
  .next (.viaPage h (fun _ h => h.updPress))
theorem execMarkRedClear (h : Keeps s₀ s) {a w m} : KeepsRes s₀ (Machine.execMarkRedClear a w m s) :=
  .next (.viaPage h (fun _ h => h.updPress))

/-! ### The functions of Machine/Ports -/
theorem updRx (h : Keeps s₀ s) {w id f} : Keeps s₀ (s.updRx w id f) := h.updWy
theorem delRx (h : Keeps s₀ s) {w id} : Keeps s₀ (s.delRx w id) := h.updWy
theorem compDiscard (h : Keeps s₀ s) {w id} : Keeps s₀ (s.compDiscard w id) := h.updComp
theorem rxFree (h : Keeps s₀ s) {w f} : Keeps s₀ (s.rxFree w f) := by
  unfold State.rxFree
  split
  · exact h.refDown
  · exact h
theorem frameBegins (h : Keeps s₀ s) {w p data} : Keeps s₀ (s.frameBegins w p data) := .ite h (.ite h.updWy.drop h.updWy)
theorem allocIngress (h : Keeps s₀ s) {w p} : Keeps s₀ (s.allocIngress w p) := by
  unfold State.allocIngress
  split
  · exact h
  · refine .ite h ?_
    dsimp only
    split
    · exact h
    · next e => exact .updRx (.setBufBytes (.of_eq e h.alloc))
    · next e =>
      have h1 := of_eq e h.alloc
      exact .ite h1 (.ite h1.count.drop.compDiscard.delRx h1.count.drop.compDiscard.updRx)
theorem countRx (h : Keeps s₀ s) {w p n} : Keeps s₀ (s.countRx w p n) := h.count.count.count.count.updPort
theorem frameEnds (h : Keeps s₀ s) {w p codeError} : Keeps s₀ (s.frameEnds w p codeError) := by
  unfold State.frameEnds
  split
  · exact h
  · extract_lets k err s1 s2 s3 s4
    have h2 : Keeps s₀ s2 := .ite h.countRx h.countRx.count.drop
    have h3 : Keeps s₀ s3 := by
      unfold s3
      split
      · exact h2.drop
      · exact h2
    exact .ite h3.delRx (.ite (.maybe h3.updRx (fun h => h.earlyEnd.delRx)) (.ite h3.earlyBad.delRx h3.compDiscard.rxFree.delRx))
theorem portAbortFifo (h : Keeps s₀ s) {w p} : Keeps s₀ (s.portAbortFifo w p) :=
  .each h (fun _ _ h => .ite h.drop.compDiscard.rxFree.delRx h.drop.compDiscard.rxFree.updRx)
theorem linkRises (h : Keeps s₀ s) {w p speed} : Keeps s₀ (s.linkRises w p speed) := .ite h (.ite h.updPort h.updPort)
theorem linkFalls (h : Keeps s₀ s) {w p localFault remoteFault} : Keeps s₀ (s.linkFalls w p localFault remoteFault) :=
  .ite h.updPort.count.raiseBit h.updPort
theorem bwEnds (h : Keeps s₀ s) {w p} : Keeps s₀ (s.bwEnds w p) := .ite h h.updPort
theorem bwCutShort (h : Keeps s₀ s) {w p} : Keeps s₀ (s.bwCutShort w p) := h.updPort
theorem bwWindowWrite (h : Keeps s₀ s) {w p v} : Keeps s₀ (s.bwWindowWrite w p v) := h.wr.bwCutShort
theorem txtsRead (h : Keeps s₀ s) {w p} : Keeps s₀ (s.txtsRead w p).2 := by
  unfold State.txtsRead
  dsimp only
  split
  · exact h
  · exact h.updPort
theorem execFrameArrival (h : Keeps s₀ s) {w p data} : KeepsRes s₀ (Machine.execFrameArrival w p data s) := .next h.frameBegins
theorem execBufferAllocation (h : Keeps s₀ s) {w p} : KeepsRes s₀ (Machine.execBufferAllocation w p s) := .next h.allocIngress
theorem execFrameEnd (h : Keeps s₀ s) {w p codeError} : KeepsRes s₀ (Machine.execFrameEnd w p codeError s) := .next h.frameEnds
theorem execLinkUp (h : Keeps s₀ s) {w p partnerSpeed} : KeepsRes s₀ (Machine.execLinkUp w p partnerSpeed s) := .next h.linkRises
theorem execLinkDown (h : Keeps s₀ s) {w p localFault remoteFault} : KeepsRes s₀ (Machine.execLinkDown w p localFault remoteFault s) :=
  .next h.linkFalls
theorem execBwWindowEnd (h : Keeps s₀ s) {w p} : KeepsRes s₀ (Machine.execBwWindowEnd w p s) := .next h.bwEnds
theorem execTxtsInfoRead (h : Keeps s₀ s) {a w p} : KeepsRes s₀ (Machine.execTxtsInfoRead a w p s) :=
  .ite (.next h.txtsRead.answer) (.next h.answer)

/-! ### The functions of Machine/Time -/
theorem updClock (h : Keeps s₀ s) {w f} : Keeps s₀ (s.updClock w f) := h.updWy
theorem stepTo (h : Keeps s₀ s) {w ns set} : Keeps s₀ (s.stepTo w ns set) :=
  .each (.each (.maybe h.updClock.count.raiseBit (fun h => .maybe h (fun h => h.record.count))) (fun _ _ h => h.gateRefresh)) (fun _ _ h =>
    h.bwCutShort)
theorem endSlew (h : Keeps s₀ s) {w} : Keeps s₀ (s.endSlew w) := h.updClock
theorem timeCmdSet (h : Keeps s₀ s) {w} : Keeps s₀ (s.timeCmdSet w) := .ite h h.endSlew.updClock.stepTo
theorem timeCmdStep (h : Keeps s₀ s) {w} : Keeps s₀ (s.timeCmdStep w) := .ite h h.endSlew.stepTo
theorem timeCmdSlew (h : Keeps s₀ s) {w} : Keeps s₀ (s.timeCmdSlew w) := .ite h (.ite h.endSlew h.endSlew.updClock)
theorem timeCmd (h : Keeps s₀ s) {w code} : Keeps s₀ (s.timeCmd w code) := by
  unfold State.timeCmd
  split
  · exact h.timeCmdSet
  · exact h.timeCmdStep
  · exact h.timeCmdSlew
  · exact h
theorem followWythe0 (h : Keeps s₀ s) : Keeps s₀ s.followWythe0 := .ite h.stepTo h
theorem ppsEdge (h : Keeps s₀ s) : Keeps s₀ s.ppsEdge := .each h (fun _ _ h => h.updClock.count.raiseBit)
theorem ppsRise (h : Keeps s₀ s) : Keeps s₀ s.ppsRise := .ite h.emit.updClock h
theorem clocksTick (h : Keeps s₀ s) : Keeps s₀ s.clocksTick := h.updClock.updClock
theorem execTimeSet (h : Keeps s₀ s) {a w} : KeepsRes s₀ (Machine.execTimeSet a w s) := .next (.viaPage h (fun _ h => h.timeCmdSet))
theorem execStepTime (h : Keeps s₀ s) {a w} : KeepsRes s₀ (Machine.execStepTime a w s) := .next (.viaPage h (fun _ h => h.timeCmdStep))
theorem execSlew (h : Keeps s₀ s) {a w} : KeepsRes s₀ (Machine.execSlew a w s) := .next (.viaPage h (fun _ h => h.timeCmdSlew))
theorem execSlewEnd (h : Keeps s₀ s) {w} : KeepsRes s₀ (Machine.execSlewEnd w s) := .next (.ite h.updClock h)
theorem execFollowStep (h : Keeps s₀ s) : KeepsRes s₀ (Machine.execFollowStep s) := .next h.followWythe0
theorem execSrcLost (h : Keeps s₀ s) {w} : KeepsRes s₀ (Machine.execSrcLost w s) := .next (.ite h.updClock.raiseBit h)
theorem execPtpclkReturn (h : Keeps s₀ s) {w} : KeepsRes s₀ (Machine.execPtpclkReturn w s) := .next (.ite h.updClock h)
theorem execPpsIn (h : Keeps s₀ s) : KeepsRes s₀ (Machine.execPpsIn s) := .next h.ppsEdge
theorem execPpsOut (h : Keeps s₀ s) : KeepsRes s₀ (Machine.execPpsOut s) := .next h.ppsRise

/-! ### The functions of Machine/Tables -/
theorem setTables (h : Keeps s₀ s) {w f} : Keeps s₀ (s.setTables w f) := h.updTables
theorem countTable (h : Keeps s₀ s) {w t i} : Keeps s₀ (s.countTable w t i) := by
  unfold State.countTable
  split
  · exact h.count
  · exact h
theorem tableEcc (h : Keeps s₀ s) {w t ecc} : Keeps s₀ (s.tableEcc w t ecc) := by
  unfold State.tableEcc
  split
  · exact h.countTable
  · exact h.countTable.draw.wr.raiseBit
  · exact h
theorem trieLook (h : Keeps s₀ s) {w v6 a n ecc} : Keeps s₀ (s.trieLook w v6 a n ecc).2 := by
  unfold State.trieLook
  refine .ite2 h.count.tableEcc.count ?_
  dsimp only
  split
  · exact h.count.tableEcc.count
  · exact .ite2 h.count.tableEcc.count h.count.tableEcc.count
theorem learnRequest (h : Keeps s₀ s) {w r err} : Keeps s₀ (s.learnRequest w r err).2 :=
  .ite2 h.count (.ite2 h.count (.ite2 h.count h.setTables))
theorem learnLook (h : Keeps s₀ s) {w r learn refresh ecc} : Keeps s₀ (s.learnLook w r learn refresh ecc).2.2 := by
  unfold State.learnLook
  dsimp only
  split
  · exact .ite3 h.count.tableEcc.learnRequest h.count.tableEcc
  · exact .ite3 h.count.tableEcc.learnRequest h.count.tableEcc
  · exact .onlyIf h.count.tableEcc.setTables.count (fun _ h => h.count)
theorem indexLook (h : Keeps s₀ s) {w i bornView ecc} : Keeps s₀ (s.indexLook w i bornView ecc).2 := by
  unfold State.indexLook
  dsimp only
  split
  · exact h.count.tableEcc
  · exact h.count.tableEcc.count
  · exact h.count.tableEcc
theorem learnServe (h : Keeps s₀ s) {w ecc} : Keeps s₀ (s.learnServe w ecc) := by
  unfold State.learnServe
  dsimp only
  split
  · exact h
  · split
    · exact h.setTables.tableEcc.setTables
    · refine .ite h.setTables.tableEcc.count ?_
      split
      · exact h.setTables.tableEcc.setTables.count
      · exact h.setTables.tableEcc.count
theorem epochNext (h : Keeps s₀ s) {w} : Keeps s₀ (s.epochNext w) := .ite h h.setTables
theorem agerVisit (h : Keeps s₀ s) {w ecc} : Keeps s₀ (s.agerVisit w ecc) := by
  unfold State.agerVisit
  dsimp only
  split
  · exact h
  · exact .ite h h.tableEcc.setTables.count
theorem ageCfgWritten (h : Keeps s₀ s) {w} : Keeps s₀ (s.ageCfgWritten w) := .ite h h.setTables
theorem fail (h : Keeps s₀ s) {code} : Keeps s₀ (State.fail code s).2 := h
theorem trieWrite (h : Keeps s₀ s) {w staged op v6 a len hop} : Keeps s₀ (s.trieWrite w staged op v6 a len hop).2 := by
  unfold State.trieWrite
  dsimp only
  split
  · exact .ite2 h.fail (.ite2 h.fail h.setTables)
  · exact .ite2 h.fail (.ite2 h.setTables (.ite2 h.fail h.setTables))
theorem trieCmd (h : Keeps s₀ s) {w c} : Keeps s₀ (s.trieCmd w c).2 := by
  unfold State.trieCmd
  refine .ite2 h.fail ?_
  refine .ite2 h.fail ?_
  refine .ite2 ?_ ?_
  · dsimp only
    split
    · exact h
    · exact h.fail
  · refine .ite2 ?_ ?_
    · dsimp only
      split
      · exact h
      · exact h.fail
    · refine .ite2 ?_ (.ite2 h.fail h.trieWrite)
      dsimp only
      split
      · exact h
      · exact h.fail
theorem learnCmd (h : Keeps s₀ s) {w c} : Keeps s₀ (s.learnCmd w c).2 := by
  unfold State.learnCmd
  dsimp only
  split
  · refine .ite2 h.fail (.ite2 ?_ ?_)
    · split
      · exact .ite2 h h.fail
      · exact h.fail
    · split
      · exact h
      · exact h.fail
  · refine .ite2 ?_ (.ite2 h.fail ?_)
    · split
      · exact h
      · exact h.fail
    · split
      · exact h.fail
      · split
        · exact h.setTables
        · exact h.fail
      · exact h.setTables
      · split
        · exact h.setTables
        · exact h.fail
      · split
        · exact h.setTables
        · exact h.fail
theorem indexWrite (h : Keeps s₀ s) {w staged op i b} : Keeps s₀ (s.indexWrite w staged op i b).2 :=
  .ite2 (.ite2 (.ite2 h h.setTables) (.ite2 h (.ite2 h.count h.setTables))) (.ite2 (.ite2 h h.setTables) (.ite2 h h.setTables))
theorem indexCmd (h : Keeps s₀ s) {w c} : Keeps s₀ (s.indexCmd w c).2 := by
  unfold State.indexCmd
  refine .ite2 h.fail ?_
  refine .ite2 ?_ ?_
  · split
    · exact h
    · exact h.fail
  · refine .ite2 ?_ (.ite2 h.indexWrite h.indexWrite.fail)
    split
    · exact h
    · exact h.fail
theorem exactCmd (h : Keeps s₀ s) {w slot cfg c} : Keeps s₀ (s.exactCmd w slot cfg c).2 := by
  unfold State.exactCmd
  dsimp only
  refine .ite2 h.fail (.ite2 h.fail (.ite2 ?_ (.ite2 h.fail ?_)))
  · split
    · exact h
    · exact h.fail
  · split
    · exact h.fail
    · split
      · exact h.setTables
      · exact h.fail
    · exact h.setTables
    · split
      · exact h.setTables
      · exact h.fail
    · split
      · exact h.setTables
      · exact h.fail
theorem ternCmd (h : Keeps s₀ s) {w cfg base c} : Keeps s₀ (s.ternCmd w cfg base c).2 := by
  unfold State.ternCmd
  refine .ite2 h.fail ?_
  refine .ite2 h.fail ?_
  refine .ite2 ?_ ?_
  · dsimp only
    split
    · exact .ite2 h h.fail
    · exact h.fail
  · refine .ite2 ?_ ?_
    · dsimp only
      split
      · exact h
      · exact h.fail
    · refine .ite2 ?_ (.ite2 h.fail (.ite2 h.fail h.setTables))
      dsimp only
      split
      · exact h.fail
      · exact .ite2 h.fail (.ite2 h.setTables h.setTables)
theorem runCmd (h : Keeps s₀ s) {w t c} : Keeps s₀ (s.runCmd w t c).2 := by
  unfold State.runCmd
  refine .ite2 h.fail ?_
  split
  · exact h.trieCmd
  · exact h.learnCmd
  · exact h.indexCmd
  · exact .ite2 h.exactCmd (.ite2 h.ternCmd h.fail)
theorem updWindow (h : Keeps s₀ s) {w t f} : Keeps s₀ (s.updWindow w t f) := h.setTables
theorem journal (h : Keeps s₀ s) {b} : Keeps s₀ (s.journal b) := h.withForme
theorem acceptCmd (h : Keeps s₀ s) {w t op tag quiet} : Keeps s₀ (s.acceptCmd w t op tag quiet) :=
  .ite h (.ite h.updWindow.countTable (.ite h.updWindow.journal h.updWindow))
theorem completeCmd (h : Keeps s₀ s) {w t c a} : Keeps s₀ (s.completeCmd w t c a) := .ite h.countTable h.countTable.updWindow
theorem popCmd (h : Keeps s₀ s) {w t ecc} : Keeps s₀ (s.popCmd w t ecc) := by
  unfold State.popCmd
  split
  · exact h
  · exact .ite h.updWindow.tableEcc.completeCmd h.updWindow.tableEcc.runCmd.completeCmd
theorem execCmd (h : Keeps s₀ s) {w t ecc} : Keeps s₀ (s.execCmd w t ecc) := .ite h h.popCmd
theorem abortCmds (h : Keeps s₀ s) {w t p} : Keeps s₀ (s.abortCmds w t p) := .each h.updWindow (fun _ _ h => h.completeCmd)
theorem tableAbortAll (h : Keeps s₀ s) {w t} : Keeps s₀ (s.tableAbortAll w t) := .ite h.abortCmds.count.setTables h.abortCmds
theorem caseAbortAll (h : Keeps s₀ s) {w} : Keeps s₀ (s.caseAbortAll w) := .each h (fun _ _ h => h.abortCmds)
theorem settle (h : Keeps s₀ s) {w dropDying} : Keeps s₀ (s.settle w dropDying) := h.setTables
theorem sweepTables (h : Keeps s₀ s) {w} : Keeps s₀ (s.sweepTables w) := h.settle.setTables
theorem abandonTables (h : Keeps s₀ s) {w} : Keeps s₀ (s.abandonTables w) := h.settle.setTables
theorem rootCopied (h : Keeps s₀ s) {w} : Keeps s₀ (s.rootCopied w) := h.setTables
theorem flushWindow (h : Keeps s₀ s) {w t} : Keeps s₀ (s.flushWindow w t) := .each h (fun _ _ h => .onlyIf h (fun _ h => h.popCmd))
theorem flushSession (h : Keeps s₀ s) {w} : Keeps s₀ (s.flushSession w) :=
  .each (.onlyIf h (fun _ h => h.rootCopied)) (fun _ _ h => h.flushWindow)
theorem switchTrie (h : Keeps s₀ s) {w copied} : Keeps s₀ (s.switchTrie w copied) := .setTables (.ite h h.rootCopied)
theorem cmdRow (h : Keeps s₀ s) {w t op tag quiet} : Keeps s₀ (Machine.cmdRow w t op tag quiet s) := .viaPage h (fun _ h => h.acceptCmd)
theorem execRead (h : Keeps s₀ s) {w t tag quiet} : KeepsRes s₀ (Machine.execRead w t tag quiet s) := .next h.cmdRow
theorem execWrite (h : Keeps s₀ s) {w t tag quiet} : KeepsRes s₀ (Machine.execWrite w t tag quiet s) := .next h.cmdRow
theorem execInsert (h : Keeps s₀ s) {w t tag quiet} : KeepsRes s₀ (Machine.execInsert w t tag quiet s) := .next h.cmdRow
theorem execDelete (h : Keeps s₀ s) {w t tag quiet} : KeepsRes s₀ (Machine.execDelete w t tag quiet s) := .next h.cmdRow
theorem execSearch (h : Keeps s₀ s) {w t tag quiet} : KeepsRes s₀ (Machine.execSearch w t tag quiet s) := .next h.cmdRow
theorem execNextCmd (h : Keeps s₀ s) {w t tag quiet} : KeepsRes s₀ (Machine.execNextCmd w t tag quiet s) := .next h.cmdRow
theorem execCommandExecution (h : Keeps s₀ s) {w t ecc} : KeepsRes s₀ (Machine.execCommandExecution w t ecc s) := .next h.execCmd
theorem execRespNext (h : Keeps s₀ s) {w t} : KeepsRes s₀ (Machine.execRespNext w t s) := .next (.viaPage h (fun _ h => .ite h.updWindow h))
theorem execLearnRequestService (h : Keeps s₀ s) {w ecc} : KeepsRes s₀ (Machine.execLearnRequestService w ecc s) :=
  .next (.ite h.learnServe h)
theorem execEpochChange (h : Keeps s₀ s) {w} : KeepsRes s₀ (Machine.execEpochChange w s) := .next h.epochNext
theorem execAgerVisit (h : Keeps s₀ s) {w ecc} : KeepsRes s₀ (Machine.execAgerVisit w ecc s) := .next h.agerVisit
theorem execTrieRootCopyEnd (h : Keeps s₀ s) {w} : KeepsRes s₀ (Machine.execTrieRootCopyEnd w s) := .next (.ite h.rootCopied h)

/-! ### The functions of Machine/Compositor -/
theorem caseLook (h : Keeps s₀ s) {w slot cfg forme key ecc} : Keeps s₀ (s.caseLook w slot cfg forme key ecc).2 := by
  unfold State.caseLook
  dsimp only
  split
  · exact .ite2 h h
  · exact .ite2 h h
  · exact h.indexLook
theorem casePass (h : Keeps s₀ s) {w parity corrected fuel slot run hit n e} :
    Keeps s₀ (State.casePass w parity corrected fuel slot run hit n e s).2.2 := by
  induction fuel generalizing s slot run hit n e with
  | zero => exact h
  | succ fuel ih =>
    have h1 {c : Prop} {_ : Decidable c} {r : Option Bytes × State} (hr : Keeps s₀ r.2) {a} :
        Keeps s₀ (if c then r.2 else r.2.count a 1) := .ite hr hr.count
    exact .ite3 (h1 (.ite2 h h.caseLook)) (.ite3 (h1 (.ite2 h h.caseLook)) (ih (h1 (.ite2 h h.caseLook))))
theorem setEntry (h : Keeps s₀ s) {w e} : Keeps s₀ (s.setEntry w e) := h.updComp
theorem compIntake (h : Keeps s₀ s) {w p} : Keeps s₀ (s.compIntake w p) := by
  unfold State.compIntake
  split
  · exact h
  · exact .ite h h.updRx.updComp
theorem slugRelease (h : Keeps s₀ s) {w e} : Keeps s₀ (s.slugRelease w e) := by
  unfold State.slugRelease
  split
  · exact h
  · exact .ite h (.ite (.ite h.compDiscard.updComp.rxFree.drop.count.delRx h.compDiscard.updComp.rxFree.drop.count.updRx) (.onlyIf (.onlyIf
    (.onlyIf (.count (.count (.ite h.compDiscard.updComp.updColl.updCourse.updRx h.compDiscard.updComp.updColl.updCourse.delRx))) (fun _ h
    => h.count)) (fun _ h => h.count)) (fun _ h => h.raiseBit)))
theorem spreadEnd (h : Keeps s₀ s) {w p parity corrected} : Keeps s₀ (s.spreadEnd w p parity corrected) := by
  unfold State.spreadEnd
  split
  · exact h
  · refine .ite h ?_
    split
    · exact h
    · dsimp only
      split
      · exact .ite (.count (.setEntry (.ite3 h h.casePass))) (.maybe (.count (.setEntry (.ite3 h h.casePass))) (fun h => h.slugRelease))
      · exact .maybe (.setEntry (.ite3 h h.casePass)) (fun h => h.slugRelease)
theorem compAbort (h : Keeps s₀ s) {w} : Keeps s₀ (s.compAbort w) :=
  .each h (fun _ _ h => by split; exacts [h.compDiscard, .ite h.compDiscard.rxFree.drop.count.delRx h.compDiscard.rxFree.drop.count.updRx])
theorem stallTick (h : Keeps s₀ s) {w} : Keeps s₀ (s.stallTick w) := .onlyIf (.onlyIf h (fun _ h => h.count)) (fun _ h => h.count)
theorem execCompositorIntake (h : Keeps s₀ s) {w p} : KeepsRes s₀ (Machine.execCompositorIntake w p s) := .next h.compIntake
theorem execSpreadingEnd (h : Keeps s₀ s) {w p parity corrected} : KeepsRes s₀ (Machine.execSpreadingEnd w p parity corrected s) :=
  .next h.spreadEnd
theorem execRecirculation (h : Keeps s₀ s) {w p} : KeepsRes s₀ (Machine.execRecirculation w p s) := by
  unfold Machine.execRecirculation
  refine .next ?_
  split
  · exact .ite h h.setEntry
  · exact h
theorem execSlugRelease (h : Keeps s₀ s) {w p} : KeepsRes s₀ (Machine.execSlugRelease w p s) := by
  unfold Machine.execSlugRelease
  refine .next ?_
  split
  · exact h.slugRelease
  · exact h

/-! ### The functions of Machine/Collator -/
theorem dropRefs (h : Keeps s₀ s) {w sl v} : Keeps s₀ (s.dropRefs w sl v) :=
  .onlyIf (.each h (fun _ _ h => h.refDown)) (fun _ h => h.refDown)
theorem freeSlot (h : Keeps s₀ s) {w i} : Keeps s₀ (s.freeSlot w i) := h.updColl
theorem leaveOrder (h : Keeps s₀ s) {w d i} : Keeps s₀ (s.leaveOrder w d i) := h.updColl
theorem discardDone (h : Keeps s₀ s) {w i x} : Keeps s₀ (s.discardDone w i x) := h.refDown.count.freeSlot.flightDone
theorem passDiscarded (h : Keeps s₀ s) {w d n} : Keeps s₀ (State.passDiscarded w d n s) := by
  induction n generalizing s with
  | zero => exact h
  | succ n ih =>
    unfold State.passDiscarded
    split
    · exact .ite (ih h.leaveOrder.discardDone) h
    · exact h
theorem turnPasses (h : Keeps s₀ s) {w d i} : Keeps s₀ (s.turnPasses w d i) := h.leaveOrder.passDiscarded
theorem discardSlot (h : Keeps s₀ s) {w i serial} : Keeps s₀ (s.discardSlot w i serial) := by
  unfold State.discardSlot
  split
  · exact h
  · refine .ite h ?_
    split
    · exact h.updColl.passDiscarded
    · exact h.discardDone
    · exact h
theorem verdictArrives (h : Keeps s₀ s) {w i} : Keeps s₀ (s.verdictArrives w i) := by
  unfold State.verdictArrives
  split
  · exact h
  · dsimp only
    split
    · exact h.updColl.count
    · split
      · exact h.updColl.count
      · refine .ite h.updColl.count ?_
        split
        · exact h.updColl.updColl
        · exact h.updColl.count
        · exact h.updColl.count
        · exact .raiseBit (.drop (.count (.flightDone (.freeSlot (.ite h.updColl h.updColl.dropRefs)))))
theorem sendCopies (h : Keeps s₀ s) {w x v} : Keeps s₀ (s.sendCopies w x v) :=
  .ite h.count.drop.dropRefs.flightDone (.orElse (.each (.updColl (.onlyIf (.each (.onlyIf h (fun _ h => h.count)) (fun _ _ h => h.refUp))
    (fun _ h => h.refDown))) (fun _ _ h => .ite h.releaseSegs.flightDone.drop h.pressArrive)) (fun h => .ite h.releaseSegs.flightDone.drop
    h.updTie))
theorem release (h : Keeps s₀ s) {w d} : Keeps s₀ (s.release w d) := by
  unfold State.release
  split
  · exact h
  · split
    · extract_lets crosses s1 s2
      have h1 : Keeps s₀ s1 := h.updColl.count.freeSlot
      have h2 : Keeps s₀ s2 := by
        unfold s2
        split
        · exact h1.count.drop.refDown.flightDone
        · exact h1.count.flightDone
        · exact .ite h1.count.drop.dropRefs.flightDone h1.sendCopies
      exact .ite h (.ite h.updColl h2.turnPasses)
    · exact h
theorem skipHead (h : Keeps s₀ s) {w d} : Keeps s₀ (s.skipHead w d) := by
  unfold State.skipHead
  split
  · exact h
  · exact .ite h h.updColl.count.count.raiseBit.turnPasses
theorem collAbort (h : Keeps s₀ s) {w} : Keeps s₀ (s.collAbort w) :=
  .each h.updColl (fun _ _ h => .flightDone (.drop (.count (.refDown (by split; exacts [.each h (fun _ _ h => h.refDown), h])))))
theorem collDrain (h : Keeps s₀ s) {w forme} : Keeps s₀ (s.collDrain w forme) := .each h (fun _ _ h => by
  dsimp only
  split
  · exact h.discardDone.drop
  · exact .turnPasses (.drop (.flightDone (.freeSlot (.ite h h.dropRefs))))
  · exact h)
theorem execVerdictArrival (h : Keeps s₀ s) {w i} : KeepsRes s₀ (Machine.execVerdictArrival w i s) := .next h.verdictArrives
theorem execDescriptorRelease (h : Keeps s₀ s) {w d} : KeepsRes s₀ (Machine.execDescriptorRelease w d s) := .next h.release
theorem execSkip (h : Keeps s₀ s) {w d} : KeepsRes s₀ (Machine.execSkip w d s) := .next h.skipHead

/-! ### The functions of Machine/Datestone -/
theorem takeSlot (h : Keeps s₀ s) {w b} : Keeps s₀ (s.takeSlot w b) :=
  .maybe (.ite h.updDs h.updDs.count.raiseBit) (fun h => h.raiseBit.notice)
theorem appendNotice (h : Keeps s₀ s) {w type} : Keeps s₀ (s.appendNotice w type) := by
  unfold State.appendNotice
  split
  · exact h.notice
  · exact h.notice
  · exact h.notice
  · exact h.notice
  · exact h
theorem appendRecord (h : Keeps s₀ s) {w type subject time payload off missed} :
    Keeps s₀ (s.appendRecord w type subject time payload off missed) :=
  h.updDs.takeSlot.count.appendNotice
theorem appendSeal (h : Keeps s₀ s) {w reason missed} : Keeps s₀ (s.appendSeal w reason missed) :=
  .updDs (.takeSlot (.takeSlot (.appendRecord (.ite h h.appendRecord.updDs))))
theorem refillIntake (h : Keeps s₀ s) {w} : Keeps s₀ (s.refillIntake w) := by
  unfold State.refillIntake
  split
  · exact h
  · exact .ite h.updDs h
theorem periodicSeal (h : Keeps s₀ s) {w} : Keeps s₀ (s.periodicSeal w) := .ite h h.sealReq
theorem appendNext (h : Keeps s₀ s) {w} : Keeps s₀ (s.appendNext w) := by
  unfold State.appendNext
  dsimp only
  split
  · exact h.updDs.appendRecord.periodicSeal.refillIntake
  · exact .ite h h.updDs.appendSeal.refillIntake
  · exact h
theorem drawScalar (h : Keeps s₀ s) : Keeps s₀ s.drawScalar.2 := h.withFree
theorem attachSeal (h : Keeps s₀ s) {w} : Keeps s₀ (s.attachSeal w) := by
  unfold State.attachSeal
  split
  · exact h
  · exact h.drawScalar.updDs.count.raiseBit.notice
theorem exportFrom (h : Keeps s₀ s) {w slot} : Keeps s₀ (s.exportFrom w slot) := h.wr.updDs.count
theorem exportAcked (h : Keeps s₀ s) {w slot} : Keeps s₀ (s.exportAcked w slot) := .ite h.wr.updDs.raiseBit.notice h.wr.updDs
theorem snapOne (h : Keeps s₀ s) {w all kind index ctrs tail} : Keeps s₀ (s.snapOne w all kind index ctrs tail) := .ite h.record h
theorem snapStream (h : Keeps s₀ s) {w all k stream} : Keeps s₀ (s.snapStream w all k stream) := h.snapOne
theorem snapRound (h : Keeps s₀ s) {w all} : Keeps s₀ (s.snapRound w all) :=
  .updDs (.snapOne (.each (.each (.each (.each h (fun _ _ h => h.snapOne)) (fun _ _ h => .ite h.snapStream h)) (fun _ _ h => .each h (fun _
    _ h => h.snapOne))) (fun _ _ h => h.snapOne)))
theorem drawChallenge (h : Keeps s₀ s) : Keeps s₀ s.drawChallenge := h.withFree.updDs
theorem execSealReq (h : Keeps s₀ s) {a w} : KeepsRes s₀ (Machine.execSealReq a w s) := .next (.viaPage h (fun _ h => h.sealReq))
theorem execExportBase (h : Keeps s₀ s) {a w slot} : KeepsRes s₀ (Machine.execExportBase a w slot s) :=
  .next (.viaPage h (fun _ h => h.exportFrom))
theorem execExportAck (h : Keeps s₀ s) {a w slot} : KeepsRes s₀ (Machine.execExportAck a w slot s) :=
  .next (.viaPage h (fun _ h => h.exportAcked))
theorem execWitnessSnapRound (h : Keeps s₀ s) {w} : KeepsRes s₀ (Machine.execWitnessSnapRound w s) := .next (.ite h.snapRound h)
theorem execChallengeRead (h : Keeps s₀ s) {a} : KeepsRes s₀ (Machine.execChallengeRead a s) := .next (.ite h.drawChallenge.answer h.answer)

/-! ### The functions of Machine/Dram -/
theorem updDram (h : Keeps s₀ s) {w f} : Keeps s₀ (s.updDram w f) := h.updWy
theorem updCh (h : Keeps s₀ s) {w c f} : Keeps s₀ (s.updCh w c f) := h.updDram
theorem dramCfgStore (h : Keeps s₀ s) {w v} : Keeps s₀ (s.dramCfgStore w v) := h.wr.noteClamp.withKeep
theorem dramAccept (h : Keeps s₀ s) {w u} : Keeps s₀ (s.dramAccept w u) := by
  unfold State.dramAccept
  refine .ite h ?_
  refine .ite ?_ (.onlyIf h.updCh (fun _ h => h.count))
  refine .ite h.updCh ?_
  dsimp only
  split
  · exact h.updCh.count
  · exact h.updCh.count.count
  · exact h.updCh.count.dramUncorrectable.updCh
theorem dramServe (h : Keeps s₀ s) {w c} : Keeps s₀ (s.dramServe w c) := by
  unfold State.dramServe
  refine .ite h ?_
  split
  · exact h
  · exact h.updCh.count
theorem mr4Read (h : Keeps s₀ s) {w c code} : Keeps s₀ (s.mr4Read w c code) :=
  .ite h (.onlyIf (.onlyIf h.updCh (fun _ h => h.raiseBit)) (fun _ h => h.raiseBit))
theorem mr4Poll (h : Keeps s₀ s) {w codes} : Keeps s₀ (s.mr4Poll w codes) := .ite h (.each h.updDram (fun _ _ h => h.mr4Read))
theorem dramRefresh (h : Keeps s₀ s) {w c} : Keeps s₀ (s.dramRefresh w c) := .ite h h.updCh
theorem refreshLate (h : Keeps s₀ s) {w c} : Keeps s₀ (s.refreshLate w c) := .onlyIf h (fun _ h => h.updCh)
theorem retrainLane (h : Keeps s₀ s) {w c lane window r wr} : Keeps s₀ (s.retrainLane w c lane window r wr) :=
  .ite h.count.updCh.raiseBit (.orElse h.count.updCh.updCh (fun h => h.count.withKeep))
theorem retrainMark (h : Keeps s₀ s) {w c} : Keeps s₀ (s.retrainMark w c) := h.updCh
theorem retrainPause (h : Keeps s₀ s) {w c} : Keeps s₀ (s.retrainPause w c) := h.dramRefresh.draw.updCh
theorem retrainPeriod (h : Keeps s₀ s) {w c lane window r wr} : Keeps s₀ (s.retrainPeriod w c lane window r wr) :=
  .ite h (.onlyIf (.retrainLane (.retrainPause (.ite h.retrainMark h))) (fun _ h => h.draw.updCh))
theorem retrainDrift (h : Keeps s₀ s) {w c lane window r wr temp} : Keeps s₀ (s.retrainDrift w c lane window r wr temp) :=
  .ite h (.updCh (.retrainLane (.retrainPause (.ite h.retrainMark h))))
theorem dramPlumb (h : Keeps s₀ s) {w entering} : Keeps s₀ (s.dramPlumb w entering) :=
  .maybe (.onlyIf h (fun _ h => h.raiseBit)) (fun h => .each h (fun _ _ h => h.updCh))
theorem enterMode (h : Keeps s₀ s) {w m} : Keeps s₀ (s.enterMode w m) :=
  .ite h (.onlyIf (.maybe (.count (.raiseBit (.each (.updWy (.onlyIf h (fun _ h => .each h (fun _ _ h => h.updCore)))) (fun _ _ h =>
    h.interrupt)))) (fun h => h.withModes)) (fun _ h => h.dramPlumb))
theorem execMr4Poll (h : Keeps s₀ s) {w codes} : KeepsRes s₀ (Machine.execMr4Poll w codes s) := .next h.mr4Poll
theorem execRefresh (h : Keeps s₀ s) {w ch} : KeepsRes s₀ (Machine.execRefresh w ch s) := .next h.dramRefresh
theorem execRetrainPeriod (h : Keeps s₀ s) {w ch lane window rd wr} : KeepsRes s₀ (Machine.execRetrainPeriod w ch lane window rd wr s) :=
  .next h.retrainPeriod
theorem execRetrainDrift (h : Keeps s₀ s) {w ch lane window rd wr temp} :
    KeepsRes s₀ (Machine.execRetrainDrift w ch lane window rd wr temp s) :=
  .next h.retrainDrift
theorem execDramRequest (h : Keeps s₀ s) {w u} : KeepsRes s₀ (Machine.execDramRequest w u s) := .next h.dramAccept
theorem execDramCfgWrite (h : Keeps s₀ s) {a w value} : KeepsRes s₀ (Machine.execDramCfgWrite a w value s) :=
  .next (.viaPage h (fun _ h => h.dramCfgStore))

/-! ### The functions of Machine/Tie -/
theorem dropTargets (h : Keeps s₀ s) {w t cause} : Keeps s₀ (s.dropTargets w t cause) := .each h (fun _ _ h => h.drop)
theorem tieOriginal (h : Keeps s₀ s) {t} : Keeps s₀ (s.tieOriginal t) := h.releaseSegs.flightDone
theorem tieArrive (h : Keeps s₀ s) {w} : Keeps s₀ (s.tieArrive w) := by
  unfold State.tieArrive
  dsimp only
  split
  · exact h
  · refine .ite h ?_
    split
    · exact h
    · next e => exact (of_eq e h.alloc).updTie.count.count.dropTargets.tieOriginal
    · next e => exact (of_eq e h.alloc).updTie.count.count.refUp.updColl.updTie
theorem tieFree (h : Keeps s₀ s) {w t} : Keeps s₀ (s.tieFree w t) := .updColl (.each h (fun _ _ h => h.refDown))
theorem tieComplete (h : Keeps s₀ s) {w} : Keeps s₀ (s.tieComplete w) := by
  unfold State.tieComplete
  split
  · exact h
  · exact .ite h.updTie.tieOriginal.tieFree.dropTargets (.each h.updTie.tieOriginal.setBufBytes (fun _ _ h => h.pressArrive))
theorem tieFalls (h : Keeps s₀ s) {w why} : Keeps s₀ (s.tieFalls w why) :=
  .maybe (.record (.raiseBit (.count (.each (.each h.updTie (fun _ _ h => h.tieOriginal.drop)) (fun _ _ h =>
    h.tieOriginal.tieFree.drop.count))))) (fun h => h.withModes)
theorem enterHalf (h : Keeps s₀ s) {w} : Keeps s₀ (s.enterHalf w) := .ite h.updWy.enterMode h
theorem loseTie (h : Keeps s₀ s) {w why} : Keeps s₀ (s.loseTie w why) := .ite h h.tieFalls.enterHalf
theorem skewFound (h : Keeps s₀ s) {a b temperature} : Keeps s₀ (s.skewFound a b temperature) :=
  .loseTie (.loseTie (.each h (fun _ _ h => h.updTie.raiseBit)))
theorem attempt (h : Keeps s₀ s) {w} : Keeps s₀ (s.attempt w) := h.updTie
theorem rejoinWritten (h : Keeps s₀ s) {w} : Keeps s₀ (s.rejoinWritten w) := .ite h (.ite h.attempt.updTie (.ite h h.attempt))
theorem rejoinComplete (h : Keeps s₀ s) : Keeps s₀ s.rejoinComplete :=
  .each (.orElse (.each h (fun _ _ h => .ite h.updTie.enterMode h.updTie)) (fun h => h.stepTo)) (fun _ _ h => h.record.snapRound.raiseBit)
theorem shareLifecycle (h : Keeps s₀ s) : Keeps s₀ s.shareLifecycle :=
  .ite h.updDs (.notice (.raiseBit (.ite h.record.sealReq.updDs h.updDs.record.sealReq)))
theorem swapSequence (h : Keeps s₀ s) : Keeps s₀ s.swapSequence := h.updTie.updTie
theorem tieLinks (h : Keeps s₀ s) : Keeps s₀ s.tieLinks :=
  .ite h (.ite (.rejoinComplete (.swapSequence (.shareLifecycle (.each h (fun _ _ h => h.updTie))))) (.each (.swapSequence (.shareLifecycle
    (.each h (fun _ _ h => h.updTie)))) (fun _ _ h => h.updTie.raiseBit)))
theorem execTieCopyArrival (h : Keeps s₀ s) {w} : KeepsRes s₀ (Machine.execTieCopyArrival w s) := .next h.tieArrive
theorem execTieCopyComplete (h : Keeps s₀ s) {w} : KeepsRes s₀ (Machine.execTieCopyComplete w s) := .next h.tieComplete
theorem execRegionSkew (h : Keeps s₀ s) {regionA regionB temperature diffs} :
    KeepsRes s₀ (Machine.execRegionSkew regionA regionB temperature diffs s) :=
  .next (.onlyIf h (fun _ h => h.skewFound))
theorem execTieRetrain (h : Keeps s₀ s) {w} : KeepsRes s₀ (Machine.execTieRetrain w s) := .next (.ite h h.updTie.count)
theorem execTieRetrainEnd (h : Keeps s₀ s) {w} : KeepsRes s₀ (Machine.execTieRetrainEnd w s) := .next (.onlyIf h (fun _ h => h.updTie))
theorem execTieLost (h : Keeps s₀ s) {w} : KeepsRes s₀ (Machine.execTieLost w s) := .next (.onlyIf h (fun _ h => h.loseTie))
theorem execIsolate (h : Keeps s₀ s) {a w} : KeepsRes s₀ (Machine.execIsolate a w s) := .next (.viaPage h (fun _ h => h.loseTie))
theorem execRejoin (h : Keeps s₀ s) {a w} : KeepsRes s₀ (Machine.execRejoin a w s) := .next (.viaPage h (fun _ h => h.rejoinWritten))
theorem execRejoinAttempt (h : Keeps s₀ s) {w} : KeepsRes s₀ (Machine.execRejoinAttempt w s) := .next (.onlyIf h (fun _ h => h.attempt))
theorem execFlitRetry (h : Keeps s₀ s) {w} : KeepsRes s₀ (Machine.execFlitRetry w s) := .next (.onlyIf h (fun _ h => h.count))
theorem execSequenceExchange (h : Keeps s₀ s) : KeepsRes s₀ (Machine.execSequenceExchange s) :=
  .next (.onlyIf h (fun _ h => h.swapSequence))

/-! ### The functions of Machine/Mason -/
theorem unquiet (h : Keeps s₀ s) {w c} : Keeps s₀ (s.unquiet w c) := h.updCourse
theorem setCtxState (h : Keeps s₀ s) {x st} : Keeps s₀ (s.setCtxState x st) :=
  .onlyIf (.onlyIf (.onlyIf (by split; exacts [h.updCtx.updTcb, h.updCtx]) (fun _ h => h.interrupt)) (fun _ h => h.unquiet)) (fun _ h =>
    h.raiseBit)
theorem recordFault (h : Keeps s₀ s) {x code addr} : Keeps s₀ (s.recordFault x code addr) := by
  unfold State.recordFault
  exact h.wr.wr.count.pmc
theorem lookWord (h : Keeps s₀ s) {x p ecc} : Keeps s₀ (s.lookWord x p ecc).2.2 := by
  unfold State.lookWord
  split
  · exact h.trieLook
  · exact h.trieLook
  · exact h.learnLook
  · exact h.indexLook
theorem completeIssued (h : Keeps s₀ s) {x} : Keeps s₀ (s.completeIssued x) := .updCtx (.each h (fun _ _ h => h.lookWord))
theorem freshTiming (h : Keeps s₀ s) {x} : Keeps s₀ (s.freshTiming x) := h.updCore
theorem stopCore (h : Keeps s₀ s) {k} : Keeps s₀ (s.stopCore k) :=
  .updCore (.quoinReset (.cpReset (.each h (fun _ _ h => h.completeIssued.setCtxState))))
theorem killsAfter (h : Keeps s₀ s) {x n} : Keeps s₀ (s.killsAfter x n) := h.updCore
theorem fault (h : Keeps s₀ s) {x code addr} : Keeps s₀ (s.fault x code addr) :=
  .ite h.recordFault.stopCore.raiseBit h.recordFault.updCtx.setCtxState.killsAfter
theorem stopIfDone (h : Keeps s₀ s) {x} : Keeps s₀ (s.stopIfDone x) := .ite h.updCtx.setCtxState h
theorem offBank (h : Keeps s₀ s) {x addr} : Keeps s₀ (s.offBank x addr) := h.recordFault
theorem notBefore (h : Keeps s₀ s) {x n} : Keeps s₀ (s.notBefore x n) := h.updCore
theorem resultAt (h : Keeps s₀ s) {x rs addr n} : Keeps s₀ (s.resultAt x rs addr n) := h.updCore
theorem addrResult (h : Keeps s₀ s) {x n} : Keeps s₀ (s.addrResult x n) := h.resultAt
theorem cost (h : Keeps s₀ s) {x run own} : Keeps s₀ (s.cost x run own) := h.notBefore
theorem cacheLine (h : Keeps s₀ s) {x pc} : Keeps s₀ (s.cacheLine x pc) := .ite h h.updCore.pmc
theorem fetchCheck (h : Keeps s₀ s) {i pc} : Keeps s₀ (s.fetchCheck i pc) := by
  unfold State.fetchCheck
  refine .ite h ?_
  split
  · exact h
  · exact h.bankCorrected
  · exact h.bankUncorrectable
theorem runTo (h : Keeps s₀ s) {k t} : Keeps s₀ (s.runTo k t) := h.updCore
theorem takeCycle (h : Keeps s₀ s) {x t gap} : Keeps s₀ (s.takeCycle x t gap) := by
  unfold State.takeCycle
  exact .pmc (.onlyIf h.runTo.updCore (fun _ h => h.count.pmc))
theorem countAlone (h : Keeps s₀ s) {i half} : Keeps s₀ (s.countAlone i half) := by
  unfold State.countAlone
  exact h.takeCycle.nameSamples.updCore.count.pmc.pmc
theorem countPair (h : Keeps s₀ s) {i} : Keeps s₀ (s.countPair i) := by
  unfold State.countPair
  exact h.nameSamples.updCore.count.pmc.pmc
theorem countIssue (h : Keeps s₀ s) {i half} : Keeps s₀ (s.countIssue i half) := .ite h.countPair h.countAlone
theorem waitingEnds (h : Keeps s₀ s) {x t} : Keeps s₀ (s.waitingEnds x t) := by
  unfold State.waitingEnds
  split
  · exact h
  · exact h.updTcb
theorem accounting (h : Keeps s₀ s) {i half} : Keeps s₀ (s.accounting i half) := h.countIssue.waitingEnds.updCtx
theorem stepEnds (h : Keeps s₀ s) {x} : Keeps s₀ (s.stepEnds x) := .ite h.updCtx.setCtxState.count h
theorem issue (h : Keeps s₀ s) {i long reads f half addrs} (hf : ∀ s, Keeps s₀ s → KeepsEff s₀ (f s)) :
    Keeps s₀ (s.issue i long reads f half addrs) := by
  unfold State.issue
  dsimp only
  refine .ite h ?_
  split
  · exact .stepEnds (.fault (.ite h.accounting.bankRefused h.accounting))
  · refine .ite h.accounting.fetchCheck.fault.stepEnds ?_
    split
    · next e => exact (of_done e (hf _ h.accounting.fetchCheck.cacheLine)).updCtx.stepEnds
    · next e => exact (of_jump e (hf _ h.accounting.fetchCheck.cacheLine)).updCtx.stepEnds
    · next e => exact (of_hold e (hf _ h.accounting.fetchCheck.cacheLine)).stepEnds
    · next e => exact (of_fault e (hf _ h.accounting.fetchCheck.cacheLine)).fault
    · exact h
theorem illegal (h : Keeps s₀ s) {x} : KeepsEff s₀ (s.illegal x) := .fault h
theorem arbitrate (h : Keeps s₀ s) {k} : Keeps s₀ (s.arbitrate k) := by
  unfold State.arbitrate
  split
  · exact h
  · exact h.updCore
theorem entryWork (h : Keeps s₀ s) {k} : Keeps s₀ (s.entryWork k) := by
  unfold State.entryWork
  dsimp only
  split
  · exact h.updCtx.updCore
  · exact h.updCore.updCtx.arbitrate
  · exact h.arbitrate.updCore
  · exact h.arbitrate.updCore
  · exact h.arbitrate.updCore
  · exact .maybe (.updCtx (.pmc (.onlyIf h.updCore.updCtx.count (fun _ h => h.count)))) (fun h => h.setCtxState.count)
theorem entryStep (h : Keeps s₀ s) {k gap ready} : Keeps s₀ (s.entryStep k gap ready) := .ite h.takeCycle.updCore.entryWork h
theorem execInterruptEntry (h : Keeps s₀ s) {k gap ready} : KeepsRes s₀ (Machine.execInterruptEntry k gap ready s) := .next h.entryStep
theorem execIntSoft (h : Keeps s₀ s) {a k mask} : KeepsRes s₀ (Machine.execIntSoft a k mask s) :=
  .next (.viaPage h (fun _ h => .each h (fun _ _ h => .onlyIf h (fun _ h => h.interrupt))))

/-! ### The functions of Machine/Alu -/
theorem regsOnly (h : Keeps s₀ s) {x g} : KeepsEff s₀ (s.regsOnly x g) := .done h.updCtx
theorem alu (h : Keeps s₀ s) {i op write f} : Keeps s₀ (s.alu i op write f) := .issue h (fun _ h => .ite h.regsOnly h.illegal)
theorem unary (h : Keeps s₀ s) {i long reads d g} : Keeps s₀ (s.unary i long reads d g) := .issue h (fun _ h => h.regsOnly)
theorem plainD (h : Keeps s₀ s) {i long reads d g} : Keeps s₀ (s.plainD i long reads d g) := .issue h (fun _ h => h.regsOnly)
theorem plainA (h : Keeps s₀ s) {i long reads n g} : Keeps s₀ (s.plainA i long reads n g) := .issue h (fun _ h => .done h.updCtx.addrResult)
theorem written (h : Keeps s₀ s) {x r} : Keeps s₀ (s.written x r) := by
  unfold State.written
  split
  · exact h.addrResult
  · exact h
theorem move (h : Keeps s₀ s) {i dst src p} : Keeps s₀ (s.move i dst src p) :=
  .issue h (fun _ h => .ite (.done h.readRegP.writeReg.written) h.illegal)
theorem movImm (h : Keeps s₀ s) {i r imm} : Keeps s₀ (s.movImm i r imm) := .issue h (fun _ h => .ite h.illegal (.done h.writeReg.written))
theorem logicImm (h : Keeps s₀ s) {i r op imm} : Keeps s₀ (s.logicImm i r op imm) := by
  unfold State.logicImm
  split
  · exact h.unary
  · exact .issue h (fun _ h => h.illegal)
theorem shift (h : Keeps s₀ s) {i k f} : Keeps s₀ (s.shift i k f) := .issue h (fun _ h => .ite h.regsOnly h.illegal)
theorem shiftImm (h : Keeps s₀ s) {i k d n} : Keeps s₀ (s.shiftImm i k d n) := .issue h (fun _ h => .ite h.illegal h.regsOnly)
theorem product (h : Keeps s₀ s) {x dest v} : KeepsEff s₀ (s.product x dest v) := h.regsOnly
theorem execMov (h : Keeps s₀ s) {i f} : KeepsRes s₀ (Machine.execMov i f s) := by
  unfold Machine.execMov
  refine .next ?_
  split
  · exact h.plainD
  · exact h.plainA
  · exact h.plainA
  · exact h.plainD
theorem execAdd (h : Keeps s₀ s) {i f} : KeepsRes s₀ (Machine.execAdd i f s) := by
  unfold Machine.execAdd
  refine .next ?_
  split
  · exact h.alu
  · exact h.plainA
  · exact h.plainA
theorem execSub (h : Keeps s₀ s) {i f} : KeepsRes s₀ (Machine.execSub i f s) := by
  unfold Machine.execSub
  refine .next ?_
  split
  · exact h.alu
  · exact h.plainA
theorem execAnd (h : Keeps s₀ s) {i f} : KeepsRes s₀ (Machine.execAnd i f s) := .next h.alu
theorem execOr (h : Keeps s₀ s) {i f} : KeepsRes s₀ (Machine.execOr i f s) := .next h.alu
theorem execXor (h : Keeps s₀ s) {i f} : KeepsRes s₀ (Machine.execXor i f s) := .next h.alu
theorem execCmp (h : Keeps s₀ s) {i f} : KeepsRes s₀ (Machine.execCmp i f s) := .next h.alu
theorem execTst (h : Keeps s₀ s) {i d r} : KeepsRes s₀ (Machine.execTst i d r s) := .next h.alu
theorem execNeg (h : Keeps s₀ s) {i d r} : KeepsRes s₀ (Machine.execNeg i d r s) := .next h.unary
theorem execNot (h : Keeps s₀ s) {i d r} : KeepsRes s₀ (Machine.execNot i d r s) := .next h.unary
theorem execAdc (h : Keeps s₀ s) {i f} : KeepsRes s₀ (Machine.execAdc i f s) := .next h.alu
theorem execSbc (h : Keeps s₀ s) {i f} : KeepsRes s₀ (Machine.execSbc i f s) := .next h.alu
theorem execMovi (h : Keeps s₀ s) {i f} : KeepsRes s₀ (Machine.execMovi i f s) := by
  unfold Machine.execMovi
  refine .next ?_
  split
  · exact h.plainD
  · exact h.movImm
theorem execAddi (h : Keeps s₀ s) {i f} : KeepsRes s₀ (Machine.execAddi i f s) := by
  unfold Machine.execAddi
  refine .next ?_
  split
  · exact h.unary
  · exact h.plainA
  · split
    · exact h.unary
    · exact h.plainA
    · exact .issue h (fun _ h => h.regsOnly)
    · exact .issue h (fun _ h => h.illegal)
theorem execCmpi (h : Keeps s₀ s) {i f} : KeepsRes s₀ (Machine.execCmpi i f s) := by
  unfold Machine.execCmpi
  refine .next ?_
  dsimp only
  split
  · exact .issue h (fun _ h => h.regsOnly)
  · split
    · exact .issue h (fun _ h => h.regsOnly)
    · exact .issue h (fun _ h => h.illegal)
theorem execAndi (h : Keeps s₀ s) {i r imm} : KeepsRes s₀ (Machine.execAndi i r imm s) := .next h.logicImm
theorem execOri (h : Keeps s₀ s) {i r imm} : KeepsRes s₀ (Machine.execOri i r imm s) := .next h.logicImm
theorem execXori (h : Keeps s₀ s) {i r imm} : KeepsRes s₀ (Machine.execXori i r imm s) := .next h.logicImm
theorem execLsl (h : Keeps s₀ s) {i f} : KeepsRes s₀ (Machine.execLsl i f s) := .next h.shift
theorem execLsr (h : Keeps s₀ s) {i f} : KeepsRes s₀ (Machine.execLsr i f s) := .next h.shift
theorem execAsr (h : Keeps s₀ s) {i f} : KeepsRes s₀ (Machine.execAsr i f s) := .next h.shift
theorem execLsli (h : Keeps s₀ s) {i d n} : KeepsRes s₀ (Machine.execLsli i d n s) := .next h.shiftImm
theorem execLsri (h : Keeps s₀ s) {i d n} : KeepsRes s₀ (Machine.execLsri i d n s) := .next h.shiftImm
theorem execAsri (h : Keeps s₀ s) {i d n} : KeepsRes s₀ (Machine.execAsri i d n s) := .next h.shiftImm
theorem execBfx (h : Keeps s₀ s) {i d r pair p w} : KeepsRes s₀ (Machine.execBfx i d r pair p w s) :=
  .next (.issue h (fun _ h => .ite h.illegal h.regsOnly))
theorem execBfi (h : Keeps s₀ s) {i d r pair p w} : KeepsRes s₀ (Machine.execBfi i d r pair p w s) :=
  .next (.issue h (fun _ h => .ite h.illegal h.regsOnly))
theorem execSat (h : Keeps s₀ s) {i d x} : KeepsRes s₀ (Machine.execSat i d x s) := .next (.issue h (fun _ h => .ite h.illegal h.regsOnly))
theorem execCrcs (h : Keeps s₀ s) {i d r} : KeepsRes s₀ (Machine.execCrcs i d r s) :=
  .next (.issue h (fun _ h => .ite h.illegal h.regsOnly))
theorem execCrcb (h : Keeps s₀ s) {i d r} : KeepsRes s₀ (Machine.execCrcb i d r s) :=
  .next (.issue h (fun _ h => .ite h.illegal h.regsOnly))
theorem execPar (h : Keeps s₀ s) {i d r} : KeepsRes s₀ (Machine.execPar i d r s) := .next h.unary
theorem execParw (h : Keeps s₀ s) {i d r} : KeepsRes s₀ (Machine.execParw i d r s) := .next h.unary
theorem execBrev (h : Keeps s₀ s) {i d r} : KeepsRes s₀ (Machine.execBrev i d r s) := .next h.plainD
theorem execBrev8 (h : Keeps s₀ s) {i d r} : KeepsRes s₀ (Machine.execBrev8 i d r s) := .next h.plainD
theorem execMul (h : Keeps s₀ s) {i long a b} : KeepsRes s₀ (Machine.execMul i long a b s) := .next (.issue h (fun _ h => h.product))
theorem execMuls (h : Keeps s₀ s) {i long a b} : KeepsRes s₀ (Machine.execMuls i long a b s) := .next (.issue h (fun _ h => h.product))
theorem execMac (h : Keeps s₀ s) {i x a b} : KeepsRes s₀ (Machine.execMac i x a b s) := .next (.issue h (fun _ h => h.product))
theorem execMovh (h : Keeps s₀ s) {i n imm} : KeepsRes s₀ (Machine.execMovh i n imm s) := .next h.plainA
theorem execMovr (h : Keeps s₀ s) {i dst src p} : KeepsRes s₀ (Machine.execMovr i dst src p s) := .next h.move
theorem execLea (h : Keeps s₀ s) {i n m} : KeepsRes s₀ (Machine.execLea i n m s) := .next (.issue h (fun _ h => by
  dsimp only
  split
  · exact .done h.updCtx.addrResult
  · exact h.illegal))

/-! ### The functions of Machine/Chase -/
theorem updTask (h : Keeps s₀ s) {k t f} : Keeps s₀ (s.updTask k t f) := h.updTcb
theorem stamp (h : Keeps s₀ s) {k} : Keeps s₀ (s.stamp k).2 := h.updCourse
theorem dropSwap (h : Keeps s₀ s) {x} : Keeps s₀ (s.dropSwap x) := h.updCore
theorem becomeReady (h : Keeps s₀ s) {k t} : Keeps s₀ (s.becomeReady k t) := h.stamp.updTask.unquiet.updCore
theorem postTask (h : Keeps s₀ s) {w i t mask} : Keeps s₀ (s.postTask w i t mask) := .ite h.count h.postFlags
theorem applyPost (h : Keeps s₀ s) {w i t mask} : Keeps s₀ (s.applyPost w i t mask) := .ite h.count h.updTcb.count
theorem copyClear (h : Keeps s₀ s) {x t d} : Keeps s₀ (s.copyClear x t d) := h.updCtx.updTask.setCtxState.stepEnds
theorem waitSatisfied (h : Keeps s₀ s) {k t} : Keeps s₀ (s.waitSatisfied k t) := by
  unfold State.waitSatisfied
  dsimp only
  split
  · split
    · exact .ite h.copyClear h
    · exact h
  · exact .ite h.becomeReady h
  · exact h
theorem beginSwap (h : Keeps s₀ s) {x save t slug} : Keeps s₀ (s.beginSwap x save t slug) := by
  unfold State.beginSwap
  dsimp only
  split
  · exact h.updCore.updCtx.updTask.updTask
  · exact h.updCore.updCtx.updTask.updCtx
theorem taskLoad (h : Keeps s₀ s) {k} : Keeps s₀ (s.taskLoad k) := by
  unfold State.taskLoad
  refine .ite h ?_
  split
  · exact h.beginSwap
  · exact h
theorem taskExchange (h : Keeps s₀ s) {k} : Keeps s₀ (s.taskExchange k) := by
  unfold State.taskExchange
  refine .ite h ?_
  split
  · exact h.beginSwap
  · exact h
theorem saveTask (h : Keeps s₀ s) {x v} : Keeps s₀ (s.saveTask x v) := h.updCtx.freshTiming.updTask.updCtx.count
theorem loadTask (h : Keeps s₀ s) {x t} : Keeps s₀ (s.loadTask x t) := by
  unfold State.loadTask
  dsimp only
  split
  · exact h.draw.draw.updCtx.freshTiming.count.setCtxState
  · exact .ite h.draw.draw.updCtx.freshTiming.count.copyClear h.draw.draw.updCtx.freshTiming.count.setCtxState
theorem haltAfterSwap (h : Keeps s₀ s) {x} : Keeps s₀ (s.haltAfterSwap x) := .ite h.updCtx.setCtxState.count h
theorem swapEnd (h : Keeps s₀ s) {x} : Keeps s₀ (s.swapEnd x) := by
  unfold State.swapEnd
  refine .ite h ?_
  split
  · exact h
  · split
    · exact h.saveTask.updCtx.updCore.pmc
    · exact .maybe h.saveTask.dropSwap.updCtx.setCtxState.pmc (fun h => h.updCtx.withDbgUnit)
    · exact .ite h h.dropSwap.loadTask.haltAfterSwap.pmc
    · exact h
theorem slugDelivered (h : Keeps s₀ s) {x} : Keeps s₀ (s.slugDelivered x) := by
  unfold State.slugDelivered
  refine .ite h ?_
  split
  · exact h
  · split
    · exact h
    · extract_lets i s1 s2 s3 s4 s5
      have h1 : Keeps s₀ s1 := by
        unfold s1
        split
        · exact h.saveTask.pmc
        · exact h
      have h3 : Keeps s₀ s3 := by
        unfold s3
        split
        · exact h1.dropSwap.loadTask.pmc
        · exact h1.dropSwap
      have h5 : Keeps s₀ s5 := h3.updCtx.count.pmc
      split
      · exact h5
      · exact h5.applyPost.waitSatisfied.haltAfterSwap
theorem takerSelection (h : Keeps s₀ s) {w c} : Keeps s₀ (s.takerSelection w c) := by
  unfold State.takerSelection
  dsimp only
  split
  · exact h
  · split
    · exact h.updCourse.updTask.updCore
    · split
      · exact h.updCourse.updTask.beginSwap
      · exact h
theorem updChan (h : Keeps s₀ s) {w c ch f} : Keeps s₀ (s.updChan w c ch f) := h.updCourse
theorem chanDeliver (h : Keeps s₀ s) {w c ch aborted} : Keeps s₀ (s.chanDeliver w c ch aborted) :=
  .ite h.updChan h.updChan.postCourseBindings
theorem forceClose (h : Keeps s₀ s) {w c ch} : Keeps s₀ (s.forceClose w c ch) := by
  unfold State.forceClose
  dsimp only
  split
  · exact h
  · exact .maybe h.chanDeliver.count.raiseBit (fun h => h.record)
theorem closeOwned (h : Keeps s₀ s) {w c q} : Keeps s₀ (s.closeOwned w c q) := .each h (fun _ _ h => .onlyIf h (fun _ h => h.forceClose))
theorem chanExpire (h : Keeps s₀ s) {w c ch} : Keeps s₀ (s.chanExpire w c ch) := .ite h h.forceClose
theorem discardSlug (h : Keeps s₀ s) {w i g} : Keeps s₀ (s.discardSlug w i g) := h.discardSlot.count
theorem emptyContext (h : Keeps s₀ s) {x} : Keeps s₀ (s.emptyContext x) :=
  .setCtxState (.updCtx (.freshTiming (.completeIssued (.ite h.withDbgUnit h))))
theorem endHoldings (h : Keeps s₀ s) {k t slugs} : Keeps s₀ (s.endHoldings k t slugs) :=
  .each h.cpReset.closeOwned.quoinReset (fun _ _ h => h.discardSlug)
theorem killTask (h : Keeps s₀ s) {k t} : Keeps s₀ (s.killTask k t) := by
  unfold State.killTask
  refine .updTask (.endHoldings (.ite ?_ h.updCore))
  split
  · refine .ite ?_ h.emptyContext.dropSwap
    split
    · exact h.completeIssued.updCtx.updCore
    · exact h.emptyContext.dropSwap
  · exact h.emptyContext
theorem makeTask (h : Keeps s₀ s) {k t entry prio taker pin} : Keeps s₀ (s.makeTask k t entry prio taker pin) := by
  unfold State.makeTask
  dsimp only
  split
  · exact h.updTask.becomeReady
  · exact h.updTask.updTask.beginSwap
theorem setTaskStatus (h : Keeps s₀ s) {k v} : Keeps s₀ (s.setTaskStatus k v) := h.updCore
theorem taskCreate (h : Keeps s₀ s) {k t} : Keeps s₀ (s.taskCreate k t) :=
  .ite h.setTaskStatus (.ite h.setTaskStatus h.makeTask.setTaskStatus)
theorem onTask (h : Keeps s₀ s) {k t f} (hf : ∀ s, Keeps s₀ s → Keeps s₀ (f s)) : Keeps s₀ (s.onTask k t f) :=
  .ite h.setTaskStatus (hf s h).setTaskStatus
theorem setPrio (h : Keeps s₀ s) {k t} : Keeps s₀ (s.setPrio k t) := .ite h.updTask.becomeReady h.updTask
theorem taskCmd (h : Keeps s₀ s) {k op t} : Keeps s₀ (s.taskCmd k op t) := by
  unfold State.taskCmd
  split
  · exact h.taskCreate
  · exact .onTask h (fun _ h => h.killTask)
  · exact .onTask h (fun _ h => h.setPrio)
  · exact .onTask h (fun _ h => h.postTask)
  · exact h
theorem bindStore (h : Keeps s₀ s) {k n v} : Keeps s₀ (s.bindStore k n v) := .onlyIf h.wr.noteClamp (fun _ h => h.postFlags)
theorem timerFires (h : Keeps s₀ s) {t} : Keeps s₀ (s.timerFires t) := by
  unfold State.timerFires
  split
  · refine .ite h ?_
    refine .ite h.updCtx.interrupt ?_
    split
    · exact h.updCtx.applyPost
    · exact h.updCtx
  · exact .ite h.updTask.applyPost h
theorem quietTick (h : Keeps s₀ s) {w c} : Keeps s₀ (s.quietTick w c) := .ite h.updCourse (.onlyIf h (fun _ h => h.unquiet))
theorem quiescent (h : Keeps s₀ s) {w c} : Keeps s₀ (s.quiescent w c) :=
  .ite h (.count (.raiseBit (.updCourse (.each h (fun _ _ h => h.interrupt)))))
theorem quietAck (h : Keeps s₀ s) {w i} : Keeps s₀ (s.quietAck w i) := h.updCore
theorem recoveryEnds (h : Keeps s₀ s) {w c} : Keeps s₀ (s.recoveryEnds w c) := .ite (.each h.updCourse (fun _ _ h => h.quietAck)) h
theorem loadWindow (h : Keeps s₀ s) {k} : Keeps s₀ (s.loadWindow k) := .ite h.updCore.count.pmc.pmc h.updCore
theorem freshCtx (h : Keeps s₀ s) {x st pcx} : Keeps s₀ (s.freshCtx x st pcx) := h.updCtx.withFree
theorem createTable (h : Keeps s₀ s) {k b} : Keeps s₀ (s.createTable k b) := .each h (fun _ _ h => .ite h.makeTask h)
theorem endTasks (h : Keeps s₀ s) {k} : Keeps s₀ (s.endTasks k) :=
  .updCore (.each (.each (.each h (fun _ _ h => .ite h h.endHoldings.updTask)) (fun _ _ h => h.discardSlug)) (fun _ _ h => h.emptyContext))
theorem startCore (h : Keeps s₀ s) {k} : Keeps s₀ (s.startCore k) := by
  unfold State.startCore
  dsimp only
  split
  · exact .createTable (.each h.updCore.withFree (fun _ _ h => h.freshCtx))
  · exact .each h.updCore.withFree (fun _ _ h => h.freshCtx)
theorem abortCore (h : Keeps s₀ s) {k} : Keeps s₀ (s.abortCore k) := h.stopCore.updCore.count.closeOwned
theorem enableCore (h : Keeps s₀ s) {k} : Keeps s₀ (s.enableCore k) := .ite h.wr.endTasks.startCore h.wr
theorem disableCore (h : Keeps s₀ s) {k} : Keeps s₀ (s.disableCore k) := h.wr
theorem execTakerSelection (h : Keeps s₀ s) {w c} : KeepsRes s₀ (Machine.execTakerSelection w c s) := .next h.takerSelection
theorem execSlugDelivery (h : Keeps s₀ s) {x} : KeepsRes s₀ (Machine.execSlugDelivery x s) := .next h.slugDelivered
theorem execCreate (h : Keeps s₀ s) {a k t} : KeepsRes s₀ (Machine.execCreate a k t s) := .next (.viaPage h (fun _ h => h.taskCmd))
theorem execKill (h : Keeps s₀ s) {a k t} : KeepsRes s₀ (Machine.execKill a k t s) := .next (.viaPage h (fun _ h => h.taskCmd))
theorem execSetPrio (h : Keeps s₀ s) {a k t} : KeepsRes s₀ (Machine.execSetPrio a k t s) := .next (.viaPage h (fun _ h => h.taskCmd))
theorem execPost (h : Keeps s₀ s) {a k t} : KeepsRes s₀ (Machine.execPost a k t s) := .next (.viaPage h (fun _ h => h.taskCmd))
theorem execPostApply (h : Keeps s₀ s) {w i} : KeepsRes s₀ (Machine.execPostApply w i s) := by
  unfold Machine.execPostApply
  refine .next ?_
  split
  · exact h
  · exact h.updWy.applyPost
theorem execWaitSatisfied (h : Keeps s₀ s) {k t} : KeepsRes s₀ (Machine.execWaitSatisfied k t s) := .next h.waitSatisfied
theorem execTaskLoad (h : Keeps s₀ s) {k} : KeepsRes s₀ (Machine.execTaskLoad k s) := .next h.taskLoad
theorem execTaskExchange (h : Keeps s₀ s) {k} : KeepsRes s₀ (Machine.execTaskExchange k s) := .next h.taskExchange
theorem execSwapEnd (h : Keeps s₀ s) {x} : KeepsRes s₀ (Machine.execSwapEnd x s) := .next h.swapEnd
theorem execBindWrite (h : Keeps s₀ s) {a k n value} : KeepsRes s₀ (Machine.execBindWrite a k n value s) :=
  .next (.viaPage h (fun _ h => h.bindStore))
theorem execTimerCompareFire (h : Keeps s₀ s) {t} : KeepsRes s₀ (Machine.execTimerCompareFire t s) := .next h.timerFires
theorem execQuiescence (h : Keeps s₀ s) {w c} : KeepsRes s₀ (Machine.execQuiescence w c s) := .next h.quiescent
theorem execRecoveryEnd (h : Keeps s₀ s) {a k} : KeepsRes s₀ (Machine.execRecoveryEnd a k s) :=
  .next (.viaPage h (fun _ h => h.recoveryEnds))
theorem execRecoveryAck (h : Keeps s₀ s) {a k} : KeepsRes s₀ (Machine.execRecoveryAck a k s) := .next (.viaPage h (fun _ h => h.quietAck))
theorem execChannelForcedClose (h : Keeps s₀ s) {w c ch} : KeepsRes s₀ (Machine.execChannelForcedClose w c ch s) := .next h.chanExpire
theorem execLoadWindowEnd (h : Keeps s₀ s) {k} : KeepsRes s₀ (Machine.execLoadWindowEnd k s) := .next h.loadWindow
theorem execCoreDisable (h : Keeps s₀ s) {a k} : KeepsRes s₀ (Machine.execCoreDisable a k s) :=
  .next (.viaPage h (fun _ h => h.disableCore))
theorem execCoreAbort (h : Keeps s₀ s) {a k} : KeepsRes s₀ (Machine.execCoreAbort a k s) := .next (.viaPage h (fun _ h => h.abortCore))
theorem execCoreEnable (h : Keeps s₀ s) {a k} : KeepsRes s₀ (Machine.execCoreEnable a k s) := .next (.viaPage h (fun _ h => h.enableCore))

/-! ### The functions of Machine/Memory -/
theorem accessNotes (h : Keeps s₀ s) {x a size} : Keeps s₀ (s.accessNotes x a size) := by
  unfold State.accessNotes
  dsimp only
  split
  · exact h
  · exact .ite h.bankRefused.offBank h.bankRefused
theorem accessEcc (h : Keeps s₀ s) {x a size ecc} : Keeps s₀ (s.accessEcc x a size ecc).2 := by
  unfold State.accessEcc
  split
  · exact h
  · split
    · exact h
    · exact h.bankCorrected
    · exact h.bankUncorrectable
theorem accessCheck (h : Keeps s₀ s) {x a size ecc} : Keeps s₀ (s.accessCheck x a size ecc).2 := by
  unfold State.accessCheck
  split
  · exact .ite h.accessNotes h
  · exact h.accessNotes.accessEcc
theorem setMemByte (h : Keeps s₀ s) {x a v} : Keeps s₀ (s.setMemByte x a v) := by
  unfold State.setMemByte
  split
  · exact h.updCore
  · exact h.updCore
  · exact h.updCtx
  · exact .ite h.setBankByte h
  · exact .ite h.setBankByte h
  · exact h
theorem setMemValue (h : Keeps s₀ s) {x a size v} : Keeps s₀ (s.setMemValue x a size v) := .each h (fun _ _ h => h.setMemByte)
theorem queueStore (h : Keeps s₀ s) {x a size v} : Keeps s₀ (s.queueStore x a size v) := h.updCore
theorem withSr (h : Keeps s₀ s) {x sr f} (hf : ∀ s, Keeps s₀ s → Keeps s₀ (f s)) : Keeps s₀ (s.withSr x sr f) := (hf _ h.updCtx).updCtx
theorem seenBy (h : Keeps s₀ s) {x} : Keeps s₀ (s.seenBy x) := .each h (fun _ _ h => .withSr h (fun _ h => h.setMemValue))
theorem storeMem (h : Keeps s₀ s) {x a size v} : Keeps s₀ (s.storeMem x a size v) := .ite h.queueStore h.setMemValue
theorem splitNote (h : Keeps s₀ s) {x a size} : Keeps s₀ (s.splitNote x a size) := .onlyIf h (fun _ h => h.count.pmc.notBefore)

/-! ### The functions of Machine/Debug -/
theorem setDebug (h : Keeps s₀ s) {f} : Keeps s₀ (s.setDebug f) := h.withDbgUnit
theorem dbgResult (h : Keeps s₀ s) {r} : Keeps s₀ (s.dbgResult r) := h.setDebug
theorem dbgDenied (h : Keeps s₀ s) : Keeps s₀ s.dbgDenied := h.dbgResult.count.raiseBit
theorem dbgCommand (h : Keeps s₀ s) {a f} (hf : ∀ s, Keeps s₀ s → Keeps s₀ (f s)) : Keeps s₀ (s.dbgCommand a f) :=
  .ite h (.ite h.dbgResult (.ite h.dbgDenied (hf s h)))
theorem haltNow (h : Keeps s₀ s) {x} : Keeps s₀ (s.haltNow x) := h.updCtx.setCtxState.count
theorem haltOne (h : Keeps s₀ s) {x} : Keeps s₀ (s.haltOne x) := by
  unfold State.haltOne
  split
  · exact h.haltNow
  · exact h.updCtx
  · exact h
  · exact h
theorem dbgHalt (h : Keeps s₀ s) : Keeps s₀ s.dbgHalt := .dbgResult (.each h (fun _ _ h => h.haltOne))
theorem resumeOne (h : Keeps s₀ s) {x} : Keeps s₀ (s.resumeOne x) := by
  unfold State.resumeOne
  refine .ite h ?_
  refine .ite h.setCtxState ?_
  split
  · exact h.copyClear
  · exact h.setCtxState
theorem onHalted (h : Keeps s₀ s) {f} (hf : ∀ s x, Keeps s₀ s → Keeps s₀ (f s x)) : Keeps s₀ (s.onHalted f) := .dbgResult (.each h hf)
theorem dbgResume (h : Keeps s₀ s) : Keeps s₀ s.dbgResume := .onHalted h (fun _ _ h => h.resumeOne)
theorem stepOne (h : Keeps s₀ s) {x takeInt} : Keeps s₀ (s.stepOne x takeInt) :=
  .ite h (.updCtx (.ite h.resumeOne.takeCycle.entryWork h.resumeOne))
theorem dbgStep (h : Keeps s₀ s) {takeInt} : Keeps s₀ (s.dbgStep takeInt) := .onHalted h (fun _ _ h => h.stepOne)
theorem dbgWord (h : Keeps s₀ s) {v} : Keeps s₀ (s.dbgWord v).2 := by
  unfold State.dbgWord
  dsimp only
  split
  · exact h.draw
  · exact h.draw
  · exact h.draw
  · exact h
theorem dbgFreeResult (h : Keeps s₀ s) : Keeps s₀ s.dbgFreeResult := h.draw.dbgResult
theorem dbgReadReg (h : Keeps s₀ s) {r} : Keeps s₀ (s.dbgReadReg r) :=
  .ite h.dbgResult (.ite h.draw.wr.dbgFreeResult h.readReg.dbgWord.wr.dbgResult)
theorem dbgWriteReg (h : Keeps s₀ s) {r} : Keeps s₀ (s.dbgWriteReg r) := .ite h.dbgResult (.ite h.dbgFreeResult h.writeReg.dbgResult)
theorem dbgMem (h : Keeps s₀ s) {f} (hf : ∀ s x a, Keeps s₀ s → Keeps s₀ (f s x a)) : Keeps s₀ (s.dbgMem f) :=
  .ite h.dbgResult (.ite h.bankRefused.dbgResult (hf _ _ _ h.bankRefused).dbgResult)
theorem dbgReadMem (h : Keeps s₀ s) : Keeps s₀ s.dbgReadMem := .dbgMem h (fun _ _ _ h => h.wr)
theorem dbgWriteMem (h : Keeps s₀ s) : Keeps s₀ s.dbgWriteMem := .dbgMem h (fun _ _ _ h => h.setMemValue)
theorem dbgBreak (h : Keeps s₀ s) {on} : Keeps s₀ (s.dbgBreak on) := .dbgResult (.each h (fun _ _ h => h.updCtx))
theorem debugLeavesService (h : Keeps s₀ s) {w} : Keeps s₀ (s.debugLeavesService w) :=
  .onlyIf (.each h (fun _ _ h => h.resumeOne.updCtx)) (fun _ h => h.dbgDenied)
theorem setIr (h : Keeps s₀ s) {ir} : Keeps s₀ (s.setIr ir) := h.setDebug
theorem execHalt (h : Keeps s₀ s) {a} : KeepsRes s₀ (Machine.execHalt a s) := .next (.dbgCommand h (fun _ h => h.dbgHalt))
theorem execResume (h : Keeps s₀ s) {a} : KeepsRes s₀ (Machine.execResume a s) := .next (.dbgCommand h (fun _ h => h.dbgResume))
theorem execStep (h : Keeps s₀ s) {a takeInt} : KeepsRes s₀ (Machine.execStep a takeInt s) := .next (.dbgCommand h (fun _ h => h.dbgStep))
theorem execReadReg (h : Keeps s₀ s) {a r} : KeepsRes s₀ (Machine.execReadReg a r s) := .next (.dbgCommand h (fun _ h => h.dbgReadReg))
theorem execWriteReg (h : Keeps s₀ s) {a r} : KeepsRes s₀ (Machine.execWriteReg a r s) := .next (.dbgCommand h (fun _ h => h.dbgWriteReg))
theorem execReadMem (h : Keeps s₀ s) {a} : KeepsRes s₀ (Machine.execReadMem a s) := .next (.dbgCommand h (fun _ h => h.dbgReadMem))
theorem execWriteMem (h : Keeps s₀ s) {a} : KeepsRes s₀ (Machine.execWriteMem a s) := .next (.dbgCommand h (fun _ h => h.dbgWriteMem))
theorem execBkptOn (h : Keeps s₀ s) {a} : KeepsRes s₀ (Machine.execBkptOn a s) := .next (.dbgCommand h (fun _ h => h.dbgBreak))
theorem execBkptOff (h : Keeps s₀ s) {a} : KeepsRes s₀ (Machine.execBkptOff a s) := .next (.dbgCommand h (fun _ h => h.dbgBreak))
theorem execExtest (h : Keeps s₀ s) : KeepsRes s₀ (Machine.execExtest s) := .next h.setIr
theorem execIdcode (h : Keeps s₀ s) : KeepsRes s₀ (Machine.execIdcode s) := .next h.setIr.answer
theorem execSamplePreload (h : Keeps s₀ s) : KeepsRes s₀ (Machine.execSamplePreload s) := .next h.setIr
theorem execClampJtag (h : Keeps s₀ s) : KeepsRes s₀ (Machine.execClampJtag s) := .next h.setIr
theorem execHighz (h : Keeps s₀ s) : KeepsRes s₀ (Machine.execHighz s) := .next h.setIr
theorem execBypass (h : Keeps s₀ s) : KeepsRes s₀ (Machine.execBypass s) := .next h.setIr
theorem execTrstN (h : Keeps s₀ s) : KeepsRes s₀ (Machine.execTrstN s) := .next h.setDebug

/-! ### The functions of Machine/Plinth -/
theorem readHost (h : Keeps s₀ s) {addr n} : Keeps s₀ (s.readHost addr n).2 := h.withFree
theorem dmaCount (h : Keeps s₀ s) {a n max} : Keeps s₀ (s.dmaCount a n max) := h.draw.count
theorem dmaRead (h : Keeps s₀ s) {addr n} : Keeps s₀ (s.dmaRead addr n).2 := by
  unfold State.dmaRead
  exact h.readHost.dmaCount
theorem dmaWrite (h : Keeps s₀ s) {addr b} : Keeps s₀ (s.dmaWrite addr b) := .ite h h.dmaCount.emit
theorem dmaFailed (h : Keeps s₀ s) : Keeps s₀ s.dmaFailed := h.count
theorem updQp (h : Keeps s₀ s) {q f} : Keeps s₀ (s.updQp q f) := h.withPlinth
theorem ringTx (h : Keeps s₀ s) {q v} : Keeps s₀ (s.ringTx q v) := h.updQp.noteClamp
theorem ringRx (h : Keeps s₀ s) {q v} : Keeps s₀ (s.ringRx q v) := h.updQp.noteClamp
theorem writeBack (h : Keeps s₀ s) {q} : Keeps s₀ (s.writeBack q) := h.dmaWrite.emit
theorem sendDone (h : Keeps s₀ s) {q status} : Keeps s₀ (s.sendDone q status) :=
  .writeBack (.maybe (.ite h.dmaWrite.updQp.count (.ite h.dmaWrite.updQp h.dmaWrite.updQp.count)) (fun h => h.dmaFailed.raiseBit))
theorem handFrame (h : Keeps s₀ s) {q data} : Keeps s₀ (s.handFrame q data) := by
  unfold State.handFrame
  dsimp only
  split
  · next e => exact (of_eq e h.alloc).setBufBytes.updWy.countRx.sendDone
  · exact h.updQp
  · exact h.updQp
theorem sendNext (h : Keeps s₀ s) {q dmaError} : Keeps s₀ (s.sendNext q dmaError) := by
  unfold State.sendNext
  dsimp only
  split
  · exact .ite h.handFrame h
  · exact .ite h (.ite h.dmaRead.sendDone (.ite h.dmaRead.sendDone h.dmaRead.dmaRead.handFrame))
theorem receiveNext (h : Keeps s₀ s) {q dmaError} : Keeps s₀ (s.receiveNext q dmaError) := by
  unfold State.receiveNext
  dsimp only
  split
  · exact h
  · exact .ite h (.ite h.dmaRead.dmaFailed.raiseBit (.writeBack (.flightDone (.releaseSegs (.countStream (.countStream (.count (.count
    (.count (.count (.onlyIf h.dmaRead.dmaWrite.dmaWrite.updPress.updQp.count (fun _ h => h.count))))))))))))
theorem qpAbort (h : Keeps s₀ s) {q} : Keeps s₀ (s.qpAbort q) := .ite h.sendDone h
theorem plinthReset (h : Keeps s₀ s) : Keeps s₀ s.plinthReset := .each (.each h.withPlinth (fun _ _ h => h.wr)) (fun _ _ h => h.quoinReset)
theorem verifyImage (h : Keeps s₀ s) {course b} : Keeps s₀ (s.verifyImage course b).2 := h.count.record
theorem holdImage (h : Keeps s₀ s) {course mask b} : Keeps s₀ (s.holdImage course mask b) := .each h (fun _ _ h => h.updCore)
theorem serveHello (h : Keeps s₀ s) {p} : Keeps s₀ (s.serveHello p).2.2 := .ite3 h.withPlinth h.withPlinth
theorem serveInfo (h : Keeps s₀ s) : Keeps s₀ s.serveInfo.2.2 := h
theorem serveImage (h : Keeps s₀ s) {p dmaError} : Keeps s₀ (s.serveImage p dmaError).2.2 := by
  unfold State.serveImage
  extract_lets course mark
  have hm {t b} (h : Keeps s₀ t) : Keeps s₀ (mark t b) := h.withForme
  clear_value mark
  refine .ite3 h (.ite3 h.dmaFailed ?_)
  split
  next b s1 e =>
  have h1 : Keeps s₀ s1 := .of_eq e h.dmaRead
  refine .ite3 h1 ?_
  split
  next r s2 e =>
  have h2 : Keeps s₀ s2 := .of_eq e h1.verifyImage
  exact .ite3 (hm h2) (.withForme (hm h2).holdImage)
theorem serveLedger (h : Keeps s₀ s) {p dmaError} : Keeps s₀ (s.serveLedger p dmaError).2.2 := .ite3 h (.ite3 h.dmaFailed h.dmaWrite)
theorem serveSlot (h : Keeps s₀ s) {p dmaError} : Keeps s₀ (s.serveSlot p dmaError).2.2 := .ite3 h (.ite3 h.dmaFailed h.dmaWrite)
theorem serve (h : Keeps s₀ s) {req dmaError} : Keeps s₀ (s.serve req dmaError).2.2 := by
  unfold State.serve
  refine .ite3 (.ite3 h.serveHello h) ?_
  split
  · exact h
  · refine .ite3 h ?_
    split
    · exact h
    · refine .ite3 h ?_
      refine .ite3 h ?_
      split
      · exact h.serveHello
      · exact h.serveInfo
      · exact h.serveImage
      · exact h.serveLedger
      · exact h.serveSlot
theorem mboxGo (h : Keeps s₀ s) : Keeps s₀ s.mboxGo := .ite h.withPlinth (.ite h.withPlinth h)
theorem mboxServe (h : Keeps s₀ s) {op dmaError} : Keeps s₀ (s.mboxServe op dmaError) := by
  unfold State.mboxServe
  split
  · exact h
  · exact .ite h (.maybe h.serve.draw.withPlinth.raiseBit.emit (fun h => h.withPlinth))
theorem execSendTailDoorbell (h : Keeps s₀ s) {q value} : KeepsRes s₀ (Machine.execSendTailDoorbell q value s) := .next h.ringTx
theorem execReceiveTailDoorbell (h : Keeps s₀ s) {q value} : KeepsRes s₀ (Machine.execReceiveTailDoorbell q value s) := .next h.ringRx
theorem execFirmwareDoorbell (h : Keeps s₀ s) {w d} : KeepsRes s₀ (Machine.execFirmwareDoorbell w d s) :=
  .next (.ite h.count h.postBindings.interruptEnabled)
theorem execSendDescriptor (h : Keeps s₀ s) {q dmaError} : KeepsRes s₀ (Machine.execSendDescriptor q dmaError s) := .next h.sendNext
theorem execReceiveDescriptor (h : Keeps s₀ s) {q dmaError} : KeepsRes s₀ (Machine.execReceiveDescriptor q dmaError s) :=
  .next h.receiveNext
theorem execHello (h : Keeps s₀ s) : KeepsRes s₀ (Machine.execHello s) := .next h.mboxServe
theorem execGetInfo (h : Keeps s₀ s) : KeepsRes s₀ (Machine.execGetInfo s) := .next h.mboxServe
theorem execImageStage (h : Keeps s₀ s) {dmaError} : KeepsRes s₀ (Machine.execImageStage dmaError s) := .next h.mboxServe
theorem execLedgerDma (h : Keeps s₀ s) {dmaError} : KeepsRes s₀ (Machine.execLedgerDma dmaError s) := .next h.mboxServe
theorem execSlotRead (h : Keeps s₀ s) {dmaError} : KeepsRes s₀ (Machine.execSlotRead dmaError s) := .next h.mboxServe
theorem execLinkReset (h : Keeps s₀ s) : KeepsRes s₀ (Machine.execLinkReset s) := .next h.plinthReset
theorem execPerstNRelease (h : Keeps s₀ s) : KeepsRes s₀ (Machine.execPerstNRelease s) := .next h.draw.withPlinth
theorem execQpDisable (h : Keeps s₀ s) {a q} : KeepsRes s₀ (Machine.execQpDisable a q s) := .next (.viaGlobal h (fun _ h => h.wr))
theorem execQpAbort (h : Keeps s₀ s) {a q} : KeepsRes s₀ (Machine.execQpAbort a q s) := .next (.viaGlobal h (fun _ h => h.qpAbort))

/-! ### The functions of Machine/Staging -/
theorem stage (h : Keeps s₀ s) {a v n} : Keeps s₀ (s.stage a v n) :=
  .noteClamp (h.withStaged fun c => swf_sput _ _ _ _ c.staged)
theorem reguard (h : Keeps s₀ s) {w p} : Keeps s₀ (s.reguard w p) := .ite h.stage h
theorem reearly (h : Keeps s₀ s) {w p} : Keeps s₀ (s.reearly w p) := .ite h.stage h
theorem rewindow (h : Keeps s₀ s) {w} : Keeps s₀ (s.rewindow w) := .ite h.stage h
theorem relayout (h : Keeps s₀ s) {w dram} : Keeps s₀ (s.relayout w dram) :=
  List.foldlRecOn (motive := fun acc : State × Nat => Keeps s₀ acc.1) _ _ h fun acc h p _ => by
    dsimp only
    split
    · exact h
    · exact .ite h h.stage
theorem stageAfter (h : Keeps s₀ s) {pg o} : Keeps s₀ (s.stageAfter pg o) := .ite h.reguard.reearly (.ite h.rewindow.relayout.relayout h)
theorem stageWord (h : Keeps s₀ s) {a raw} : Keeps s₀ (s.stageWord a raw) := by
  unfold State.stageWord
  split
  · exact .ite h.stage.stageAfter h
  · exact h
theorem stWrite (h : Keeps s₀ s) {a v en} : Keeps s₀ (s.stWrite a v en) := .ite h h.journal.stageWord
theorem execStFieldWrite (h : Keeps s₀ s) {addr value be} : KeepsRes s₀ (Machine.execStFieldWrite addr value be s) :=
  .next (.ite h.stWrite h)

/-! ### The functions of Machine/Formes -/
theorem setForme (h : Keeps s₀ s) {f} : Keeps s₀ (s.setForme f) := h.withForme
theorem sessionOpens (h : Keeps s₀ s) {n} : Keeps s₀ (s.sessionOpens n) := .each h.setForme (fun _ _ h => h.updTables)
theorem openWritten (h : Keeps s₀ s) {n} : Keeps s₀ (s.openWritten n) := .ite h (.ite h.setForme h.sessionOpens)
theorem pendingOpens (h : Keeps s₀ s) : Keeps s₀ s.pendingOpens := by
  unfold State.pendingOpens
  split
  · exact .ite h h.sessionOpens
  · exact h
theorem abandonWritten (h : Keeps s₀ s) : Keeps s₀ s.abandonWritten := by
  have h1 {t : State} (h : Keeps s₀ t) : Keeps s₀ { t with staged := t.takeCopy t.staged t.active } :=
    h.withStaged fun c => swf_takeCopy _ c.staged c.active
  refine .withForme (h1 (.each ?_ (fun _ _ h => .each h (fun _ _ h => h.updCore))))
  split
  · exact .each h (fun _ _ h => h.flushSession.abandonTables)
  · exact .each h (fun _ _ h => .each h (fun _ _ h => h.abortCmds))
  · exact h
theorem clampsCleared (h : Keeps s₀ s) : Keeps s₀ s.clampsCleared := h.withRegs fun c => swf_filter _ _ c.regs
theorem persistDone (h : Keeps s₀ s) {b code} : Keeps s₀ (s.persistDone b code) := .ite h.setForme.count h.setForme.count
theorem persistStarts (h : Keeps s₀ s) {n} : Keeps s₀ (s.persistStarts n) := .ite h.persistDone (.ite h.persistDone h.setForme)
theorem persistEnds (h : Keeps s₀ s) {flashError} : Keeps s₀ (s.persistEnds flashError) := by
  unfold State.persistEnds
  split
  · exact h
  · exact .ite h.persistDone (.ite h.persistDone h.drawScalar.draw.setForme.persistDone)
theorem shaperResetDue (h : Keeps s₀ s) {old w p n} : Keeps s₀ (State.shaperResetDue old s w p n) := .ite h h.updPress
theorem portRestart (h : Keeps s₀ s) {old w p} : Keeps s₀ (State.portRestart old s w p) :=
  .each h.linkFalls.dropQueued.updPort (fun _ _ h => h.shaperResetDue)
theorem gateSwitch (h : Keeps s₀ s) {w p} : Keeps s₀ (s.gateSwitch w p) :=
  .ite h.updPress (.ite h.updPress (.noteClamp ((h.updPress.withActive fun c => swf_sput _ _ _ _ (swf_sput _ _ _ _ c.active)).withStaged
    fun c => swf_sput _ _ _ _ (swf_sput _ _ _ _ c.staged))))
theorem switchReg (h : Keeps s₀ s) {old a} : Keeps s₀ (State.switchReg old s a) := by
  unfold State.switchReg
  dsimp only
  split
  · exact h
  · exact .ite h.shaperResetDue (.ite h.updPress (.ite h.portRestart (.ite h.updCourse (.ite h.snapStream h))))
theorem pauseCourses (h : Keeps s₀ s) {w} : Keeps s₀ (s.pauseCourses w) :=
  .each h (fun _ _ h => .each (.onlyIf h (fun _ h => h.updCourse)) (fun _ _ h => h.updCore))
theorem ledgerLock (h : Keeps s₀ s) {w n prev digest} : Keeps s₀ (s.ledgerLock w n prev digest) := h.record.sealReq
theorem switchWythe (h : Keeps s₀ s) {before n digest w} : Keeps s₀ (State.switchWythe before n digest s w) :=
  .updWy (.each (.quoinSwitch (.pauseCourses (.each h.updWy.switchTrie.ledgerLock (fun _ _ h => .onlyIf h (fun _ h => h.relaySwitch)))))
    (fun _ _ h => .onlyIf h (fun _ h => h.gateSwitch)))
theorem lockUp (h : Keeps s₀ s) {n persist digest} : Keeps s₀ (s.lockUp n persist digest) := by
  have h1 {f} : Keeps s₀ { s with previous := s.takeCopy s.previous s.active, active := s.takeCopy s.active s.staged, forme := f } :=
    h.of rfl fun c => ⟨c.regs, c.staged, swf_takeCopy _ c.active c.staged, swf_takeCopy _ c.previous c.active, c.counters⟩
  exact .onlyIf (.maybe (.setForme (.count (.each (.each (.each h1 (fun _ _ h => h.switchWythe)) (fun _ _ h => h.switchReg)) (fun _ _ h => h.wr))))
    (fun h => h.rejoinComplete)) (fun _ h => h.persistStarts)
theorem lockWritten (h : Keeps s₀ s) : Keeps s₀ s.lockWritten := .ite h h.setForme
theorem validationEnds (h : Keeps s₀ s) : Keeps s₀ s.validationEnds := by
  unfold State.validationEnds
  split
  · exact h
  · exact .ite (.lockUp (.each h.setForme (fun _ _ h => h.flushSession))) h.setForme.setForme.count
theorem loadSections (h : Keeps s₀ s) {k b} : Keeps s₀ (s.loadSections k b) :=
  .each h (fun _ _ h => .each h (fun _ _ h => .ite h.updCore (.ite h.updCore h.setBankBytes)))
theorem loadCourse (h : Keeps s₀ s) {w c} : Keeps s₀ (s.loadCourse w c) :=
  .each (.updCourse (.each (.each (.closeOwned (.each h (fun _ _ h => h.endTasks.cpReset.quoinReset))) (fun _ _ h => h.updCore)) (fun _ _ h
    => by split; exacts [h.loadSections, h]))) (fun _ _ h => .startCore (.each h (fun _ _ h => h.updCtx)))
theorem imageLoads (h : Keeps s₀ s) {w c} : Keeps s₀ (s.imageLoads w c) := .ite h (.ite h.loadCourse h.updCourse)
theorem drainWythe (h : Keeps s₀ s) {w f} : Keeps s₀ (s.drainWythe w f) :=
  .updWy (.count (.each (.each (.updTie (.dropQueued (.each (.updPress (.collDrain (.each (.each h (fun _ _ h => h.updCourse)) (fun _ _ h =>
    h.discardSlot.drop)))) (fun _ _ h => h.dropCopy)))) (fun _ _ h => h.tieOriginal.drop)) (fun _ _ h =>
    h.tieOriginal.tieFree.dropTargets)))
theorem drainExpires (h : Keeps s₀ s) : Keeps s₀ s.drainExpires := .each h (fun _ _ h => by
  dsimp only
  split
  · exact .ite h.drainWythe h
  · exact h)
theorem sweepStarts (h : Keeps s₀ s) {w} : Keeps s₀ (s.sweepStarts w) := by
  unfold State.sweepStarts
  dsimp only
  split
  · exact .ite h.updWy h
  · exact h
theorem sweepEnds (h : Keeps s₀ s) {w} : Keeps s₀ (s.sweepEnds w) := .ite h (.onlyIf h.sweepTables.updWy.setForme (fun _ h => h.count))
theorem applyEntry (h : Keeps s₀ s) {b} : KeepsOpt s₀ (s.applyEntry b) := by
  unfold State.applyEntry
  split
  · exact .some h.stageWord
  · exact .some (.ite h.runCmd h)
  · exact .some h
  · exact .some (.ite h.verifyImage.holdImage h.verifyImage.setForme)
  · exact .none
theorem applyEntries (h : Keeps s₀ s) {n b} : Keeps s₀ (State.applyEntries n b s) := by
  induction n generalizing b s with
  | zero => exact h
  | succ n ih =>
    unfold State.applyEntries
    split
    · exact h
    · next e => exact ih (of_eq_opt e h.applyEntry)
theorem restoreSlot (h : Keeps s₀ s) {b} : Keeps s₀ (s.restoreSlot b) :=
  .setForme (.applyEntries (.each h.sessionOpens (fun _ _ h => h.rootCopied)))
theorem execOpenSession (h : Keeps s₀ s) {number} : KeepsRes s₀ (Machine.execOpenSession number s) := .next h.openWritten
theorem execPendingSessionOpen (h : Keeps s₀ s) : KeepsRes s₀ (Machine.execPendingSessionOpen s) := .next h.pendingOpens
theorem execAbandon (h : Keeps s₀ s) : KeepsRes s₀ (Machine.execAbandon s) := .next h.abandonWritten
theorem execClampClear (h : Keeps s₀ s) {a} : KeepsRes s₀ (Machine.execClampClear a s) := .next (.viaGlobal h (fun _ h => h.clampsCleared))
theorem execLockGo (h : Keeps s₀ s) : KeepsRes s₀ (Machine.execLockGo s) := .next h.lockWritten
theorem execLockupValidationEnd (h : Keeps s₀ s) : KeepsRes s₀ (Machine.execLockupValidationEnd s) := .next h.validationEnds
theorem execCourseImageLoad (h : Keeps s₀ s) {w c} : KeepsRes s₀ (Machine.execCourseImageLoad w c s) := .next h.imageLoads
theorem execDrainLimitExpiry (h : Keeps s₀ s) : KeepsRes s₀ (Machine.execDrainLimitExpiry s) := .next h.drainExpires
theorem execSweepStart (h : Keeps s₀ s) {w} : KeepsRes s₀ (Machine.execSweepStart w s) := .next h.sweepStarts
theorem execSweepEnd (h : Keeps s₀ s) {w} : KeepsRes s₀ (Machine.execSweepEnd w s) := .next h.sweepEnds
theorem execPersistEnd (h : Keeps s₀ s) {flashError} : KeepsRes s₀ (Machine.execPersistEnd flashError s) := .next h.persistEnds

/-! ### The functions of Machine/March -/
theorem updMarch (h : Keeps s₀ s) {w e f} : Keeps s₀ (s.updMarch w e f) := h.updWy
theorem marchResult (h : Keeps s₀ s) {w e st} : Keeps s₀ (s.marchResult w e st) :=
  .maybe h.updMarch.count.raiseBit (fun h => h.count.raiseBit)
theorem marchBegin (h : Keeps s₀ s) {w e t preserving} : Keeps s₀ (s.marchBegin w e t preserving) := h.updMarch
theorem marchStore (h : Keeps s₀ s) {w v} : Keeps s₀ (s.marchStore w v) := by
  unfold State.marchStore
  dsimp only
  split
  · exact h.marchResult
  · exact .ite h.marchResult (.ite h.marchResult (.ite h.marchResult h.marchBegin))
theorem zeroCourse (h : Keeps s₀ s) {w c} : Keeps s₀ (s.zeroCourse w c) :=
  .each h.updCourse (fun _ _ h => .updCore (.each h (fun _ _ h => h.updTcb)))
theorem setBlock (h : Keeps s₀ s) {w t n} : Keeps s₀ (s.setBlock w t n) := by
  unfold State.setBlock
  dsimp only
  split
  · exact h.updGalley
  · exact h.updTables
  · exact h.updTables
  · exact h.updTables
  · exact h.updTables
  · exact h.updTables
  · exact h.updColl.updPress
theorem marchZero (h : Keeps s₀ s) {w t} : Keeps s₀ (s.marchZero w t) := .ite h.zeroCourse (.each h (fun _ _ h => h.setBlock))
theorem marchUndef (h : Keeps s₀ s) {w t} : Keeps s₀ (s.marchUndef w t) :=
  .ite (.each h.withFree.updCourse (fun _ _ h => .updCore (.each h (fun _ _ h => h.updTcb)))) (.each h.withFree (fun _ _ h => h.setBlock))
theorem marchEnds (h : Keeps s₀ s) {w e f} : Keeps s₀ (s.marchEnds w e f) :=
  .ite h (.ite h.updMarch.bankRefused.marchResult (.marchResult (.onlyIf (.orElse (.onlyIf h.updMarch.updWy (fun _ h => h.count)) (fun h =>
    h.marchZero)) (fun _ h => h.updMarch))))
theorem marchAbortAll (h : Keeps s₀ s) {w} : Keeps s₀ (s.marchAbortAll w) :=
  .each h (fun _ _ h => .ite h (.marchResult (.ite h.updMarch h.updMarch.marchUndef)))
theorem execMarchCmd (h : Keeps s₀ s) {a w value} : KeepsRes s₀ (Machine.execMarchCmd a w value s) :=
  .next (.viaPage h (fun _ h => h.marchStore))
theorem execMarchEnd (h : Keeps s₀ s) {w e found} : KeepsRes s₀ (Machine.execMarchEnd w e found s) := .next h.marchEnds

/-! ### The functions of Machine/PageCtl -/
theorem formeAbort (h : Keeps s₀ s) : Keeps s₀ s.formeAbort := by
  unfold State.formeAbort
  dsimp only
  split
  · exact .persistDone (.ite h.draw.setForme.count h.draw)
  · exact .ite h.draw.setForme.count h.draw
theorem mboxAbort (h : Keeps s₀ s) : Keeps s₀ s.mboxAbort := h.withPlinth
theorem pageAbort (h : Keeps s₀ s) {pg} : Keeps s₀ (s.pageAbort pg) := by
  unfold State.pageAbort
  dsimp only
  split
  · exact h.mboxAbort
  · exact h.formeAbort
  · exact h.qpAbort
  · exact h.compAbort
  · exact h.caseAbortAll
  · exact h.tableAbortAll
  · exact h.tableAbortAll
  · exact h.tableAbortAll
  · exact h.galleyAbortMoves
  · exact h.collAbort
  · exact h.marchAbortAll
  · exact h.quoinAbortAll
  · exact h.cpAbort
  · exact h.abortCore
  · exact .ite h.portAbortFifo h
  · exact h.dropQueued
  · exact h.count.dropQueued
  · exact h
theorem ctrlStore (h : Keeps s₀ s) {pg base v} : Keeps s₀ (s.ctrlStore pg base v) :=
  .ite h (.maybe (.wr (.ite (.clampsCleared (.ite h.pageAbort h)) (.maybe (.ite h.pageAbort h) (fun h => h.settleConflicts)))) (fun h =>
    h.enableCore))
theorem ctrlWrite (h : Keeps s₀ s) {a base v} : Keeps s₀ (s.ctrlWrite a base v) := by
  unfold State.ctrlWrite
  split
  · exact .ite h.ctrlStore h
  · exact h
theorem ctrlDisable (h : Keeps s₀ s) {a base} : Keeps s₀ (s.ctrlDisable a base) := h.ctrlWrite
theorem ctrlAbort (h : Keeps s₀ s) {a base} : Keeps s₀ (s.ctrlAbort a base) := h.ctrlWrite
theorem execFreezeCounters (h : Keeps s₀ s) {a addr on} : KeepsRes s₀ (Machine.execFreezeCounters a addr on s) := .next h.ctrlWrite
theorem execDisable (h : Keeps s₀ s) {a addr} : KeepsRes s₀ (Machine.execDisable a addr s) := .next h.ctrlDisable
theorem execAbort (h : Keeps s₀ s) {a addr} : KeepsRes s₀ (Machine.execAbort a addr s) := .next h.ctrlAbort
theorem execCompositorDisable (h : Keeps s₀ s) {a w} : KeepsRes s₀ (Machine.execCompositorDisable a w s) := .next h.ctrlDisable
theorem execCompositorAbort (h : Keeps s₀ s) {a w} : KeepsRes s₀ (Machine.execCompositorAbort a w s) := .next h.ctrlAbort
theorem execCaseEngineDisable (h : Keeps s₀ s) {a w} : KeepsRes s₀ (Machine.execCaseEngineDisable a w s) := .next h.ctrlDisable
theorem execCaseEngineAbort (h : Keeps s₀ s) {a w} : KeepsRes s₀ (Machine.execCaseEngineAbort a w s) := .next h.ctrlAbort
theorem execTableDisable (h : Keeps s₀ s) {a w t} : KeepsRes s₀ (Machine.execTableDisable a w t s) := .next h.ctrlDisable
theorem execTableAbort (h : Keeps s₀ s) {a w t} : KeepsRes s₀ (Machine.execTableAbort a w t s) := .next h.ctrlAbort
theorem execGalleyDisable (h : Keeps s₀ s) {a w} : KeepsRes s₀ (Machine.execGalleyDisable a w s) := .next h.ctrlDisable
theorem execGalleyAbort (h : Keeps s₀ s) {a w} : KeepsRes s₀ (Machine.execGalleyAbort a w s) := .next h.ctrlAbort
theorem execCollatorDisable (h : Keeps s₀ s) {a w} : KeepsRes s₀ (Machine.execCollatorDisable a w s) := .next h.ctrlDisable
theorem execCollatorAbort (h : Keeps s₀ s) {a w} : KeepsRes s₀ (Machine.execCollatorAbort a w s) := .next h.ctrlAbort
theorem execCoprocDisable (h : Keeps s₀ s) {a w c} : KeepsRes s₀ (Machine.execCoprocDisable a w c s) := .next h.ctrlDisable
theorem execCoprocAbort (h : Keeps s₀ s) {a w c} : KeepsRes s₀ (Machine.execCoprocAbort a w c s) := .next h.ctrlAbort
theorem execMarchDisable (h : Keeps s₀ s) {a w} : KeepsRes s₀ (Machine.execMarchDisable a w s) := .next h.ctrlDisable
theorem execMarchAbort (h : Keeps s₀ s) {a w} : KeepsRes s₀ (Machine.execMarchAbort a w s) := .next h.ctrlAbort
theorem execQuoinDisable (h : Keeps s₀ s) {a w} : KeepsRes s₀ (Machine.execQuoinDisable a w s) := .next h.ctrlDisable
theorem execQuoinAbort (h : Keeps s₀ s) {a w} : KeepsRes s₀ (Machine.execQuoinAbort a w s) := .next h.ctrlAbort
theorem execPressDisable (h : Keeps s₀ s) {a w} : KeepsRes s₀ (Machine.execPressDisable a w s) := .next h.ctrlDisable
theorem execPressAbort (h : Keeps s₀ s) {a w} : KeepsRes s₀ (Machine.execPressAbort a w s) := .next h.ctrlAbort
theorem execPressPortDisable (h : Keeps s₀ s) {a w p} : KeepsRes s₀ (Machine.execPressPortDisable a w p s) := .next h.ctrlDisable
theorem execPressPortAbort (h : Keeps s₀ s) {a w p} : KeepsRes s₀ (Machine.execPressPortAbort a w p s) := .next h.ctrlAbort
theorem execPortDisable (h : Keeps s₀ s) {a w p} : KeepsRes s₀ (Machine.execPortDisable a w p s) := .next h.ctrlDisable
theorem execPortAbort (h : Keeps s₀ s) {a w p} : KeepsRes s₀ (Machine.execPortAbort a w p s) := .next h.ctrlAbort

/-! ### The functions of Machine/Lifecycle -/
theorem lifecycleRecord (h : Keeps s₀ s) {w old new cause digest} : Keeps s₀ (s.lifecycleRecord w old new cause digest) := h.record
theorem lifecycleChanged (h : Keeps s₀ s) {w} : Keeps s₀ (s.lifecycleChanged w) := h.raiseBit.notice
theorem leaveService (h : Keeps s₀ s) {w cause} : Keeps s₀ (s.leaveService w cause) :=
  .ite h h.updDs.lifecycleRecord.sealReq.lifecycleChanged.debugLeavesService
theorem commissionOne (h : Keeps s₀ s) {w auth digest} : Keeps s₀ (s.commissionOne w auth digest) :=
  .lifecycleChanged (.sealReq (.lifecycleRecord (.updDs (.each h.drawScalar (fun _ _ h => h.setCtr)))))
theorem serviceOne (h : Keeps s₀ s) {w minutes digest} : Keeps s₀ (s.serviceOne w minutes digest) := h.record.sealReq.updDs.lifecycleChanged
theorem retireOne (h : Keeps s₀ s) {w digest} : Keeps s₀ (s.retireOne w digest) := h.lifecycleRecord.sealReq.updDs.lifecycleChanged
theorem keyOne (h : Keeps s₀ s) {w f digest} : Keeps s₀ (s.keyOne w f digest) := h.updDs.lifecycleRecord
theorem tokenActs (h : Keeps s₀ s) {t} : Keeps s₀ (s.tokenActs t) := by
  unfold State.tokenActs
  dsimp only
  split
  · exact .each h (fun _ _ h => h.commissionOne)
  · exact .each h (fun _ _ h => h.serviceOne)
  · exact .each h (fun _ _ h => h.retireOne)
  · exact .each h (fun _ _ h => h.keyOne)
  · exact .each h (fun _ _ h => h.keyOne)
  · exact .each h (fun _ _ h => h.updDs)
theorem tokenJudged (h : Keeps s₀ s) {w} : Keeps s₀ (s.tokenJudged w) :=
  .raiseBit (.count (.updDs (.maybe (.onlyIf h (fun _ h => h.updDs)) (fun h => h.tokenActs))))
theorem tokenRow (h : Keeps s₀ s) {w p} : Keeps s₀ (s.tokenRow w p) := .ite h.tokenJudged h
theorem leaveWritten (h : Keeps s₀ s) : Keeps s₀ s.leaveWritten := .ite (.each h (fun _ _ h => h.leaveService)) h
theorem serviceExpires (h : Keeps s₀ s) {w} : Keeps s₀ (s.serviceExpires w) := .ite (.each h (fun _ _ h => h.leaveService)) h
theorem tamperRecord (h : Keeps s₀ s) {w source phase reading} : Keeps s₀ (s.tamperRecord w source phase reading) :=
  .ite (.ite h.updDs h) h.record
theorem closeMetered (h : Keeps s₀ s) {w source} : Keeps s₀ (s.closeMetered w source) := h.updDs.dropQueued
theorem tamperAsserts (h : Keeps s₀ s) {w source reading} : Keeps s₀ (s.tamperAsserts w source reading) :=
  .ite h (.onlyIf (.count (.tamperRecord (.onlyIf h.updDs (fun _ h => h.closeMetered)))) (fun _ h => h.raiseBit))
theorem tamperClears (h : Keeps s₀ s) {w source reading} : Keeps s₀ (s.tamperClears w source reading) := .ite h h.updDs.tamperRecord
theorem tamperReopens (h : Keeps s₀ s) {w source} : Keeps s₀ (s.tamperReopens w source) := .ite h h.updDs.tamperRecord
theorem tamperReopenAll (h : Keeps s₀ s) {w mask} : Keeps s₀ (s.tamperReopenAll w mask) := .each h (fun _ _ h => h.tamperReopens)
theorem linksUp (h : Keeps s₀ s) : Keeps s₀ s.linksUp := .onlyIf h.tieLinks (fun _ h => h.debugLeavesService)
theorem execCommission (h : Keeps s₀ s) {w} : KeepsRes s₀ (Machine.execCommission w s) := .next h.tokenRow
theorem execEnterService (h : Keeps s₀ s) {w} : KeepsRes s₀ (Machine.execEnterService w s) := .next h.tokenRow
theorem execRetire (h : Keeps s₀ s) {w} : KeepsRes s₀ (Machine.execRetire w s) := .next h.tokenRow
theorem execAddImageKey (h : Keeps s₀ s) {w} : KeepsRes s₀ (Machine.execAddImageKey w s) := .next h.tokenRow
theorem execRevokeImageKey (h : Keeps s₀ s) {w} : KeepsRes s₀ (Machine.execRevokeImageKey w s) := .next h.tokenRow
theorem execSetTamper (h : Keeps s₀ s) {w} : KeepsRes s₀ (Machine.execSetTamper w s) := .next h.tokenRow
theorem execLeave (h : Keeps s₀ s) {a} : KeepsRes s₀ (Machine.execLeave a s) := .next (.viaPage h (fun _ h => h.leaveWritten))
theorem execServiceExpiry (h : Keeps s₀ s) {w} : KeepsRes s₀ (Machine.execServiceExpiry w s) := .next h.serviceExpires
theorem execTamperAssert (h : Keeps s₀ s) {w source reading} : KeepsRes s₀ (Machine.execTamperAssert w source reading s) :=
  .next h.tamperAsserts
theorem execTamperClear (h : Keeps s₀ s) {w source reading} : KeepsRes s₀ (Machine.execTamperClear w source reading s) :=
  .next h.tamperClears
theorem execTamperReopen (h : Keeps s₀ s) {a w mask} : KeepsRes s₀ (Machine.execTamperReopen a w mask s) :=
  .next (.viaPage h (fun _ h => h.tamperReopenAll))
theorem execLinked (h : Keeps s₀ s) : KeepsRes s₀ (Machine.execLinked s) := .next h.linksUp

/-! ### The functions of Machine/Reset -/
theorem saveKeep (h : Keeps s₀ s) : Keeps s₀ s.saveKeep := .other h
theorem restoreOne (h : Keeps s₀ s) {e} : Keeps s₀ (s.restoreOne e) :=
  .ite h.wr (.ite ((h.withStaged fun c => swf_sput _ _ _ _ c.staged).withActive fun c => swf_sput _ _ _ _ c.active) h)
theorem applyKept (h : Keeps s₀ s) : Keeps s₀ s.applyKept :=
  .each (.each h (fun _ _ h => h.updClock)) (fun _ _ h => .each h (fun _ _ h => h.updCourse))
theorem restoreKept (h : Keeps s₀ s) : Keeps s₀ s.restoreKept := .applyKept (.each h (fun _ _ h => h.restoreOne))
theorem deviceReset (h : Keeps s₀ s) : Keeps s₀ s.deviceReset :=
  h.of rfl fun c => ⟨swf_filter _ _ c.regs, rfl, rfl, rfl, swf_filter _ _ c.counters⟩
theorem shutdownCut (h : Keeps s₀ s) : Keeps s₀ s.shutdownCut := h.withModes
theorem resetWith (h : Keeps s₀ s) {code} : Keeps s₀ (s.resetWith code) := .ite h h.shutdownCut.deviceReset.withModes
theorem railsFall (h : Keeps s₀ s) : Keeps s₀ s.railsFall := .ite h (.withModes (.each h.shutdownCut.deviceReset (fun _ _ h => h.updWy)))
theorem railsRise (h : Keeps s₀ s) : Keeps s₀ s.railsRise := .ite h (.withModes (.each h (fun _ _ h => h.updWy)))
theorem vkeepFalls (h : Keeps s₀ s) : Keeps s₀ s.vkeepFalls := by
  unfold State.vkeepFalls
  exact (Keeps.each h.draw.draw.updDs.updDs (fun _ _ h => h.updWy)).of rfl fun c =>
    ⟨swf_filter _ _ c.regs, c.staged, c.active, c.previous, swf_filter _ _ c.counters⟩
theorem execResetN (h : Keeps s₀ s) : KeepsRes s₀ (Machine.execResetN s) := .next h.resetWith
theorem execResetCmd (h : Keeps s₀ s) {a value} : KeepsRes s₀ (Machine.execResetCmd a value s) :=
  .next (.viaGlobal h (fun _ h => .ite h.resetWith h))
theorem execSupply (h : Keeps s₀ s) : KeepsRes s₀ (Machine.execSupply s) := .next (.ite h.resetWith h)
theorem execPowerOn (h : Keeps s₀ s) : KeepsRes s₀ (Machine.execPowerOn s) := .next h.railsRise
theorem execMainRailsFall (h : Keeps s₀ s) : KeepsRes s₀ (Machine.execMainRailsFall s) := .next h.railsFall
theorem execVkeepLoss (h : Keeps s₀ s) : KeepsRes s₀ (Machine.execVkeepLoss s) := .next h.vkeepFalls

/-! ### The functions of Machine/Modes -/
theorem setModes (h : Keeps s₀ s) {f} : Keeps s₀ (s.setModes f) := h.withModes
theorem setProof (h : Keeps s₀ s) {f} : Keeps s₀ (s.setProof f) := h.withProof
theorem driveAck (h : Keeps s₀ s) : Keeps s₀ s.driveAck := h.setModes
theorem proofBegins (h : Keeps s₀ s) {why parts} : Keeps s₀ (s.proofBegins why parts) := .setProof (.each h (fun _ _ h => h.enterMode))
theorem shutdownProves (h : Keeps s₀ s) : Keeps s₀ s.shutdownProves := .ite h.setModes.proofBegins h
theorem shutdownSaves (h : Keeps s₀ s) : Keeps s₀ s.shutdownSaves := .shutdownProves (.setModes (.each h.saveKeep (fun _ _ h => h.sealReq)))
theorem shutdownDone (h : Keeps s₀ s) : Keeps s₀ s.shutdownDone := h.setModes.driveAck.count.raiseBit
theorem onBanks (h : Keeps s₀ s) {w st} : Keeps s₀ (s.onBanks w st) :=
  .each h (fun _ _ h => .each h (fun _ _ h => .onlyIf h (fun _ h => h.updCourse)))
theorem dormantEnters (h : Keeps s₀ s) : Keeps s₀ s.dormantEnters :=
  .count (.setModes (.each h (fun _ _ h => .updTie (.each (.each h.enterMode.onBanks (fun _ _ h => h.updCh)) (fun _ _ h => h.linkFalls)))))
theorem openOutputs (h : Keeps s₀ s) {w} : Keeps s₀ (s.openOutputs w) := h.updWy
theorem requestClamped (h : Keeps s₀ s) {m} : Keeps s₀ (s.requestClamped m) := h.wr.noteClamp.count.raiseBit
theorem closed (h : Keeps s₀ s) {target} : Keeps s₀ (s.closed target) := by
  unfold State.closed
  dsimp only
  split
  · exact .ite (.requestClamped (.each h.setModes (fun _ _ h => .onlyIf h (fun _ h => h.openOutputs)))) h.setModes.dormantEnters
  · exact h.setModes.shutdownSaves
  · exact .each h.setModes (fun _ _ h => .ite h.updWy h.enterMode)
theorem closeFor (h : Keeps s₀ s) {target} : Keeps s₀ (s.closeFor target) := .ite h.closed h.setModes
theorem goMode (h : Keeps s₀ s) {cur target} : Keeps s₀ (s.goMode cur target) := by
  unfold State.goMode
  refine .ite h ?_
  split
  · exact h.proofBegins
  · exact .each h (fun _ _ h => h.enterMode.openOutputs)
  · exact .each h (fun _ _ h => h.enterMode.openOutputs)
  · exact h.closeFor
  · exact h.closeFor
  · exact h
theorem applyRequest (h : Keeps s₀ s) : Keeps s₀ s.applyRequest := .goMode (.ite h.setModes h.setModes.requestClamped)
theorem shutdownStarts (h : Keeps s₀ s) : Keeps s₀ s.shutdownStarts := .ite h (.ite h.setModes h.setModes.closeFor)
theorem changeEnds (h : Keeps s₀ s) : Keeps s₀ s.changeEnds := .ite h.shutdownStarts (.ite h h.applyRequest)
theorem requestMode (h : Keeps s₀ s) {code} : Keeps s₀ (s.requestMode code) := .ite h.wr.setModes h.wr.applyRequest
theorem outputsClose (h : Keeps s₀ s) {w} : Keeps s₀ (s.outputsClose w) := by
  unfold State.outputsClose
  split
  · exact h
  · exact .ite h (.ite h.dropQueued.updWy.closed.changeEnds h.dropQueued.updWy)
theorem wakes (h : Keeps s₀ s) {cause index tieTrains} : Keeps s₀ (s.wakes cause index tieTrains) :=
  .ite h (.changeEnds (.raiseBit (.setModes (.onlyIf (.each h (fun _ _ h => .updTie (.maybe (.enterMode (.each h.onBanks (fun _ _ h =>
    h.updCh))) (fun h => h.openOutputs)))) (fun _ h => .each h (fun _ _ h => h.loseTie))))))
theorem gpioMoves (h : Keeps s₀ s) {g rising} : Keeps s₀ (s.gpioMoves g rising) :=
  .ite h (.ite h.setModes (.each h.setModes.raiseBit (fun _ _ h => h.postBindings.interruptEnabled)))
theorem execRequestProof (h : Keeps s₀ s) {a} : KeepsRes s₀ (Machine.execRequestProof a s) :=
  .next (.viaGlobal h (fun _ h => h.requestMode))
theorem execRequestSetting (h : Keeps s₀ s) {a} : KeepsRes s₀ (Machine.execRequestSetting a s) :=
  .next (.viaGlobal h (fun _ h => h.requestMode))
theorem execRequestRun (h : Keeps s₀ s) {a} : KeepsRes s₀ (Machine.execRequestRun a s) := .next (.viaGlobal h (fun _ h => h.requestMode))
theorem execRequestPlumb (h : Keeps s₀ s) {a} : KeepsRes s₀ (Machine.execRequestPlumb a s) :=
  .next (.viaGlobal h (fun _ h => h.requestMode))
theorem execRequestDormant (h : Keeps s₀ s) {a} : KeepsRes s₀ (Machine.execRequestDormant a s) :=
  .next (.viaGlobal h (fun _ h => h.requestMode))
theorem execRequestOff (h : Keeps s₀ s) {a} : KeepsRes s₀ (Machine.execRequestOff a s) := .next (.viaGlobal h (fun _ h => h.requestMode))
theorem execRequestHalf (h : Keeps s₀ s) {a} : KeepsRes s₀ (Machine.execRequestHalf a s) := .next (.viaGlobal h (fun _ h => h.requestMode))
theorem execRequestBrace (h : Keeps s₀ s) {a} : KeepsRes s₀ (Machine.execRequestBrace a s) :=
  .next (.viaGlobal h (fun _ h => h.requestMode))
theorem execOutputsClosed (h : Keeps s₀ s) {w} : KeepsRes s₀ (Machine.execOutputsClosed w s) := .next h.outputsClose
theorem execWake (h : Keeps s₀ s) {cause index tieTrains} : KeepsRes s₀ (Machine.execWake cause index tieTrains s) := .next h.wakes
theorem execShutdnReq (h : Keeps s₀ s) : KeepsRes s₀ (Machine.execShutdnReq s) := .next (.ite h.shutdownStarts h)
theorem execShutdownStart (h : Keeps s₀ s) {a} : KeepsRes s₀ (Machine.execShutdownStart a s) :=
  .next (.viaGlobal h (fun _ h => h.shutdownStarts))
theorem execGpioEdge (h : Keeps s₀ s) {g rising} : KeepsRes s₀ (Machine.execGpioEdge g rising s) := .next h.gpioMoves

/-! ### The functions of Machine/ProofBrace -/
theorem holdFailed (h : Keeps s₀ s) {mask quads} : Keeps s₀ (s.holdFailed mask quads) :=
  .each (.each (.each h.setProof (fun _ _ h => .each h (fun _ _ h => .onlyIf h (fun _ h => h.updCourse)))) (fun _ _ h => .each h (fun _ _ h
    => h.linkFalls))) (fun _ _ h => .onlyIf h (fun _ h => h.updDram))
theorem keepUnsigned (h : Keeps s₀ s) {payload} : Keeps s₀ (s.keepUnsigned payload) := h.setProof
theorem proofMeasured (h : Keeps s₀ s) {why parts result mask quads duration temp} :
    Keeps s₀ (s.proofMeasured why parts result mask quads duration temp) :=
  .holdFailed (.raiseBit (.onlyIf (.onlyIf (.count (.onlyIf (.each h.setProof (fun _ _ h => h.record)) (fun _ h => h.keepUnsigned))) (fun _
    h => h.count.raiseBit)) (fun _ h => h.count)))
theorem formeGone (h : Keeps s₀ s) : Keeps s₀ s.formeGone := by
  have h1 : Keeps s₀ { s with
      staged := s.active.filter (fun e => accOf e.1 == some .stKept), active := s.active.filter (fun e => accOf e.1 == some .stKept)
      previous := [] } :=
    h.of rfl fun c => ⟨c.regs, swf_filter _ _ c.active, swf_filter _ _ c.active, rfl, c.counters⟩
  exact .each h1.setForme (fun _ _ h => h.updWy)
theorem proofResets (h : Keeps s₀ s) {parts} : Keeps s₀ (s.proofResets parts) :=
  .formeGone (.maybe (.onlyIf h (fun _ h => .each h (fun _ _ h => .each h (fun _ _ h => h.marchZero)))) (fun h =>
    .plinthReset (.applyKept (h.of rfl fun c => ⟨swf_filter _ _ c.regs, c.staged, c.active, c.previous, swf_filter _ _ c.counters⟩))))
theorem restoreNewest (h : Keeps s₀ s) : Keeps s₀ s.restoreNewest := by
  unfold State.restoreNewest
  split
  · exact h.restoreSlot
  · exact h
theorem enterOrHalf (h : Keeps s₀ s) {m} : Keeps s₀ (s.enterOrHalf m) := .each h (fun _ _ h => .ite h.updWy.enterMode h.enterMode)
theorem afterProof (h : Keeps s₀ s) {why parts} : Keeps s₀ (s.afterProof why parts) := by
  unfold State.afterProof
  dsimp only
  split
  · exact .ite h.proofResets.setModes h.proofResets.shutdownDone
  · exact h.proofResets.restoreNewest.enterOrHalf.changeEnds
theorem proofEnds (h : Keeps s₀ s) {f} : Keeps s₀ (s.proofEnds f) := .ite h h.proofMeasured.afterProof
theorem proofRefused (h : Keeps s₀ s) {duration temp} : Keeps s₀ (s.proofRefused duration temp) := .ite h h.draw.proofMeasured.afterProof
theorem keepRecord (h : Keeps s₀ s) : Keeps s₀ s.keepRecord := .ite h.drawScalar.setProof.shutdownDone h.drawScalar.setProof
theorem braceCompletes (h : Keeps s₀ s) : Keeps s₀ s.braceCompletes := .ite h h.setProof.driveAck
theorem braceLines (h : Keeps s₀ s) {w} : Keeps s₀ (s.braceLines w) :=
  .each (.updPress (.each h (fun _ _ h => h.draw.updRx.frameEnds))) (fun _ _ h => h.updPort)
theorem bracePress (h : Keeps s₀ s) {w} : Keeps s₀ (s.bracePress w) :=
  .marchAbortAll (.dropQueued (.each h.updPress (fun _ _ h => h.dropCopy)))
theorem braceOverrides (h : Keeps s₀ s) : Keeps s₀ s.braceOverrides :=
  .each (.setModes (.setProof (.shutdownCut (.setForme (by split; exacts [h.persistDone, h]))))) (fun _ _ h => .ite h
    h.draw.updDs.updDs.count)
theorem braceRecords (h : Keeps s₀ s) {waiting} : Keeps s₀ (s.braceRecords waiting) := .each h.draw.saveKeep (fun _ _ h => h.record.sealReq)
theorem powerFails (h : Keeps s₀ s) : Keeps s₀ s.powerFails :=
  .ite h (.ite h.setModes (.braceCompletes (.braceRecords (.withPlinth (.each (.each h.setModes.setProof.braceOverrides (fun _ _ h =>
    h.braceLines.bracePress)) (fun _ _ h => h.enterMode.updWy))))))
theorem powerReturns (h : Keeps s₀ s) : Keeps s₀ s.powerReturns := .ite h.setModes (.each h.setModes.setProof (fun _ _ h => h.updDs))
theorem imageWritten (h : Keeps s₀ s) : Keeps s₀ s.imageWritten :=
  .ite h (.maybe (.setProof (.each h (fun _ _ h => h.updDs))) (fun h => h.resetWith))
theorem execRecordAppend (h : Keeps s₀ s) {w} : KeepsRes s₀ (Machine.execRecordAppend w s) :=
  .next (.braceCompletes (.onlyIf (.ite h.appendNext.withForme h.appendNext) (fun _ h => h.keepRecord)))
theorem execSealAttachment (h : Keeps s₀ s) {w} : KeepsRes s₀ (Machine.execSealAttachment w s) :=
  .next h.attachSeal.shutdownProves.braceCompletes
theorem execProofEnd (h : Keeps s₀ s) {found} : KeepsRes s₀ (Machine.execProofEnd found s) := .next h.proofEnds
theorem execOutOfRange (h : Keeps s₀ s) {duration temperature} : KeepsRes s₀ (Machine.execOutOfRange duration temperature s) :=
  .next h.proofRefused
theorem execPwrfail (h : Keeps s₀ s) : KeepsRes s₀ (Machine.execPwrfail s) := .next h.powerFails
theorem execBraceImageWritten (h : Keeps s₀ s) : KeepsRes s₀ (Machine.execBraceImageWritten s) := .next h.imageWritten
theorem execPowerReturn (h : Keeps s₀ s) : KeepsRes s₀ (Machine.execPowerReturn s) := .next h.powerReturns

/-! ### The functions of Machine/StartUp -/
theorem resumeLost (h : Keeps s₀ s) {w} : Keeps s₀ (s.resumeLost w).2 := .updDs (.each h (fun _ _ h => h.setCtr))
theorem ledgerOff (h : Keeps s₀ s) {w} : Keeps s₀ (s.ledgerOff w) :=
  .onlyIf (.each h.updDs (fun _ _ h => by split <;> exact h.enterIntake)) (fun _ h => h.raiseBit)
theorem startDatestone (h : Keeps s₀ s) {w intact copyB fw cause} : Keeps s₀ (s.startDatestone w intact copyB fw cause) :=
  .ledgerOff (.record (.updDs (.onlyIf (.ite2 h.updDs h.updDs.resumeLost) (fun _ h => h.appendRecord.periodicSeal))))
theorem startDatestones (h : Keeps s₀ s) {i intact cause} : Keeps s₀ (s.startDatestones i intact cause).2 := by
  unfold State.startDatestones
  dsimp only
  split
  · exact h.startDatestone.startDatestone
  · exact h.updDs.updDs
theorem freshness (h : Keeps s₀ s) {temp} : Keeps s₀ (s.freshness temp).2 := h.setProof
theorem trainDram (h : Keeps s₀ s) {w warm i failed} : Keeps s₀ (s.trainDram w warm i failed) :=
  .onlyIf (.orElse (.each h.updDram (fun _ _ h => h.updCh)) (fun h => h.withKeep)) (fun _ h => h.raiseBit)
theorem lockRestored (h : Keeps s₀ s) : Keeps s₀ s.lockRestored.2 := by
  unfold State.lockRestored
  extract_lets n code s1
  have h1 : Keeps s₀ s1 := h.lockUp
  clear_value s1
  split
  · dsimp only
    exact .each h1 (fun _ _ h => .each h (fun _ _ h => h.imageLoads))
  · exact h.setForme.count
theorem startForme (h : Keeps s₀ s) {last inRange mask quads} : Keeps s₀ (s.startForme last inRange mask quads) := by
  unfold State.startForme
  split
  · exact h.enterOrHalf
  · exact .ite (.ite (.each h.restoreSlot.lockRestored.setModes.enterOrHalf (fun _ _ h => h.openOutputs))
    h.restoreSlot.lockRestored.enterOrHalf) h.restoreSlot.enterOrHalf
theorem startRest (h : Keeps s₀ s) {i intact} : Keeps s₀ (s.startRest i intact) :=
  .startForme (.setModes (.each (.proofMeasured (.draw (.freshness (.setModes (.restoreKept (.ite h (by split <;> exact .other h))))))) (fun
    _ _ h => h.trainDram)))
theorem startUp (h : Keeps s₀ s) {i} : Keeps s₀ (s.startUp i) :=
  .ite h (.changeEnds (.ite (.startRest (.each (.startDatestones (.each h.setModes (fun _ _ h => h.updWy))) (fun _ _ h => .ite h.updTie
    h.tieFalls))) (.each (.each (.startDatestones (.each h.setModes (fun _ _ h => h.updWy))) (fun _ _ h => .ite h.updTie h.tieFalls)) (fun _
    _ h => h.enterMode))))
theorem execStartUp (h : Keeps s₀ s) {i} : KeepsRes s₀ (Machine.execStartUp i s) := .next h.startUp

/-! ### The functions of Machine/BusRead -/
theorem ctrNow (h : Keeps s₀ s) {pg base lo} : Keeps s₀ (s.ctrNow pg base lo).2 := .ite2 h.settleConflicts (.ite2 h (.ite2 h (.ite2 h h)))
theorem readCtr (h : Keeps s₀ s) {a pg base lo hi} : Keeps s₀ (s.readCtr a pg base lo hi).2 := .ite2 h.ctrNow h.ctrNow.latch
theorem readTime (h : Keeps s₀ s) {a w o} : KeepsOpt s₀ (s.readTime a w o) := by
  unfold State.readTime
  dsimp only
  split
  · exact .some h.latch
  · exact .some h
  · exact .some h
  · exact .some h.latch
  · exact .some h
  · exact .some h.latch
  · exact .some h
  · exact .some h
  · exact .none
theorem readProofStatus (h : Keeps s₀ s) : KeepsOpt s₀ s.readProofStatus := .ite .none (.some h.draw)
theorem readChase (h : Keeps s₀ s) {k o} : KeepsOpt s₀ (s.readChase k o) :=
  .ite (.some h.updTask) (.ite (.some h.updCore) (.ite (.some h.updCourse) .none))
theorem readPort (h : Keeps s₀ s) {w p o} : KeepsOpt s₀ (s.readPort w p o) :=
  .ite .none (.ite (.some h.updPort) (.ite (.some h.updPort) (.ite (.some h.txtsRead) .none)))
theorem readChallenge (h : Keeps s₀ s) {o} : KeepsOpt s₀ (s.readChallenge o) := .ite .none (.some h.drawChallenge)
theorem sideRead (h : Keeps s₀ s) {a pg o} : KeepsOpt s₀ (s.sideRead a pg o) := by
  unfold State.sideRead
  dsimp only
  split
  · exact .ite h.readProofStatus .none
  · exact .ite (.some h.allocLoad) (.ite (.some h.allocLoad) (.ite (.some h.readStatus) .none))
  · exact .ite (.some h.updColl) .none
  · exact .ite (.some h) .none
  · exact h.readTime
  · exact .ite (.some h.cpClaim) .none
  · exact h.readChase
  · exact .ite (.some h.readSample0) .none
  · exact h.readPort
  · exact .ite (.some h.wr) .none
  · exact h.readChallenge
  · exact .none
theorem ownRead (h : Keeps s₀ s) {a pg base o} : Keeps s₀ (s.ownRead a pg base o).2 := by
  unfold State.ownRead
  refine .ite2 h ?_
  split
  · exact h.readCtr
  · split
    · next e => exact .of_eq_opt e h.sideRead
    · split <;> exact h
theorem pageRead (h : Keeps s₀ s) {a pg base o} : Keeps s₀ (s.pageRead a pg base o).2 := .ite2 (.ite2 h h.ownRead) h.ownRead
theorem busRead (h : Keeps s₀ s) {a addr} : Keeps s₀ (s.busRead a addr).2 := by
  unfold State.busRead
  dsimp only
  split
  · exact .ite2 h.pageRead (.ite2 h (.ite2 h h.pageRead))
  · refine .ite2 h ?_
    split <;> exact h

/-! ### The functions of Machine/BusWrite -/
theorem writeEvEn (h : Keeps s₀ s) {pg base v} : Keeps s₀ (s.writeEvEn pg base v) := .ite h.wr h.wr.emit
theorem clearEvents (h : Keeps s₀ s) {base v} : Keeps s₀ (s.clearEvents base v) := h.wr
theorem forceEvents (h : Keeps s₀ s) {pg base v} : Keeps s₀ (s.forceEvents pg base v) := h.raise
theorem headerWrite (h : Keeps s₀ s) {pg base o v be} : Keeps s₀ (s.headerWrite pg base o v be) := by
  unfold State.headerWrite
  split
  · exact h.ctrlStore
  · exact h.clearEvents
  · exact h.writeEvEn
  · exact h.forceEvents
  · exact h
theorem clearOverflow (h : Keeps s₀ s) {pg base lo} : Keeps s₀ (s.clearOverflow pg base lo) :=
  .ite h (.ite h.updTask (.ite h.updPress (.ite h.settleConflicts.clearOvf h.clearOvf)))
theorem enterWord (h : Keeps s₀ s) {addr flds v} : Keeps s₀ (s.enterWord addr flds v) := h.wr.noteClamp
theorem enterAs (h : Keeps s₀ s) {addr v v'} : Keeps s₀ (s.enterAs addr v v') := h.wr.noteClamp
theorem pmcSelWrite (h : Keeps s₀ s) {k n addr flds v} : Keeps s₀ (s.pmcSelWrite k n addr flds v) :=
  .onlyIf h.enterWord.noteClamp (fun _ h => h.updCore)
theorem timeCfgWrite (h : Keeps s₀ s) {w addr flds v} : Keeps s₀ (s.timeCfgWrite w addr flds v) :=
  .onlyIf h.enterWord (fun _ h => h.updClock)
theorem storedWrite (h : Keeps s₀ s) {pg addr d v be} : Keeps s₀ (s.storedWrite pg addr d v be) := by
  unfold State.storedWrite
  dsimp only
  split
  · exact .ite h.wr.noteClamp h.enterWord
  · exact .ite h.enterWord.ageCfgWritten h.enterWord
  · exact .ite h.dramCfgStore h.enterWord
  · exact .ite h.timeCfgWrite (.ite h (.ite h.enterAs h.enterWord))
  · exact h.bankPower
  · exact .ite h.enterAs (.ite h.bindStore h.enterWord)
  · exact .ite h.pmcSelWrite h.enterWord
  · exact .ite h.bwWindowWrite.noteClamp h
  · exact .ite h (.ite h.exportFrom h.exportAcked)
  · exact h.enterWord
theorem dbgCmd (h : Keeps s₀ s) {a m} : Keeps s₀ (s.dbgCmd a m) := by
  unfold State.dbgCmd
  dsimp only
  split
  · exact .dbgCommand h (fun _ h => h.dbgHalt)
  · exact .dbgCommand h (fun _ h => h.dbgResume)
  · exact .dbgCommand h (fun _ h => h.dbgStep)
  · exact .dbgCommand h (fun _ h => h.dbgReadReg)
  · exact .dbgCommand h (fun _ h => h.dbgWriteReg)
  · exact .dbgCommand h (fun _ h => h.dbgReadMem)
  · exact .dbgCommand h (fun _ h => h.dbgWriteMem)
  · exact .dbgCommand h (fun _ h => h.dbgBreak)
  · exact .dbgCommand h (fun _ h => h.dbgBreak)
  · exact h
theorem sessionCmd (h : Keeps s₀ s) {m} : Keeps s₀ (s.sessionCmd m) := by
  unfold State.sessionCmd
  split
  · exact h.openWritten
  · exact h.abandonWritten
  · exact h
theorem tieCmd (h : Keeps s₀ s) {w m} : Keeps s₀ (s.tieCmd w m) := .onlyIf (.onlyIf h (fun _ h => h.loseTie)) (fun _ h => h.rejoinWritten)
theorem recoveryWrite (h : Keeps s₀ s) {k m} : Keeps s₀ (s.recoveryWrite k m) :=
  .onlyIf (.onlyIf h (fun _ h => h.quietAck)) (fun _ h => h.recoveryEnds)
theorem unblock (h : Keeps s₀ s) {w m} : Keeps s₀ (s.unblock w m) := .ite h.updPress h.updPress
theorem tokenWrite (h : Keeps s₀ s) {w i m} : Keeps s₀ (s.tokenWrite w i m) := h.updDs
theorem dateWrite (h : Keeps s₀ s) {w o m} : Keeps s₀ (s.dateWrite w o m) :=
  .ite (.onlyIf h (fun _ h => h.sealReq)) (.ite (.onlyIf h (fun _ h => h.leaveWritten)) (.ite h.tokenWrite (.ite (.onlyIf h (fun _ h =>
    h.updDs)) (.ite h.tamperReopenAll h))))
theorem actionWrite (h : Keeps s₀ s) {a pg o m be} : KeepsSome s₀ (s.actionWrite a pg o m be) := by
  unfold State.actionWrite
  dsimp only
  split
  · exact .some (.onlyIf h (fun _ h => h.mboxGo))
  · exact .some h.sessionCmd
  · exact .some (.onlyIf h (fun _ h => h.lockWritten))
  · exact .some (.onlyIf h (fun _ h => h.requestMode))
  · exact .some (.onlyIf h (fun _ h => h.shutdownStarts))
  · exact .some (.onlyIf h (fun _ h => h.resetWith))
  · exact .some h.dbgCmd
  · exact .some h.moveStore
  · exact .some h.refDown
  · exact .some h.refUp
  · exact .some h.marchStore
  · exact .some h.quoinAcquire
  · exact .some h.quoinRelease
  · exact .some h.timeCmd
  · exact .some h.tieCmd
  · exact .some h.cpReleaseStore
  · exact .some (.each h (fun _ _ h => .onlyIf h (fun _ h => h.interrupt)))
  · exact .some h.taskCmd
  · exact .some h.recoveryWrite
  · exact .some (.each h (fun _ _ h => .onlyIf h (fun _ h => h.clearOvf)))
  · exact .some h.clearPmc
  · exact .some h.unblock
  · exact .some h.dateWrite
  · exact .none
theorem pageWrite (h : Keeps s₀ s) {a pg base o v be} : Keeps s₀ (s.pageWrite a pg base o v be) := by
  unfold State.pageWrite
  refine .ite h (.ite h.headerWrite ?_)
  split
  · exact .ite h.clearOverflow h
  · split
    · next e => exact .of_eq_some e h.actionWrite
    · split
      · exact h
      · exact .ite (.ite h.stWrite h) h.storedWrite
theorem windowWrite (h : Keeps s₀ s) {w t o v be} : Keeps s₀ (s.windowWrite w t o v be) :=
  .ite h (.ite h.acceptCmd (.ite (.onlyIf h (fun _ h => h.updWindow)) (.ite h.updWindow (.ite h.updWindow (.ite h.updWindow h)))))
theorem busWrite (h : Keeps s₀ s) {a addr v be} : Keeps s₀ (s.busWrite a addr v be) := by
  unfold State.busWrite
  dsimp only
  split
  · exact .ite h.pageWrite h
  · split
    · exact .ite h.windowWrite h
    · exact h
theorem execRegisterWrite (h : Keeps s₀ s) {a addr value be} : KeepsRes s₀ (Machine.execRegisterWrite a addr value be s) := .next h.busWrite
theorem execEventClear (h : Keeps s₀ s) {a addr mask} : KeepsRes s₀ (Machine.execEventClear a addr mask s) := .next h.busWrite
theorem execEvForce (h : Keeps s₀ s) {a addr mask} : KeepsRes s₀ (Machine.execEvForce a addr mask s) := .next h.busWrite
theorem execCounterLoRead (h : Keeps s₀ s) {a addr} : KeepsRes s₀ (Machine.execCounterLoRead a addr s) := .next h.busRead.answer
theorem execOverflowClear (h : Keeps s₀ s) {a addr} : KeepsRes s₀ (Machine.execOverflowClear a addr s) := .next h.busWrite
theorem execRcRead (h : Keeps s₀ s) {a addr} : KeepsRes s₀ (Machine.execRcRead a addr s) := .next h.busRead.answer
theorem execDbgAccess (h : Keeps s₀ s) {write offset data} : KeepsRes s₀ (Machine.execDbgAccess write offset data s) :=
  .ite (.next h.setIr) (.ite (.next h.setIr.answer.busWrite) (.next h.setIr.answer.busRead.setDebug))
theorem execJtagProof (h : Keeps s₀ s) {bit} : KeepsRes s₀ (Machine.execJtagProof bit s) := .next (.ite h.setIr.requestMode h.setIr)

/-! ### The functions of Machine/Flow -/
theorem resolve (h : Keeps s₀ s) {x target cond taken miss own} : Keeps s₀ (s.resolve x target cond taken miss own) :=
  .maybe (.onlyIf (.cost (.onlyIf (.onlyIf h (fun _ h => h.count.pmc)) (fun _ h => h.pmc))) (fun _ h => h.killsAfter)) (fun h => h.updCore)
theorem goTo (h : Keeps s₀ s) {x target cond miss own} : KeepsEff s₀ (s.goTo x target cond miss own) := .jump h.resolve
theorem call (h : Keeps s₀ s) {x len target miss ecc} : KeepsEff s₀ (s.call x len target miss ecc) := by
  unfold State.call
  dsimp only
  split
  · exact .fault (.ite h.accessNotes h)
  · exact .ite .wait (Keeps.goTo (.updCtx (.onlyIf h.accessCheck.splitNote (fun _ h => h.storeMem))))
theorem ret (h : Keeps s₀ s) {x ecc} : KeepsEff s₀ (s.ret x ecc) := by
  unfold State.ret
  dsimp only
  split
  · exact .fault (.ite h.accessNotes h)
  · split
    · next e => exact .fault (.of_eq e h.accessCheck)
    · next e => exact (of_eq e h.accessCheck).splitNote.updCtx.goTo
theorem reti (h : Keeps s₀ s) {x} : KeepsEff s₀ (s.reti x) := .ite h.illegal (.jump h.updCtx.updCore.cost)
theorem ctxCmd (h : Keeps s₀ s) {i reads ok acts f} (hf : ∀ s, Keeps s₀ s → Keeps s₀ (f s)) : Keeps s₀ (s.ctxCmd i reads ok acts f) :=
  .issue h (fun _ h => .ite h.illegal (.done (.updCtx (.onlyIf h hf))))
theorem settleOne (h : Keeps s₀ s) {x} : Keeps s₀ (s.settleOne x) := h.updCtx
theorem execBcc (h : Keeps s₀ s) {i cc d} : KeepsRes s₀ (Machine.execBcc i cc d s) :=
  .next (.issue h (fun _ h => .ite h.illegal (.ite h.goTo (.done h.resolve))))
theorem execJmp (h : Keeps s₀ s) {i t} : KeepsRes s₀ (Machine.execJmp i t s) := .next (.issue h (fun _ h => h.goTo))
theorem execCall (h : Keeps s₀ s) {i t} : KeepsRes s₀ (Machine.execCall i t s) := .next (.issue h (fun _ h => h.call))
theorem execJmpr (h : Keeps s₀ s) {i n} : KeepsRes s₀ (Machine.execJmpr i n s) := .next (.issue h (fun _ h => h.goTo))
theorem execCallr (h : Keeps s₀ s) {i n} : KeepsRes s₀ (Machine.execCallr i n s) := .next (.issue h (fun _ h => h.call))
theorem execRet (h : Keeps s₀ s) {i} : KeepsRes s₀ (Machine.execRet i s) := .next (.issue h (fun _ h => h.ret))
theorem execReti (h : Keeps s₀ s) {i} : KeepsRes s₀ (Machine.execReti i s) := .next (.issue h (fun _ h => h.reti))
theorem execNop (h : Keeps s₀ s) {i} : KeepsRes s₀ (Machine.execNop i s) := .next (.issue h (fun _ h => .done h))
theorem execIsync (h : Keeps s₀ s) {i} : KeepsRes s₀ (Machine.execIsync i s) := .next (.issue h (fun _ h => .done h.cost))
theorem execIcinv (h : Keeps s₀ s) {i} : KeepsRes s₀ (Machine.execIcinv i s) := .next (.issue h (fun _ h => .done h.updCore.cost))
theorem execIcinvMem (h : Keeps s₀ s) {i m} : KeepsRes s₀ (Machine.execIcinvMem i m s) := .next (.issue h (fun _ h => by
  dsimp only
  split
  · exact .done h.updCore
  · exact h.illegal))
theorem execTdisarm (h : Keeps s₀ s) {i} : KeepsRes s₀ (Machine.execTdisarm i s) := .next (.issue h (fun _ h => .done h.updCtx))
theorem execBkpt (h : Keeps s₀ s) {i} : KeepsRes s₀ (Machine.execBkpt i s) :=
  .next (.ite h.updCtx.setCtxState.count (.issue h (fun _ h => .done h)))
theorem execCtxset (h : Keeps s₀ s) {i c r src} : KeepsRes s₀ (Machine.execCtxset i c r src s) :=
  .next (.ctxCmd h (fun _ h => h.readReg.settleOne.writeReg))
theorem execCtxget (h : Keeps s₀ s) {i dst c r} : KeepsRes s₀ (Machine.execCtxget i dst c r s) :=
  .next (.ctxCmd h (fun _ h => h.settleOne.readReg.writeReg.resultAt))
theorem execCtxgo (h : Keeps s₀ s) {i c} : KeepsRes s₀ (Machine.execCtxgo i c s) := .next (.ctxCmd h (fun _ h => h.setCtxState))
theorem execCtxstop (h : Keeps s₀ s) {i c} : KeepsRes s₀ (Machine.execCtxstop i c s) := .next (.ctxCmd h (fun _ h => h.updCtx.stopIfDone))

/-! ### The functions of Machine/Events -/
theorem tlook (h : Keeps s₀ s) {x ecc d tag t learn refresh n} : KeepsEff s₀ (s.tlook x ecc d tag t learn refresh n) := by
  unfold State.tlook
  refine .ite h.illegal (.ite .wait ?_)
  split
  · exact .fault (.ite h.accessNotes h)
  · dsimp only
    split
    · next e => exact .fault (.of_eq e h.accessCheck)
    · next e => exact .done (of_eq e h.accessCheck).updCtx.pmc
theorem lookLate (h : Keeps s₀ s) {x t} : Keeps s₀ (s.lookLate x t) := by
  unfold State.lookLate
  exact h.count.raiseBit.pmc
theorem lookArrives (h : Keeps s₀ s) {x tag ecc after} : Keeps s₀ (s.lookArrives x tag ecc after) := by
  unfold State.lookArrives
  split
  · exact h
  · exact .ite h (.stopIfDone (.onlyIf h.lookWord.updCtx.resultAt (fun _ h => h.lookLate)))
theorem evpost (h : Keeps s₀ s) {x t f} : KeepsEff s₀ (s.evpost x t f) := .ite (.fault h) (.ite .wait (.done h.postTask))
theorem evwait (h : Keeps s₀ s) {x d all} : KeepsEff s₀ (s.evwait x d all) := by
  unfold State.evwait
  refine .ite h.illegal ?_
  dsimp only
  split
  · exact .fault h
  · exact .ite (.done h.updCtx.updCtx.updTask) (.done h.updCtx.stamp.updTask.updCtx.setCtxState)
theorem evpoll (h : Keeps s₀ s) {x d all} : KeepsEff s₀ (s.evpoll x d all) := by
  unfold State.evpoll
  refine .ite h.illegal ?_
  dsimp only
  split
  · exact .fault h
  · exact .done (.ite h.updCtx.updTask h.updCtx)
theorem chanFault (h : Keeps s₀ s) {x} : KeepsEff s₀ (s.chanFault x) := .fault h
theorem chopen (h : Keeps s₀ s) {x ch} : KeepsEff s₀ (s.chopen x ch) := by
  unfold State.chopen
  refine .ite .wait ?_
  split
  · exact .done h.updChan
  · exact .ite h.chanFault .wait
theorem chput (h : Keeps s₀ s) {x d ch} : KeepsEff s₀ (s.chput x d ch) := .ite h.illegal (.ite h.chanFault (.ite .wait (.done h.updChan)))
theorem chclose (h : Keeps s₀ s) {x ch} : KeepsEff s₀ (s.chclose x ch) := .ite h.chanFault (.ite .wait (.done h.chanDeliver))
theorem notClaimed (h : Keeps s₀ s) {x} : KeepsEff s₀ (s.notClaimed x) := .fault h
theorem of_cpTake {w c hd k unit found block n tag} {t : State} (e : s.cpTake w c hd k unit found block = some (n, tag, t)) (h : Keeps s₀ s) :
    Keeps s₀ t := by
  unfold State.cpTake at e
  dsimp only at e
  split at e
  · cases e
  · cases e
    exact h.updCourse
theorem cpcmd (h : Keeps s₀ s) {x ecc d u n} : KeepsEff s₀ (s.cpcmd x ecc d u n) := by
  unfold State.cpcmd
  refine .ite h.notClaimed ?_
  dsimp only
  split
  · exact .wait
  · next e => exact .done (.updCtx (.of_cpTake e h.cpBlock))
theorem goesOn (h : Keeps s₀ s) {x} : Keeps s₀ (s.goesOn x) := h.updCore.updCtx
theorem cpSquash (h : Keeps s₀ s) {i u n} : Keeps s₀ (s.cpSquash i u n) := by
  unfold State.cpSquash
  refine .ite h (.ite h.takeCycle ?_)
  split
  · exact h.takeCycle
  · next e => exact .cpKill (.of_cpTake e h.takeCycle)
theorem cpstat (h : Keeps s₀ s) {x d t} : KeepsEff s₀ (s.cpstat x d t) := by
  unfold State.cpstat
  dsimp only
  split
  · exact .done h.updCtx
  · exact .ite (.done h.updCtx) (.ite .wait (.done h.updCourse.updCtx))
theorem cpMove (h : Keeps s₀ s) {x ecc u n save} : KeepsEff s₀ (s.cpMove x ecc u n save) := by
  unfold State.cpMove
  dsimp only
  refine .ite h.notClaimed (.ite .wait (.ite (.fault h) ?_))
  split
  · exact .fault h.bankRefused
  · have h2 {c : Prop} {_ : Decidable c} {v a} : Keeps s₀ (if c then (s.bankRefused x.w x.c.val v).offBank x a else s.bankRefused x.w x.c.val v) :=
      .ite h.bankRefused.offBank h.bankRefused
    split
    · exact .fault h2.bankUncorrectable
    · exact .done (.cost (.ite (.cpSave (.onlyIf h2 (fun _ h => h.bankCorrected))) (.cpRest (.onlyIf h2 (fun _ h => h.bankCorrected)))))
theorem verd (h : Keeps s₀ s) {x ecc k n} : KeepsEff s₀ (s.verd x ecc k n) := by
  unfold State.verd
  dsimp only
  split
  · exact .fault h
  · refine .ite .wait ?_
    split
    · exact .fault (.ite h.accessNotes h)
    · have hc {c : Prop} {_ : Decidable c} {a} : Keeps s₀ (if c then (none, s) else s.accessCheck x a 1 ecc).2 := .ite2 h h.accessCheck
      split
      · next e => exact .fault (.of_eq e hc)
      · next e => exact .done (of_eq e hc).updColl.updCtx.pmc
theorem execTlook (h : Keeps s₀ s) {i d tag t learn refresh n} : KeepsRes s₀ (Machine.execTlook i d tag t learn refresh n s) :=
  .next (.issue h (fun _ h => h.tlook))
theorem execTlookResult (h : Keeps s₀ s) {x tag ecc after} : KeepsRes s₀ (Machine.execTlookResult x tag ecc after s) := .next h.lookArrives
theorem execEvpost (h : Keeps s₀ s) {i t f} : KeepsRes s₀ (Machine.execEvpost i t f s) := .next (.issue h (fun _ h => h.evpost))
theorem execEvwait (h : Keeps s₀ s) {i d all} : KeepsRes s₀ (Machine.execEvwait i d all s) := .next (.issue h (fun _ h => h.evwait))
theorem execEvpoll (h : Keeps s₀ s) {i d all} : KeepsRes s₀ (Machine.execEvpoll i d all s) := .next (.issue h (fun _ h => h.evpoll))
theorem execChopen (h : Keeps s₀ s) {i ch} : KeepsRes s₀ (Machine.execChopen i ch s) := .next (.issue h (fun _ h => h.chopen))
theorem execChput (h : Keeps s₀ s) {i d ch} : KeepsRes s₀ (Machine.execChput i d ch s) :=
  .next (.ite h.updChan (.issue h (fun _ h => h.chput)))
theorem execChclose (h : Keeps s₀ s) {i ch} : KeepsRes s₀ (Machine.execChclose i ch s) := .next (.issue h (fun _ h => h.chclose))
theorem execCpcmd (h : Keeps s₀ s) {i d u n} : KeepsRes s₀ (Machine.execCpcmd i d u n s) :=
  .next (.ite h.cpSquash (.issue h (fun _ h => h.cpcmd)))
theorem execCpstat (h : Keeps s₀ s) {i d t} : KeepsRes s₀ (Machine.execCpstat i d t s) := .next (.issue h (fun _ h => h.cpstat))
theorem execCpsave (h : Keeps s₀ s) {i u n} : KeepsRes s₀ (Machine.execCpsave i u n s) := .next (.issue h (fun _ h => h.cpMove))
theorem execCprest (h : Keeps s₀ s) {i u n} : KeepsRes s₀ (Machine.execCprest i u n s) := .next (.issue h (fun _ h => h.cpMove))
theorem execVerd (h : Keeps s₀ s) {i k n} : KeepsRes s₀ (Machine.execVerd i k n s) := .next (.issue h (fun _ h => h.verd))

/-! ### The functions of Machine/Loads -/
theorem deviceLoad (h : Keeps s₀ s) {x addr size} : Keeps s₀ (s.deviceLoad x addr size).2 := h.busRead
theorem deviceStore (h : Keeps s₀ s) {x addr size v} : Keeps s₀ (s.deviceStore x addr size v) :=
  .ite h.busWrite (.ite h.busWrite h.busWrite)
theorem loadOut (h : Keeps s₀ s) {x r a size v} : Keeps s₀ (s.loadOut x r a size v) := h.updCtx
theorem loadedAt (h : Keeps s₀ s) {x r size n late} : Keeps s₀ (s.loadedAt x r size n late) := by
  unfold State.loadedAt
  dsimp only
  split
  · exact .onlyIf h.resultAt (fun _ h => h.resultAt)
  · exact h.resultAt
theorem loadFrom (h : Keeps s₀ s) {x r a size} : Keeps s₀ (s.loadFrom x r a size) := by
  unfold State.loadFrom
  dsimp only
  split
  · exact h.loadOut.pmc
  · exact .ite h.pmc.loadOut h.pmc.deviceLoad.loadOut
  · exact h.updCtx.loadedAt.cost.pmc
  · exact h.updCtx.loadedAt
theorem storeTo (h : Keeps s₀ s) {x a size v} : Keeps s₀ (s.storeTo x a size v) := by
  unfold State.storeTo
  split
  · exact .ite h.queueStore h.deviceStore
  · exact h.storeMem
theorem makeStore (h : Keeps s₀ s) {k q} : Keeps s₀ (s.makeStore k q) := by
  unfold State.makeStore
  dsimp only
  split
  · exact h.deviceStore
  · exact .withSr h (fun _ h => h.setMemValue)
theorem drainList (h : Keeps s₀ s) {k l} : Keeps s₀ (s.drainList k l) := by
  induction l generalizing s with
  | nil => exact h.updCore
  | cons q r ih => exact .ite h.updCore (ih h.makeStore)
theorem drainStores (h : Keeps s₀ s) {w} : Keeps s₀ (s.drainStores w) := .each h (fun _ _ h => .onlyIf h (fun _ h => h.drainList))
theorem load (h : Keeps s₀ s) {i r m size} : Keeps s₀ (s.load i r m size) :=
  .issue h (fun _ h => by
    refine .ite h.illegal ?_
    split
    · exact h.illegal
    · refine .ite .wait ?_
      split
      · next e => exact .fault (.of_eq e h.accessCheck)
      · next e => exact .done (of_eq e h.accessCheck).splitNote.updCtx.loadFrom)
theorem store (h : Keeps s₀ s) {i r m size} : Keeps s₀ (s.store i r m size) :=
  .issue h (fun _ h => by
    refine .ite h.illegal ?_
    split
    · exact h.illegal
    · dsimp only
      split
      · exact .fault (.ite h.accessNotes h)
      · exact .ite .wait (.done (.updCtx (.onlyIf h.accessCheck.splitNote (fun _ h => h.storeTo)))))
theorem loadArrives (h : Keeps s₀ s) {x i after ecc} : Keeps s₀ (s.loadArrives x i after ecc) := by
  unfold State.loadArrives
  extract_lets k pg t
  split
  · exact h
  · extract_lets ar device late
    refine .ite h ?_
    split
    next v s1 e =>
    have h1 : Keeps s₀ s1 := .of_eq e (by split; exacts [h, h.deviceLoad])
    extract_lets s2 s3 put
    have h3 : Keeps s₀ s3 :=
      .onlyIf (.onlyIf h1.updCtx.resultAt (fun _ h => h.count.raiseBit.interrupt.pmc)) (fun _ h => h.notBefore)
    split
    · exact h3.bankCorrected.updCtx.stopIfDone
    · exact h3.bankUncorrectable.updCtx.fault
    · exact h3.updCtx.stopIfDone
theorem chanTake (h : Keeps s₀ s) {w c ch} : Keeps s₀ (s.chanTake w c ch) := h.updChan.postCourseBindings
theorem chget (h : Keeps s₀ s) {x d ch n block ecc} : KeepsEff s₀ (s.chget x d ch n block ecc) := by
  unfold State.chget
  dsimp only
  refine .ite .wait ?_
  split
  · exact .ite .wait (.done h.updCtx.cost)
  · split
    · exact .fault (.ite h.accessNotes h)
    · exact .done (.cost (.updCtx (.chanTake (.each h (fun _ _ h => .onlyIf h.accessCheck (fun _ h => h.storeTo))))))
theorem execLdB (h : Keeps s₀ s) {i r m} : KeepsRes s₀ (Machine.execLdB i r m s) := .next h.load
theorem execLd (h : Keeps s₀ s) {i r m} : KeepsRes s₀ (Machine.execLd i r m s) := .next h.load
theorem execLdL (h : Keeps s₀ s) {i r m} : KeepsRes s₀ (Machine.execLdL i r m s) := .next h.load
theorem execStB (h : Keeps s₀ s) {i r m} : KeepsRes s₀ (Machine.execStB i r m s) := .next h.store
theorem execSt (h : Keeps s₀ s) {i r m} : KeepsRes s₀ (Machine.execSt i r m s) := .next h.store
theorem execStL (h : Keeps s₀ s) {i r m} : KeepsRes s₀ (Machine.execStL i r m s) := .next h.store
theorem execChget (h : Keeps s₀ s) {i d ch n block} : KeepsRes s₀ (Machine.execChget i d ch n block s) :=
  .next (.issue h (fun _ h => h.chget))
theorem execWindowLoadResponse (h : Keeps s₀ s) {x i after ecc} : KeepsRes s₀ (Machine.execWindowLoadResponse x i after ecc s) :=
  .next h.loadArrives
theorem execMoveEnd (h : Keeps s₀ s) {w ecc dst} : KeepsRes s₀ (Machine.execMoveEnd w ecc dst s) := .next h.moveFinish.drainStores

/-! ### The functions of Machine/Dispatch -/
theorem exec (h : Keeps s₀ s) {i} : KeepsRes s₀ (Machine.exec i s) := by
  cases i with
  | frameArrival => exact h.execFrameArrival
  | bufferAllocation => exact h.execBufferAllocation
  | frameEnd => exact h.execFrameEnd
  | compositorIntake => exact h.execCompositorIntake
  | spreadingEnd => exact h.execSpreadingEnd
  | recirculation => exact h.execRecirculation
  | slugRelease => exact h.execSlugRelease
  | takerSelection => exact h.execTakerSelection
  | slugDelivery => exact h.execSlugDelivery
  | verdictArrival => exact h.execVerdictArrival
  | descriptorRelease => exact h.execDescriptorRelease
  | skip => exact h.execSkip
  | tieCopyArrival => exact h.execTieCopyArrival
  | tieCopyComplete => exact h.execTieCopyComplete
  | pressAdmission => exact h.execPressAdmission
  | frameStart => exact h.execFrameStart
  | transmissionEnd => exact h.execTransmissionEnd
  | refillTick => exact h.execRefillTick
  | gateEvent => exact h.execGateEvent
  | gateListChange => exact h.execGateListChange
  | openSession => exact h.execOpenSession
  | pendingSessionOpen => exact h.execPendingSessionOpen
  | abandon => exact h.execAbandon
  | stFieldWrite => exact h.execStFieldWrite
  | registerWrite => exact h.execRegisterWrite
  | clampClear => exact h.execClampClear
  | lockGo => exact h.execLockGo
  | lockupValidationEnd => exact h.execLockupValidationEnd
  | courseImageLoad => exact h.execCourseImageLoad
  | drainLimitExpiry => exact h.execDrainLimitExpiry
  | sweepStart => exact h.execSweepStart
  | sweepEnd => exact h.execSweepEnd
  | persistEnd => exact h.execPersistEnd
  | trieRootCopyEnd => exact h.execTrieRootCopyEnd
  | poolRelayBuild => exact h.execPoolRelayBuild
  | poolOpen => exact h.execPoolOpen
  | read => exact h.execRead
  | write => exact h.execWrite
  | insert => exact h.execInsert
  | delete => exact h.execDelete
  | search => exact h.execSearch
  | nextCmd => exact h.execNextCmd
  | commandExecution => exact h.execCommandExecution
  | respNext => exact h.execRespNext
  | tlookResult => exact h.execTlookResult
  | learnRequestService => exact h.execLearnRequestService
  | epochChange => exact h.execEpochChange
  | agerVisit => exact h.execAgerVisit
  | create => exact h.execCreate
  | kill => exact h.execKill
  | setPrio => exact h.execSetPrio
  | post => exact h.execPost
  | postApply => exact h.execPostApply
  | waitSatisfied => exact h.execWaitSatisfied
  | taskLoad => exact h.execTaskLoad
  | taskExchange => exact h.execTaskExchange
  | swapEnd => exact h.execSwapEnd
  | bindWrite => exact h.execBindWrite
  | timerCompareFire => exact h.execTimerCompareFire
  | quiescence => exact h.execQuiescence
  | recoveryEnd => exact h.execRecoveryEnd
  | recoveryAck => exact h.execRecoveryAck
  | channelForcedClose => exact h.execChannelForcedClose
  | loadWindowEnd => exact h.execLoadWindowEnd
  | alloc => exact h.execAlloc
  | allocExact => exact h.execAllocExact
  | free => exact h.execFree
  | refAdd => exact h.execRefAdd
  | poolRefillEnd => exact h.execPoolRefillEnd
  | poolSpillEnd => exact h.execPoolSpillEnd
  | movePost => exact h.execMovePost
  | moveStart => exact h.execMoveStart
  | moveEnd => exact h.execMoveEnd
  | moveStatus => exact h.execMoveStatus
  | claim => exact h.execClaim
  | coprocRelease => exact h.execCoprocRelease
  | commit => exact h.execCommit
  | coprocCompletion => exact h.execCoprocCompletion
  | bankPowerWrite => exact h.execBankPowerWrite
  | bankTransitionEnd => exact h.execBankTransitionEnd
  | marchCmd => exact h.execMarchCmd
  | marchEnd => exact h.execMarchEnd
  | acquire => exact h.execAcquire
  | quoinRelease => exact h.execQuoinRelease
  | filterUnblock => exact h.execFilterUnblock
  | markRedClear => exact h.execMarkRedClear
  | recordAppend => exact h.execRecordAppend
  | sealReq => exact h.execSealReq
  | sealAttachment => exact h.execSealAttachment
  | exportBase => exact h.execExportBase
  | exportAck => exact h.execExportAck
  | witnessSnapRound => exact h.execWitnessSnapRound
  | challengeRead => exact h.execChallengeRead
  | commission => exact h.execCommission
  | enterService => exact h.execEnterService
  | retire => exact h.execRetire
  | addImageKey => exact h.execAddImageKey
  | revokeImageKey => exact h.execRevokeImageKey
  | setTamper => exact h.execSetTamper
  | leave => exact h.execLeave
  | serviceExpiry => exact h.execServiceExpiry
  | tamperAssert => exact h.execTamperAssert
  | tamperClear => exact h.execTamperClear
  | tamperReopen => exact h.execTamperReopen
  | linkUp => exact h.execLinkUp
  | linkDown => exact h.execLinkDown
  | bwWindowEnd => exact h.execBwWindowEnd
  | timeSet => exact h.execTimeSet
  | stepTime => exact h.execStepTime
  | slew => exact h.execSlew
  | slewEnd => exact h.execSlewEnd
  | followStep => exact h.execFollowStep
  | srcLost => exact h.execSrcLost
  | ptpclkReturn => exact h.execPtpclkReturn
  | ppsIn => exact h.execPpsIn
  | ppsOut => exact h.execPpsOut
  | txtsInfoRead => exact h.execTxtsInfoRead
  | mr4Poll => exact h.execMr4Poll
  | refresh => exact h.execRefresh
  | retrainPeriod => exact h.execRetrainPeriod
  | retrainDrift => exact h.execRetrainDrift
  | dramRequest => exact h.execDramRequest
  | dramCfgWrite => exact h.execDramCfgWrite
  | sendTailDoorbell => exact h.execSendTailDoorbell
  | receiveTailDoorbell => exact h.execReceiveTailDoorbell
  | firmwareDoorbell => exact h.execFirmwareDoorbell
  | sendDescriptor => exact h.execSendDescriptor
  | receiveDescriptor => exact h.execReceiveDescriptor
  | hello => exact h.execHello
  | getInfo => exact h.execGetInfo
  | imageStage => exact h.execImageStage
  | ledgerDma => exact h.execLedgerDma
  | slotRead => exact h.execSlotRead
  | linkReset => exact h.execLinkReset
  | eventClear => exact h.execEventClear
  | evForce => exact h.execEvForce
  | counterLoRead => exact h.execCounterLoRead
  | overflowClear => exact h.execOverflowClear
  | rcRead => exact h.execRcRead
  | freezeCounters => exact h.execFreezeCounters
  | disable => exact h.execDisable
  | abort => exact h.execAbort
  | compositorDisable => exact h.execCompositorDisable
  | compositorAbort => exact h.execCompositorAbort
  | caseEngineDisable => exact h.execCaseEngineDisable
  | caseEngineAbort => exact h.execCaseEngineAbort
  | tableDisable => exact h.execTableDisable
  | tableAbort => exact h.execTableAbort
  | coreDisable => exact h.execCoreDisable
  | coreAbort => exact h.execCoreAbort
  | coreEnable => exact h.execCoreEnable
  | galleyDisable => exact h.execGalleyDisable
  | galleyAbort => exact h.execGalleyAbort
  | collatorDisable => exact h.execCollatorDisable
  | collatorAbort => exact h.execCollatorAbort
  | coprocDisable => exact h.execCoprocDisable
  | coprocAbort => exact h.execCoprocAbort
  | marchDisable => exact h.execMarchDisable
  | marchAbort => exact h.execMarchAbort
  | quoinDisable => exact h.execQuoinDisable
  | quoinAbort => exact h.execQuoinAbort
  | pressDisable => exact h.execPressDisable
  | pressAbort => exact h.execPressAbort
  | pressPortDisable => exact h.execPressPortDisable
  | pressPortAbort => exact h.execPressPortAbort
  | portDisable => exact h.execPortDisable
  | portAbort => exact h.execPortAbort
  | qpDisable => exact h.execQpDisable
  | qpAbort => exact h.execQpAbort
  | requestProof => exact h.execRequestProof
  | requestSetting => exact h.execRequestSetting
  | requestRun => exact h.execRequestRun
  | requestPlumb => exact h.execRequestPlumb
  | requestDormant => exact h.execRequestDormant
  | requestOff => exact h.execRequestOff
  | requestHalf => exact h.execRequestHalf
  | requestBrace => exact h.execRequestBrace
  | outputsClosed => exact h.execOutputsClosed
  | wake => exact h.execWake
  | resetN => exact h.execResetN
  | resetCmd => exact h.execResetCmd
  | supply => exact h.execSupply
  | powerOn => exact h.execPowerOn
  | startUp => exact h.execStartUp
  | shutdnReq => exact h.execShutdnReq
  | shutdownStart => exact h.execShutdownStart
  | gpioEdge => exact h.execGpioEdge
  | proofEnd => exact h.execProofEnd
  | outOfRange => exact h.execOutOfRange
  | pwrfail => exact h.execPwrfail
  | braceImageWritten => exact h.execBraceImageWritten
  | powerReturn => exact h.execPowerReturn
  | regionSkew => exact h.execRegionSkew
  | tieRetrain => exact h.execTieRetrain
  | tieLost => exact h.execTieLost
  | isolate => exact h.execIsolate
  | rejoin => exact h.execRejoin
  | rejoinAttempt => exact h.execRejoinAttempt
  | linked => exact h.execLinked
  | halt => exact h.execHalt
  | resume => exact h.execResume
  | step => exact h.execStep
  | readReg => exact h.execReadReg
  | writeReg => exact h.execWriteReg
  | readMem => exact h.execReadMem
  | writeMem => exact h.execWriteMem
  | bkptOn => exact h.execBkptOn
  | bkptOff => exact h.execBkptOff
  | extest => exact h.execExtest
  | idcode => exact h.execIdcode
  | samplePreload => exact h.execSamplePreload
  | clampJtag => exact h.execClampJtag
  | highz => exact h.execHighz
  | jtagProof => exact h.execJtagProof
  | dbgAccess => exact h.execDbgAccess
  | bypass => exact h.execBypass
  | trstN => exact h.execTrstN
  | pmcClear => exact h.execPmcClear
  | pmcOvfClear => exact h.execPmcOvfClear
  | sampleTaken => exact h.execSampleTaken
  | sample0Read => exact h.execSample0Read
  | intSoft => exact h.execIntSoft
  | interruptEntry => exact h.execInterruptEntry
  | mov => exact h.execMov
  | add => exact h.execAdd
  | sub => exact h.execSub
  | and => exact h.execAnd
  | or => exact h.execOr
  | xor => exact h.execXor
  | cmp => exact h.execCmp
  | tst => exact h.execTst
  | neg => exact h.execNeg
  | not => exact h.execNot
  | adc => exact h.execAdc
  | sbc => exact h.execSbc
  | movi => exact h.execMovi
  | addi => exact h.execAddi
  | cmpi => exact h.execCmpi
  | andi => exact h.execAndi
  | ori => exact h.execOri
  | xori => exact h.execXori
  | lsl => exact h.execLsl
  | lsr => exact h.execLsr
  | asr => exact h.execAsr
  | lsli => exact h.execLsli
  | lsri => exact h.execLsri
  | asri => exact h.execAsri
  | bfx => exact h.execBfx
  | bfi => exact h.execBfi
  | sat => exact h.execSat
  | crcs => exact h.execCrcs
  | crcb => exact h.execCrcb
  | par => exact h.execPar
  | parw => exact h.execParw
  | brev => exact h.execBrev
  | brev8 => exact h.execBrev8
  | mul => exact h.execMul
  | muls => exact h.execMuls
  | mac => exact h.execMac
  | movh => exact h.execMovh
  | movr => exact h.execMovr
  | lea => exact h.execLea
  | ldB => exact h.execLdB
  | ld => exact h.execLd
  | ldL => exact h.execLdL
  | stB => exact h.execStB
  | st => exact h.execSt
  | stL => exact h.execStL
  | bcc => exact h.execBcc
  | jmp => exact h.execJmp
  | call => exact h.execCall
  | jmpr => exact h.execJmpr
  | callr => exact h.execCallr
  | ret => exact h.execRet
  | reti => exact h.execReti
  | nop => exact h.execNop
  | isync => exact h.execIsync
  | icinv => exact h.execIcinv
  | icinvMem => exact h.execIcinvMem
  | tdisarm => exact h.execTdisarm
  | bkpt => exact h.execBkpt
  | ctxset => exact h.execCtxset
  | ctxget => exact h.execCtxget
  | ctxgo => exact h.execCtxgo
  | ctxstop => exact h.execCtxstop
  | tlook => exact h.execTlook
  | evpost => exact h.execEvpost
  | evwait => exact h.execEvwait
  | evpoll => exact h.execEvpoll
  | chopen => exact h.execChopen
  | chput => exact h.execChput
  | chclose => exact h.execChclose
  | chget => exact h.execChget
  | cpcmd => exact h.execCpcmd
  | cpstat => exact h.execCpstat
  | cpsave => exact h.execCpsave
  | cprest => exact h.execCprest
  | verd => exact h.execVerd
  | tieRetrainEnd => exact h.execTieRetrainEnd
  | flitRetry => exact h.execFlitRetry
  | sequenceExchange => exact h.execSequenceExchange
  | windowLoadResponse => exact h.execWindowLoadResponse
  | mainRailsFall => exact h.execMainRailsFall
  | vkeepLoss => exact h.execVkeepLoss
  | perstNRelease => exact h.execPerstNRelease

/-! ### The functions of Machine/Tick -/
theorem wytheTick (h : Keeps s₀ s) {w} : Keeps s₀ (Machine.wytheTick s w) :=
  .drainStores (.each (.each h.stallTick (fun _ _ h => h.refreshLate.dramServe)) (fun _ _ h => h.quietTick))
theorem tick (h : Keeps s₀ s) : Keeps s₀ (Machine.tick s) := .each h.withNow.clocksTick (fun _ _ h => h.wytheTick)

theorem step (h : Machine.step s = .next t) (hs : s.Canon) : t.Canon := by
  unfold Machine.step at h
  split at h
  · next =>
    obtain rfl := Host.Outcome.next.inj h
    exact (refl s).tick.2 hs
  · next c rest hp =>
    have hk : KeepsRes { s with pending := rest } (Machine.exec c { s with pending := rest }) := (refl _).exec
    rw [h] at hk
    cases hk with
    | next k => exact k.2 hs

end Keeps
end State

/-- Settles O55: every step keeps canonical maps canonical, by `Keeps` through every function of the model. -/
theorem registersStayCanonical : Obligations.RegistersStayCanonical := by
  unfold Obligations.RegistersStayCanonical
  exact fun s t hs h => State.Keeps.step h hs

end Sys2Proof.Machine

end

/-!
# The reset state

A wythe at reset is the default one, so what is asked of it is read off the default.
-/

section

namespace Sys2Proof.Machine

namespace State

theorem reset_canon : reset.Canon := ⟨rfl, rfl, rfl, rfl, rfl⟩

theorem reset_wy (w : WytheIx) : reset.wy w = {} := by
  rcases wythe_cases w with rfl | rfl <;> rfl

theorem reset_memCanon : reset.MemCanon := by
  refine ⟨fun w k => ?_, fun w c => ?_, fun x => ?_⟩
  · simp only [core, reset_wy]
    exact ⟨rfl, rfl⟩
  · simp only [course, reset_wy]
    rfl
  · simp only [ctx, reset_wy]
    rfl

end State

/-- Settles O53: the words at reset are evaluated; registers and memories are canonical by the lemmas above. -/
theorem resetState : Obligations.ResetState := by
  unfold Obligations.ResetState
  refine ⟨rfl, by decide +kernel, fun _ => rfl, fun _ => ⟨rfl, rfl⟩, fun w => ?_, by decide +kernel, State.reset_canon,
    State.reset_memCanon⟩
  rcases wythe_cases w with rfl | rfl <;> exact ⟨rfl, rfl, rfl, rfl, rfl, rfl⟩

end Sys2Proof.Machine

end

/-!
# Register pages

An access is followed from its address to its page (`OnPage`), and from there to the header, the counter or the
register that its offset names.
-/

section

namespace Sys2Proof.Machine

/-! ### Pages -/

theorem pageBase_add_offset (a : Nat) : State.pageBase a + a % 0x1000 = a := by
  unfold State.pageBase
  omega

theorem findPage_congr {region o o' : Nat} (ho : o / 0x1000 = o' / 0x1000) :
    ∀ {rs : List PageRow}, (∀ r ∈ rs, r.base % 0x1000 = 0) → findPage region o rs = findPage region o' rs
  | [], _ => rfl
  | r :: rs, h => by
    have hr : r.base % 0x1000 = 0 := h r (by simp)
    have hin : (r.base ≤ o ∧ o < r.base + 0x1000 * r.count) = (r.base ≤ o' ∧ o' < r.base + 0x1000 * r.count) := by
      apply propext
      constructor <;> rintro ⟨_, _⟩ <;> constructor <;> omega
    have hix : (o - r.base) / 0x1000 = (o' - r.base) / 0x1000 := by omega
    simp only [findPage, hin, hix, findPage_congr ho fun x hx => h x (List.mem_cons_of_mem _ hx)]

theorem pageOf_congr {a b : Nat} (h : a / 0x1000 = b / 0x1000) : pageOf a = pageOf b := by
  have hg : ∀ r ∈ globalPages, r.base % 0x1000 = 0 := by decide
  have hw : ∀ r ∈ wythePages, r.base % 0x1000 = 0 := by decide
  have h1 : (a < 0x800000) = (b < 0x800000) := propext (by omega)
  have h2 : (a < 0x1000000) = (b < 0x1000000) := propext (by omega)
  have h3 : (a < 0x1800000) = (b < 0x1800000) := propext (by omega)
  simp only [pageOf, h1, h2, h3]
  split
  · exact findPage_congr h hg
  · split
    · exact findPage_congr (by omega) hw
    · split
      · exact findPage_congr (by omega) hw
      · rfl

theorem lt_of_pageOf {a : Nat} {pg : PageId} (h : pageOf a = some pg) : a < 0x1800000 := by
  by_contra hge
  have h1 : ¬ a < 0x800000 := by omega
  have h2 : ¬ a < 0x1000000 := by omega
  simp [pageOf, h1, h2, hge] at h

namespace State

theorem regionReach_congr (s : State) (r : Agent) {a b : Nat} (ha : a < 0x1800000) (h : a / 0x1000 = b / 0x1000) :
    s.regionReach r a = s.regionReach r b := by
  have h1 : (a < 0x800000) = (b < 0x800000) := propext (by omega)
  have h2 : (a < 0x1000000) = (b < 0x1000000) := propext (by omega)
  have hb : b < 0x1800000 := by omega
  simp only [regionReach, h1, h2, ha, hb, if_true]

theorem regionReach_wythe (s : State) (r : Agent) (w : WytheIx) {o : Nat} (ho : o < 0x800000) :
    s.regionReach r (wyBase w + o) = s.reach r w := by
  rcases wythe_cases w with rfl | rfl
  · have h1 : ¬ wyBase 0 + o < 0x800000 := by simp [wyBase]
    have h2 : wyBase 0 + o < 0x1000000 := by simp [wyBase]; omega
    simp only [regionReach, h1, h2, if_true, if_false]
  · have h1 : ¬ wyBase 1 + o < 0x1000000 := by simp [wyBase]
    have h2 : ¬ wyBase 1 + o < 0x800000 := by omega
    have h3 : wyBase 1 + o < 0x1800000 := by simp [wyBase]; omega
    simp only [regionReach, h1, h2, h3, if_true, if_false]

/-- `addr` is a word of the page `pg`, not the DEBUG page, in a region that `a` reaches. -/
structure OnPage (s : State) (a : Agent) (addr : Nat) (pg : PageId) : Prop where
  aligned : addr % 4 = 0
  page : pageOf addr = some pg
  notDebug : pg.type ≠ 0x07
  reached : s.regionReach a addr = true

namespace OnPage
variable {s : State} {a : Agent} {addr : Nat} {pg : PageId}

theorem samePage (h : OnPage s a addr pg) {b : Nat} (hb : b % 4 = 0) (hd : addr / 0x1000 = b / 0x1000) : OnPage s a b pg where
  aligned := hb
  page := pageOf_congr hd ▸ h.page
  notDebug := h.notDebug
  reached := regionReach_congr s a (lt_of_pageOf h.page) hd ▸ h.reached

theorem busWrite (h : OnPage s a addr pg) (v : W32) (be : BitVec 4) :
    s.busWrite a addr v be = s.pageWrite a pg (pageBase addr) (addr % 0x1000) v be := by
  unfold State.busWrite
  simp only [h.aligned, Nat.sub_zero, h.page, h.notDebug, h.reached, if_false, if_true]

theorem busRead (h : OnPage s a addr pg) : s.busRead a addr = s.pageRead a pg (pageBase addr) (addr % 0x1000) := by
  unfold State.busRead
  simp only [h.aligned, Nat.sub_zero, h.page, h.notDebug, h.reached, decide_false, Bool.false_and, Bool.not_true,
    Bool.false_eq_true, if_false]

end OnPage
end State

/-! ### Counters -/

theorem ctrLists_aligned (type : Nat) : ∀ e ∈ ctrLists type, e.1 % 8 = 0 ∧ 0x40 ≤ e.1 := by
  unfold ctrLists
  split <;> decide

theorem mem_ctrLists_of_ctrLo {pg : PageId} {o lo : Nat} (h : ctrLo pg o = some lo) :
    lo = o - o % 8 ∧ ctrHere pg lo = true ∧ ∃ e ∈ ctrLists pg.type, e.1 ≤ o ∧ o < e.1 + 8 * e.2 := by
  unfold ctrLo at h
  split at h
  · cases h
  · next e he =>
    split at h
    · next hc =>
      cases h
      exact ⟨rfl, hc.2, e, List.mem_of_find?_eq_some he, by simpa using List.find?_some he⟩
    · cases h

theorem ctrLo_ge {pg : PageId} {o lo : Nat} (h : ctrLo pg o = some lo) : 0x40 ≤ o := by
  obtain ⟨_, _, e, he, hle, _⟩ := mem_ctrLists_of_ctrLo h
  exact (ctrLists_aligned _ e he).2.trans hle

/-- The words at a LO and at its HI are halves of one counter. -/
theorem ctrLo_hi {pg : PageId} {lo : Nat} (h : ctrLo pg lo = some lo) : ctrLo pg (lo + 4) = some lo := by
  have h8 : lo % 8 = 0 := by have := (mem_ctrLists_of_ctrLo h).1; omega
  have hf : (ctrLists pg.type).find? (fun e => decide (e.1 ≤ lo + 4) && decide (lo + 4 < e.1 + 8 * e.2)) =
      (ctrLists pg.type).find? (fun e => decide (e.1 ≤ lo) && decide (lo < e.1 + 8 * e.2)) := by
    refine List.find?_congr fun e he => ?_
    have := (ctrLists_aligned _ e he).1
    have h1 : (e.1 ≤ lo + 4) = (e.1 ≤ lo) := propext (by omega)
    have h2 : (lo + 4 < e.1 + 8 * e.2) = (lo < e.1 + 8 * e.2) := propext (by omega)
    simp only [h1, h2]
  have h4 : (lo + 4) % 4 = lo % 4 := by omega
  have hs : lo + 4 - (lo + 4) % 8 = lo - lo % 8 := by omega
  unfold ctrLo at h ⊢
  rw [hf, h4, hs]
  exact h

/-- The token counters of a DATESTONE page are the primary's alone, so no counter of wythe 1's page is read there. -/
theorem primaryReg_of_ctrLo {pg : PageId} {o lo : Nat} (h : ctrLo pg o = some lo) : State.primaryReg pg o = false := by
  obtain ⟨hlo, hhere, e, he, hle, hlt⟩ := mem_ctrLists_of_ctrLo h
  by_cases ht : pg.type = 0x48 ∧ pg.region = 2
  · obtain ⟨ht, hreg⟩ := ht
    rw [ht] at he
    obtain rfl : e = (0x40, 8) := by simpa [ctrLists] using he
    have h1 : ¬ (lo = 0x68 ∨ lo = 0x70) := by
      intro hc
      simp [ctrHere, ht, hreg, hc] at hhere
    simp [State.primaryReg, inWords]
    omega
  · have hb : (pg.type == 0x48 && pg.region == 2) = false := by simpa using ht
    simp only [State.primaryReg, hb, Bool.false_and]

end Sys2Proof.Machine

namespace Sys2Proof.Machine

/-! ### Words and headers -/

theorem mergeBytes_all (old v : W32) : mergeBytes old v 0xF = v := by
  suffices h : v &&& 0xFFFFFFFF#32 = v by simpa [mergeBytes] using h
  exact BitVec.and_allOnes

namespace State
variable {s : State} {a : Agent} {addr : Nat} {pg : PageId}

theorem latchedUpper_latch (s : State) (r : Agent) (lo upper cur : Nat) : (s.latch r lo upper).latchedUpper r lo cur = upper := by
  simp [latchedUpper, latch, sfind_sins_same]

theorem noteClamp_rd_ne (s : State) (a n : Nat) {b : Nat} (h : b ≠ pageBase a + 0x28) : (s.noteClamp a n).rd b = s.rd b := by
  unfold noteClamp
  dsimp only
  split
  · rfl
  · split
    · simp [rd, sget_sput_ne, wr, h]
    · exact rd_wr_ne s _ h

theorem noteClamp_copies (s : State) (a n : Nat) :
    (s.noteClamp a n).staged = s.staged ∧ (s.noteClamp a n).active = s.active ∧ (s.noteClamp a n).counters = s.counters := by
  unfold noteClamp
  dsimp only
  split
  · exact ⟨rfl, rfl, rfl⟩
  · split <;> simp

theorem raise_rd_ne (s : State) (page : Nat) (bits : W32) {b : Nat} (h : b ≠ page + 0x10) : (s.raise page bits).rd b = s.rd b := by
  unfold raise
  dsimp only
  split <;> exact rd_wr_ne s _ h

theorem raise_rd_same (s : State) (page : Nat) (bits : W32) (hs : s.Canon) :
    (s.raise page bits).rd (page + 0x10) = s.rd (page + 0x10) ||| bits := by
  unfold raise
  dsimp only
  split <;> exact rd_wr_same s _ _ hs.1

theorem raise_out (s : State) (page : Nat) (bits : W32) (h : bits &&& ~~~s.rd (page + 0x10) &&& s.rd (page + 0x14) ≠ 0) :
    (s.raise page bits).out = .msix 64 :: s.out := by
  unfold raise
  dsimp only
  rw [if_neg h]
  rfl

theorem only_raise (s : State) (page : Nat) (bits : W32) : Only s (s.raise page bits) id := by
  unfold raise
  dsimp only
  split <;> rfl

/-! ### Writes -/

theorem storedWrite_plain (s : State) (addr : Nat) (d : RegDesc) (v : W32)
    (h : pg.type ∉ [0x05, 0x19, 0x22, 0x23, 0x28, 0x31, 0x32, 0x38, 0x49]) :
    s.storedWrite pg addr d v 0xF = s.enterWord addr d.flds v := by
  -- The types that `storedWrite` treats apart are the list's: simp takes the match to its last arm by these.
  simp only [List.mem_cons, List.not_mem_nil, or_false, not_or] at h
  obtain ⟨h05, h19, h22, h23, h28, h31, h32, h38, h49⟩ := h
  simp only [storedWrite, mergeBytes_all]

/-- A write of all four bytes at a register's own offset, where it is no action. -/
theorem pageWrite_register (s : State) {base o : Nat} {d : RegDesc} {v : W32} (ho : 0x40 ≤ o) (hc : ctrLo pg o = none)
    (ha : s.actionWrite a pg o (mergeBytes 0 v 0xF) 0xF = none) (hd : regDesc (base + o) = some d) :
    s.pageWrite a pg base o v 0xF =
      if d.acc = .st ∨ d.acc = .stKept then (if a = .host then s.stWrite (base + o) v 0xF else s)
      else s.storedWrite pg (base + o) d v 0xF := by
  have hb : ¬ ((0xF : BitVec 4) = 0) := by decide
  have ho' : ¬ o < 0x40 := by omega
  simp only [pageWrite, hb, ho', hc, ha, hd, if_false]

theorem enterWord_spec (s : State) (addr : Nat) (flds : List Fld) (v : W32) (hs : s.Canon) (ho : 0x40 ≤ addr % 0x1000) :
    let t := s.enterWord addr flds v
    t.rd addr = w32 (clampWord flds v.toNat) ∧ (∀ b, b ≠ addr → b ≠ pageBase addr + 0x28 → t.rd b = s.rd b) ∧
      t.staged = s.staged ∧ t.active = s.active ∧ t.counters = s.counters := by
  have hne : addr ≠ pageBase addr + 0x28 := by
    have := pageBase_add_offset addr
    omega
  refine ⟨?_, fun b hb hn => ?_, noteClamp_copies _ _ _⟩
  · exact (noteClamp_rd_ne _ _ _ hne).trans (rd_wr_same s addr _ hs.1)
  · exact (noteClamp_rd_ne _ _ _ hn).trans (rd_wr_ne s _ hb)

/-! ### Reads -/

/-- The LO of a counter reads the counter's lower half and latches the upper one. -/
theorem readCtr_lo (s : State) (a : Agent) (pg : PageId) (base lo : Nat) {v : BitVec 49} {s1 : State}
    (h : s.ctrNow pg base lo = (v, s1)) :
    s.readCtr a pg base lo false = (w32 v.toNat, s1.latch a (base + lo) (v.toNat % 2 ^ 48 / 2 ^ 32)) := by
  have hw : w32 (v.toNat % 2 ^ 48) = w32 v.toNat := by
    apply BitVec.eq_of_toNat_eq
    simp only [w32, BitVec.toNat_ofNat]
    omega
  simp only [readCtr, h, hw]
  rfl

theorem ctrNow_stored (s : State) {base lo : Nat} (hc : ctrConflict pg lo = false) (h5 : pg.type = 0x05 → lo ≠ 0x58)
    (h31 : pg.type = 0x31 → lo ≠ 0x80) (h41 : pg.type = 0x41 → lo < 0x68) : s.ctrNow pg base lo = (s.ctr (base + lo), s) := by
  unfold ctrNow
  grind

theorem pageRead_ctr (s : State) {base lo : Nat} (h : ctrLo pg lo = some lo) :
    s.pageRead a pg base lo = s.readCtr a pg base lo false := by
  have ho : ¬ lo < 0x40 := by have := ctrLo_ge h; omega
  have h8 : (lo % 8 == 4) = false := by
    have := (mem_ctrLists_of_ctrLo h).1
    simp
    omega
  simp only [pageRead, primaryReg_of_ctrLo h, ownRead, ho, h, h8, if_false, Bool.false_eq_true]

theorem pageRead_side (s : State) {base o : Nat} {r : W32 × State} (hp : primaryReg pg o = false) (ho : 0x40 ≤ o)
    (hc : ctrLo pg o = none) (hs : s.sideRead a pg o = some r) : s.pageRead a pg base o = r := by
  have ho' : ¬ o < 0x40 := by omega
  simp only [pageRead, hp, ownRead, ho', hc, hs, if_false, Bool.false_eq_true]

/-- A 1 in bit 31 of a counter's HI. -/
theorem pageWrite_overflow (s : State) {base lo : Nat} (h : ctrLo pg lo = some lo) :
    s.pageWrite a pg base (lo + 4) 0x80000000 0xF = s.clearOverflow pg base lo := by
  have hb : ¬ ((0xF : BitVec 4) = 0) := by decide
  have ho : ¬ lo + 4 < 0x40 := by have := ctrLo_ge h; omega
  have h8 : (lo + 4) % 8 = 4 := by have := (mem_ctrLists_of_ctrLo h).1; omega
  have hf : flag 0x80000000 31 = true := by decide
  simp only [pageWrite, hb, ho, ctrLo_hi h, h8, mergeBytes_all, hf, if_false, and_self, if_true]

theorem clearOverflow_stored (s : State) {base lo : Nat} (hd : ctrSealed pg lo = false) (hc : ctrConflict pg lo = false)
    (h31 : pg.type = 0x31 → lo ≠ 0x80) (h41 : pg.type = 0x41 → lo < 0x68) :
    s.clearOverflow pg base lo = s.clearOvf (base + lo) := by
  unfold clearOverflow
  grind

theorem clearOvf_spec (s : State) (x : Nat) (hs : s.Canon) :
    let t := s.clearOvf x
    (t.ctr x).toNat = s.ctrVal x ∧ (∀ b, b ≠ x → t.ctr b = s.ctr b) ∧ Only s t id := by
  refine ⟨?_, fun b hb => ctr_setCtr_ne s _ hb, rfl⟩
  have hlt : s.ctrVal x < 2 ^ 49 := by unfold ctrVal; omega
  rw [clearOvf, ctr_setCtr_same s x _ hs.2.2.2.2, BitVec.toNat_ofNat, Nat.mod_eq_of_lt hlt]

end State
end Sys2Proof.Machine

namespace Sys2Proof.Machine.State.OnPage
variable {s : State} {a : Agent} {addr : Nat} {pg : PageId}

/-- A word further on in the page of a page's first word. -/
theorem offset (h : OnPage s a addr pg) (h0 : addr % 0x1000 = 0) {k : Nat} (hk : k < 0x1000) (h4 : k % 4 = 0) :
    OnPage s a (addr + k) pg ∧ pageBase (addr + k) = addr ∧ (addr + k) % 0x1000 = k := by
  refine ⟨h.samePage (by omega) (by omega), ?_, by omega⟩
  unfold pageBase
  omega

theorem registerWrite_rw (h : OnPage s a addr pg) {d : RegDesc} {v : W32} (hd : regDesc addr = some d) (ho : 0x40 ≤ addr % 0x1000)
    (hc : ctrLo pg (addr % 0x1000) = none) (ha : s.actionWrite a pg (addr % 0x1000) (mergeBytes 0 v 0xF) 0xF = none)
    (hacc : d.acc = .rw ∨ d.acc = .kept) (ht : pg.type ∉ [0x05, 0x19, 0x22, 0x23, 0x28, 0x31, 0x32, 0x38, 0x49]) (hs : s.Canon) :
    Completes (.registerWrite a addr v 0xF) s (fun t => t.rd addr = w32 (clampWord d.flds v.toNat) ∧
      (∀ b, b ≠ addr → b ≠ pageBase addr + 0x28 → t.rd b = s.rd b) ∧ t.staged = s.staged ∧ t.active = s.active ∧
      t.counters = s.counters) := by
  have hb := pageBase_add_offset addr
  have hn : ¬ (d.acc = .st ∨ d.acc = .stKept) := by
    rcases hacc with e | e <;> simp [e]
  refine ⟨s.enterWord addr d.flds v, ?_, enterWord_spec s addr d.flds v hs ho⟩
  change Host.Outcome.next _ = _
  rw [h.busWrite, pageWrite_register s ho hc ha (by rwa [hb]), if_neg hn, hb, storedWrite_plain s addr d v ht]

theorem registerWrite_st (h : OnPage s a addr pg) {d : RegDesc} {v : W32} (hd : regDesc addr = some d) (ho : 0x40 ≤ addr % 0x1000)
    (hc : ctrLo pg (addr % 0x1000) = none) (ha : s.actionWrite a pg (addr % 0x1000) (mergeBytes 0 v 0xF) 0xF = none)
    (hacc : d.acc = .st ∨ d.acc = .stKept) (hf : a ≠ .host) : Completes (.registerWrite a addr v 0xF) s (fun t => t = s) := by
  refine ⟨s, ?_, rfl⟩
  change Host.Outcome.next _ = _
  rw [h.busWrite, pageWrite_register s ho hc ha (by rwa [pageBase_add_offset]), if_pos hacc, if_neg hf]

theorem registerWrite_noBytes (h : OnPage s a addr pg) (v : W32) : Completes (.registerWrite a addr v 0) s (fun t => t = s) := by
  refine ⟨s, ?_, rfl⟩
  change Host.Outcome.next _ = _
  rw [h.busWrite]
  rfl

theorem eventClear (h : OnPage s a addr pg) (h0 : addr % 0x1000 = 0) (hs : s.Canon) (m : W32) :
    Completes (.eventClear a addr m) s (fun t => t.rd (addr + 0x10) = s.rd (addr + 0x10) &&& ~~~m ∧
      (∀ b, b ≠ addr + 0x10 → t.rd b = s.rd b) ∧ Only s t id ∧ t.out = s.out) := by
  obtain ⟨hp, hb, ho⟩ := h.offset h0 (k := 0x10) (by decide) (by decide)
  refine ⟨s.clearEvents addr m, ?_, rd_wr_same s _ _ hs.1, fun b hne => rd_wr_ne s _ hne, rfl, rfl⟩
  change Host.Outcome.next _ = _
  rw [hp.busWrite, hb, ho]
  change Host.Outcome.next (s.clearEvents addr (mergeBytes 0 m 0xF)) = _
  rw [mergeBytes_all]

theorem evForce (h : OnPage s a addr pg) (h0 : addr % 0x1000 = 0) (hs : s.Canon) (m : W32) :
    Completes (.evForce a addr m) s (fun t => t.rd (addr + 0x10) = s.rd (addr + 0x10) ||| (m &&& w32 (eventBits pg.type)) ∧
      (∀ b, b ≠ addr + 0x10 → t.rd b = s.rd b) ∧ Only s t id ∧ t.counters = s.counters ∧
      (m &&& w32 (eventBits pg.type) &&& ~~~s.rd (addr + 0x10) &&& s.rd (addr + 0x14) ≠ 0 → t.out = .msix 64 :: s.out)) := by
  obtain ⟨hp, hb, ho⟩ := h.offset h0 (k := 0x1C) (by decide) (by decide)
  refine ⟨s.raise addr (m &&& w32 (eventBits pg.type)), ?_, raise_rd_same s _ _ hs, fun b hne => raise_rd_ne s _ _ hne,
    only_raise s _ _, raise_counters s _ _, raise_out s _ _⟩
  change Host.Outcome.next _ = _
  rw [hp.busWrite, hb, ho]
  change Host.Outcome.next (s.forceEvents pg addr (mergeBytes 0 m 0xF)) = _
  rw [mergeBytes_all]
  rfl

/-! ### The counters of a page -/

/-- A read of a counter's LO answers the lower half of what the counter holds and latches the upper one. -/
theorem counterLoRead_eq (h : OnPage s a addr pg) (hlo : ctrLo pg (addr % 0x1000) = some (addr % 0x1000)) {v : BitVec 49} {s1 : State}
    (hn : s.ctrNow pg (pageBase addr) (addr % 0x1000) = (v, s1)) :
    Machine.exec (.counterLoRead a addr) s =
      .next ((s1.latch a addr (v.toNat % 2 ^ 48 / 2 ^ 32)).answer (w32 v.toNat)) := by
  have h8 : addr - addr % 8 = addr := by
    have := (mem_ctrLists_of_ctrLo hlo).1
    omega
  have hr := readCtr_lo s a pg (pageBase addr) (addr % 0x1000) hn
  rw [pageBase_add_offset] at hr
  change execCounterLoRead a addr s = _
  simp only [execCounterLoRead, h8, h.busRead, pageRead_ctr s hlo, hr]

theorem counterLoRead_stored (h : OnPage s a addr pg) (hlo : ctrLo pg (addr % 0x1000) = some (addr % 0x1000))
    (hc : ctrConflict pg (addr % 0x1000) = false) (h5 : pg.type = 0x05 → addr % 0x1000 ≠ 0x58)
    (h31 : pg.type = 0x31 → addr % 0x1000 ≠ 0x80) (h41 : pg.type = 0x41 → addr % 0x1000 < 0x68) :
    Completes (.counterLoRead a addr) s (fun t => t.readData = w32 (s.ctr addr).toNat ∧
      t.latchedUpper a addr 0 = s.ctrVal addr / 2 ^ 32 ∧ t.counters = s.counters ∧ Only s t id) := by
  have hn := s.ctrNow_stored (base := pageBase addr) hc h5 h31 h41
  rw [pageBase_add_offset] at hn
  exact ⟨_, h.counterLoRead_eq hlo hn, rfl, latchedUpper_latch s a addr _ 0, rfl, rfl⟩

/-- PROOF's BRACES counter is a part of the Proof's state. -/
theorem counterLoRead_braces (h : OnPage s a addr pg) (hlo : ctrLo pg (addr % 0x1000) = some (addr % 0x1000)) (h5 : pg.type = 0x05)
    (h58 : addr % 0x1000 = 0x58) :
    Completes (.counterLoRead a addr) s (fun t => t.readData = w32 s.proof.braces ∧ Only s t id) := by
  have hn : s.ctrNow pg (pageBase addr) (addr % 0x1000) = (BitVec.ofNat 49 s.proof.braces, s) := by
    simp [ctrNow, ctrConflict, h5, h58]
  refine ⟨_, h.counterLoRead_eq hlo hn, ?_, rfl⟩
  change w32 (BitVec.ofNat 49 s.proof.braces).toNat = w32 s.proof.braces
  apply BitVec.eq_of_toNat_eq
  simp only [w32, BitVec.toNat_ofNat]
  omega

/-- The CONFLICT counters are brought up to date by their read (R306, log 5). -/
theorem counterLoRead_conflict (h : OnPage s a addr pg) (hlo : ctrLo pg (addr % 0x1000) = some (addr % 0x1000))
    (hc : ctrConflict pg (addr % 0x1000) = true) :
    Completes (.counterLoRead a addr) s (fun t =>
      t.readData = w32 ((s.settleConflicts (pageWythe pg) pg.inst).ctr addr).toNat ∧
      t.ctr addr = (s.settleConflicts (pageWythe pg) pg.inst).ctr addr) := by
  have hn : s.ctrNow pg (pageBase addr) (addr % 0x1000) =
      ((s.settleConflicts (pageWythe pg) pg.inst).ctr addr, s.settleConflicts (pageWythe pg) pg.inst) := by
    simp only [ctrNow, hc, if_true, pageBase_add_offset]
  exact ⟨_, h.counterLoRead_eq hlo hn, rfl, rfl⟩

theorem overflowClear_eq (h : OnPage s a addr pg) (hlo : ctrLo pg (addr % 0x1000) = some (addr % 0x1000)) :
    Machine.exec (.overflowClear a addr) s = .next (s.clearOverflow pg (pageBase addr) (addr % 0x1000)) := by
  have h8 : addr - addr % 8 = addr := by
    have := (mem_ctrLists_of_ctrLo hlo).1
    omega
  have hmod : addr % 0x1000 % 8 = 0 := by
    have := (mem_ctrLists_of_ctrLo hlo).1
    omega
  have hp : OnPage s a (addr + 4) pg := h.samePage (by omega) (by omega)
  have hb : pageBase (addr + 4) = pageBase addr := by
    unfold pageBase
    omega
  have ho : (addr + 4) % 0x1000 = addr % 0x1000 + 4 := by omega
  change Host.Outcome.next _ = _
  rw [h8, hp.busWrite, hb, ho, pageWrite_overflow s hlo]

theorem overflowClear_stored (h : OnPage s a addr pg) (hlo : ctrLo pg (addr % 0x1000) = some (addr % 0x1000)) (hs : s.Canon)
    (hd : ctrSealed pg (addr % 0x1000) = false) (hc : ctrConflict pg (addr % 0x1000) = false)
    (h31 : pg.type = 0x31 → addr % 0x1000 ≠ 0x80) (h41 : pg.type = 0x41 → addr % 0x1000 < 0x68) :
    Completes (.overflowClear a addr) s (fun t => (t.ctr addr).toNat = s.ctrVal addr ∧ (∀ b, b ≠ addr → t.ctr b = s.ctr b) ∧
      Only s t id) := by
  refine ⟨s.clearOvf addr, ?_, clearOvf_spec s addr hs⟩
  rw [h.overflowClear_eq hlo, clearOverflow_stored s hd hc h31 h41, pageBase_add_offset]

theorem overflowClear_sealed (h : OnPage s a addr pg) (hlo : ctrLo pg (addr % 0x1000) = some (addr % 0x1000))
    (hd : ctrSealed pg (addr % 0x1000) = true) : Completes (.overflowClear a addr) s (fun t => t = s) := by
  refine ⟨s, ?_, rfl⟩
  rw [h.overflowClear_eq hlo, clearOverflow, if_pos hd]

/-! ### Registers cleared by their read -/

theorem of_wythe {w : WytheIx} {o : Nat} (hr : s.reach a w = true) (he : addr = wyBase w + o) (h4 : o % 4 = 0) (ho : o < 0x800000)
    (hp : pageOf (wyBase w + o) = some pg) (ht : pg.type ≠ 0x07) : OnPage s a addr pg where
  aligned := by
    have : wyBase w % 4 = 0 := by unfold wyBase; omega
    omega
  page := he ▸ hp
  notDebug := ht
  reached := he ▸ (regionReach_wythe s a w ho).trans hr

/-- A read that the page answers with an effect of its own. -/
theorem rcRead_side (h : OnPage s a addr pg) {o : Nat} {r : W32 × State} (ho : addr % 0x1000 = o) (h48 : pg.type ≠ 0x48)
    (hge : 0x40 ≤ o) (hc : ctrLo pg o = none) (hs : s.sideRead a pg o = some r) :
    Machine.exec (.rcRead a addr) s = .next (r.2.answer r.1) := by
  have hprim : primaryReg pg o = false := by
    simp [primaryReg, h48]
  change execRcRead a addr s = _
  simp only [execRcRead, h.busRead, ho, pageRead_side s hprim hge hc hs]

end Sys2Proof.Machine.State.OnPage

namespace Sys2Proof.Machine

theorem pageOf_pgPressMain : ∀ w : WytheIx, pageOf (wyBase w + 0xF8104) = some ⟨w.val + 1, 0x41, 0⟩ := by
  decide +kernel

theorem pageOf_pgColl : ∀ w : WytheIx, pageOf (wyBase w + 0x15104) = some ⟨w.val + 1, 0x1D, 0⟩ := by
  decide +kernel

theorem pageOf_pgChase : ∀ n : CoreId, pageOf (wyBase n.w + (0x60124 + 0x1000 * n.ix)) = some ⟨n.w.val + 1, 0x31, n.ix⟩ := by
  have h : ∀ (w : WytheIx) (i : Fin 48), pageOf (wyBase w + (0x60124 + 0x1000 * i.val)) = some ⟨w.val + 1, 0x31, i.val⟩ := by
    decide +kernel
  exact fun n => h n.w ⟨n.ix, by simp only [CoreId.ix, coreIx]; omega⟩

namespace State

theorem pageWythe_wythe (w : WytheIx) (type inst : Nat) : pageWythe ⟨w.val + 1, type, inst⟩ = w := by
  rcases wythe_cases w with rfl | rfl <;> rfl

end State

theorem coreOf_ix (n : CoreId) : coreOf n.w n.ix = n := by
  obtain ⟨w, c, k⟩ := n
  simp only [coreOf, CoreId.ix, coreIx, CoreId.mk.injEq, true_and]
  refine ⟨Fin.ext ?_, Fin.ext ?_⟩ <;> simp only [Fin.ofNat] <;> omega

namespace State
variable {s : State} {a : Agent}

/-- STORE_MAX of PRESS. -/
theorem rcRead_press {w : WytheIx} (hr : s.reach a w = true) (hs : s.Canon) :
    Completes (.rcRead a (pgPressMain w + 0x104)) s (fun t => t.readData = s.rd (pgPressMain w + 0x104) ∧
      t.rd (pgPressMain w + 0x104) = 0 ∧ (∀ b, b ≠ pgPressMain w + 0x104 → t.rd b = s.rd b) ∧ Only s t id) := by
  have h : OnPage s a (pgPressMain w + 0x104) ⟨w.val + 1, 0x41, 0⟩ :=
    .of_wythe hr (o := 0xF8104) (by simp only [pgPressMain]) (by decide) (by decide) (pageOf_pgPressMain w) (by simp)
  have ho : (pgPressMain w + 0x104) % 0x1000 = 0x104 := by
    simp only [pgPressMain, wyBase]
    omega
  have hside : s.sideRead a ⟨w.val + 1, 0x41, 0⟩ 0x104 =
      some (s.rd (pgPressMain w + 0x104), s.wr (pgPressMain w + 0x104) 0) := by
    simp [sideRead, pageWythe_wythe]
  exact ⟨_, h.rcRead_side ho (by simp) (by decide) rfl hside, rfl, rd_wr_same s _ _ hs.1, fun b hb => rd_wr_ne s _ hb, rfl⟩

/-- SLOTS_MAX of COLLATOR. -/
theorem rcRead_coll {w : WytheIx} (hr : s.reach a w = true) :
    Completes (.rcRead a (pgColl w + 0x104)) s (fun t => t.readData = w32 (s.wy w).coll.slotsMax ∧
      (t.wy w).coll = { (s.wy w).coll with slotsMax := 0 } ∧ t.regs = s.regs ∧ Only s t (·.updColl w (fun _ => {}))) := by
  have h : OnPage s a (pgColl w + 0x104) ⟨w.val + 1, 0x1D, 0⟩ :=
    .of_wythe hr (o := 0x15104) (by simp only [pgColl]) (by decide) (by decide) (pageOf_pgColl w) (by simp)
  have ho : (pgColl w + 0x104) % 0x1000 = 0x104 := by
    simp only [pgColl, wyBase]
    omega
  have hside : s.sideRead a ⟨w.val + 1, 0x1D, 0⟩ 0x104 =
      some (w32 (s.wy w).coll.slotsMax, s.updColl w (fun c => { c with slotsMax := 0 })) := by
    simp [sideRead, pageWythe_wythe]
  refine ⟨_, h.rcRead_side ho (by simp) (by decide) rfl hside, rfl, by simp, by simp, ?_⟩
  rcases wythe_cases w with rfl | rfl <;> rfl

/-- WAIT_MAX of CHASE, for the task in TASK_SEL. -/
theorem rcRead_chase {n : CoreId} (hr : s.reach a n.w = true) :
    let task : TcbIx := Fin.ofNat 64 (fld (s.rd (pgChase n.w n.ix + 0x110)) 5 0)
    Completes (.rcRead a (pgChase n.w n.ix + 0x124)) s (fun t => t.readData = (s.taskOn n task).waitMax ∧
      t.taskOn n task = { s.taskOn n task with waitMax := 0 } ∧ t.regs = s.regs) := by
  intro task
  have hn : n.ix < 48 := by
    simp only [CoreId.ix, coreIx]
    omega
  have h : OnPage s a (pgChase n.w n.ix + 0x124) ⟨n.w.val + 1, 0x31, n.ix⟩ :=
    .of_wythe hr (o := 0x60124 + 0x1000 * n.ix) (by unfold pgChase; omega) (by omega) (by omega) (pageOf_pgChase n) (by simp)
  have ho : (pgChase n.w n.ix + 0x124) % 0x1000 = 0x124 := by
    simp only [pgChase, wyBase]
    omega
  have hside : s.sideRead a ⟨n.w.val + 1, 0x31, n.ix⟩ 0x124 =
      some ((s.taskOn n task).waitMax, s.updTask n task (fun c => { c with waitMax := 0 })) := by
    simp [sideRead, readChase, pageCore, pageWythe_wythe, coreOf_ix, task]
  exact ⟨_, h.rcRead_side ho (by simp) (by decide) rfl hside, rfl, tcb_updTcb_same s n.w (tcbNo n task) _,
    updTcb_regs s n.w (tcbNo n task) _⟩

end State

/-- Settles O41: each clause is the lemma of its command on the page that the address names. -/
theorem registerPages : Obligations.RegisterPages := by
  unfold Obligations.RegisterPages
  refine ⟨fun s a addr pg h4 hp ht hr => ?_, fun s a w hr => ⟨State.rcRead_press hr, State.rcRead_coll hr, fun c k =>
    State.rcRead_chase (n := ⟨w, c, k⟩) hr⟩⟩
  have h : State.OnPage s a addr pg := ⟨h4, hp, ht, hr⟩
  refine ⟨fun d v hd ho hc ha => ⟨fun hacc hty hs => h.registerWrite_rw hd ho hc ha hacc hty hs,
    fun hacc hf => h.registerWrite_st hd ho hc ha hacc hf⟩, h.registerWrite_noBytes,
    fun h0 hs m => ⟨h.eventClear h0 hs m, h.evForce h0 hs m⟩, fun lo hlo e hc h5 h31 h41 => ?_, fun lo hlo e => ?_⟩
  · subst e
    exact ⟨h.counterLoRead_stored hlo hc h5 h31 h41, fun hs => ⟨fun hd => h.overflowClear_stored hlo hs hd hc h31 h41,
      h.overflowClear_sealed hlo⟩⟩
  · subst e
    exact ⟨h.counterLoRead_braces hlo, h.counterLoRead_conflict hlo⟩

end Sys2Proof.Machine

end

/-!
# Two statements that fail

Each is refuted by a state written out below, which the model evaluates to the outcome that the statement denies.
-/

section

namespace Sys2Proof.Machine

/-! ### Reception: an error code of its own -/

/-- A frame under way whose error code, 0x14415, is none of the codes of R404. -/
def oddErrorFrame : RxFrame :=
  { id := 0, port := 0, data := [], stamp := 0, handle := none, err := 0x14415, ended := false, refused := false, cause := none,
    taken := false, released := false }

/-- The reset state while port 0 of wythe 0 receives that frame. -/
def oddErrorState : State := State.reset.updWy 0 (fun y => { y with rx := [oddErrorFrame] })

theorem oddErrorState_canon : oddErrorState.Canon := ⟨rfl, rfl, rfl, rfl, rfl⟩

/-- The PORT counter of error 0x14415 stands at `pgPort 0 0 + 0x58 + 8 * 0x14415`, which is `witRx 0 0`. -/
theorem frameEnds_oddError_witRx : (oddErrorState.frameEnds 0 0 true).ctr (witRx 0 0) = 2 := by decide +kernel

/-- Refutes O17: FRAME_END counts an error in the counter that the frame's code chooses, and the statement, which bounds
the codes by nothing, admits one whose counter is the witness's own: the frame received is then counted twice. No frame
that FRAME_ARRIVAL takes has such a code (`rxError` gives 0 to 3). -/
theorem not_receptionAndLinks : ¬ Obligations.ReceptionAndLinks := by
  unfold Obligations.ReceptionAndLinks
  rintro ⟨reception, -⟩
  obtain ⟨-, -, -, frameEnd⟩ := reception oddErrorState 0 0
  obtain ⟨-, t, ht, -, -, hcounted, -⟩ := frameEnd oddErrorFrame rfl oddErrorState_canon rfl rfl
  obtain rfl := Host.Outcome.next.inj ht
  have hone : (oddErrorState.frameEnds 0 0 true).ctr (witRx 0 0) = 1 := hcounted.trans (by decide +kernel)
  exact absurd (frameEnds_oddError_witRx.symm.trans hone) (by decide)

/-! ### Release: a host queue behind a lost tie -/

/-- A FORWARD descriptor to host queue 0 of wythe 1, naming 16 bytes of buffer 0 of pool 0. -/
def hostDescriptor : Bytes := toBe 4 0xC0000000 ++ toBe 4 0x01000000 ++ toBe 4 0 ++ toBe 4 16

/-- A slot of domain 0 whose verdict is that descriptor. -/
def hostSlot : SeqSlot :=
  { state := .ready (.forward hostDescriptor), domain := 0, seq := 0, forme := 0, port := 0, handle := 0, serial := 0, frame := none }

/-- Wythe 0 has lost the tie, and that slot, with its buffer, is the head of domain 0 on wythe 1. -/
def hostCutState : State :=
  ((State.reset.updTie 0 (fun k => { k with split := true })).updPool 1 0 (fun _ =>
    { open_ := true, size := 64, count := 1, refs := [(0, 1)] })).updColl 1 (fun c =>
      { c with slots := [(0, hostSlot)], order := [(0, [0])] })

theorem hostCutState_canon : hostCutState.Canon := ⟨rfl, rfl, rfl, rfl, rfl⟩

theorem release_hostCutState_arrivals :
    ((hostCutState.release 1 0).wy 1).press.arrivals = (hostCutState.wy 1).press.arrivals := by
  decide +kernel

/-- Refutes O19: while the tie is lost, wythe 1 drops what it directs to its host queues (R22, R527; `hostCut`), so a
READY FORWARD to one gives the Press no copy; the statement's clause of FORWARD assumes nothing of the tie. -/
theorem not_verdictsAndReleases : ¬ Obligations.VerdictsAndReleases := by
  unfold Obligations.VerdictsAndReleases
  rintro ⟨-, releases⟩
  obtain ⟨-, -, forward, -⟩ := releases hostCutState 1 0 0 hostSlot (by decide +kernel) hostCutState_canon
  obtain ⟨t, ht, -, -, ⟨c, harrivals, -⟩, -⟩ :=
    forward hostDescriptor rfl (by decide +kernel) (by decide +kernel) (by decide +kernel) (by decide +kernel) rfl
  obtain rfl := Host.Outcome.next.inj ht
  have hlength := congrArg List.length (release_hostCutState_arrivals.symm.trans harrivals)
  simp at hlength

end Sys2Proof.Machine

end

/-!
# Frames of the frame path

`Only s t g` compares what is left of two states after `g`; the rules below follow a chain of updates through it, and
`Spares` does the same for one counter and the words of its page.
-/

section

namespace Sys2Proof.Machine.State

/-! ### Only -/

variable {s t u : State} {w : WytheIx} {h h' : Wythe → Wythe}

theorem updWy_updWy (s : State) (w : WytheIx) (f g : Wythe → Wythe) :
    (s.updWy w f).updWy w g = s.updWy w (fun y => g (f y)) := by
  rcases wythe_cases w with rfl | rfl <;> rfl

theorem updWy_congr {f g : Wythe → Wythe} (hfg : f (s.wy w) = g (s.wy w)) : s.updWy w f = s.updWy w g := by
  simp only [updWy, hfg]

@[simp] theorem essence_updWy (s : State) (w : WytheIx) (f : Wythe → Wythe) : (s.updWy w f).essence = s.essence.updWy w f := by
  rcases wythe_cases w with rfl | rfl <;> rfl
@[simp] theorem essence_wy (s : State) (v : WytheIx) : s.essence.wy v = s.wy v := by
  rcases wythe_cases v with rfl | rfl <;> rfl
@[simp] theorem essence_setCtr (s : State) (a : Nat) (v : BitVec 49) : (s.setCtr a v).essence = s.essence := rfl
@[simp] theorem essence_emit (s : State) (o : Output) : (s.emit o).essence = s.essence := rfl
@[simp] theorem essence_count (s : State) (a n : Nat) : (s.count a n).essence = s.essence := by
  unfold count
  split <;> simp
@[simp] theorem essence_raise (s : State) (page : Nat) (bits : W32) : (s.raise page bits).essence = s.essence := only_raise s page bits
@[simp] theorem essence_raiseBit (s : State) (page i : Nat) : (s.raiseBit page i).essence = s.essence := essence_raise s _ _
@[simp] theorem essence_countStream (s : State) (w : WytheIx) (c : Copy) (i n : Nat) : (s.countStream w c i n).essence = s.essence := by
  unfold countStream
  split <;> simp

namespace Only

theorem refl (s : State) (g : State → State) : Only s s g := rfl

theorem trans {g : State → State} (h₁ : Only s t g) (h₂ : Only t u g) : Only s u g := Eq.trans h₂ h₁

/-- What the essence leaves out does not matter. -/
theorem same (h₁ : Only s t (·.updWy w h)) (he : u.essence = t.essence) : Only s u (·.updWy w h) := by
  unfold Only at h₁ ⊢
  simpa only [essence_updWy, he] using h₁

/-- A change of a wythe that `h` forgets. -/
theorem change {f : Wythe → Wythe} (h₁ : Only s t (·.updWy w h)) (hf : ∀ y, h (f y) = h y) : Only s (t.updWy w f) (·.updWy w h) := by
  refine h₁.trans ?_
  change ((t.updWy w f).updWy w h).essence = (t.updWy w h).essence
  simp only [updWy_updWy, hf]

/-- A coarser view forgets what a finer one does. -/
theorem forget (h₁ : Only s t (·.updWy w h)) (hh : ∀ y, h' (h y) = h' y) : Only s t (·.updWy w h') := by
  have hu : ∀ u : State, (u.updWy w h').essence = ((u.updWy w h).essence).updWy w h' := by
    intro u
    simp only [essence_updWy, updWy_updWy, hh]
  change (t.updWy w h').essence = (s.updWy w h').essence
  rw [hu, hu, show (t.updWy w h).essence = (s.updWy w h).essence from h₁]

theorem each {α : Type} {g : State → State} {f : State → α → State} (hf : ∀ s e, Only s (f s e) g) (l : List α) (s : State) :
    Only s (s.each l f) g :=
  each_induct (fun t => Only s t g) f (fun t e ht => ht.trans (hf t e)) l s (refl s g)

theorem onlyIf {g f : State → State} (b : Bool) (hf : Only s (f s) g) : Only s (s.onlyIf b f) g := by
  unfold State.onlyIf
  split
  · exact hf
  · exact refl s g

theorem wy_same (h₁ : Only s t (·.updWy w h)) : h (t.wy w) = h (s.wy w) := by
  have he : (t.updWy w h).essence.wy w = (s.updWy w h).essence.wy w := congrArg (·.wy w) h₁
  simpa using he

theorem wy_other (h₁ : Only s t (·.updWy w h)) {v : WytheIx} (hv : v ≠ w) : t.wy v = s.wy v := by
  have he : (t.updWy w h).essence.wy v = (s.updWy w h).essence.wy v := congrArg (·.wy v) h₁
  simpa [wy_updWy_ne _ _ hv] using he

end Only

/-! ### Spares -/

/-- The counter at `a` and the words of its page stand as they were. -/
def Spares (a : Nat) (s t : State) : Prop := t.ctr a = s.ctr a ∧ ∀ b, pageBase b = pageBase a → t.rd b = s.rd b

namespace Spares
variable {a : Nat}

theorem refl (a : Nat) (s : State) : Spares a s s := ⟨rfl, fun _ _ => rfl⟩

theorem trans (h₁ : Spares a s t) (h₂ : Spares a t u) : Spares a s u :=
  ⟨h₂.1.trans h₁.1, fun b hb => (h₂.2 b hb).trans (h₁.2 b hb)⟩

theorem frozen (h₁ : Spares a s t) : t.frozen (pageBase a) = s.frozen (pageBase a) := by
  have hb : pageBase (pageBase a + 8) = pageBase a := by
    unfold pageBase
    omega
  simp only [State.frozen, h₁.2 _ hb]

theorem of_words (hc : t.counters = s.counters) (hr : t.regs = s.regs) : Spares a s t := by
  simp [Spares, ctr, rd, hc, hr]

theorem updWy (s : State) (w : WytheIx) (f : Wythe → Wythe) : Spares a s (s.updWy w f) := of_words (by simp) (by simp)

theorem count (s : State) {b : Nat} (n : Nat) (hb : a ≠ b) : Spares a s (s.count b n) := by
  refine ⟨?_, fun _ _ => by simp⟩
  unfold State.count
  split
  · rfl
  · exact ctr_setCtr_ne s _ hb

theorem raise (s : State) {page : Nat} (bits : W32) (hp : pageBase (page + 0x10) ≠ pageBase a) : Spares a s (s.raise page bits) :=
  ⟨by simp, fun b hb => raise_rd_ne s page bits (by rintro rfl; exact hp hb)⟩

theorem raiseBit (s : State) {page : Nat} (i : Nat) (hp : pageBase (page + 0x10) ≠ pageBase a) : Spares a s (s.raiseBit page i) :=
  raise s _ hp

theorem each {α : Type} {f : State → α → State} (l : List α) (s : State) (hf : ∀ s, ∀ e ∈ l, Spares a s (f s e)) :
    Spares a s (s.each l f) := by
  induction l generalizing s with
  | nil => exact refl a s
  | cons e l ih => exact (hf s e (by simp)).trans (ih (f s e) fun s x hx => hf s x (by simp [hx]))

theorem onlyIf (s : State) (b : Bool) {f : State → State} (hf : Spares a s (f s)) : Spares a s (s.onlyIf b f) := by
  unfold State.onlyIf
  split
  · exact hf
  · exact refl a s

theorem drop (s : State) (w : WytheIx) {p : Nat} {c : Cause} (hp : a ≠ pgPort w p + 0x400 + 8 * c.code) (hd : a ≠ witDrop w p c.code) :
    Spares a s (s.drop w p c) := (count s 1 hp).trans (count _ 1 hd)

end Spares

theorem ctr_count_same (s : State) (a : Nat) (hs : s.Canon) :
    (s.count a 1).ctr a = if s.frozen (pageBase a) && !datestonePage a then s.ctr a else ctrAdd (s.ctr a) 1 := by
  unfold count
  split
  · rfl
  · exact ctr_setCtr_same s a _ hs.counters

/-- One count, spared before and after. -/
theorem Counted.of_spares {a : Nat} (h₁ : Spares a s t) (ht : t.Canon) (h₂ : u.ctr a = (t.count a 1).ctr a) : Counted s u a := by
  unfold Counted
  rw [h₂, ctr_count_same t a ht, h₁.1, h₁.frozen]

/-! ### Pages -/

theorem pageBase_page_add {pg o : Nat} (hp : pg % 0x1000 = 0) (ho : o < 0x1000) : pageBase (pg + o) = pg := by
  unfold pageBase
  omega

/-! ### The Galley's reference counts -/

theorem only_count (s : State) (a n : Nat) (w : WytheIx) (h : Wythe → Wythe) : Only s (s.count a n) (·.updWy w h) :=
  (Only.refl s _).same (essence_count s a n)

theorem only_updPort (s : State) (w : WytheIx) (p : Nat) (f : PortSt → PortSt) :
    Only s (s.updPort w p f) (·.updWy w (fun y => { y with ports := [] })) := by
  unfold updPort
  exact (Only.refl s _).change fun _ => rfl
theorem only_updColl (s : State) (w : WytheIx) (f : Collator → Collator) : Only s (s.updColl w f) (·.updColl w (fun _ => {})) := by
  unfold updColl
  exact (Only.refl s _).change fun _ => rfl
theorem only_updGalley (s : State) (w : WytheIx) (f : Galley → Galley) : Only s (s.updGalley w f) (·.updGalley w (fun _ => {})) := by
  unfold updGalley
  exact (Only.refl s _).change fun _ => rfl
theorem only_updPool (s : State) (w : WytheIx) (p : Nat) (f : Pool → Pool) : Only s (s.updPool w p f) (·.updGalley w (fun _ => {})) :=
  only_updGalley s w _
theorem only_updPress (s : State) (w : WytheIx) (f : Press → Press) : Only s (s.updPress w f) (·.updPress w (fun _ => {})) := by
  unfold updPress
  exact (Only.refl s _).change fun _ => rfl
theorem only_updTie (s : State) (w : WytheIx) (f : Tie → Tie) : Only s (s.updTie w f) (·.updTie w (fun _ => {})) := by
  unfold updTie
  exact (Only.refl s _).change fun _ => rfl

theorem only_refDown (s : State) (w : WytheIx) (hd : Nat) : Only s (s.refDown w hd) (·.updGalley w (fun _ => {})) := by
  unfold refDown
  dsimp only
  split
  · exact only_count s _ _ _ _
  · split
    · exact only_count s _ _ _ _
    · split
      · exact (only_updPool s w _ _).same (essence_count _ _ _)
      · exact only_updPool s w _ _

theorem only_refUp (s : State) (w : WytheIx) (hd n : Nat) : Only s (s.refUp w hd n) (·.updGalley w (fun _ => {})) := by
  unfold refUp
  split
  · exact .refl s _
  · split
    · exact only_count s _ _ _ _
    · split
      · exact only_count s _ _ _ _
      · split
        · exact only_count s _ _ _ _
        · exact only_updPool s w _ _

theorem only_releaseSegs (s : State) (w : WytheIx) (c : Copy) : Only s (s.releaseSegs w c) (·.updGalley w (fun _ => {})) :=
  .each (fun s _ => only_refDown s w _) _ s

theorem only_flightDone (s : State) (w : WytheIx) (group : Nat) : Only s (s.flightDone w group) (·.updColl w (fun _ => {})) := by
  unfold flightDone
  split
  · exact .refl s _
  · exact only_updColl s w _

theorem spares_refDown {a : Nat} (s : State) {w : WytheIx} (hd : Nat) (ha : pageBase a ≠ pgGalley w) : Spares a s (s.refDown w hd) := by
  have hne : ∀ o < 0x1000, a ≠ pgGalley w + o := by
    rintro o ho rfl
    exact ha (pageBase_page_add (by unfold pgGalley wyBase; omega) ho)
  unfold refDown
  dsimp only
  split
  · exact .count s 1 (hne _ (by decide))
  · split
    · exact .count s 1 (hne _ (by decide))
    · split
      · exact (Spares.updWy s w _).trans (.count _ 1 (hne _ (by decide)))
      · exact .updWy s w _

theorem spares_releaseSegs {a : Nat} (s : State) {w : WytheIx} (c : Copy) (ha : pageBase a ≠ pgGalley w) : Spares a s (s.releaseSegs w c) :=
  .each _ s fun s _ _ => spares_refDown s _ ha

theorem spares_flightDone {a : Nat} (s : State) (w : WytheIx) (group : Nat) : Spares a s (s.flightDone w group) := by
  unfold flightDone
  split
  · exact .refl a s
  · exact .updWy s w _

end Sys2Proof.Machine.State

end

/-!
# Transmission

What the choice of a class and a debit do to the Press is confined to its credits (`sansCredit`); the end of a frame is
cut into what precedes and what follows its witness count.
-/

section

namespace Sys2Proof.Machine

theorem getLast?_filter_range {n c : Nat} {p : Nat → Bool} (hc : c < n) (hp : p c = true) (hn : ∀ e < n, c < e → p e = false) :
    ((List.range n).filter p).getLast? = some c := by
  induction n with
  | zero => omega
  | succ n ih =>
    rw [List.range_succ, List.filter_append]
    rcases Nat.lt_succ_iff_lt_or_eq.mp hc with hlt | rfl
    · have hlast : p n = false := hn n (by omega) hlt
      simpa [hlast] using ih hlt fun e he => hn e (by omega)
    · simp [hp]

namespace State

variable {s : State} {w : WytheIx} {p : Nat}

/-! ### Credits: deficits, shapers and the pointers of the round-robin -/

/-- A wythe but for the credits of its Press. -/
def sansCredit (y : Wythe) : Wythe := { y with press := { y.press with deficit := [], shapers := [], ptr := [] } }

theorem only_setDeficit (s : State) (w : WytheIx) (p c : Nat) (v : Int) : Only s (s.setDeficit w p c v) (·.updWy w sansCredit) := by
  unfold setDeficit updPress
  exact (Only.refl s _).change fun _ => rfl

theorem only_setShaper (s : State) (w : WytheIx) (p n : Nat) (v : Shaper) : Only s (s.setShaper w p n v) (·.updWy w sansCredit) := by
  unfold setShaper updPress
  exact (Only.refl s _).change fun _ => rfl

theorem only_shaperDebit (s : State) (w : WytheIx) (p l n : Nat) : Only s (s.shaperDebit w p l n) (·.updWy w sansCredit) := by
  unfold shaperDebit
  split
  · exact only_setShaper s w _ _ _
  · exact .refl s _

theorem only_creditSettle (s : State) (w : WytheIx) (p c : Nat) : Only s (s.creditSettle w p c) (·.updWy w sansCredit) := by
  unfold creditSettle
  dsimp only
  split
  · exact only_setShaper s w _ _ _
  · exact .refl s _

theorem only_debit (s : State) (w : WytheIx) (p c l : Nat) : Only s (s.debit w p c l) (·.updWy w sansCredit) := by
  have hshapers : Only s (((s.shaperDebit w p l c).shaperDebit w p l (8 + c)).shaperDebit w p l 16) (·.updWy w sansCredit) :=
    ((only_shaperDebit s w _ _ _).trans (only_shaperDebit _ w _ _ _)).trans (only_shaperDebit _ w _ _ _)
  unfold debit
  dsimp only
  split <;> exact hshapers.trans (only_setDeficit _ w _ _ _)

theorem only_drr (s : State) (w : WytheIx) (p b : Nat) (e : List Nat) : Only s (s.drr w p b e).2 (·.updWy w sansCredit) := by
  unfold drr updPress
  dsimp only
  refine Only.change ?_ fun _ => rfl
  split
  · exact .refl s _
  · exact .each (fun s _ => only_setDeficit s w _ _ _) e s

theorem only_selectClass (s : State) (w : WytheIx) (p t : Nat) : Only s (s.selectClass w p t).2 (·.updWy w sansCredit) := by
  unfold selectClass
  dsimp only
  split
  · exact .refl s _
  · split
    · exact .refl s _
    · exact only_drr s w _ _ _

theorem drr_regs (s : State) (w : WytheIx) (p b : Nat) (e : List Nat) : (s.drr w p b e).2.regs = s.regs := by
  unfold drr
  dsimp only
  rw [updPress_regs]
  split
  · rfl
  · exact each_induct (fun t => t.regs = s.regs) _ (fun t _ ht => by rw [← ht]; exact updPress_regs t w _) e s rfl

theorem selectClass_regs (s : State) (w : WytheIx) (p t : Nat) : (s.selectClass w p t).2.regs = s.regs := by
  unfold selectClass
  dsimp only
  split
  · rfl
  · split
    · rfl
    · exact drr_regs s w _ _ _

theorem Only.queueOf_eq {t : State} (h : Only s t (·.updWy w sansCredit)) (hostq : Bool) (q c : Nat) :
    t.queueOf w hostq q c = s.queueOf w hostq q c := by
  have hstore : (t.wy w).press.store = (s.wy w).press.store := congrArg (·.press.store) h.wy_same
  simp only [queueOf, hstore]

/-- In PLUMB the highest eligible class starts (R359). -/
theorem selectClass_plumb {c t : Nat} (hmode : (s.wy w).mode = .plumb) (hc : c < 8) (he : s.eligible w p c t = true)
    (hn : ∀ e < 8, c < e → s.eligible w p e t = false) : (s.selectClass w p t).1 = some c := by
  simp only [selectClass, hmode, if_true, List.head?_reverse]
  exact getLast?_filter_range hc he hn

/-! ### The start of a frame -/

/-- The head `h` of a class goes into transmission on port `p`: what FRAME_START does before the debit. -/
def beginFrame (s : State) (w : WytheIx) (p : Nat) (h : Copy) : State :=
  s.updPress w (fun x => { x with
    store := replaceFirst h { h with started := true } x.store
    sending := sins x.sending p ⟨{ h with started := true }, false, h.cut,
      ((s.gptp w : Int) + signed 16 (fld (s.stActive (pgPort w p + 0x104)) 15 0)).toNat⟩ })

/-- What FRAME_START does after it: a copy that is cut through is debited later. -/
def debitFrame (s : State) (w : WytheIx) (p c : Nat) (h : Copy) : State :=
  if h.cut then (s.count (pgPressMain w + 0x50) 1).onlyIf (s.queueOf w false p c).isEmpty (fun s => s.setDeficit w p c 0)
  else s.debit w p c h.len

theorem only_beginFrame (s : State) (w : WytheIx) (p : Nat) (h : Copy) : Only s (s.beginFrame w p h) (·.updPress w (fun _ => {})) := by
  unfold beginFrame
  exact only_updPress s w _

theorem only_debitFrame (s : State) (w : WytheIx) (p c : Nat) (h : Copy) : Only s (s.debitFrame w p c h) (·.updWy w sansCredit) := by
  unfold debitFrame
  split
  · exact (only_count s _ _ _ _).trans (.onlyIf _ (only_setDeficit _ w _ _ _))
  · exact only_debit s w _ _ _

theorem startFrame_eq {c : Nat} {h : Copy} {r : List Copy} (hout : (s.wy w).outputsClosed = false) (hpress : s.enabled (pgPress w p) = true)
    (hsend : sfind (s.wy w).press.sending p = none) (htamper : s.tamperClosed w p = false)
    (hplumb : (s.wy w).mode = .plumb → s.gptp w % 8 = 0) (hq : s.queueOf w false p c = h :: r) (hup : (s.port w p).up = true)
    (hport : s.enabled (pgPort w p) = true) (hsel : (s.selectClass w p (s.gptp w)).1 = some c) :
    s.startFrame w p = ((s.selectClass w p (s.gptp w)).2.beginFrame w p h).debitFrame w p c h := by
  have honly := only_selectClass s w p (s.gptp w)
  have hregs := selectClass_regs s w p (s.gptp w)
  generalize hs1 : s.selectClass w p (s.gptp w) = r1 at honly hregs hsel ⊢
  obtain ⟨sel, s1⟩ := r1
  dsimp only at honly hregs hsel ⊢
  subst hsel
  have hmay : ¬ ((s.wy w).outputsClosed = true ∨ (!s.enabled (pgPress w p)) = true ∨ (sfind (s.wy w).press.sending p).isSome = true ∨
      s.tamperClosed w p = true ∨ ((s.wy w).mode = .plumb ∧ s.gptp w % 8 ≠ 0)) := by
    simpa [hout, hpress, hsend, htamper] using hplumb
  have hq1 : s1.queueOf w false p c = h :: r := (honly.queueOf_eq false p c).trans hq
  have hup1 : ((s1.port w p).up && s1.enabled (pgPort w p)) = true := by
    have hports : (s1.wy w).ports = (s.wy w).ports := congrArg (·.ports) honly.wy_same
    have hen : s1.enabled (pgPort w p) = s.enabled (pgPort w p) := by simp only [enabled, rd, hregs]
    have hpt : s1.port w p = s.port w p := by simp only [port, hports]
    simp only [hpt, hen, hup, hport, Bool.and_self]
  have hgptp : s1.gptp w = s.gptp w := by
    have hclock : (s1.wy w).clock = (s.wy w).clock := congrArg (·.clock) honly.wy_same
    simp only [gptp, hclock]
  unfold startFrame
  simp only [hmay, hs1, hq1, hup1, if_false, if_true, debitFrame, beginFrame, hgptp]

/-- FRAME_START begins the head copy of the selected class and lets the other ports be (R345, R347). -/
theorem frameStart_spec {p : EthIx} {c : Nat} {h : Copy} {r : List Copy} (hout : (s.wy w).outputsClosed = false)
    (hpress : s.enabled (pgPress w p.val) = true) (hsend : sfind (s.wy w).press.sending p.val = none)
    (htamper : s.tamperClosed w p.val = false) (hplumb : (s.wy w).mode = .plumb → s.gptp w % 8 = 0)
    (hq : s.queueOf w false p.val c = h :: r) (hup : (s.port w p.val).up = true) (hport : s.enabled (pgPort w p.val) = true)
    (hsel : (s.selectClass w p.val (s.gptp w)).1 = some c) :
    Completes (.frameStart w p) s (fun t =>
      (∃ x, sfind (t.wy w).press.sending p.val = some x ∧ x.copy = { h with started := true } ∧ x.cutBad = false) ∧
      (t.wy w).press.store = replaceFirst h { h with started := true } (s.wy w).press.store ∧
      (∀ q, q ≠ p.val → sfind (t.wy w).press.sending q = sfind (s.wy w).press.sending q) ∧ Only s t (·.updPress w (fun _ => {}))) := by
  have hchosen := only_selectClass s w p.val (s.gptp w)
  have hbegun := only_beginFrame (s.selectClass w p.val (s.gptp w)).2 w p.val h
  have hdebited := only_debitFrame ((s.selectClass w p.val (s.gptp w)).2.beginFrame w p.val h) w p.val c h
  have heq := startFrame_eq hout hpress hsend htamper hplumb hq hup hport hsel
  generalize (s.selectClass w p.val (s.gptp w)).2 = s1 at hchosen hbegun hdebited heq
  have hstore : (s1.wy w).press.store = (s.wy w).press.store := congrArg (·.press.store) hchosen.wy_same
  have hsending : (s1.wy w).press.sending = (s.wy w).press.sending := congrArg (·.press.sending) hchosen.wy_same
  have hstore' := congrArg (·.press.store) hdebited.wy_same
  have hsending' := congrArg (·.press.sending) hdebited.wy_same
  simp only [sansCredit, beginFrame, wy_updPress_same, hstore, hsending] at hstore' hsending'
  refine ⟨_, congrArg Host.Outcome.next heq, ⟨_, (congrArg (sfind · p.val) hsending').trans (sfind_sins_same _ _ _), rfl, rfl⟩, hstore',
    fun q hq => ?_, ?_⟩
  · exact (congrArg (sfind · q) hsending').trans (sfind_sins_ne _ _ hq)
  · exact ((hchosen.forget fun _ => rfl).trans hbegun).trans (hdebited.forget fun _ => rfl)

/-! ### The end of a frame -/

/-- The MAC's own counts of a frame of `l` bytes sent. -/
def macSent (s : State) (w : WytheIx) (p l : Nat) : State :=
  ((s.count (pgPort w p + 0x50) 1).count (pgPort w p + 0x58) l).updPort w p (fun q => { q with txBw := bwAdd q.txBw l })

/-- What TRANSMISSION_END counts and stamps after the witness count of a frame `d`, sent as copy `c`. -/
def pressSent (s : State) (w : WytheIx) (p : Nat) (c : Copy) (d : Bytes) (stamp : Nat) : State :=
  let counted := ((((s.count (witTx w p + 8) c.len).countStream w c 0 1).countStream w c 1 c.len).count
    (pgPress w p + 0x40 + 8 * c.cls) 1).count (pgPress w p + 0x80 + 8 * c.cls) c.len
  (if maxFrame (s.stActive (pgPort w p + 0x100)) < c.len then counted.count (pgPort w p + 0x80) 1 else counted).stampTx w p d stamp

/-- The copy's buffers are given back and its frame's flight ends. -/
def copyDone (s : State) (w : WytheIx) (p : Nat) (c : Copy) : State :=
  ((s.releaseSegs w c).flightDone w c.group).creditSettle w p c.cls

/-- The frame of a transmission leaves the line and the Press. -/
def leaveLine (s : State) (w : WytheIx) (p : Nat) (c : Copy) : State :=
  (s.updPress w (fun x => { x with sending := kdel x.sending p, store := x.store.erase c })).emit
    (.tx w p (padTo 60 (s.segBytes w c) ++ fcsBytes (padTo 60 (s.segBytes w c))) true)

theorem endFrame_good {x : Sending} (hx : sfind (s.wy w).press.sending p = some x) (hearly : x.copy.early = none)
    (hcut : x.cutBad = false) :
    s.endFrame w p .good = (((((s.leaveLine w p x.copy).macSent w p x.copy.len).count (witTx w p) 1).pressSent w p x.copy
      (padTo 60 (s.segBytes w x.copy)) x.stamp).copyDone w p x.copy) := by
  have hecc : (EccReport.good == EccReport.uncorrectable) = false := rfl
  have hecc' : (EccReport.good == EccReport.corrected) = false := rfl
  simp [endFrame, hx, hearly, hcut, hecc, hecc', leaveLine, macSent, pressSent, copyDone]

theorem pageBase_witTx (w : WytheIx) (p : EthIx) : pageBase (witTx w p.val) = pgWitness w := by
  unfold pageBase witTx pgWitness wyBase
  omega

theorem only_stampTx (s : State) (w : WytheIx) (p : Nat) (d : Bytes) (t : Nat) :
    Only s (s.stampTx w p d t) (·.updWy w (fun y => { y with ports := [] })) := by
  unfold stampTx
  split
  · exact .refl s _
  · split
    · exact only_updPort s w p _
    · exact (only_updPort s w p _).same ((essence_raiseBit _ _ _).trans (essence_count _ _ _))

theorem spares_stampTx {a : Nat} (s : State) {w : WytheIx} {p : Nat} (d : Bytes) (t : Nat) (ha : pageBase a ≠ pgPort w p) :
    Spares a s (s.stampTx w p d t) := by
  have haligned : pgPort w p % 0x1000 = 0 := by
    unfold pgPort wyBase
    omega
  unfold stampTx
  split
  · exact .refl a s
  · split
    · exact .updWy s w _
    · refine ((Spares.updWy s w _).trans (.count _ 1 ?_)).trans (.raiseBit _ 1 ?_)
      · rintro rfl
        exact ha (pageBase_page_add haligned (by decide))
      · rw [pageBase_page_add haligned (by decide)]
        exact fun e => ha e.symm

/-- A stream slot's counters stand on the pages of R371 (`pgWStreams`), eight for a wythe. -/
theorem spares_countStream {a : Nat} (s : State) {w : WytheIx} (c : Copy) {i : Nat} (n : Nat) (hi : i < 3)
    (ha : ∀ k < 8, pageBase a ≠ pgWStreams w k) : Spares a s (s.countStream w c i n) := by
  unfold countStream
  split
  · exact .refl a s
  · next k hk =>
    unfold streamSlot at hk
    have hk' : k < 1024 := List.mem_range.mp (List.mem_of_find?_eq_some hk)
    refine .count s n ?_
    rintro rfl
    refine ha (k / 128) (by omega) ?_
    unfold pageBase witStream pgWStreams wyBase
    omega

theorem only_leaveLine (s : State) (w : WytheIx) (p : Nat) (c : Copy) : Only s (s.leaveLine w p c) (·.updPress w (fun _ => {})) := by
  unfold leaveLine
  exact (only_updPress s w _).same (essence_emit _ _)

theorem only_macSent (s : State) (w : WytheIx) (p l : Nat) : Only s (s.macSent w p l) (·.updWy w (fun y => { y with ports := [] })) :=
  ((only_count s _ _ _ _).trans (only_count _ _ _ _ _)).trans (only_updPort _ w p _)

theorem only_pressSent (s : State) (w : WytheIx) (p : Nat) (c : Copy) (d : Bytes) (stamp : Nat) :
    Only s (s.pressSent w p c d stamp) (·.updWy w (fun y => { y with ports := [] })) := by
  unfold pressSent
  refine ((Only.refl s _).same ?_).trans (only_stampTx _ w p d stamp)
  split <;> simp

theorem only_copyDone (s : State) (w : WytheIx) (p : Nat) (c : Copy) :
    Only s (s.copyDone w p c) (·.updWy w (fun y => { sansCredit y with coll := {}, galley := {} })) :=
  (((only_releaseSegs s w c).forget fun _ => rfl).trans ((only_flightDone _ w c.group).forget fun _ => rfl)).trans
    ((only_creditSettle _ w p c.cls).forget fun _ => rfl)

theorem refDown_out (s : State) (w : WytheIx) (hd : Nat) : (s.refDown w hd).out = s.out := by
  unfold refDown updPool
  dsimp only
  split
  · simp
  · split
    · simp
    · split <;> simp

theorem copyDone_out (s : State) (w : WytheIx) (p : Nat) (c : Copy) : (s.copyDone w p c).out = s.out := by
  have hsegs : (s.releaseSegs w c).out = s.out := each_induct (fun t => t.out = s.out) _ (fun t g ht => (refDown_out t w _).trans ht) c.segs s rfl
  have hflight : ∀ t : State, (t.flightDone w c.group).out = t.out := by
    intro t
    unfold flightDone
    split <;> simp
  have hcredit : ∀ t : State, (t.creditSettle w p c.cls).out = t.out := by
    intro t
    unfold creditSettle setShaper
    dsimp only
    split <;> simp
  exact (hcredit _).trans ((hflight _).trans hsegs)

theorem raise_out_mem {o : Output} (s : State) (page : Nat) (bits : W32) (h : o ∈ s.out) : o ∈ (s.raise page bits).out := by
  unfold raise
  dsimp only
  split
  · exact h
  · exact List.mem_cons_of_mem _ h

theorem pressSent_out_mem {o : Output} (s : State) (w : WytheIx) (p : Nat) (c : Copy) (d : Bytes) (stamp : Nat) (h : o ∈ s.out) :
    o ∈ (s.pressSent w p c d stamp).out := by
  have hstream : ∀ (t : State) i n, (t.countStream w c i n).out = t.out := by
    intro t i n
    unfold countStream
    split <;> simp
  have hstamp : ∀ t : State, o ∈ t.out → o ∈ (t.stampTx w p d stamp).out := by
    intro t ht
    unfold stampTx
    split
    · exact ht
    · split
      · simpa using ht
      · exact raise_out_mem _ _ _ (by simpa using ht)
  unfold pressSent
  refine hstamp _ ?_
  split <;> simpa [hstream] using h

/-- The MAC's own counters are none of the witness's (R406). -/
theorem spares_macSent (s : State) (w : WytheIx) (p : EthIx) (l : Nat) : Spares (witTx w p.val) s (s.macSent w p.val l) := by
  refine ((Spares.count s 1 ?_).trans (.count _ l ?_)).trans (.updWy _ w _)
  all_goals
    unfold witTx pgWitness pgPort wyBase
    omega

theorem spares_pressSent (s : State) (w : WytheIx) (p : EthIx) {c : Copy} (d : Bytes) (stamp : Nat) (hc : c.cls < 8) :
    Spares (witTx w p.val) s (s.pressSent w p.val c d stamp) := by
  have hpage := pageBase_witTx w p
  have hstreams : ∀ k < 8, pageBase (witTx w p.val) ≠ pgWStreams w k := by
    intro k hk
    rw [hpage]
    unfold pgWitness pgWStreams wyBase
    omega
  have hports : pageBase (witTx w p.val) ≠ pgPort w p.val := by
    rw [hpage]
    unfold pgWitness pgPort wyBase
    omega
  have hcount : ∀ (t : State) (n : Nat) {b : Nat}, (b = witTx w p.val + 8 ∨ b = pgPress w p.val + 0x40 + 8 * c.cls ∨
      b = pgPress w p.val + 0x80 + 8 * c.cls ∨ b = pgPort w p.val + 0x80) → Spares (witTx w p.val) t (t.count b n) := by
    intro t n b hb
    refine .count t n ?_
    unfold witTx pgWitness pgPress pgPort wyBase at *
    omega
  unfold pressSent
  refine Spares.trans ?_ (spares_stampTx _ d stamp hports)
  have hcounted := ((((hcount s c.len (.inl rfl)).trans (spares_countStream _ c (i := 0) 1 (by decide) hstreams)).trans
    (spares_countStream _ c c.len (i := 1) (by decide) hstreams)).trans (hcount _ 1 (.inr (.inl rfl)))).trans
    (hcount _ c.len (.inr (.inr (.inl rfl))))
  split
  · exact hcounted.trans (hcount _ 1 (.inr (.inr (.inr rfl))))
  · exact hcounted

theorem spares_creditSettle {a : Nat} (s : State) (w : WytheIx) (p c : Nat) : Spares a s (s.creditSettle w p c) := by
  unfold creditSettle
  dsimp only
  split
  · exact .updWy s w _
  · exact .refl a s

theorem spares_copyDone (s : State) (w : WytheIx) (p : EthIx) (q : Nat) (c : Copy) : Spares (witTx w p.val) s (s.copyDone w q c) := by
  have hgalley : pageBase (witTx w p.val) ≠ pgGalley w := by
    rw [pageBase_witTx]
    unfold pgWitness pgGalley
    omega
  exact ((spares_releaseSegs s c hgalley).trans (spares_flightDone _ w c.group)).trans (spares_creditSettle _ w q c.cls)

theorem sfind_kdel_same {α : Type} (m : SMap α) (k : Nat) : sfind (kdel m k) k = none := by
  induction m with
  | nil => rfl
  | cons e r ih =>
    obtain ⟨k', v⟩ := e
    by_cases hk : k' = k
    · simpa [kdel, hk] using ih
    · have hk' : k ≠ k' := fun e => hk e.symm
      simpa [kdel, sfind, hk, hk'] using ih

/-- TRANSMISSION_END puts the frame and its FCS on the line, counts it by the witness and takes its copy out of the store (R20, R406). -/
theorem transmissionEnd_spec {p : EthIx} {x : Sending} (hx : sfind (s.wy w).press.sending p.val = some x) (hearly : x.copy.early = none)
    (hcut : x.cutBad = false) (hcls : x.copy.cls < 8) (hs : s.Canon) :
    let body := padTo 60 (s.segBytes w x.copy)
    Completes (.transmissionEnd w p .good) s (fun t => Output.tx w p.val (body ++ fcsBytes body) true ∈ t.out ∧
      sfind (t.wy w).press.sending p.val = none ∧ (t.wy w).press.store = (s.wy w).press.store.erase x.copy ∧
      Counted s t (witTx w p.val) ∧
      Only s t (·.updWy w (fun y => { y with coll := {}, galley := {}, press := {}, ports := [] }))) := by
  intro body
  refine ⟨_, congrArg Host.Outcome.next (endFrame_good hx hearly hcut), ?_⟩
  have hcanon : ((s.leaveLine w p.val x.copy).macSent w p.val x.copy.len).Canon :=
    (((Keeps.refl s).updPress.emit.count.count).updPort).2 hs
  have hleave : Spares (witTx w p.val) s (s.leaveLine w p.val x.copy) := .of_words (by simp [leaveLine]) (by simp [leaveLine])
  have hbefore := hleave.trans (spares_macSent (s.leaveLine w p.val x.copy) w p x.copy.len)
  have hgone : ((s.leaveLine w p.val x.copy).wy w).press =
      { (s.wy w).press with sending := kdel (s.wy w).press.sending p.val, store := (s.wy w).press.store.erase x.copy } := by
    simp [leaveLine]
  have hout : Output.tx w p.val (body ++ fcsBytes body) true ∈ (s.leaveLine w p.val x.copy).out := by simp [leaveLine, emit, body]
  have hleft := only_leaveLine s w p.val x.copy
  generalize s.leaveLine w p.val x.copy = s1 at hcanon hbefore hgone hout hleft
  have hmac := only_macSent s1 w p.val x.copy.len
  have hout2 : (s1.macSent w p.val x.copy.len).out = s1.out := by simp [macSent]
  generalize s1.macSent w p.val x.copy.len = s2 at hcanon hbefore hmac hout2
  have hsent := only_pressSent (s2.count (witTx w p.val) 1) w p.val x.copy body x.stamp
  have hspared := spares_pressSent (s2.count (witTx w p.val) 1) w p body x.stamp hcls
  have hout3 := pressSent_out_mem (s2.count (witTx w p.val) 1) w p.val x.copy body x.stamp (by rw [count_out, hout2]; exact hout)
  have hpress : (((s2.count (witTx w p.val) 1).pressSent w p.val x.copy body x.stamp).wy w).press = (s1.wy w).press := by
    have h1 : (((s2.count (witTx w p.val) 1).pressSent w p.val x.copy body x.stamp).wy w).press =
        ((s2.count (witTx w p.val) 1).wy w).press := congrArg (·.press) hsent.wy_same
    have h2 : (s2.wy w).press = (s1.wy w).press := congrArg (·.press) hmac.wy_same
    rw [h1, count_wy, h2]
  generalize (s2.count (witTx w p.val) 1).pressSent w p.val x.copy body x.stamp = s3 at hsent hspared hout3 hpress ⊢
  have hdone := only_copyDone s3 w p.val x.copy
  have hsending : ((s3.copyDone w p.val x.copy).wy w).press.sending = (s3.wy w).press.sending := congrArg (·.press.sending) hdone.wy_same
  have hstore : ((s3.copyDone w p.val x.copy).wy w).press.store = (s3.wy w).press.store := congrArg (·.press.store) hdone.wy_same
  refine ⟨by rwa [copyDone_out], ?_, ?_, ?_, ?_⟩
  · rw [hsending, hpress, hgone]
    exact sfind_kdel_same _ _
  · rw [hstore, hpress, hgone]
  · exact Counted.of_spares hbefore hcanon (hspared.trans (spares_copyDone s3 w p p.val x.copy)).1
  · exact ((((hleft.forget fun _ => rfl).trans (hmac.forget fun _ => rfl)).trans (only_count s2 _ _ _ _)).trans
      (hsent.forget fun _ => rfl)).trans (hdone.forget fun _ => rfl)

end State

/-- Settles O21: a start goes through the class that is selected, which in PLUMB is the highest eligible one. -/
theorem transmission : Obligations.Transmission := by
  unfold Obligations.Transmission
  refine fun s w p => ⟨fun c h r hout hpress hsend htamper hplumb hq hup hport hsel => ?_, fun x hx hearly hcut hcls hs =>
    State.transmissionEnd_spec hx hearly hcut hcls hs⟩
  refine State.frameStart_spec hout hpress hsend htamper hplumb hq hup hport (hsel.elim id ?_)
  rintro ⟨hmode, hc, he, hn⟩
  exact State.selectClass_plumb hmode hc he hn

end Sys2Proof.Machine

end

/-!
# The wythes apart

`Alike view s t` says that each wythe shows in `t` what it shows in `s`. The buffers and the counts of frames in flight,
which copies across the tie give back on either wythe, are left out by `sansBuffers`.
-/

section

namespace Sys2Proof.Machine.State

variable {s t u : State} {w : WytheIx} {α : Type} {view : Wythe → α}

/-- Each wythe shows the same in both states. -/
def Alike (view : Wythe → α) (s t : State) : Prop := ∀ v, view (t.wy v) = view (s.wy v)

namespace Alike

theorem refl (view : Wythe → α) (s : State) : Alike view s s := fun _ => rfl

theorem trans (h₁ : Alike view s t) (h₂ : Alike view t u) : Alike view s u := fun v => (h₂ v).trans (h₁ v)

theorem of_wy (h : ∀ v, t.wy v = s.wy v) : Alike view s t := fun v => congrArg view (h v)

theorem updWy (s : State) (w : WytheIx) {f : Wythe → Wythe} (hf : ∀ y, view (f y) = view y) : Alike view s (s.updWy w f) := by
  intro v
  rw [wy_updWy]
  split
  · next h => rw [h, hf]
  · rfl

theorem updWy_both (h : Alike view s t) (w : WytheIx) {f g : Wythe → Wythe} (hfg : ∀ y y', view y' = view y → view (g y') = view (f y)) :
    Alike view (s.updWy w f) (t.updWy w g) := by
  intro v
  simp only [wy_updWy]
  split
  · exact hfg _ _ (h w)
  · exact h v

theorem of_only {g : Wythe → Wythe} (h : Only s t (·.updWy w g)) (hg : ∀ y, view (g y) = view y) : Alike view s t := by
  intro v
  by_cases hv : v = w
  · rw [hv, ← hg (t.wy w), h.wy_same, hg]
  · rw [h.wy_other hv]

theorem of_quiet {x : CtxId} (h : Quiet s t x) (hview : ∀ y, view (bare y) = view y) : Alike view s t := fun v => by
  rw [← hview, h.wy, hview]

theorem each {β : Type} {f : State → β → State} (hf : ∀ s e, Alike view s (f s e)) (l : List β) (s : State) :
    Alike view s (s.each l f) :=
  each_induct (fun t => Alike view s t) f (fun t e ht => ht.trans (hf t e)) l s (refl view s)

theorem onlyIf (s : State) (b : Bool) {f : State → State} (hf : Alike view s (f s)) : Alike view s (s.onlyIf b f) := by
  unfold State.onlyIf
  split
  · exact hf
  · exact refl view s

end Alike

/-! ### Allocation -/

theorem only_takeHandle (s : State) (w : WytheIx) (p : Nat) : Only s (s.takeHandle w p).2 (·.updGalley w (fun _ => {})) := by
  unfold takeHandle
  split
  · exact .refl s _
  · dsimp only
    split
    · exact ((only_updPool s w p _).trans (only_updGalley _ w _)).same ((essence_raiseBit _ _ _).trans (essence_count _ _ _))
    · exact ((only_updPool s w p _).trans (only_updGalley _ w _)).same (essence_count _ _ _)

theorem only_allocTry (w : WytheIx) (k : AllocFor) (ps : List Nat) (s : State) :
    Only s (allocTry w k ps s).2 (·.updGalley w (fun _ => {})) := by
  induction ps generalizing s with
  | nil => exact .refl s _
  | cons p ps ih =>
    unfold allocTry
    split
    · refine Only.trans ((Only.refl s _).same ?_) (ih _)
      split
      · unfold onlyIf
        split <;> simp
      · unfold onlyIf
        split <;> simp
    · exact only_takeHandle s w p

theorem only_alloc (s : State) (w : WytheIx) (mask need : Nat) (fallback : Bool) (k : AllocFor) :
    Only s (s.alloc w mask need fallback k).2 (·.updGalley w (fun _ => {})) := by
  unfold alloc
  split
  · exact .refl s _
  · exact only_allocTry w k _ s

/-! ### What copies give back -/

/-- A wythe but for its buffers and its frames in flight. -/
def sansBuffers (y : Wythe) : Wythe := { y with galley := {}, coll := {} }

section
variable (hview : ∀ y, view (sansBuffers y) = view y)
include hview

theorem alike_galley (h : Only s t (·.updGalley w (fun _ => {}))) : Alike view s t :=
  .of_only (h.forget (h' := sansBuffers) fun _ => rfl) hview

theorem alike_tieOriginal (s : State) (k : TieCopy) : Alike view s (s.tieOriginal k) :=
  (alike_galley hview (only_releaseSegs s _ _)).trans
    (.of_only ((only_flightDone _ k.ingressW k.group).forget (h' := sansBuffers) fun _ => rfl) hview)

theorem alike_tieFree (s : State) (w : WytheIx) (k : TieCopy) : Alike view s (s.tieFree w k) :=
  (Alike.each (fun s _ => alike_galley hview (only_refDown s w _)) k.targets s).trans
    (.of_only ((only_updColl _ w _).forget (h' := sansBuffers) fun _ => rfl) hview)
end

theorem dropTargets_wy (s : State) (w : WytheIx) (k : TieCopy) (cause : Cause) (v : WytheIx) : (s.dropTargets w k cause).wy v = s.wy v :=
  each_induct (fun t => t.wy v = s.wy v) _ (fun t _ ht => (drop_wy t w _ cause v).trans ht) k.targets s rfl

end Sys2Proof.Machine.State

end

/-!
# Copies across the tie

An arrival goes by the answer of its allocation, a completion by the forme of its copy; both give the ingress wythe its
buffers back, which `sansBuffers` does not see.
-/

section

namespace Sys2Proof.Machine

theorem otherWythe_ne : ∀ w : WytheIx, 1 - w ≠ w := by decide

namespace State

variable {s : State} {w : WytheIx} {k : TieCopy} {rest : List TieCopy}

/-! ### Arrival -/

/-- The first copy of the other wythe's queue has crossed: its flits are counted at both ends. -/
def tieCrossed (s : State) (w : WytheIx) (k : TieCopy) (rest : List TieCopy) : State :=
  ((s.updTie (1 - w) (fun x => { x with txq := rest })).count (pgTie (1 - w) + 0x40) k.flits).count (pgTie w + 0x48) k.flits

theorem tieCrossed_txq (s : State) (w : WytheIx) (k : TieCopy) (rest : List TieCopy) :
    ((s.tieCrossed w k rest).wy (1 - w)).tie.txq = rest := by
  simp [tieCrossed]

theorem tieCrossed_wy (s : State) (w : WytheIx) (k : TieCopy) (rest : List TieCopy) : (s.tieCrossed w k rest).wy w = s.wy w := by
  simp only [tieCrossed, count_wy]
  exact wy_updWy_ne s _ (otherWythe_ne w).symm

/-- The buffer that the arrival asks for. -/
def tieAlloc (s : State) (w : WytheIx) (k : TieCopy) : AllocRes × State :=
  s.alloc w 0xFF ((s.segBytes (1 - w) (tieAsCopy k)).length + 4) true .ingress

/-- The copy is received in buffer `h`, with the bytes that came. -/
def tieTaken (s : State) (w : WytheIx) (k : TieCopy) (h : Nat) (bytes : Bytes) : State :=
  (s.updColl w (fun c => { c with
    nextSerial := (s.wy w).coll.nextSerial + 1
    flights := sins c.flights (s.wy w).coll.nextSerial ⟨k.forme, k.targets.length⟩ })).updTie w (fun x => { x with
      rxq := x.rxq ++ [{ k with data := bytes, handle := h, egressGroup := (s.wy w).coll.nextSerial }] })

theorem tieTaken_other (s : State) (w : WytheIx) (k : TieCopy) (h : Nat) (bytes : Bytes) :
    (s.tieTaken w k h bytes).wy (1 - w) = s.wy (1 - w) := by
  unfold tieTaken updTie updColl
  rw [wy_updWy_ne _ _ (otherWythe_ne w), wy_updWy_ne _ _ (otherWythe_ne w)]

/-- What becomes of the first copy by the answer that its wythe gives it. -/
def tieAnswered (s : State) (w : WytheIx) (k : TieCopy) (rest : List TieCopy) : AllocRes × State → State
  | (.wait, _) => s
  | (.none, s1) => ((s1.tieCrossed w k rest).dropTargets w k .tieNoBuffer).tieOriginal k
  | (.got h, s1) => ((s1.tieCrossed w k rest).refUp w h (k.targets.length - 1)).tieTaken w k h (s.segBytes (1 - w) (tieAsCopy k))

section
variable (htxq : (s.wy (1 - w)).tie.txq = k :: rest) (hcarries : s.tieCarries = true) (hearly : k.early = none)
include htxq hcarries hearly

theorem tieArrive_eq : s.tieArrive w = s.tieAnswered w k rest (s.tieAlloc w k) := by
  have hgoes : (!s.tieCarries || k.early.isSome) = false := by simp [hcarries, hearly]
  unfold tieArrive tieAlloc
  simp only [htxq, hgoes, Bool.false_eq_true, if_false]
  rcases s.alloc w 0xFF _ true .ingress with ⟨_ | _ | _, s1⟩ <;> rfl

theorem tieCopyArrival_wait (ha : (s.tieAlloc w k).1 = .wait) : Completes (.tieCopyArrival w) s (fun t => t = s) := by
  refine ⟨_, rfl, (tieArrive_eq htxq hcarries hearly).trans ?_⟩
  generalize s.tieAlloc w k = r at ha ⊢
  obtain ⟨_, s1⟩ := r
  obtain rfl := ha
  rfl

/-- Without a buffer the copy is dropped: neither the Press nor the queue of the copies received has changed. -/
theorem tieCopyArrival_none (ha : (s.tieAlloc w k).1 = .none) :
    Completes (.tieCopyArrival w) s (fun t => (t.wy (1 - w)).tie.txq = rest ∧ (t.wy w).tie.rxq = (s.wy w).tie.rxq ∧
      (t.wy w).press = (s.wy w).press) := by
  refine ⟨_, congrArg Host.Outcome.next (tieArrive_eq htxq hcarries hearly), ?_⟩
  have halloc : sansBuffers ((s.tieAlloc w k).2.wy w) = sansBuffers (s.wy w) :=
    alike_galley (fun _ => rfl) (only_alloc s w _ _ _ _) w
  generalize s.tieAlloc w k = r at ha halloc ⊢
  obtain ⟨_, s1⟩ := r
  obtain rfl := ha
  have hback : ∀ v, sansBuffers ((((s1.tieCrossed w k rest).dropTargets w k .tieNoBuffer).tieOriginal k).wy v) =
      sansBuffers ((s1.tieCrossed w k rest).wy v) := by
    intro v
    exact (alike_tieOriginal (fun _ => rfl) _ k v).trans (by rw [dropTargets_wy])
  have hcrossed : sansBuffers ((((s1.tieCrossed w k rest).dropTargets w k .tieNoBuffer).tieOriginal k).wy w) = sansBuffers (s.wy w) :=
    (hback w).trans (by rw [tieCrossed_wy, halloc])
  exact ⟨(congrArg (·.tie.txq) (hback (1 - w))).trans (tieCrossed_txq s1 w k rest), congrArg (·.tie.rxq) hcrossed,
    congrArg (·.press) hcrossed⟩

/-- With a buffer it is received, and its frame counts on this wythe. -/
theorem tieCopyArrival_got {h : Nat} (ha : (s.tieAlloc w k).1 = .got h) :
    Completes (.tieCopyArrival w) s (fun t => (t.wy (1 - w)).tie.txq = rest ∧
      (t.wy w).tie.rxq = (s.wy w).tie.rxq ++
        [{ k with data := s.segBytes (1 - w) (tieAsCopy k), handle := h, egressGroup := (s.wy w).coll.nextSerial }] ∧
      sfind (t.wy w).coll.flights (s.wy w).coll.nextSerial = some ⟨k.forme, k.targets.length⟩ ∧ (t.wy w).press = (s.wy w).press) := by
  refine ⟨_, congrArg Host.Outcome.next (tieArrive_eq htxq hcarries hearly), ?_⟩
  have halloc : ({ (s.tieAlloc w k).2.wy w with galley := {} } : Wythe) = { s.wy w with galley := {} } :=
    (only_alloc s w _ _ _ _).wy_same
  generalize s.tieAlloc w k = r at ha halloc ⊢
  obtain ⟨_, s1⟩ := r
  obtain rfl := ha
  dsimp only [tieAnswered] at halloc ⊢
  have hup := only_refUp (s1.tieCrossed w k rest) w h (k.targets.length - 1)
  generalize (s1.tieCrossed w k rest).refUp w h (k.targets.length - 1) = s2 at hup ⊢
  have hsame : ({ s2.wy w with galley := {} } : Wythe) = { s.wy w with galley := {} } := by
    rw [← halloc, ← tieCrossed_wy s1 w k rest]
    exact hup.wy_same
  have hother : (s2.wy (1 - w)).tie.txq = rest := by
    rw [hup.wy_other (otherWythe_ne w), tieCrossed_txq]
  have hcoll : (s2.wy w).coll = (s.wy w).coll := congrArg (·.coll) hsame
  have hrxq : (s2.wy w).tie.rxq = (s.wy w).tie.rxq := congrArg (·.tie.rxq) hsame
  have hpress : (s2.wy w).press = (s.wy w).press := congrArg (·.press) hsame
  refine ⟨?_, ?_, ?_, ?_⟩
  · rw [tieTaken_other, hother]
  · simp [tieTaken, hrxq, hcoll]
  · simp [tieTaken, hcoll, sfind_sins_same]
  · simp [tieTaken, hpress]

end

/-! ### Completion -/

/-- The copy that a target of the tie copy `k` gets. -/
def tiePressCopy (k : TieCopy) (g : Bool × Nat × Nat × W16) : Copy :=
  { group := k.egressGroup, hostq := g.1, port := g.2.1, cls := g.2.2.1, stream := g.2.2.2, segs := [⟨k.handle, 0, k.data.length⟩]
    forme := k.forme, ingressW := k.ingressW, ingressPort := k.ingressPort, slugHandle := w32 k.handle, early := none, cut := false
    len := lenOf [⟨k.handle, 0, k.data.length⟩], queued := 0, yellow := false, started := false }

theorem each_pressArrive_tie {β : Type} (f : β → Copy) (l : List β) (s : State) (w : WytheIx) :
    (s.each l (fun s g => s.pressArrive w true (f g))).wy w =
      { s.wy w with press := { (s.wy w).press with tieArrivals := (s.wy w).press.tieArrivals ++ l.map f } } := by
  induction l generalizing s with
  | nil => simp [each]
  | cons g l ih =>
    refine (ih (s.pressArrive w true (f g))).trans ?_
    simp [pressArrive]

/-- The first copy received is taken from its queue, and its ingress wythe gives back what it held. -/
def tieDequeued (s : State) (w : WytheIx) (k : TieCopy) (rest : List TieCopy) : State :=
  (s.updTie w (fun x => { x with rxq := rest })).tieOriginal k

theorem tieDequeued_wy (s : State) (w : WytheIx) (k : TieCopy) (rest : List TieCopy) :
    sansBuffers ((s.tieDequeued w k rest).wy w) = sansBuffers { s.wy w with tie := { (s.wy w).tie with rxq := rest } } :=
  (alike_tieOriginal (view := sansBuffers) (fun _ => rfl) _ k w).trans (by rw [wy_updTie_same])

/-- The Press gets the copy for each of its targets, its bytes laid in its buffer. -/
def tiePressed (s : State) (w : WytheIx) (k : TieCopy) : State :=
  (s.setBufBytes w k.handle 0 k.data).each k.targets (fun s g => s.pressArrive w true (tiePressCopy k g))

theorem tiePressed_wy (s : State) (w : WytheIx) (k : TieCopy) : sansBuffers ((s.tiePressed w k).wy w) =
    sansBuffers { s.wy w with press := { (s.wy w).press with
      tieArrivals := (s.wy w).press.tieArrivals ++ k.targets.map (tiePressCopy k) } } := by
  rw [tiePressed, each_pressArrive_tie, setBufBytes, wy_updGalley_same]
  rfl

section
variable (hrxq : (s.wy w).tie.rxq = k :: rest)
include hrxq

theorem tieComplete_unknown (hforme : (s.wy w).forme ≠ k.forme) (hprev : (s.wy w).previous ≠ some k.forme) :
    s.tieComplete w = ((s.tieDequeued w k rest).tieFree w k).dropTargets w k .formeUnknown := by
  have hwy := tieDequeued_wy s w k rest
  have hf : ((s.tieDequeued w k rest).wy w).forme = (s.wy w).forme := congrArg (·.forme) hwy
  have hp : ((s.tieDequeued w k rest).wy w).previous = (s.wy w).previous := congrArg (·.previous) hwy
  unfold tieDequeued at hf hp ⊢
  simp only [tieComplete, hrxq, hf, hp, hforme, hprev, ne_eq, not_false_eq_true, and_self, if_true]

theorem tieComplete_known (hknown : (s.wy w).forme = k.forme ∨ (s.wy w).previous = some k.forme) :
    s.tieComplete w = (s.tieDequeued w k rest).tiePressed w k := by
  have hwy := tieDequeued_wy s w k rest
  have hf : ((s.tieDequeued w k rest).wy w).forme = (s.wy w).forme := congrArg (·.forme) hwy
  have hp : ((s.tieDequeued w k rest).wy w).previous = (s.wy w).previous := congrArg (·.previous) hwy
  have hno : ¬ ((s.wy w).forme ≠ k.forme ∧ (s.wy w).previous ≠ some k.forme) := by tauto
  unfold tieDequeued at hf hp ⊢
  simp only [tieComplete, hrxq, hf, hp, hno, if_false]
  rfl

theorem tieCopyComplete_spec :
    Completes (.tieCopyComplete w) s (fun t => (t.wy w).tie.rxq = rest ∧ (t.wy w).tie.txq = (s.wy w).tie.txq ∧
      ((s.wy w).forme ≠ k.forme → (s.wy w).previous ≠ some k.forme → (t.wy w).press = (s.wy w).press) ∧
      ((s.wy w).forme = k.forme ∨ (s.wy w).previous = some k.forme →
        (t.wy w).press.tieArrivals.length = (s.wy w).press.tieArrivals.length + k.targets.length ∧
        ∀ c ∈ (t.wy w).press.tieArrivals.drop (s.wy w).press.tieArrivals.length, c.forme = k.forme ∧ c.group = k.egressGroup ∧
          c.segs = [⟨k.handle, 0, k.data.length⟩])) := by
  have hwy := tieDequeued_wy s w k rest
  by_cases hknown : (s.wy w).forme = k.forme ∨ (s.wy w).previous = some k.forme
  · refine ⟨_, congrArg Host.Outcome.next (tieComplete_known hrxq hknown), ?_⟩
    generalize s.tieDequeued w k rest = s1 at hwy ⊢
    have hpressed := tiePressed_wy s1 w k
    have harrivals : ((s1.tiePressed w k).wy w).press.tieArrivals = (s.wy w).press.tieArrivals ++ k.targets.map (tiePressCopy k) := by
      have hold : (s1.wy w).press.tieArrivals = (s.wy w).press.tieArrivals := congrArg (·.press.tieArrivals) hwy
      exact (congrArg (·.press.tieArrivals) hpressed).trans (congrArg (· ++ k.targets.map (tiePressCopy k)) hold)
    refine ⟨(congrArg (·.tie.rxq) hpressed).trans (congrArg (·.tie.rxq) hwy),
      (congrArg (·.tie.txq) hpressed).trans (congrArg (·.tie.txq) hwy), fun hf hp => absurd hknown (by tauto), fun _ => ?_⟩
    rw [harrivals, List.drop_left]
    refine ⟨by simp, fun c hc => ?_⟩
    obtain ⟨g, -, rfl⟩ := List.mem_map.mp hc
    exact ⟨rfl, rfl, rfl⟩
  · obtain ⟨hforme, hprev⟩ := not_or.mp hknown
    refine ⟨_, congrArg Host.Outcome.next (tieComplete_unknown hrxq hforme hprev), ?_⟩
    generalize s.tieDequeued w k rest = s1 at hwy ⊢
    have hfreed : sansBuffers (((s1.tieFree w k).dropTargets w k .formeUnknown).wy w) = sansBuffers (s1.wy w) := by
      rw [dropTargets_wy]
      exact alike_tieFree (fun _ => rfl) s1 w k w
    have hall := hfreed.trans hwy
    exact ⟨congrArg (·.tie.rxq) hall, congrArg (·.tie.txq) hall, fun _ _ => congrArg (·.press) hall, fun h => absurd h hknown⟩

end

/-! ### Waiting -/

theorem tieArrive_cut (h : s.tieCarries = false) : s.tieArrive w = s := by
  unfold tieArrive
  simp only [h]
  split <;> rfl

theorem tieArrive_early (htxq : (s.wy (1 - w)).tie.txq = k :: rest) (hearly : k.early ≠ none) : s.tieArrive w = s := by
  have hwaits : (!s.tieCarries || k.early.isSome) = true := by simp [Option.isSome_iff_ne_none, hearly]
  simp only [tieArrive, htxq, hwaits, if_true]

end State

/-- Settles O47: a copy that may cross is answered by its allocation; one that is complete goes by its forme. -/
theorem tieCopies : Obligations.TieCopies := by
  unfold Obligations.TieCopies
  intro s w
  refine ⟨fun h => ⟨s, ?_, rfl⟩, fun h => ⟨s, ?_, rfl⟩, fun k rest htxq hcarries hearly => ⟨fun h ha => ?_, fun ha => ?_, fun ha => ?_⟩,
    fun h => ⟨s, congrArg Host.Outcome.next (State.tieArrive_cut h), rfl⟩,
    fun k rest htxq hearly => ⟨s, congrArg Host.Outcome.next (State.tieArrive_early htxq hearly), rfl⟩,
    fun k rest hrxq => State.tieCopyComplete_spec hrxq⟩
  · refine congrArg Host.Outcome.next ?_
    simp only [State.tieArrive, h]
  · refine congrArg Host.Outcome.next ?_
    simp only [State.tieComplete, h]
  · exact State.tieCopyArrival_got htxq hcarries hearly ha
  · exact State.tieCopyArrival_none htxq hcarries hearly ha
  · exact State.tieCopyArrival_wait htxq hcarries hearly ha

end Sys2Proof.Machine

end

/-!
# The loss of the tie and the rejoin

The tie, the modes, the formes and the lifecycles form the control of a wythe; `sansTraffic` forgets the rest of it, which
traffic, times and interrupts change on the way.
-/

section

namespace Sys2Proof.Machine.State

variable {s t : State} {w : WytheIx}

/-- A wythe but for its traffic, its time and what waits to be ledgered. -/
def sansTraffic (y : Wythe) : Wythe := { y with
  clock := {}, ports := [], coll := {}, galley := {}, press := {}, courses := [], cores := [], tcbs := [], ctxs := [], posts := [], dram := {}
  ds := { y.ds with intake := [], missed := [], prevSnap := [], snapAt := 0 } }

/-! ### What leaves the control of both wythes as it is -/

theorem alike_count (s : State) (a n : Nat) : Alike sansTraffic s (s.count a n) := .of_wy (by simp)
theorem alike_raiseBit (s : State) (page i : Nat) : Alike sansTraffic s (s.raiseBit page i) := .of_wy (by simp)
theorem alike_drop (s : State) (w : WytheIx) (p : Nat) (c : Cause) : Alike sansTraffic s (s.drop w p c) := .of_wy (by simp)

theorem alike_updCore (s : State) (w : WytheIx) (i : Nat) (f : Core → Core) : Alike sansTraffic s (s.updCore w i f) := by
  unfold updCore
  exact .updWy s w fun _ => rfl
theorem alike_updPort (s : State) (w : WytheIx) (p : Nat) (f : PortSt → PortSt) : Alike sansTraffic s (s.updPort w p f) := by
  unfold updPort
  exact .updWy s w fun _ => rfl
theorem alike_updPress (s : State) (w : WytheIx) (f : Press → Press) : Alike sansTraffic s (s.updPress w f) := by
  unfold updPress
  exact .updWy s w fun _ => rfl
theorem alike_updClock (s : State) (w : WytheIx) (f : Clock → Clock) : Alike sansTraffic s (s.updClock w f) := by
  unfold updClock
  exact .updWy s w fun _ => rfl
theorem alike_updCh (s : State) (w : WytheIx) (c : Nat) (f : DramCh → DramCh) : Alike sansTraffic s (s.updCh w c f) := by
  unfold updCh
  exact .updWy s w fun _ => rfl
theorem alike_postFlags (s : State) (w : WytheIx) (i : Nat) (k : TcbIx) (m : W32) : Alike sansTraffic s (s.postFlags w i k m) := by
  unfold postFlags
  exact .updWy s w fun _ => rfl

/-- A Datestone but for what waits to be ledgered. -/
def sansIntake (d : Datestone) : Datestone := { d with intake := [], missed := [], prevSnap := [], snapAt := 0 }

theorem alike_updDs (s : State) (w : WytheIx) {f : Datestone → Datestone} (hf : ∀ d, sansIntake (f d) = sansIntake d) :
    Alike sansTraffic s (s.updDs w f) := by
  unfold updDs
  refine .updWy s w fun y => ?_
  change ({ sansTraffic y with ds := sansIntake (f y.ds) } : Wythe) = { sansTraffic y with ds := sansIntake y.ds }
  rw [hf]

theorem alike_enterIntake (s : State) (w : WytheIx) (type : Nat) (r : Intake) : Alike sansTraffic s (s.enterIntake w type r) := by
  unfold enterIntake
  split
  · exact alike_updDs s w fun _ => rfl
  · refine Alike.trans ?_ (alike_count _ _ _)
    exact alike_updDs s w fun _ => rfl

theorem alike_record (s : State) (w : WytheIx) (type subject : Nat) (p : Bytes) : Alike sansTraffic s (s.record w type subject p) := by
  unfold record
  split
  · exact alike_enterIntake s w _ _
  · exact .refl _ s

theorem alike_sealReq (s : State) (w : WytheIx) (reason : Nat) : Alike sansTraffic s (s.sealReq w reason) := by
  unfold sealReq
  split
  · exact alike_enterIntake s w _ _
  · exact .refl _ s

theorem alike_postBindings (s : State) (w : WytheIx) (kind index : Nat) : Alike sansTraffic s (s.postBindings w kind index) := by
  refine .each (fun s i => ?_) _ s
  exact .each (fun s n => .onlyIf s _ (f := fun s => s.postFlags w i _ _) (alike_postFlags s w i _ _)) _ s

theorem alike_notice (s : State) (w : WytheIx) (code : Nat) : Alike sansTraffic s (s.notice w code) := by
  refine (alike_postBindings s w 3 code).trans (.each (fun s i => ?_) _ _)
  exact .onlyIf s _ (f := fun s => s.interrupt w i 12) (alike_updCore s w i _)

theorem alike_creditSettle (s : State) (w : WytheIx) (p c : Nat) : Alike sansTraffic s (s.creditSettle w p c) :=
  .of_only ((only_creditSettle s w p c).forget (h' := sansTraffic) fun _ => rfl) fun _ => rfl

theorem alike_gateRefresh (s : State) (w : WytheIx) (p : Nat) : Alike sansTraffic s (s.gateRefresh w p) := by
  unfold gateRefresh
  dsimp only
  split
  · exact .refl _ s
  · exact (alike_updPress s w _).trans (.each (fun s c => alike_creditSettle s w p c) _ _)

theorem alike_stepTo (s : State) (w : WytheIx) (ns : Nat) (set : Bool) : Alike sansTraffic s (s.stepTo w ns set) := by
  unfold stepTo
  dsimp only
  refine Alike.trans ?_ (.each (fun s p => alike_updPort s w p _) _ _)
  refine Alike.trans ?_ (.each (fun s p => alike_gateRefresh s w p) _ _)
  have hcounted := fun f => (alike_updClock s w f).trans ((alike_count _ (pgTime w + 0x40) 1).trans (alike_raiseBit _ (pgTime w) 1))
  split
  · split
    · exact (hcounted _).trans ((alike_record _ w _ _ _).trans (alike_count _ _ _))
    · exact hcounted _
  · exact hcounted _

theorem alike_snapOne (s : State) (w : WytheIx) (all : Bool) (kind index : Nat) (ctrs : List Nat) (tail : Bytes) :
    Alike sansTraffic s (s.snapOne w all kind index ctrs tail) := by
  unfold snapOne
  split
  · exact alike_record s w _ _ _
  · exact .refl _ s

theorem alike_snapRound (s : State) (w : WytheIx) (all : Bool) : Alike sansTraffic s (s.snapRound w all) := by
  unfold snapRound
  extract_lets ports s1 s2 s3 s4 s5
  have h1 : Alike sansTraffic s s1 := .each (fun s _ => alike_snapOne s w _ _ _ _ _) _ s
  have h2 : Alike sansTraffic s1 s2 := by
    refine .each (fun s k => ?_) _ s1
    dsimp only
    split
    · exact alike_snapOne s w _ _ _ _ _
    · exact .refl _ s
  have h3 : Alike sansTraffic s2 s3 := .each (fun s _ => .each (fun s _ => alike_snapOne s w _ _ _ _ _) _ s) _ s2
  have h4 : Alike sansTraffic s3 s4 := .each (fun s _ => alike_snapOne s w _ _ _ _ _) _ s3
  have h5 : Alike sansTraffic s4 s5 := alike_snapOne s4 w _ _ _ _ _
  refine (h1.trans (h2.trans (h3.trans (h4.trans h5)))).trans ?_
  exact alike_updDs s5 w fun _ => by simp only [sansIntake]

theorem alike_dramPlumb (s : State) (w : WytheIx) (entering : Bool) : Alike sansTraffic s (s.dramPlumb w entering) := by
  unfold dramPlumb
  extract_lets s1
  have hrate : Alike sansTraffic s s1 := .onlyIf s _ (f := fun s => s.raiseBit (pgDram w) 3) (alike_raiseBit s _ _)
  split
  · exact hrate.trans (.each (fun s c => alike_updCh s w c _) _ s1)
  · exact hrate

/-- Entering a mode changes the mode. -/
theorem alike_enterMode (s : State) (w : WytheIx) (m : DevMode) :
    Alike sansTraffic (s.updWy w (fun y => { y with mode := m })) (s.enterMode w m) := by
  unfold enterMode
  extract_lets old s0 s1 s2 s3 modes s4
  split
  · next hold =>
    intro v
    rw [wy_updWy]
    split
    · next hv => rw [hv, ← hold]
    · rfl
  · have h1 : Alike sansTraffic (s.updWy w fun y => { y with mode := m }) s1 := by
      have h0 : Alike sansTraffic s s0 :=
        .onlyIf s _ (f := fun s => s.each (List.range 48) fun s i => s.updCore w i _) (.each (fun s i => alike_updCore s w i _) _ s)
      exact h0.updWy_both w fun y y' h => congrArg (fun y : Wythe => { y with mode := m }) h
    have h2 : Alike sansTraffic s1 s2 := .each (fun s i => alike_updCore s w i _) _ s1
    have h3 : Alike sansTraffic s2 s3 := (alike_raiseBit s2 pgMode 0).trans (alike_count _ _ _)
    have h4 : Alike sansTraffic s3 s4 := by
      unfold s4
      split
      · exact .of_wy fun v => rfl
      · exact .refl _ s3
    exact h1.trans (h2.trans (h3.trans (h4.trans (.onlyIf s4 _ (f := fun s => s.dramPlumb w _) (alike_dramPlumb s4 w _)))))

/-! ### What reads the control -/

theorem fwHeld_congr (h : ∀ v, (t.wy v).ds.fwRejected = (s.wy v).ds.fwRejected) : t.fwHeld = s.fwHeld := by
  simp only [fwHeld, ds, h]

namespace Alike
variable (h : Alike sansTraffic s t)
include h

theorem tie (v : WytheIx) : (t.wy v).tie = (s.wy v).tie := congrArg (·.tie) (h v)
theorem mode (v : WytheIx) : (t.wy v).mode = (s.wy v).mode := congrArg (·.mode) (h v)
theorem fwHeld : t.fwHeld = s.fwHeld := fwHeld_congr fun v => congrArg (·.ds.fwRejected) (h v)

end Alike

end Sys2Proof.Machine.State

end

/-!
# What a loss of the tie does to the control of the wythes

One end falls and a wythe at work goes into HALF; the control of the other wythe stays (`alike_loseTie`, `loseTie_other`). The
count of the loss is followed through the rest by `Spares`.
-/

section

namespace Sys2Proof.Machine.State

variable {s t : State} {w : WytheIx}

/-- An end of the tie that has lost it at `now`. -/
def fallenTie (now : Nat) (why : TieCause) (k : Tie) : Tie := { k with
  state := .down, split := true, cause := why, splitSince := if k.split then k.splitSince else now, retraining := false
  lastAttempt := now, rejoinAsked := false, txq := [], rxq := [] }

/-- The modes that a loss ends (R522). -/
def atWork (m : DevMode) : Bool := m == .setting || m == .run || m == .plumb

/-- A wythe at work goes into HALF, unless its firmware is held. -/
def halved (held : Bool) (y : Wythe) : Wythe := if !held && atWork y.mode then { y with mode := .half, returnMode := y.mode } else y

theorem sansTraffic_halved (held : Bool) (y : Wythe) : sansTraffic (halved held y) = halved held (sansTraffic y) :=
  apply_ite sansTraffic _ _ _

theorem alike_tieOriginal_drop (s : State) (k : TieCopy) (v : WytheIx) (p : Nat) (c : Cause) :
    Alike sansTraffic s ((s.tieOriginal k).drop v p c) :=
  (alike_tieOriginal (fun _ => rfl) s k).trans (alike_drop _ _ _ _)

theorem alike_tieFalls (s : State) (w : WytheIx) (why : TieCause) :
    Alike sansTraffic (s.updTie w (fallenTie s.now why)) (s.tieFalls w why) := by
  unfold tieFalls
  extract_lets k again s1 s2 s3 s4 info regions s5
  have h1 : s1 = s.updTie w (fallenTie s.now why) := by
    unfold s1 updTie
    exact updWy_congr rfl
  have h2 : Alike sansTraffic s1 s2 := .each (fun s t => alike_tieOriginal_drop s t w _ _) _ s1
  have h3 : Alike sansTraffic s2 s3 := by
    refine .each (fun s t => ?_) _ s2
    exact ((alike_tieOriginal (fun _ => rfl) s t).trans (alike_tieFree (fun _ => rfl) _ w t)).trans
      ((alike_drop _ w _ _).trans (alike_count _ _ _))
  have h4 : Alike sansTraffic s3 s4 := (alike_count s3 _ _).trans (alike_raiseBit _ _ _)
  have h5 : Alike sansTraffic s4 s5 := alike_record s4 w _ _ _
  rw [← h1]
  refine (h2.trans (h3.trans (h4.trans h5))).trans ?_
  split
  · exact .of_wy fun v => rfl
  · exact .refl _ s5

theorem alike_enterHalf (s : State) (w : WytheIx) : Alike sansTraffic (s.updWy w (halved s.fwHeld)) (s.enterHalf w) := by
  unfold enterHalf
  extract_lets m
  split
  · next h =>
    have hmode : s.updWy w (halved s.fwHeld) =
        (s.updWy w fun y => { y with returnMode := m }).updWy w fun y => { y with mode := .half } := by
      rw [updWy_updWy]
      exact updWy_congr (if_pos h)
    rw [hmode]
    exact alike_enterMode _ w .half
  · next h =>
    have hkeep : halved s.fwHeld (s.wy w) = s.wy w := if_neg h
    intro v
    rw [wy_updWy]
    split
    · next hv => rw [hkeep, hv]
    · rfl

/-- A wythe that has the tie, and is neither off nor about to be, can lose it. -/
def CanLose (s : State) (w : WytheIx) : Prop := s.tieLost w = false ∧ (s.wy w).mode ∉ [.off, .brace, .dormant]

theorem loseTie_eq (why : TieCause) (h : s.CanLose w) : s.loseTie w why = (s.tieFalls w why).enterHalf w := by
  obtain ⟨hlost, hmode⟩ := h
  have hno : (s.tieLost w || (s.wy w).mode == .off || (s.wy w).mode == .brace || (s.wy w).mode == .dormant) = false := by
    simpa [hlost, and_assoc] using hmode
  simp only [loseTie, hno, Bool.false_eq_true, if_false]

theorem loseTie_cannot (why : TieCause) (h : ¬ s.CanLose w) : s.loseTie w why = s := by
  have hyes : (s.tieLost w || (s.wy w).mode == .off || (s.wy w).mode == .brace || (s.wy w).mode == .dormant) = true := by
    simp only [CanLose, List.mem_cons, List.not_mem_nil, or_false, not_and, not_not] at h
    cases hlost : s.tieLost w
    · simpa [or_assoc] using h hlost
    · rfl
  simp only [loseTie, hyes, if_true]

theorem alike_loseTie (why : TieCause) (h : s.CanLose w) :
    Alike sansTraffic (s.updWy w fun y => halved s.fwHeld { y with tie := fallenTie s.now why y.tie }) (s.loseTie w why) := by
  have hfalls := alike_tieFalls s w why
  have hheld : (s.tieFalls w why).fwHeld = s.fwHeld := by
    refine hfalls.fwHeld.trans (fwHeld_congr fun v => ?_)
    rw [wy_updTie]
    split
    · next hv => rw [hv]
    · rfl
  have hhalf := alike_enterHalf (s.tieFalls w why) w
  rw [hheld] at hhalf
  rw [loseTie_eq why h, ← updWy_updWy]
  refine (hfalls.updWy_both w fun y y' h => ?_).trans hhalf
  rw [sansTraffic_halved, sansTraffic_halved, h]

/-- A loss leaves the control of the other wythe as it is. -/
theorem loseTie_other (why : TieCause) {v : WytheIx} (hv : v ≠ w) :
    sansTraffic ((s.loseTie w why).wy v) = sansTraffic (s.wy v) := by
  by_cases h : s.CanLose w
  · rw [alike_loseTie why h v, wy_updWy_ne _ _ hv]
  · rw [loseTie_cannot why h]

theorem halved_fwRejected (held : Bool) (y : Wythe) : (halved held y).ds.fwRejected = y.ds.fwRejected := by
  unfold halved
  split <;> rfl

theorem halved_tie (held : Bool) (y : Wythe) : (halved held y).tie = y.tie := by
  unfold halved
  split <;> rfl

theorem loseTie_fwHeld (why : TieCause) : (s.loseTie w why).fwHeld = s.fwHeld := by
  by_cases h : s.CanLose w
  · refine (alike_loseTie why h).fwHeld.trans ?_
    refine fwHeld_congr fun v => ?_
    rw [wy_updWy]
    split
    · next hv => rw [halved_fwRejected, hv]
    · rfl
  · rw [loseTie_cannot why h]

/-! ### The clauses about a loss -/

/-- What a loss by cause `why` leaves at wythe `w` (R521–R523). -/
def Fallen (s t : State) (w : WytheIx) (why : TieCause) : Prop :=
  (t.wy w).tie.split = true ∧ (t.wy w).tie.state = .down ∧ (t.wy w).tie.cause = why ∧ (t.wy w).tie.txq = [] ∧ (t.wy w).tie.rxq = [] ∧
  (t.wy w).tie.retraining = false ∧
  (s.fwHeld = false → (s.wy w).mode ∈ [.setting, .run, .plumb] → (t.wy w).mode = .half ∧ (t.wy w).returnMode = (s.wy w).mode) ∧
  (s.fwHeld = true ∨ (s.wy w).mode ∉ [.setting, .run, .plumb] → (t.wy w).mode = (s.wy w).mode)

theorem fallen_of_view {why : TieCause}
    (h : sansTraffic (t.wy w) = sansTraffic (halved s.fwHeld { s.wy w with tie := fallenTie s.now why (s.wy w).tie })) :
    Fallen s t w why := by
  have htie : (t.wy w).tie = fallenTie s.now why (s.wy w).tie := by
    refine (congrArg (·.tie) h).trans ?_
    unfold halved
    split <;> rfl
  refine ⟨by rw [htie]; rfl, by rw [htie]; rfl, by rw [htie]; rfl, by rw [htie]; rfl, by rw [htie]; rfl, by rw [htie]; rfl,
    fun hheld hwork => ?_, fun hrest => ?_⟩
  · have hyes : (!s.fwHeld && atWork (s.wy w).mode) = true := by simpa [hheld, atWork, or_assoc] using hwork
    rw [halved, if_pos hyes] at h
    exact ⟨congrArg (·.mode) h, congrArg (·.returnMode) h⟩
  · have hno : ¬ (!s.fwHeld && atWork (s.wy w).mode) = true := by
      rcases hrest with hheld | hrest
      · simp [hheld]
      · simpa [atWork, and_assoc] using fun _ => hrest
    rw [halved, if_neg hno] at h
    exact congrArg (·.mode) h

theorem loseTie_fallen (why : TieCause) (h : s.CanLose w) : Fallen s (s.loseTie w why) w why := by
  refine fallen_of_view ((alike_loseTie why h w).trans ?_)
  rw [wy_updWy_same]

theorem loseTie_tie (why : TieCause) (h : s.CanLose w) : ((s.loseTie w why).wy w).tie = fallenTie s.now why (s.wy w).tie := by
  rw [(alike_loseTie why h).tie, wy_updWy_same, halved_tie]

theorem CanLose.of_seen (h : s.CanLose w) (ht : sansTraffic (t.wy w) = sansTraffic (s.wy w)) : t.CanLose w := by
  have htie : (t.wy w).tie = (s.wy w).tie := congrArg (·.tie) ht
  have hmode : (t.wy w).mode = (s.wy w).mode := congrArg (·.mode) ht
  simpa only [CanLose, tieLost, htie, hmode] using h

/-- A fall reads the modes and the firmware alone. -/
theorem Fallen.of_same {s' : State} {why : TieCause} (h : Fallen s' t w why) (hheld : s'.fwHeld = s.fwHeld)
    (hmode : (s'.wy w).mode = (s.wy w).mode) : Fallen s t w why := by
  simpa only [Fallen, hheld, hmode] using h

/-- A fall is seen in the control of the wythe. -/
theorem Fallen.of_seen {t' : State} {why : TieCause} (h : Fallen s t w why) (ht : sansTraffic (t'.wy w) = sansTraffic (t.wy w)) :
    Fallen s t' w why := by
  have htie : (t'.wy w).tie = (t.wy w).tie := congrArg (·.tie) ht
  have hmode : (t'.wy w).mode = (t.wy w).mode := congrArg (·.mode) ht
  have hreturn : (t'.wy w).returnMode = (t.wy w).returnMode := congrArg (·.returnMode) ht
  simpa only [Fallen, htie, hmode, hreturn] using h

/-! ### A skew -/

/-- What REGION_SKEW carries (R27). -/
def skewInfoOf (a b : Byte) (temperature : Bool) : W32 := w32 (at' b.toNat 16 + at' (b2n temperature) 8 + a.toNat)

theorem skewInfoOf_regions (a b : Byte) (temperature : Bool) :
    fld (skewInfoOf a b temperature) 7 0 = a.toNat ∧ fld (skewInfoOf a b temperature) 23 16 = b.toNat := by
  have ha := a.isLt
  have hb := b.isLt
  have ht : b2n temperature ≤ 1 := by cases temperature <;> decide
  have hsmall : (at' b.toNat 16 + at' (b2n temperature) 8 + a.toNat) % 2 ^ 32 = b.toNat * 65536 + b2n temperature * 256 + a.toNat := by
    simp only [at']
    omega
  simp only [skewInfoOf, fld, w32, BitVec.toNat_ofNat, hsmall, bitsOf]
  omega

/-- The skew is noted at both ends before they lose the tie. -/
def skewNoted (s : State) (a b : Byte) (temperature : Bool) : State :=
  s.each wythes (fun s w =>
    (s.updTie w (fun k => { k with
      skewInfo := skewInfoOf a b temperature, skewUntil := s.now + if temperature then 1000000 else 1000 })).raiseBit (pgTie w) 2)

theorem skewNoted_wy (s : State) (a b : Byte) (temperature : Bool) (v : WytheIx) :
    (s.skewNoted a b temperature).wy v = { s.wy v with tie := { (s.wy v).tie with
      skewInfo := skewInfoOf a b temperature, skewUntil := s.now + if temperature then 1000000 else 1000 } } := by
  rcases wythe_cases v with rfl | rfl <;> simp [skewNoted, each, wythes, wy_updTie]

theorem skewFound_fallen (h : s.CanLose w) (a b : Byte) (temperature : Bool) :
    Fallen s (s.skewFound a b temperature) w .regionSkew ∧
      ((s.skewFound a b temperature).wy w).tie.skewInfo = skewInfoOf a b temperature := by
  have hwy := skewNoted_wy s a b temperature
  have hfound : s.skewFound a b temperature = ((s.skewNoted a b temperature).loseTie 0 .regionSkew).loseTie 1 .regionSkew := rfl
  rw [hfound]
  generalize s.skewNoted a b temperature = s1 at hwy ⊢
  have hlost1 : ∀ v, s1.tieLost v = s.tieLost v := fun v => by simp only [tieLost, hwy]
  have hmode1 : ∀ v, (s1.wy v).mode = (s.wy v).mode := fun v => by rw [hwy]
  have hheld1 : s1.fwHeld = s.fwHeld := by simp only [fwHeld, ds, hwy]
  have hcan1 : s1.CanLose w := by simpa only [CanLose, hlost1, hmode1] using h
  have hinfo1 : (s1.wy w).tie.skewInfo = skewInfoOf a b temperature := by rw [hwy]
  rcases wythe_cases w with rfl | rfl
  · have hlast : sansTraffic (((s1.loseTie 0 .regionSkew).loseTie 1 .regionSkew).wy 0) = sansTraffic ((s1.loseTie 0 .regionSkew).wy 0) :=
      loseTie_other .regionSkew (by decide)
    refine ⟨((loseTie_fallen .regionSkew hcan1).of_same hheld1 (hmode1 0)).of_seen hlast, ?_⟩
    exact (congrArg (·.tie.skewInfo) hlast).trans ((congrArg (·.skewInfo) (loseTie_tie .regionSkew hcan1)).trans hinfo1)
  · have hfirst : sansTraffic ((s1.loseTie 0 .regionSkew).wy 1) = sansTraffic (s1.wy 1) := loseTie_other .regionSkew (by decide)
    have hcan2 := hcan1.of_seen hfirst
    refine ⟨(loseTie_fallen .regionSkew hcan2).of_same ((loseTie_fwHeld .regionSkew).trans hheld1)
      ((congrArg (·.mode) hfirst).trans (hmode1 1)), ?_⟩
    rw [loseTie_tie .regionSkew hcan2]
    exact (congrArg (·.tie.skewInfo) hfirst).trans hinfo1

/-! ### The count of a loss -/

theorem pageBase_ne_of_page {a page o : Nat} (hpage : page % 0x1000 = 0) (ho : o < 0x1000) (ha : pageBase a ≠ page) : a ≠ page + o := by
  rintro rfl
  exact ha (pageBase_page_add hpage ho)

section
variable {a : Nat}

theorem spares_enterIntake (s : State) (w : WytheIx) (type : Nat) (r : Intake) (ha : pageBase a ≠ pgDate w) :
    Spares a s (s.enterIntake w type r) := by
  unfold enterIntake
  split
  · exact .updWy s w _
  · exact (Spares.updWy s w _).trans
      (.count _ 1 (pageBase_ne_of_page (by unfold pgDate wyBase; omega) (by decide) ha))

theorem spares_record (s : State) (w : WytheIx) (type subject : Nat) (p : Bytes) (ha : pageBase a ≠ pgDate w) :
    Spares a s (s.record w type subject p) := by
  unfold record
  split
  · exact spares_enterIntake s w _ _ ha
  · exact .refl a s

theorem spares_dramPlumb (s : State) (w : WytheIx) (entering : Bool) (ha : pageBase a ≠ pgDram w) :
    Spares a s (s.dramPlumb w entering) := by
  unfold dramPlumb
  extract_lets s1
  have hrate : Spares a s s1 := .onlyIf s _ (f := fun s => s.raiseBit (pgDram w) 3)
    (.raiseBit s 3 (by rw [pageBase_page_add (by unfold pgDram wyBase; omega) (by decide)]; exact ha.symm))
  split
  · exact hrate.trans (.each _ s1 fun s _ _ => .updWy s w _)
  · exact hrate

theorem spares_enterMode (s : State) (w : WytheIx) (m : DevMode) (hm : pageBase a ≠ pgMode) (hd : pageBase a ≠ pgDram w) :
    Spares a s (s.enterMode w m) := by
  unfold enterMode
  extract_lets old s0 s1 s2 s3 modes s4
  split
  · exact .refl a s
  · have h0 : Spares a s s0 := .onlyIf s _ (f := fun s => s.each (List.range 48) fun s i => s.updCore w i _)
      (.each _ s fun s _ _ => .updWy s w _)
    have h2 : Spares a s1 s2 := .each _ s1 fun s _ _ => .updWy s w _
    have h3 : Spares a s2 s3 :=
      (Spares.raiseBit s2 0 (by rw [pageBase_page_add (by decide) (by decide)]; exact hm.symm)).trans
        (.count _ 1 (pageBase_ne_of_page (by decide) (by decide) hm))
    have h4 : Spares a s3 s4 := by
      unfold s4
      split
      · exact .of_words rfl rfl
      · exact .refl a s3
    exact h0.trans ((Spares.updWy s0 w _).trans (h2.trans (h3.trans (h4.trans
      (.onlyIf s4 _ (f := fun s => s.dramPlumb w _) (spares_dramPlumb s4 w _ hd))))))

theorem spares_enterHalf (s : State) (w : WytheIx) (hm : pageBase a ≠ pgMode) (hd : pageBase a ≠ pgDram w) :
    Spares a s (s.enterHalf w) := by
  unfold enterHalf
  extract_lets m
  split
  · exact (Spares.updWy s w _).trans (spares_enterMode _ w _ hm hd)
  · exact .refl a s

end

theorem flag_or_bit (v : W32) {i : Nat} (hi : i < 32) : flag (v ||| w32 (2 ^ i)) i = true := by
  have hbit : (w32 (2 ^ i)).toNat = 2 ^ i := by
    simpa [w32] using Nat.pow_lt_pow_right (by decide) hi
  have htest : (v ||| w32 (2 ^ i)).toNat.testBit i = true := by simp [hbit]
  simpa [flag, bitOf, Nat.testBit_eq_decide_div_mod_eq] using htest

/-- The pages of the ports and of their drops hold their counters from 0x100 on. -/
theorem lossCounter_ne_drop (w v : WytheIx) (p : Nat) (c : Cause) :
    pgTie w + 0x60 ≠ pgPort v p + 0x400 + 8 * c.code ∧ pgTie w + 0x60 ≠ witDrop v p c.code := by
  have hcode : c.code ≤ 0x1C := by cases c <;> decide
  unfold pgTie pgPort witDrop pgWDrops wyBase
  omega

theorem pageBase_lossCounter (w : WytheIx) : pageBase (pgTie w + 0x60) = pgTie w :=
  pageBase_page_add (by unfold pgTie wyBase; omega) (by decide)

theorem lossCounter_not_galley (w v : WytheIx) : pageBase (pgTie w + 0x60) ≠ pgGalley v := by
  rw [pageBase_lossCounter]
  unfold pgTie pgGalley wyBase
  omega

theorem spares_tieOriginal (s : State) (w : WytheIx) (k : TieCopy) : Spares (pgTie w + 0x60) s (s.tieOriginal k) :=
  (spares_releaseSegs s _ (lossCounter_not_galley w _)).trans (spares_flightDone _ _ _)

theorem spares_tieFree (s : State) (w : WytheIx) (k : TieCopy) : Spares (pgTie w + 0x60) s (s.tieFree w k) :=
  (Spares.each _ s fun s _ _ => spares_refDown s _ (lossCounter_not_galley w w)).trans (.updWy _ w _)

theorem spares_drop (s : State) (w v : WytheIx) (p : Nat) (c : Cause) : Spares (pgTie w + 0x60) s (s.drop v p c) :=
  .drop s v (lossCounter_ne_drop w v p c).1 (lossCounter_ne_drop w v p c).2

theorem Counted.spares {a : Nat} (h : Counted s t a) {u : State} (hu : Spares a t u) : Counted s u a := by
  unfold Counted
  rw [hu.1, h]

/-- A fall is counted once and raises TIE.EV_LOST (R521). -/
theorem tieFalls_counted (w : WytheIx) (why : TieCause) (hs : s.Canon) :
    Counted s (s.tieFalls w why) (pgTie w + 0x60) ∧ flag ((s.tieFalls w why).rd (pgTie w + 0x10)) 0 = true := by
  unfold tieFalls
  extract_lets k again s1 s2 s3 s4 info regions s5
  have h1 : Spares (pgTie w + 0x60) s s1 := .updWy s w _
  have h2 : Spares (pgTie w + 0x60) s1 s2 := .each _ s1 fun s t _ => (spares_tieOriginal s w t).trans (spares_drop _ w w _ _)
  have h3 : Spares (pgTie w + 0x60) s2 s3 := .each _ s2 fun s t _ =>
    (spares_tieOriginal s w t).trans ((spares_tieFree _ w t).trans ((spares_drop _ w w _ _).trans (.count _ 1 (by omega))))
  have hcanon : s3.Canon := by
    refine (Keeps.each (Keeps.each (Keeps.refl s).updTie fun _ _ h => h.tieOriginal.drop) fun _ _ h => ?_).2 hs
    exact h.tieOriginal.tieFree.drop.count
  have hcounted : Counted s s4 (pgTie w + 0x60) := .of_spares (h1.trans (h2.trans h3)) hcanon (raiseBit_ctr _ _ _ _)
  have hraised : s4.rd (pgTie w + 0x10) = (s3.count (pgTie w + 0x60) 1).rd (pgTie w + 0x10) ||| w32 (2 ^ 0) :=
    raise_rd_same _ _ _ (((Keeps.refl s3).count).2 hcanon)
  have h5 : Spares (pgTie w + 0x60) s4 s5 :=
    spares_record s4 w _ _ _ (by rw [pageBase_lossCounter]; unfold pgTie pgDate; omega)
  have hlast : Spares (pgTie w + 0x60) s4 (if w = 0 then { s5 with modes := { s5.modes with w1Last := (s5.wy 1).mode } } else s5) := by
    refine h5.trans ?_
    split
    · exact .of_words rfl rfl
    · exact .refl _ s5
  refine ⟨hcounted.spares hlast, ?_⟩
  rw [hlast.2 _ ((pageBase_page_add (by unfold pgTie wyBase; omega) (by decide)).trans (pageBase_lossCounter w).symm), hraised]
  exact flag_or_bit _ (by decide)

theorem loseTie_counted (why : TieCause) (h : s.CanLose w) (hs : s.Canon) :
    Counted s (s.loseTie w why) (pgTie w + 0x60) ∧ flag ((s.loseTie w why).rd (pgTie w + 0x10)) 0 = true := by
  have hpage := pageBase_lossCounter w
  obtain ⟨hcounted, hraised⟩ := tieFalls_counted w why hs
  have hhalf : Spares (pgTie w + 0x60) (s.tieFalls w why) ((s.tieFalls w why).enterHalf w) :=
    spares_enterHalf _ w (by rw [hpage]; unfold pgTie pgMode wyBase; omega) (by rw [hpage]; unfold pgTie pgDram; omega)
  rw [loseTie_eq why h]
  refine ⟨hcounted.spares hhalf, ?_⟩
  rw [hhalf.2 (pgTie w + 0x10) (by rw [hpage]; exact pageBase_page_add (by unfold pgTie wyBase; omega) (by decide))]
  exact hraised

end Sys2Proof.Machine.State

end

/-!
# The rejoin, and the clauses about the tie

Each step of LINKED is compared through `sansTraffic`: what it gives the tie, the mode and the lifecycle of a wythe.
-/

section

namespace Sys2Proof.Machine.State

variable {s t : State} {w : WytheIx} {α : Type} {view : Wythe → α}

theorem each_filter_wythes (s : State) (p : WytheIx → Bool) (f : State → WytheIx → State) :
    s.each (wythes.filter p) f = (s.onlyIf (p 0) (f · 0)).onlyIf (p 1) (f · 1) := by
  cases h0 : p 0 <;> cases h1 : p 1 <;> simp [each, wythes, onlyIf, h0, h1]

/-- A loop over wythes whose step at `v` shows as `g` at `v` shows as `g` at each of them. -/
theorem view_each_wythes (s : State) (p : WytheIx → Bool) {f : State → WytheIx → State} {g : Wythe → Wythe}
    (hf : ∀ s v, Alike view (s.updWy v g) (f s v)) (hg : ∀ y y', view y' = view y → view (g y') = view (g y)) (v : WytheIx) :
    view ((s.each (wythes.filter p) f).wy v) = view (if p v then g (s.wy v) else s.wy v) := by
  have hstep : ∀ s u, view ((State.onlyIf s (p u) (f · u)).wy v) = view (if p u = true ∧ v = u then g (s.wy v) else s.wy v) := by
    intro s u
    unfold onlyIf
    split
    · next hu =>
      rw [hf s u v, wy_updWy]
      by_cases hv : v = u <;> simp [hv, hu]
    · next hu => simp [hu]
  rw [each_filter_wythes, hstep]
  rcases wythe_cases v with rfl | rfl
  · simpa using hstep s 0
  · have h0 := hstep s 0
    simp only [Fin.reduceEq, and_false, if_false, and_true] at h0 ⊢
    split
    · exact hg _ _ h0
    · exact h0

/-! ### LINKED -/

/-- The end of a wythe once the tie links (R527). -/
def linkedWythe (y : Wythe) : Wythe := { y with tie := { y.tie with state := if y.tie.split then .linked else .up, retraining := false } }

def linkedEnds (s : State) : State :=
  s.each wythes (fun s w => s.updTie w (fun k => { k with state := if k.split then .linked else .up, retraining := false }))

theorem linkedEnds_wy (s : State) (v : WytheIx) : s.linkedEnds.wy v = linkedWythe (s.wy v) := by
  rcases wythe_cases v with rfl | rfl <;> simp [linkedEnds, linkedWythe, each, wythes, wy_updTie]

/-- The secondary with the lifecycle of the primary. -/
def sharedLifecycle (s : State) : State :=
  s.updDs 1 (fun d => { d with lc := (s.ds 0).lc, imageKeys := (s.ds 0).imageKeys, serviceEnd := (s.ds 0).serviceEnd })

theorem alike_shareLifecycle (s : State) : Alike sansTraffic s.sharedLifecycle s.shareLifecycle := by
  unfold shareLifecycle
  extract_lets a b take note
  have hnote : ∀ s, Alike sansTraffic s (note s) := fun s => (alike_record s 1 _ _ _).trans (alike_sealReq _ 1 _)
  split
  · exact .refl _ _
  · refine Alike.trans ?_ ((alike_raiseBit _ _ _).trans (alike_notice _ 1 2))
    split
    · refine (hnote s).updWy_both 1 fun y y' h => ?_
      exact congrArg (fun y : Wythe => ({ y with
        ds := { y.ds with lc := a.lc, imageKeys := a.imageKeys, serviceEnd := a.serviceEnd } } : Wythe)) h
    · exact hnote s.sharedLifecycle

/-- A wythe whose rejoin completes (R528). -/
def rejoinedWythe (y : Wythe) : Wythe :=
  if y.mode = .half then { y with tie := { y.tie with state := .up, split := false }, mode := y.returnMode }
  else { y with tie := { y.tie with state := .up, split := false } }

theorem sansTraffic_rejoined (y : Wythe) : sansTraffic (rejoinedWythe y) = rejoinedWythe (sansTraffic y) :=
  apply_ite sansTraffic _ _ _

theorem view_rejoinComplete (s : State) (v : WytheIx) :
    sansTraffic (s.rejoinComplete.wy v) = sansTraffic (if s.split v then rejoinedWythe (s.wy v) else s.wy v) := by
  unfold rejoinComplete
  extract_lets ms back s1 c0 c1 s2
  have h1 : sansTraffic (s1.wy v) = sansTraffic (if s.split v then rejoinedWythe (s.wy v) else s.wy v) := by
    refine view_each_wythes s s.split (g := rejoinedWythe) (fun s u => ?_) (fun y y' h => ?_) v
    · dsimp only
      split
      · next hhalf =>
        have hmode : s.updWy u rejoinedWythe = (s.updTie u fun k => { k with state := .up, split := false }).updWy u
            fun y => { y with mode := (s.wy u).returnMode } := by
          rw [updTie, updWy_updWy]
          exact updWy_congr (if_pos hhalf)
        rw [hmode]
        exact alike_enterMode _ u _
      · next hhalf =>
        have hmode : s.updWy u rejoinedWythe = s.updTie u fun k => { k with state := .up, split := false } := updWy_congr (if_neg hhalf)
        rw [hmode]
        exact .refl _ _
    · rw [sansTraffic_rejoined, sansTraffic_rejoined, h]
  have h2 : Alike sansTraffic s1 s2 := by
    unfold s2
    split
    · exact .refl _ s1
    · exact alike_stepTo s1 1 _ _
  have h3 : Alike sansTraffic s2 (s2.each back fun s w =>
      ((s.record w 0x0A 0 (toBe 4 (ms w) ++ toBe 6 (s.ds (1 - w)).nextSeq)).snapRound w true).raiseBit (pgTie w) 1) :=
    .each (fun s w => (alike_record s w _ _ _).trans ((alike_snapRound _ w true).trans (alike_raiseBit _ _ _))) _ s2
  exact (h3 v).trans ((h2 v).trans h1)

theorem rejoinedWythe_tie (y : Wythe) : (rejoinedWythe y).tie = { y.tie with state := .up, split := false } := by
  unfold rejoinedWythe
  split <;> rfl

theorem rejoinedWythe_ds (y : Wythe) : (rejoinedWythe y).ds = y.ds := by
  unfold rejoinedWythe
  split <;> rfl

theorem rejoinComplete_spec (s : State) (v : WytheIx) :
    (s.rejoinComplete.wy v).tie = (if s.split v then { (s.wy v).tie with state := .up, split := false } else (s.wy v).tie) ∧
      (s.split v = true → (s.wy v).mode = .half → (s.rejoinComplete.wy v).mode = (s.wy v).returnMode) ∧
      (s.rejoinComplete.ds v).lc = (s.ds v).lc ∧ (s.rejoinComplete.ds v).imageKeys = (s.ds v).imageKeys := by
  have hview := view_rejoinComplete s v
  have hds : sansIntake (s.rejoinComplete.ds v) = sansIntake (s.ds v) := by
    refine (congrArg (·.ds) hview).trans ?_
    split
    · exact congrArg sansIntake (rejoinedWythe_ds _)
    · rfl
  refine ⟨(congrArg (·.tie) hview).trans ?_, fun hsplit hhalf => ?_, congrArg (·.lc) hds, congrArg (·.imageKeys) hds⟩
  · split
    · exact rejoinedWythe_tie _
    · rfl
  · rw [if_pos hsplit, rejoinedWythe, if_pos hhalf] at hview
    exact congrArg (·.mode) hview

/-- The split ends held while the formes differ (R527). -/
def heldEnds (s : State) : State :=
  s.each (wythes.filter s.split) fun s w => (s.updTie w (fun k => { k with state := .held })).raiseBit (pgTie w) 3

theorem heldEnds_wy (s : State) (v : WytheIx) :
    s.heldEnds.wy v = if s.split v then { s.wy v with tie := { (s.wy v).tie with state := .held } } else s.wy v := by
  unfold heldEnds
  rw [each_filter_wythes]
  rcases wythe_cases v with rfl | rfl
  · cases h0 : s.split 0
    · cases h1 : s.split 1 <;> simp [onlyIf, wy_updTie]
    · cases h1 : s.split 1 <;> simp [onlyIf, wy_updTie]
  · cases h1 : s.split 1
    · cases h0 : s.split 0 <;> simp [onlyIf, wy_updTie]
    · cases h0 : s.split 0 <;> simp [onlyIf, wy_updTie]

theorem heldEnds_spec (s : State) (v : WytheIx) :
    (s.heldEnds.wy v).tie = (if s.split v then { (s.wy v).tie with state := .held } else (s.wy v).tie) ∧
      (s.heldEnds.wy v).mode = (s.wy v).mode ∧ s.heldEnds.ds v = s.ds v := by
  rw [State.ds, heldEnds_wy]
  split <;> exact ⟨rfl, rfl, rfl⟩

theorem swapSequence_wy (s : State) (v : WytheIx) :
    s.swapSequence.wy v = { s.wy v with tie := { (s.wy v).tie with otherSeq := (s.ds (1 - v)).nextSeq } } := by
  rcases wythe_cases v with rfl | rfl <;> simp [swapSequence, wy_updTie]

/-- The control of a wythe but for its lifecycle. -/
def sansLifecycle (y : Wythe) : Wythe :=
  { sansTraffic y with ds := { (sansTraffic y).ds with lc := .blank, imageKeys := [], serviceEnd := 0 } }

theorem alike_shareLifecycle_sansLifecycle (s : State) : Alike sansLifecycle s s.shareLifecycle := by
  refine Alike.trans (t := s.sharedLifecycle) ?_ fun v => ?_
  · unfold sharedLifecycle updDs
    exact .updWy s 1 fun _ => rfl
  · exact congrArg (fun y : Wythe => ({ y with ds := { y.ds with lc := .blank, imageKeys := [], serviceEnd := 0 } } : Wythe))
      (alike_shareLifecycle s v)

/-- Both ends linked, the lifecycle shared and the sequence numbers exchanged. -/
def exchangedEnds (s : State) : State := s.linkedEnds.shareLifecycle.swapSequence

theorem exchangedEnds_spec (s : State) (v : WytheIx) :
    (s.exchangedEnds.wy v).tie = { (linkedWythe (s.wy v)).tie with otherSeq := (s.ds (1 - v)).nextSeq } ∧
      (s.exchangedEnds.wy v).mode = (s.wy v).mode ∧ (s.exchangedEnds.wy v).returnMode = (s.wy v).returnMode ∧
      (s.exchangedEnds.wy v).forme = (s.wy v).forme := by
  have hseen : ∀ u, sansLifecycle (s.linkedEnds.shareLifecycle.wy u) = sansLifecycle (linkedWythe (s.wy u)) := fun u =>
    (alike_shareLifecycle_sansLifecycle s.linkedEnds u).trans (by rw [linkedEnds_wy])
  have htie : (s.linkedEnds.shareLifecycle.wy v).tie = (linkedWythe (s.wy v)).tie := congrArg (·.tie) (hseen v)
  have hseq : (s.linkedEnds.shareLifecycle.ds (1 - v)).nextSeq = (s.ds (1 - v)).nextSeq := congrArg (·.ds.nextSeq) (hseen (1 - v))
  simp only [exchangedEnds, swapSequence_wy, htie, hseq, true_and]
  exact ⟨congrArg (·.mode) (hseen v), congrArg (·.returnMode) (hseen v), congrArg (·.forme) (hseen v)⟩

theorem exchangedEnds_lifecycle (s : State) :
    (s.exchangedEnds.ds 1).lc = (s.ds 0).lc ∧ (s.exchangedEnds.ds 1).imageKeys = (s.ds 0).imageKeys := by
  have hview := alike_shareLifecycle s.linkedEnds 1
  have hwy : s.linkedEnds.sharedLifecycle.ds 1 = { s.ds 1 with
      lc := (s.ds 0).lc, imageKeys := (s.ds 0).imageKeys, serviceEnd := (s.ds 0).serviceEnd } := by
    simp [sharedLifecycle, ds, linkedEnds_wy, linkedWythe]
  simp only [exchangedEnds, ds, swapSequence_wy]
  exact ⟨(congrArg (·.ds.lc) hview).trans (congrArg (·.lc) hwy), (congrArg (·.ds.imageKeys) hview).trans (congrArg (·.imageKeys) hwy)⟩

/-- What LINKED leaves: the lifecycle shared, the sequence numbers exchanged, and the rejoin complete or held (R527, R528). -/
def Linked (s t : State) (w : WytheIx) : Prop :=
  (t.ds 1).lc = (s.ds 0).lc ∧ (t.ds 1).imageKeys = (s.ds 0).imageKeys ∧ (t.wy w).tie.otherSeq = (s.ds (1 - w)).nextSeq ∧
  ((s.wy 0).forme = (s.wy 1).forme → (t.wy w).tie.split = false ∧ (t.wy w).tie.state = .up ∧
    ((s.wy w).tie.split = true → (s.wy w).mode = .half → (t.wy w).mode = (s.wy w).returnMode)) ∧
  ((s.wy 0).forme ≠ (s.wy 1).forme → (t.wy w).tie.split = (s.wy w).tie.split ∧ ((s.wy w).tie.split = true → (t.wy w).tie.state = .held) ∧
    (t.wy w).mode = (s.wy w).mode)

section
variable (hsome : (s.tieLost 0 || s.tieLost 1) = true) (htraining : ∀ v, s.tieLost v = true → (s.wy v).tie.state = .training)
include hsome htraining

theorem tieLinks_eq : s.tieLinks = if (s.exchangedEnds.wy 0).forme = (s.exchangedEnds.wy 1).forme then s.exchangedEnds.rejoinComplete
    else s.exchangedEnds.heldEnds := by
  have hno : ((wythes.filter s.tieLost).isEmpty || (wythes.filter s.tieLost).any fun w => (s.wy w).tie.state != .training) = false := by
    have hempty : (wythes.filter s.tieLost).isEmpty = false := by
      simp only [Bool.or_eq_true] at hsome
      rw [List.isEmpty_eq_false_iff_exists_mem]
      rcases hsome with h | h
      · exact ⟨0, by simp [wythes, h]⟩
      · exact ⟨1, by simp [wythes, h]⟩
    have hall : ((wythes.filter s.tieLost).any fun w => (s.wy w).tie.state != .training) = false := by
      simpa using fun v _ h => htraining v h
    rw [hempty, hall, Bool.or_self]
  unfold tieLinks
  extract_lets lost s1 s2
  exact if_neg (Bool.eq_false_iff.mp hno)

theorem tieLinks_linked (w : WytheIx) : Linked s s.tieLinks w := by
  unfold Linked
  rw [tieLinks_eq hsome htraining]
  obtain ⟨hlc, hkeys⟩ := exchangedEnds_lifecycle s
  have hends := exchangedEnds_spec s
  generalize s.exchangedEnds = s2 at hlc hkeys hends ⊢
  obtain ⟨htie, hmode, hreturn, -⟩ := hends w
  have hsplit : s2.split w = (s.wy w).tie.split := by rw [State.split, htie]; rfl
  have hformes : (s2.wy 0).forme = (s2.wy 1).forme ↔ (s.wy 0).forme = (s.wy 1).forme := by
    rw [(hends 0).2.2.2, (hends 1).2.2.2]
  by_cases hf : (s.wy 0).forme = (s.wy 1).forme
  · rw [if_pos (hformes.mpr hf)]
    obtain ⟨htie', hmode', -, -⟩ := rejoinComplete_spec s2 w
    obtain ⟨-, -, hlc', hkeys'⟩ := rejoinComplete_spec s2 1
    rw [hsplit, hmode, hreturn] at hmode'
    rw [hsplit, htie] at htie'
    refine ⟨hlc'.trans hlc, hkeys'.trans hkeys, ?_, fun _ => ⟨?_, ?_, hmode'⟩, fun hne => absurd hf hne⟩
    · rw [htie']
      split <;> rfl
    · rw [htie']
      cases hk : (s.wy w).tie.split
      · exact hk
      · rfl
    · rw [htie']
      cases hk : (s.wy w).tie.split <;> simp [linkedWythe, hk]
  · rw [if_neg fun h => hf (hformes.mp h)]
    obtain ⟨htie', hmode', -⟩ := heldEnds_spec s2 w
    obtain ⟨-, -, hds'⟩ := heldEnds_spec s2 1
    rw [hsplit, htie] at htie'
    refine ⟨by rw [hds', hlc], by rw [hds', hkeys], ?_, fun he => absurd he hf, fun _ => ⟨?_, fun hk => ?_, hmode'.trans hmode⟩⟩
    · rw [htie']
      split <;> rfl
    · rw [htie']
      split <;> rfl
    · rw [htie', if_pos hk]

end

/-! ### The end of SERVICE at the secondary -/

theorem alike_resumeOne (s : State) (x : CtxId) : Alike sansTraffic s (s.resumeOne x) := by
  refine .of_quiet (x := x) ?_ fun _ => rfl
  unfold resumeOne
  split
  · exact .refl s x
  · split
    · exact quiet_setCtxState s x _
    · split
      · exact (((quiet_updCtx s x _).trans (quiet_updTcb _ x _ _ _)).trans (quiet_setCtxState _ x _)).trans (quiet_stepEnds _ x)
      · exact quiet_setCtxState s x _

theorem alike_debugLeavesService (s : State) (w : WytheIx) : Alike sansTraffic s (s.debugLeavesService w) := by
  unfold debugLeavesService
  extract_lets xs busy s1
  have h1 : Alike sansTraffic s s1 :=
    .each (fun s x => (alike_resumeOne s x).trans (.of_quiet (quiet_updCtx _ x _) fun _ => rfl)) _ s
  exact h1.trans (.onlyIf s1 _ (f := dbgDenied) (.of_wy fun v => by rw [dbgDenied, raiseBit_wy, count_wy]; rfl))

theorem alike_linksUp (s : State) : Alike sansTraffic s.tieLinks s.linksUp :=
  .onlyIf s.tieLinks _ (f := fun s => s.debugLeavesService 1) (alike_debugLeavesService _ 1)

/-! ### The clauses -/

theorem linksUp_linked (hsome : (s.tieLost 0 || s.tieLost 1) = true)
    (htraining : ∀ v, s.tieLost v = true → (s.wy v).tie.state = .training) (w : WytheIx) : Linked s s.linksUp w := by
  have hview := alike_linksUp s
  have hlc : (s.linksUp.ds 1).lc = (s.tieLinks.ds 1).lc := congrArg (·.ds.lc) (hview 1)
  have hkeys : (s.linksUp.ds 1).imageKeys = (s.tieLinks.ds 1).imageKeys := congrArg (·.ds.imageKeys) (hview 1)
  unfold Linked
  rw [hlc, hkeys, hview.tie, hview.mode]
  exact tieLinks_linked hsome htraining w

/-- An end that is not training yet holds the link back. -/
theorem linksUp_waits (h : ∃ v, s.tieLost v = true ∧ (s.wy v).tie.state ≠ .training) : s.linksUp = s := by
  obtain ⟨v, hlost, hstate⟩ := h
  have hv : v ∈ wythes := by rcases wythe_cases v with rfl | rfl <;> decide
  have hany : ((wythes.filter s.tieLost).any fun w => (s.wy w).tie.state != .training) = true :=
    List.any_eq_true.mpr ⟨v, List.mem_filter.mpr ⟨hv, hlost⟩, by simpa using hstate⟩
  have hlinks : s.tieLinks = s := if_pos (by simp only [hany, Bool.or_true])
  have hservice : ((s.ds 1).lc == .service && (s.ds 1).lc == .commissioned) = false := by
    cases (s.ds 1).lc <;> rfl
  simp only [linksUp, hlinks, hservice, onlyIf, Bool.false_eq_true, if_false]

theorem skewRaised_iff (x y : Byte) (hot : Bool) (diffs : List Nat) : skewRaised x y hot diffs = true ↔
    neighbours x.toNat y.toNat = true ∧ (if hot = true then 2 else 4) ≤ diffs.length ∧
      ∀ d ∈ diffs.take (if hot = true then 2 else 4), (if hot = true then 120 else 40) < d := by
  simp only [skewRaised, Bool.and_eq_true, decide_eq_true_eq, List.all_eq_true, and_assoc]

theorem reached_isolate {a : Agent} (hreach : s.reach a w = true) (h : s.CanLose w) : Completes (.isolate a w) s fun t =>
    Fallen s t w .hostIsolate ∧ (s.Canon → Counted s t (pgTie w + 0x60) ∧ flag (t.rd (pgTie w + 0x10)) 0 = true) :=
  ⟨s.loseTie w .hostIsolate, congrArg Host.Outcome.next (if_pos hreach), loseTie_fallen _ h, loseTie_counted _ h⟩

theorem late_tieLost (h : s.CanLose w) (hretraining : (s.wy w).tie.retraining = true) (hlate : (s.wy w).tie.retrainSince + 100000 ≤ s.now) :
    Completes (.tieLost w) s fun t => Fallen s t w .tieLost :=
  ⟨s.loseTie w .tieLost, congrArg Host.Outcome.next (if_pos (by simp [hretraining, hlate])), loseTie_fallen _ h⟩

theorem raised_regionSkew (h : s.CanLose w) {x y : Byte} {hot : Bool} {diffs : List Nat} (hraised : skewRaised x y hot diffs = true) :
    Completes (.regionSkew x y hot diffs) s fun t =>
      Fallen s t w .regionSkew ∧ fld (t.wy w).tie.skewInfo 7 0 = x.toNat ∧ fld (t.wy w).tie.skewInfo 23 16 = y.toNat := by
  obtain ⟨hfallen, hinfo⟩ := skewFound_fallen h x y hot
  refine ⟨s.skewFound x y hot, congrArg Host.Outcome.next (if_pos hraised), hfallen, ?_⟩
  rw [hinfo]
  exact skewInfoOf_regions x y hot

theorem lost_isolate (a : Agent) (hlost : s.tieLost w = true) : Completes (.isolate a w) s fun t => t = s := by
  have hstays : s.loseTie w .hostIsolate = s := loseTie_cannot _ fun hcan => by simp [hcan.1] at hlost
  refine ⟨s, congrArg Host.Outcome.next ?_, rfl⟩
  simp only [viaPage, hstays, ite_self]

theorem kept_tieRetrain (hlost : s.tieLost w = false) (hretraining : (s.wy w).tie.retraining = false)
    (hstate : (s.wy w).tie.state ≠ .down) : Completes (.tieRetrain w) s fun t => Only s t (·.updTie w (fun _ => {})) ∧
      (t.wy w).tie = { (s.wy w).tie with retraining := true, retrainSince := s.now } ∧ (s.Canon → Counted s t (pgTie w + 0x58)) := by
  refine ⟨(s.updTie w fun k => { k with retraining := true, retrainSince := s.now }).count (pgTie w + 0x58) 1,
    congrArg Host.Outcome.next (if_neg (by simp [hlost, hretraining, hstate])), ?_, by simp, fun hs => ?_⟩
  · exact (only_updTie s w _).trans (only_count _ _ _ w fun y => { y with tie := {} })
  · refine Counted.of_spares (t := s.updTie w _) ?_ ?_ rfl
    · exact .updWy s w _
    · exact (Keeps.refl s).updTie.2 hs

theorem kept_flitRetry (hlost : s.tieLost w = false) (hs : s.Canon) :
    Completes (.flitRetry w) s fun t => Counted s t (pgTie w + 0x50) ∧ Only s t id :=
  ⟨s.count (pgTie w + 0x50) 1, congrArg Host.Outcome.next (if_pos (by simp [hlost])), .of_spares (.refl _ s) hs rfl, essence_count s _ _⟩

theorem only_attempt (s : State) (w : WytheIx) : Only s (s.attempt w) (·.updTie w (fun _ => {})) := only_updTie s w _

theorem attempt_tie (s : State) (w : WytheIx) :
    ((s.attempt w).wy w).tie = { (s.wy w).tie with state := .training, lastAttempt := s.now } := by simp [attempt]

/-! What a REJOIN written to TIE_CMD does (R526). -/

theorem rejoinWritten_kept (hlost : s.tieLost w = false) : s.rejoinWritten w = s := if_pos (by simp [hlost])

theorem rejoinWritten_isolated (hlost : s.tieLost w = true) (hcause : (s.wy w).tie.cause = .hostIsolate) :
    s.rejoinWritten w = (s.attempt w).updTie w fun k => { k with rejoinAsked := true } := by
  simp only [rejoinWritten, hlost, hcause, Bool.not_true, Bool.false_eq_true, if_true, if_false]

theorem rejoinWritten_skewed (hlost : s.tieLost w = true) (hcause : (s.wy w).tie.cause ≠ .hostIsolate)
    (hskew : s.now < (s.wy w).tie.skewUntil) : s.rejoinWritten w = s := by
  simp only [rejoinWritten, hlost, hcause, hskew, Bool.not_true, Bool.false_eq_true, if_true, if_false]

theorem rejoinWritten_attempts (hlost : s.tieLost w = true) (hcause : (s.wy w).tie.cause ≠ .hostIsolate)
    (hskew : (s.wy w).tie.skewUntil ≤ s.now) : s.rejoinWritten w = s.attempt w := by
  simp only [rejoinWritten, hlost, hcause, Nat.not_lt.mpr hskew, Bool.not_true, Bool.false_eq_true, if_false]

theorem reached_rejoin {a : Agent} (hreach : s.reach a w = true) (ht : s.rejoinWritten w = t) :
    exec (.rejoin a w) s = .next t := congrArg Host.Outcome.next ((if_pos hreach).trans ht)

end Sys2Proof.Machine.State

namespace Sys2Proof.Machine
open State

/-- Settles O48: a loss and a rejoin are told by what they do to the control of a wythe, the rest by one update of its end. -/
theorem tieLossAndRejoin : Obligations.TieLossAndRejoin := by
  unfold Obligations.TieLossAndRejoin
  intro s w k tie only falls alive
  refine ⟨fun hcan => ⟨fun a hreach => reached_isolate hreach hcan, late_tieLost hcan, fun x y hot diffs => raised_regionSkew hcan⟩,
    fun x y hot diffs => ⟨skewRaised_iff x y hot diffs, fun h => ⟨s, congrArg Host.Outcome.next (if_neg (by simp [h])), rfl⟩⟩,
    fun hlost => ⟨fun a => ?_, ?_, ?_⟩, fun hretraining hearly => ?_, fun hlost hretraining hstate => ?_, fun hretraining htime => ?_,
    fun hlost hs => ?_, fun h0 h1 => ?_, fun a hreach => ⟨fun hlost hcause => ?_, fun hlost hcause hskew => ?_,
      fun hlost hcause hskew => ?_, fun hlost => ?_⟩, fun hdue => ?_, fun hdue => ?_,
    fun hsome htraining => ⟨s.linksUp, rfl, linksUp_linked hsome htraining w⟩,
    fun h => ⟨s, congrArg Host.Outcome.next (linksUp_waits h), rfl⟩⟩
  · exact lost_isolate a hlost
  · exact ⟨s, congrArg Host.Outcome.next (if_pos (by simp [hlost])), rfl⟩
  · exact ⟨s, congrArg Host.Outcome.next (if_neg (by simp [hlost])), rfl⟩
  · exact ⟨s, congrArg Host.Outcome.next (if_neg (by simpa using fun _ => hearly)), rfl⟩
  · exact kept_tieRetrain hlost hretraining hstate
  · exact ⟨_, congrArg Host.Outcome.next (if_pos (by simpa using And.intro hretraining htime)), only_updTie s w _, by simp [tie, k]⟩
  · exact kept_flitRetry hlost hs
  · exact ⟨s.swapSequence, congrArg Host.Outcome.next (if_pos (by simp [h0, h1])), by simp [tie, k, swapSequence_wy],
      by simp [State.ds, swapSequence_wy]⟩
  · exact ⟨_, reached_rejoin hreach (rejoinWritten_isolated hlost hcause), (only_attempt s w).trans (only_updTie _ w _),
      by simp [tie, k, attempt_tie]⟩
  · exact ⟨_, reached_rejoin hreach (rejoinWritten_attempts hlost hcause hskew), only_attempt s w, attempt_tie s w⟩
  · exact ⟨s, reached_rejoin hreach (rejoinWritten_skewed hlost hcause hskew), rfl⟩
  · exact ⟨s, reached_rejoin hreach (rejoinWritten_kept hlost), rfl⟩
  · exact ⟨s.attempt w, congrArg Host.Outcome.next (if_pos hdue), only_attempt s w, attempt_tie s w⟩
  · exact ⟨s, congrArg Host.Outcome.next (if_neg (by simp [hdue])), rfl⟩

end Sys2Proof.Machine

end

/-!
# The state in which an instruction has its effect

The accounting of an issue keeps the stores a core holds and the handlers it is in, and brings its cycle to the issue's
(`kept_fetched`); memory then reads as it did when the products due had landed (`memByte_seenBy_fetched`).
-/

section

namespace Sys2Proof.Machine.State

variable {s t : State} {x : CtxId}

/-! ### What the accounting keeps of a core -/

/-- The stores that a core holds, its cycle and its handlers. -/
def kept (c : Core) := (c.storeQ, c.cycle, c.handlers)
def keptCores (y : Wythe) (i : Nat) := kept (kget {} y.cores i)

theorem alike_kept_updCore (s : State) (w : WytheIx) (i : Nat) {f : Core → Core} (hf : ∀ c, kept (f c) = kept c) :
    Alike keptCores s (s.updCore w i f) := by
  unfold updCore
  refine .updWy s w fun y => funext fun k => ?_
  simp only [keptCores, kget_kupd]
  split
  · next hk => rw [hf, hk]
  · rfl

/-- The same with the change last in a chain. -/
theorem Alike.updCore_kept {w : WytheIx} {i : Nat} (h : Alike keptCores s t) {f : Core → Core} (hf : ∀ c, kept (f c) = kept c) :
    Alike keptCores s (t.updCore w i f) := h.trans (alike_kept_updCore t w i hf)

theorem alike_kept_count (s : State) (a n : Nat) : Alike keptCores s (s.count a n) := .of_wy (by simp)
theorem alike_kept_raiseBit (s : State) (page i : Nat) : Alike keptCores s (s.raiseBit page i) := .of_wy (by simp)
theorem alike_kept_updCtx (s : State) (x : CtxId) (f : Ctx → Ctx) : Alike keptCores s (s.updCtx x f) := .updWy s x.w fun _ => rfl

theorem alike_kept_pmcOne (s : State) (w : WytheIx) (i n : Nat) (c : Option CtxIx) (k : Nat) : Alike keptCores s (s.pmcOne w i n c k) := by
  unfold pmcOne
  extract_lets a s1 s2 left
  have h2 : Alike keptCores s s2 := by
    unfold s2
    split
    · exact (alike_kept_count s _ _).trans (alike_kept_raiseBit _ _ _)
    · exact alike_kept_count s _ _
  split
  · exact h2
  · split <;> exact h2.trans (alike_kept_updCore s2 w i fun _ => rfl)

theorem alike_kept_pmc (s : State) (w : WytheIx) (i code : Nat) (c : Option CtxIx) (k : Nat) : Alike keptCores s (s.pmc w i code c k) :=
  .each (fun s n => .onlyIf s _ (f := fun s => s.pmcOne w i n c k) (alike_kept_pmcOne s w i n c k)) _ s

theorem alike_kept_nameSample (s : State) (w : WytheIx) (i : Nat) (d : SampleDue) (n : CtxIx) (pc : W24) (task : Option TcbIx)
    (next : Bool) : Alike keptCores s (s.nameSample w i d n pc task next) := by
  unfold nameSample
  extract_lets s1 w0 w2 first s2
  have h1 : Alike keptCores s s1 := alike_kept_updCore s w i fun _ => rfl
  have h2 : Alike keptCores s1 s2 := by
    refine Alike.trans ?_ (alike_kept_count _ _ _)
    exact alike_kept_updCore s1 w i fun _ => rfl
  split
  · exact h1.trans (alike_kept_count _ _ _)
  · split
    · exact h1.trans (h2.trans (alike_kept_raiseBit _ _ _))
    · exact h1.trans h2

theorem alike_kept_nameSamples (s : State) (w : WytheIx) (i : Nat) (n : CtxIx) (c : Ctx) (own : Bool) :
    Alike keptCores s (s.nameSamples w i n c own) := by
  unfold nameSamples
  extract_lets s1
  have h1 : Alike keptCores s s1 := by
    unfold s1
    split
    · exact alike_kept_updCore s w i fun _ => rfl
    · exact .refl _ s
  exact h1.trans (.each (fun s _ => .each (fun s d => alike_kept_nameSample s w i d n _ _ _) _ s) _ s1)

theorem alike_kept_takeCycle (s : State) (x : CtxId) (t gap : Nat) : Alike keptCores (s.runTo x.core t) (s.takeCycle x t gap) := by
  unfold takeCycle
  refine Alike.trans ?_ (alike_kept_pmc _ _ _ _ _ _)
  refine Alike.trans ?_ (.onlyIf _ _ (f := fun s => (s.count (pgCore x.w x.core.ix + 0x50) gap).pmc x.w x.core.ix 0x05 none gap) ?_)
  · exact alike_kept_updCore _ _ _ fun _ => rfl
  · exact (alike_kept_count _ _ _).trans (alike_kept_pmc _ _ _ _ _ _)

theorem alike_kept_countAlone (s : State) (i : Issue) (half : Option Half) :
    Alike keptCores (s.runTo i.id.core (s.issueCycle i)) (s.countAlone i half) := by
  unfold countAlone
  refine Alike.trans ?_ ((alike_kept_pmc _ _ _ _ _ _).trans (alike_kept_pmc _ _ _ _ _ _))
  refine Alike.trans ?_ (alike_kept_count _ _ _)
  refine Alike.updCore_kept ?_ fun _ => rfl
  exact (alike_kept_takeCycle s i.id (s.issueCycle i) i.gap).trans (alike_kept_nameSamples _ _ _ _ _ _)

theorem alike_kept_countPair (s : State) (i : Issue) : Alike keptCores s (s.countPair i) := by
  unfold countPair
  refine Alike.trans ?_ ((alike_kept_pmc _ _ _ _ _ _).trans (alike_kept_pmc _ _ _ _ _ _))
  refine Alike.trans ?_ (alike_kept_count _ _ _)
  exact (alike_kept_nameSamples s _ _ _ _ _).updCore_kept fun _ => rfl

theorem alike_kept_waitingEnds (s : State) (x : CtxId) (t : Nat) : Alike keptCores s (s.waitingEnds x t) := by
  unfold waitingEnds
  split
  · exact .refl _ s
  · exact .updWy s x.w fun _ => rfl

theorem alike_kept_fetchCheck (s : State) (i : Issue) (pc : Nat) : Alike keptCores s (s.fetchCheck i pc) := by
  unfold fetchCheck
  split
  · exact .refl _ s
  · split
    · exact .refl _ s
    · exact alike_kept_count s _ _
    · exact .of_wy (by simp [bankUncorrectable])

theorem alike_kept_cacheLine (s : State) (x : CtxId) (pc : Nat) : Alike keptCores s (s.cacheLine x pc) := by
  unfold cacheLine
  extract_lets i l k set keep
  split
  · exact .refl _ s
  · refine Alike.trans ?_ (alike_kept_pmc _ _ _ _ _ _)
    exact alike_kept_updCore s _ _ fun _ => rfl

theorem Alike.kept_core (h : Alike keptCores s t) (w : WytheIx) (i : Nat) : kept (t.core w i) = kept (s.core w i) := congrFun (h w) i

/-- An instruction has its effect in the cycle of its issue, with the stores and handlers that its core had. -/
theorem kept_fetched (s : State) (i : Issue) (half : Option Half) :
    kept ((s.fetched i half).core i.id.w i.id.core.ix) =
      ((s.core i.id.w i.id.core.ix).storeQ, s.issueCycle i, (s.core i.id.w i.id.core.ix).handlers) := by
  have hissue : kept ((s.countIssue i half).core i.id.w i.id.core.ix) =
      ((s.core i.id.w i.id.core.ix).storeQ, s.issueCycle i, (s.core i.id.w i.id.core.ix).handlers) := by
    unfold countIssue
    split
    · next hpair =>
      rw [(alike_kept_countPair s i).kept_core, issueCycle, if_pos hpair]
      rfl
    · rw [(alike_kept_countAlone s i half).kept_core]
      have hown : i.id.core.w = i.id.w := rfl
      simp only [runTo, hown, core_updCore_same, kept]
  have hafter : Alike keptCores (s.countIssue i half) (s.fetched i half) :=
    (((alike_kept_waitingEnds _ _ _).trans (alike_kept_updCtx _ _ _)).trans (alike_kept_fetchCheck _ i _)).trans (alike_kept_cacheLine _ _ _)
  rw [hafter.kept_core, hissue]

end Sys2Proof.Machine.State

end

/-!
# Memory as two like states see it

`Twin x s t`: nothing that context `x` can see of its registers and of memory differs. The stores that its core holds, laid
over both, leave them so.
-/

section

namespace Sys2Proof.Machine.State

variable {s t : State} {x : CtxId}

namespace Quiet

theorem symm (h : Quiet s t x) : Quiet t s x :=
  ⟨⟨h.1.1.symm, h.1.2.symm⟩, fun w => ⟨(h.wy w).symm, fun c => (h.course w c).symm, fun k => (h.core w k).symm,
    fun y _ hy => (h.ctx y hy).symm⟩⟩

theorem updCore_both (h : Quiet s t x) (w : WytheIx) (i : Nat) {f : Core → Core}
    (hf : ∀ c c', seen c' = seen c → seen (f c') = seen (f c)) : Quiet (s.updCore w i f) (t.updCore w i f) x := by
  refine ⟨⟨by simpa using h.1.1, by simpa using h.1.2⟩, fun v => ⟨?_, fun c => by simpa using h.course v c, fun k => ?_,
    fun y hv hy => by simpa using h.ctx y hy⟩⟩
  · simp only [wy_updCore]
    split
    · exact h.wy w
    · exact h.wy v
  · simp only [State.core, wy_updCore]
    split
    · next hv =>
      subst hv
      simp only [kget_kupd]
      split
      · exact hf _ _ (h.core v i)
      · exact h.core v k
    · exact h.core v k

theorem updCourse_both (h : Quiet s t x) (w : WytheIx) (i : Nat) {f : Course → Course}
    (hf : ∀ c c', plain c' = plain c → plain (f c') = plain (f c)) : Quiet (s.updCourse w i f) (t.updCourse w i f) x := by
  refine ⟨⟨by simpa using h.1.1, by simpa using h.1.2⟩, fun v => ⟨?_, fun c => ?_, fun k => by simpa using h.core v k,
    fun y hv hy => by simpa using h.ctx y hy⟩⟩
  · simp only [wy_updCourse]
    split
    · exact h.wy w
    · exact h.wy v
  · simp only [State.course, wy_updCourse]
    split
    · next hv =>
      subst hv
      simp only [kget_kupd]
      split
      · exact hf _ _ (h.course v i)
      · exact h.course v c
    · exact h.course v c

theorem updCtx_both (h : Quiet s t x) (f g : Ctx → Ctx) : Quiet (s.updCtx x f) (t.updCtx x g) x :=
  ((quiet_updCtx s x f).symm.trans h).trans (quiet_updCtx t x g)

end Quiet

/-- Context `x` sees the same registers and the same memory. -/
def Twin (x : CtxId) (s t : State) : Prop := Quiet s t x ∧ t.ctx x = s.ctx x

namespace Twin

theorem memByte (h : Twin x s t) (a : Nat) : t.memByte x a = s.memByte x a := h.1.memByte x h.2 a

theorem updCtx (h : Twin x s t) (f : Ctx → Ctx) : Twin x (s.updCtx x f) (t.updCtx x f) :=
  ⟨h.1.updCtx_both f f, by simp only [ctx_updCtx_same, h.2]⟩

theorem updCore (h : Twin x s t) (w : WytheIx) (i : Nat) {f : Core → Core} (hf : ∀ c c', seen c' = seen c → seen (f c') = seen (f c)) :
    Twin x (s.updCore w i f) (t.updCore w i f) := ⟨h.1.updCore_both w i hf, by simpa using h.2⟩

theorem setBankByte (h : Twin x s t) (w : WytheIx) (c o : Nat) (v : Byte) : Twin x (s.setBankByte w c o v) (t.setBankByte w c o v) := by
  refine ⟨h.1.updCourse_both w c fun c c' hc => ?_, by simpa [State.setBankByte] using h.2⟩
  simp only [plain, Course.mk.injEq] at hc ⊢
  simp [hc]

theorem setMemByte (h : Twin x s t) (a : Nat) (v : Byte) : Twin x (s.setMemByte x a v) (t.setMemByte x a v) := by
  unfold State.setMemByte
  rw [h.2]
  split
  · refine h.updCore _ _ fun c c' hc => ?_
    simp only [seen, Prod.mk.injEq] at hc ⊢
    simp [hc]
  · refine h.updCore _ _ fun c c' hc => ?_
    simp only [seen, Prod.mk.injEq] at hc ⊢
    simp [hc]
  · exact h.updCtx _
  · rw [h.1.bankView]
    split
    · exact h.setBankByte _ _ _ _
    · exact h
  · rw [h.1.bankView]
    split
    · exact h.setBankByte _ _ _ _
    · exact h
  · exact h

theorem each {α : Type} {f : State → α → State} (hf : ∀ s t e, Twin x s t → Twin x (f s e) (f t e)) (l : List α) {s t : State}
    (h : Twin x s t) : Twin x (s.each l f) (t.each l f) := by
  induction l generalizing s t with
  | nil => exact h
  | cons e l ih => exact ih (hf s t e h)

theorem setMemValue (h : Twin x s t) (a size v : Nat) : Twin x (s.setMemValue x a size v) (t.setMemValue x a size v) :=
  .each (fun _ _ e h => h.setMemByte e.1 e.2) _ h

theorem withSr (h : Twin x s t) (sr : W16) {f : State → State} (hf : ∀ s t, Twin x s t → Twin x (f s) (f t)) :
    Twin x (s.withSr x sr f) (t.withSr x sr f) := by
  unfold State.withSr
  rw [h.2]
  exact (hf _ _ (h.updCtx _)).updCtx _

/-- The stores that the core holds are laid over both (R193). -/
theorem seenBy (h : Twin x s t) (hq : (t.core x.w x.core.ix).storeQ = (s.core x.w x.core.ix).storeQ) : Twin x (s.seenBy x) (t.seenBy x) := by
  unfold State.seenBy
  rw [hq]
  exact .each (fun s t q h => h.withSr q.sr fun _ _ h => h.setMemValue _ _ _) _ h

end Twin

/-- The instruction sees memory as its context does once the products due have landed. -/
theorem memByte_seenBy_fetched (s : State) (i : Issue) (half : Option Half) (a : Nat) :
    ((s.fetched i half).seenBy i.id).memByte i.id a = ((s.ripe i).seenBy i.id).memByte i.id a := by
  have hripe : Quiet (s.ripe i) (s.fetched i half) i.id := (quiet_updCtx s i.id _).symm.trans (quiet_fetched s i half)
  have hctx : (s.fetched i half).ctx i.id = (s.ripe i).ctx i.id := by simp [ripe]
  have hkept : ((s.fetched i half).core i.id.w i.id.core.ix).storeQ = (s.core i.id.w i.id.core.ix).storeQ :=
    congrArg Prod.fst (kept_fetched s i half)
  refine (Twin.seenBy ⟨hripe, hctx⟩ ?_).memByte a
  rw [hkept]
  simp [ripe, core]

theorem memBytes_seenBy_fetched (s : State) (i : Issue) (half : Option Half) (a n : Nat) :
    ((s.fetched i half).seenBy i.id).memBytes i.id a n = ((s.ripe i).seenBy i.id).memBytes i.id a n := by
  simp only [memBytes, memByte_seenBy_fetched]

/-! ### Why an access faults -/

theorem areaView_fetched (s : State) (i : Issue) (half : Option Half) (ar : Area) :
    (s.fetched i half).areaView i.id ar = s.areaView i.id ar := by
  have hq := quiet_fetched s i half
  have hm : ∀ e, (s.fetched i half).marching i.id.w e = s.marching i.id.w e := fun e => by simp only [marching, hq.marches]
  cases ar <;> simp only [areaView, hq.bankView, hm]

theorem areaOf_fetched (s : State) (i : Issue) (half : Option Half) (a : Nat) :
    areaOf i.id ((s.fetched i half).ctx i.id).sr a = areaOf i.id (s.ctx i.id).sr a := by simp

theorem accessFault_fetched (s : State) (i : Issue) (half : Option Half) (a size : Nat) :
    (s.fetched i half).accessFault i.id a size = s.accessFault i.id a size := by
  have htouches : (s.fetched i half).touchesDevice i.id a size = s.touchesDevice i.id a size := by
    simp only [touchesDevice, areaOf_fetched]
  have hpart : ∀ p, (s.fetched i half).partFault i.id p size = s.partFault i.id p size := fun p => by
    simp only [partFault, areaOf_fetched, areaView_fetched]
  simp only [accessFault, htouches, hpart]

end Sys2Proof.Machine.State

end

/-!
# Verdicts

A VERD that is ready either hands its verdict over (`verd_done`) or, with an empty window, faults.
-/

section

namespace Sys2Proof.Machine.State

variable {s t u : State} {x : CtxId}

/-! ### What landing leaves -/

theorem landFold_holds (l : List Product) (c : Ctx) : (l.foldl landOne c).looks = c.looks ∧ (l.foldl landOne c).task = c.task := by
  induction l generalizing c with
  | nil => exact ⟨rfl, rfl⟩
  | cons p l ih =>
    have hone : (landOne c p).looks = c.looks ∧ (landOne c p).task = c.task := by
      unfold landOne Ctx.setX
      split <;> exact ⟨rfl, rfl⟩
    exact ⟨(ih _).1.trans hone.1, (ih _).2.trans hone.2⟩

theorem settleCtx_holds (n : Nat) (c : Ctx) : (settleCtx n c).looks = c.looks ∧ (settleCtx n c).task = c.task := by
  have hfold := landFold_holds (c.products.filter fun p => decide (p.lands ≤ n))
    { c with products := c.products.filter fun p => !decide (p.lands ≤ n) }
  unfold settleCtx
  dsimp only
  split
  · split
    · exact hfold
    · exact hfold
  · exact hfold

@[simp] theorem settled_looks (s : State) (i : Issue) : (s.settled i).looks = (s.ctx i.id).looks := (settleCtx_holds _ _).1
@[simp] theorem settled_task (s : State) (i : Issue) : (s.settled i).task = (s.ctx i.id).task := (settleCtx_holds _ _).2

/-! ### The descriptor is read -/

theorem accessBytes_subset {a m n : Nat} (hm : m ≠ 1) (hn : n ≠ 1) (h : m ≤ n) : ∀ b ∈ accessBytes a m, b ∈ accessBytes a n := by
  intro b hb
  simp only [accessBytes, hm, hn, if_false, List.mem_map, List.mem_range] at hb ⊢
  obtain ⟨k, hk, rfl⟩ := hb
  exact ⟨k, by omega, rfl⟩

/-- A block that waits for no lookup has no part that does. -/
theorem areaAwaited_part {c c' : Ctx} {a m n : Nat} (hc : c'.looks = c.looks) (hm : m ≠ 1) (hn : n ≠ 1) (h : m ≤ n)
    (hno : areaAwaited c a n = false) : areaAwaited c' a m = false := by
  simp only [areaAwaited, List.any_eq_false] at hno ⊢
  intro b hb
  rw [hc]
  exact hno b (accessBytes_subset hm hn h b hb)

/-- A sound byte is read without a note. -/
theorem accessCheck_sound {p : Nat} (hfault : s.accessFault x p 1 = none) (hon : s.areaView x (areaOf x (s.ctx x).sr p) = .on) :
    s.accessCheck x p 1 .good = (none, s) := by
  have hnotes : s.accessNotes x p 1 = s := by simp [accessNotes, accessParts, hon]
  simp only [accessCheck, hfault, hnotes, accessEcc]
  split <;> rfl

/-! ### A verdict is handed over -/

def verdictOf (k : VerdKind) (b : Bytes) : Verdict :=
  match k with
  | .forward => .forward b
  | .drop => .drop
  | .multi => .multi b
  | .hold => .hold

/-- The verdict goes to the Collator, and the window of the context will be empty. -/
def verdSent (s : State) (x : CtxId) (g : SlugRec) (v : Verdict) : State :=
  ((s.updColl x.w (fun q => { q with verdicts := q.verdicts ++ [⟨some (g.slot, g.serial), v, w32 (beAt g.bytes 0x84 4)⟩] })).updCtx x
    (fun c => { c with slugEnds := some (c.slugEnds.getD ((s.core x.w x.core.ix).cycle + 5)) })).pmc x.w x.core.ix 0x16 (some x.x) 1

theorem verd_done {k : VerdKind} {n : Fin 8} {ecc : EccReport} {g : SlugRec} {len : Nat} (hslug : (s.ctx x).slug = some g)
    (hlen : (s.seenBy x).verdLen x k (s.ctx x).a[n.val].toNat = len) (hawaits : areaAwaited (s.ctx x) (s.ctx x).a[n.val].toNat len = false)
    (hsound : ∀ j < len, s.accessFault x (((s.ctx x).a[n.val].toNat + j) % 0x1000000) 1 = none ∧
      s.areaView x (areaOf x (s.ctx x).sr (((s.ctx x).a[n.val].toNat + j) % 0x1000000)) = .on)
    (hecc : len ≠ 0 → ecc = .good) :
    s.verd x ecc k n = .done (s.verdSent x g (verdictOf k ((s.seenBy x).memBytes x (s.ctx x).a[n.val].toNat len))) := by
  have hnone : ((List.range len).map fun j => ((s.ctx x).a[n.val].toNat + j) % 0x1000000).findSome? (fun p => s.accessFault x p 1) = none := by
    simpa using fun j hj => (hsound j hj).1
  have hfind : ((List.range len).map fun j => ((s.ctx x).a[n.val].toNat + j) % 0x1000000).find?
      (fun p => s.areaView x (areaOf x (s.ctx x).sr p) != .on) = none := by
    simpa using fun j hj => (hsound j hj).2
  have hcheck : (if len = 0 then (none, s) else s.accessCheck x (s.ctx x).a[n.val].toNat 1 ecc) = (none, s) := by
    split
    · rfl
    · next hpos =>
      have hfirst := hsound 0 (by omega)
      have hmod : ((s.ctx x).a[n.val].toNat + 0) % 0x1000000 = (s.ctx x).a[n.val].toNat := by omega
      rw [hmod] at hfirst
      rw [hecc hpos]
      exact accessCheck_sound hfirst.1 hfirst.2
  unfold verd
  simp only [hslug, hlen, hawaits, hnone, hfind, hcheck, Option.getD_none, Bool.false_eq_true, if_false]
  cases k <;> rfl

theorem verd_empty {k : VerdKind} {n : Fin 8} {ecc : EccReport} (hslug : (s.ctx x).slug = none) :
    s.verd x ecc k n = .fault 0x0D (s.ctx x).pcx.toNat s := by
  simp only [verd, hslug]

/-- The verdict of an instruction that is ready, by what `s` shows. -/
theorem verd_fetched {i : Issue} {k : VerdKind} {n : Fin 8} {g : SlugRec} {len : Nat} (hslug : (s.settled i).slug = some g)
    (hlen : ((s.ripe i).seenBy i.id).verdLen i.id k (s.ctx i.id).a[n.val].toNat = len)
    (hawaits : areaAwaited (s.ctx i.id) (s.ctx i.id).a[n.val].toNat len = false)
    (hsound : ∀ j < len, s.accessFault i.id (((s.ctx i.id).a[n.val].toNat + j) % 0x1000000) 1 = none ∧
      s.areaView i.id (areaOf i.id (s.ctx i.id).sr (((s.ctx i.id).a[n.val].toNat + j) % 0x1000000)) = .on)
    (hecc : len ≠ 0 → i.dataEcc = .good) :
    (s.fetched i).verd i.id i.dataEcc k n = .done ((s.fetched i).verdSent i.id g
      (verdictOf k (((s.ripe i).seenBy i.id).memBytes i.id (s.ctx i.id).a[n.val].toNat len))) := by
  have hlen' : ((s.fetched i).seenBy i.id).verdLen i.id k ((s.fetched i).ctx i.id).a[n.val].toNat = len := by
    rw [← hlen]
    cases k <;> simp [verdLen, memByte_seenBy_fetched]
  rw [verd_done (s := s.fetched i) (g := g) (len := len) (by rw [fetched_ctx, hslug]) hlen' ?_ ?_ hecc]
  · simp [memBytes_seenBy_fetched]
  · simpa [areaAwaited] using hawaits
  · intro j hj
    simpa [accessFault_fetched, areaView_fetched] using hsound j hj

theorem Elsewhere.trans (h : Elsewhere s t x) (g : Elsewhere t u x) : Elsewhere s u x := by
  refine ⟨fun y hy => ⟨(g.1 y hy).1.trans (h.1 y hy).1, fun a => ((g.1 y hy).2 a).trans ((h.1 y hy).2 a)⟩, fun w k => ?_⟩
  obtain ⟨h1, h2, h3, h4⟩ := h.2 w k
  obtain ⟨g1, g2, g3, g4⟩ := g.2 w k
  exact ⟨g1.trans h1, g2.trans h2, g3.trans h3, g4.trans h4⟩

theorem elsewhere_updColl (s : State) (x : CtxId) (w : WytheIx) (f : Collator → Collator) : Elsewhere s (s.updColl w f) x := by
  refine ⟨fun y _ => ⟨by simp, fun a => ?_⟩, fun w k => by simp⟩
  have hmarches : ∀ v, ((s.updColl w f).wy v).marches = (s.wy v).marches := fun v => by
    rw [wy_updColl]
    split
    · next h => rw [h]
    · rfl
  have hmarching : ∀ v c, (s.updColl w f).marching v c = s.marching v c := fun v c => by simp only [marching, hmarches]
  have hview : ∀ v c b, (s.updColl w f).bankView v c b = s.bankView v c b := fun v c b => by
    simp only [bankView, hmarching, updColl_course]
  have hbyte : ∀ v c o, (s.updColl w f).bankByte v c o = s.bankByte v c o := fun v c o => by
    simp only [bankByte, updColl_course]
  simp only [State.memByte, hview, hbyte, updColl_ctx, updColl_core]

theorem Quiet.coll (h : Quiet s t x) (w : WytheIx) : (t.wy w).coll = (s.wy w).coll := congrArg (·.coll) (h.wy w)

/-- A ready VERD whose descriptor is sound hands its verdict over. -/
theorem sent_verd {i : Issue} {k : VerdKind} {n : Fin 8} {g : SlugRec} {v : Verdict}
    (hready : s.Ready i (verdReads k n) 4 none (verdReads k n))
    (hverd : (s.fetched i).verd i.id i.dataEcc k n = .done ((s.fetched i).verdSent i.id g v)) :
    Completes (.verd i k n) s (fun t =>
      (t.wy i.id.w).coll.verdicts = (s.wy i.id.w).coll.verdicts ++ [⟨some (g.slot, g.serial), v, w32 (beAt g.bytes 0x84 4)⟩] ∧
      RegsOnly s t i 4 (fun c => { c with slugEnds := some (c.slugEnds.getD (s.issueCycle i + 5)) })) := by
  have hfetched := quiet_fetched s i none
  have hcycle : ((s.fetched i).core i.id.w i.id.core.ix).cycle = s.issueCycle i := congrArg (·.2.1) (kept_fetched s i none)
  have hissue := issue_done s (long := true) (f := fun s => s.verd i.id i.dataEcc k n) hready hverd
  refine ⟨_, congrArg Host.Outcome.next hissue, ?_⟩
  unfold verdSent
  generalize hu : (s.fetched i).updColl i.id.w _ = u
  have hsent : ∀ f p, Quiet u ((((u.updCtx i.id f).pmc i.id.w i.id.core.ix 0x16 (some i.id.x) 1).updCtx i.id p).stepEnds i.id) i.id := fun f p =>
    (((quiet_updCtx u i.id f).trans (quiet_pmc _ _ _ _ _ _ _)).trans (quiet_updCtx _ i.id p)).trans (quiet_stepEnds _ _)
  refine ⟨?_, ?_, ?_⟩
  · rw [(hsent _ _).coll, ← hu, wy_updColl_same]
    exact congrArg (·.verdicts ++ _) (hfetched.coll i.id.w)
  · have hctx : u.ctx i.id = s.settled i := by rw [← hu]; simp
    unfold Advanced
    rw [stepEnds_ctx]
    · simp [hctx, hcycle]
    · simpa [hctx] using mayIssue_running hready.1
  · exact (hfetched.elsewhere.trans (hu ▸ elsewhere_updColl _ _ _ _)).trans (hsent _ _).elsewhere

/-! ### A fault -/

section
variable {a : Nat}

theorem spares_pmc (s : State) (w : WytheIx) (i code : Nat) (c : Option CtxIx) (k : Nat) (ha : pageBase a ≠ pgPerf w i) :
    Spares a s (s.pmc w i code c k) := by
  have hpage : pgPerf w i % 0x1000 = 0 := by unfold pgPerf wyBase; omega
  refine .each _ s fun s n hn => .onlyIf s _ (f := fun s => s.pmcOne w i n c k) ?_
  have hcount : Spares a s (s.count (pmcCtr w i n) k) := by
    refine .count s k ?_
    have hn : n < 8 := List.mem_range.mp hn
    rw [pmcCtr, Nat.add_assoc]
    exact pageBase_ne_of_page hpage (by omega) ha
  have hraise : ∀ s : State, Spares a s (s.raiseBit (pgPerf w i) 0) := fun s =>
    .raiseBit s 0 (by rw [pageBase_page_add hpage (by decide)]; exact ha.symm)
  unfold pmcOne
  extract_lets p s1 s2 left
  have h2 : Spares a s s2 := by
    unfold s2
    split
    · exact hcount.trans (hraise _)
    · exact hcount
  split
  · exact h2
  · split
    · exact h2.trans (.updWy s2 w _)
    · exact h2.trans (.updWy s2 w _)

theorem spares_setCtxState_faulted (s : State) (x : CtxId) : Spares a s (s.setCtxState x .faulted) := by
  unfold setCtxState
  extract_lets s1 s2 s3 s4
  have h2 : Spares a s s2 := by
    unfold s2
    split
    · exact (Spares.updWy s x.w _).trans (.updWy _ x.w _)
    · exact .updWy s x.w _
  have h3 : Spares a s2 s3 := .onlyIf s2 _ (f := fun s => s.interrupt x.w x.core.ix 4) (.updWy s2 x.w _)
  exact h2.trans (h3.trans (.onlyIf s3 _ (f := fun s => s.unquiet x.w x.c.val) (.updWy s3 x.w _)))

end

theorem quiet_recordFault (s : State) (y : CtxId) (x : CtxId) (code addr : Nat) : Quiet s (s.recordFault x code addr) y := by
  unfold recordFault
  exact (((quiet_wr s y _ _).trans (quiet_wr _ y _ _)).trans (quiet_count _ y _ _)).trans (quiet_pmc _ y _ _ _ _ _)

theorem quiet_killsAfter (s : State) (y : CtxId) (x : CtxId) (n : Nat) : Quiet s (s.killsAfter x n) y := by
  unfold killsAfter
  exact quiet_updCore s y _ _ _ fun _ => rfl

/-- The first fault of a context, recorded and not the core's end (R170). -/
def faultOnce (s : State) (x : CtxId) (code addr : Nat) : State :=
  (((s.recordFault x code addr).updCtx x (fun c => { c with stepping := false, stopDue := false })).setCtxState x .faulted).killsAfter x 4

theorem fault_once {code addr : Nat} (h : s.FaultsOnce x) : s.fault x code addr = s.faultOnce x code addr := by
  have hno : ¬ (x.x = 0 ∧ (s.core x.w x.core.ix).inFault = true) := fun hyes => by simp [h hyes.1] at hyes
  exact if_neg hno

theorem quiet_faultOnce (s : State) (x : CtxId) (code addr : Nat) : Quiet s (s.faultOnce x code addr) x :=
  (((quiet_recordFault s x x code addr).trans (quiet_updCtx _ x _)).trans (quiet_setCtxState _ x _)).trans (quiet_killsAfter _ x x 4)

theorem faultOnce_ctx (s : State) (x : CtxId) (code addr : Nat) :
    (s.faultOnce x code addr).ctx x = { s.ctx x with stepping := false, stopDue := false, state := .faulted } := by
  simp [faultOnce, recordFault, killsAfter]

/-- A fault records its code and its address before all that it counts. -/
theorem spares_faultOnce (s : State) (x : CtxId) (code addr : Nat) : Spares (pgCore x.w x.core.ix + 0x24)
    ((s.wr (pgCore x.w x.core.ix + 0x20) (w32 (at' code 24 + s.masterId x))).wr (pgCore x.w x.core.ix + 0x24) (w32 addr))
    (s.faultOnce x code addr) := by
  have hperf : pageBase (pgCore x.w x.core.ix + 0x24) ≠ pgPerf x.w x.core.ix := by
    rw [pageBase_page_add (by unfold pgCore wyBase; omega) (by decide)]
    unfold pgCore pgPerf
    omega
  unfold faultOnce recordFault killsAfter updCore updCtx
  refine Spares.trans ?_ (.updWy _ x.w _)
  refine Spares.trans ?_ (spares_setCtxState_faulted _ x)
  refine Spares.trans ?_ (.updWy _ x.w _)
  refine Spares.trans ?_ (spares_pmc _ _ _ _ _ _ hperf)
  exact .count _ 1 (by omega)

theorem faultOnce_rd (x : CtxId) (code addr : Nat) (hs : s.Canon) :
    (s.faultOnce x code addr).rd (pgCore x.w x.core.ix + 0x20) = w32 (at' code 24 + s.masterId x) ∧
      (s.faultOnce x code addr).rd (pgCore x.w x.core.ix + 0x24) = w32 addr := by
  have hpage : pgCore x.w x.core.ix % 0x1000 = 0 := by unfold pgCore wyBase; omega
  have hspares := (spares_faultOnce s x code addr).2
  constructor
  · rw [hspares _ ((pageBase_page_add hpage (by decide)).trans (pageBase_page_add hpage (by decide)).symm), rd_wr_ne _ _ (by omega),
      rd_wr_same _ _ _ hs.1]
  · rw [hspares _ rfl, rd_wr_same _ _ _ ((Keeps.refl s).wr.2 hs).1]

/-- A ready instruction whose effect is a fault faults once, on its own context alone. -/
theorem issue_faulted {i : Issue} {long : Bool} {reads addrs : List Reg} {f : State → Effect} {half : Option Half} {code addr : Nat}
    (hready : s.Ready i reads (if long then 4 else 2) half addrs) (hf : f (s.fetched i half) = .fault code addr (s.fetched i half))
    (hs : s.Canon) (honce : s.FaultsOnce i.id) :
    Faulted s (s.issue i long reads f half addrs) i code addr ∧ Quiet s (s.issue i long reads f half addrs) i.id := by
  have hhandlers : ((s.fetched i half).core i.id.w i.id.core.ix).handlers = (s.core i.id.w i.id.core.ix).handlers :=
    congrArg (·.2.2) (kept_fetched s i half)
  have honce' : (s.fetched i half).FaultsOnce i.id := by
    simpa only [FaultsOnce, Core.inFault, hhandlers] using honce
  have hcanon : (s.fetched i half).Canon := ((Keeps.refl s).accounting.fetchCheck.cacheLine).2 hs
  have hmaster : (s.fetched i half).masterId i.id = s.masterId i.id := by
    simp only [masterId, fetched_ctx, settled_task]
  rw [issue_ready s hready, hf]
  dsimp only
  rw [fault_once honce']
  obtain ⟨hinfo, haddr⟩ := faultOnce_rd i.id code addr hcanon
  refine ⟨⟨by rw [faultOnce_ctx], by rw [faultOnce_ctx, fetched_ctx, settled_pcx], by rw [hinfo, hmaster], haddr⟩,
    (quiet_fetched s i half).trans (quiet_faultOnce _ _ _ _)⟩

end Sys2Proof.Machine.State

namespace Sys2Proof.Machine
open State

/-- Settles O14: a verdict reads its descriptor in the state its issue leaves, where memory and the checks are those of `s`. -/
theorem verdicts : Obligations.Verdicts := by
  unfold Obligations.Verdicts
  intro s i n x a m sent
  refine ⟨fun hready => ⟨fun g hg => ?_, fun g hg => ?_⟩, fun hready hawaits hsound hecc g hg => ?_,
    fun hready hawaits hsound hecc hcount g hg => ?_, fun hready hempty hs honce => ?_⟩
  · exact sent_verd hready (verd_fetched (k := .drop) (len := 0) hg rfl rfl (by simp) (by simp))
  · exact sent_verd hready (verd_fetched (k := .hold) (len := 0) hg rfl rfl (by simp) (by simp))
  · exact sent_verd hready (verd_fetched (k := .forward) (len := 32) hg rfl hawaits hsound fun _ => hecc)
  · have hlen : m.verdLen i.id .multi a = 36 + 4 * (m.memByte x ((a + 32) % 0x1000000)).toNat := by
      rw [verdLen, Nat.min_eq_right hcount]
    exact sent_verd hready (verd_fetched (k := .multi) hg hlen (areaAwaited_part rfl (by omega) (by omega) (by omega) hawaits)
      (fun j hj => hsound j (by omega)) fun _ => hecc)
  · have hslug : ((s.fetched i).ctx i.id).slug = none := by rw [fetched_ctx, hempty]
    have hfault : (s.fetched i).verd i.id i.dataEcc .drop n = .fault 0x0D (s.ctx x).pcx.toNat (s.fetched i) :=
      (verd_empty hslug).trans (by rw [fetched_ctx, settled_pcx])
    obtain ⟨hfaulted, hquiet⟩ := issue_faulted (long := true) (f := fun s => s.verd i.id i.dataEcc .drop n) hready hfault hs honce
    exact ⟨_, rfl, hfaulted, hquiet.coll x.w⟩

end Sys2Proof.Machine

end

/-!
# Tools for chains of updates

What a pass over a list establishes for its elements, and the copies of the forme registers read entry by entry.
-/

section

namespace Sys2Proof.Machine

theorem sget_filter_key {α : Type} (d : Nat → α) (p : Nat → Bool) (m : SMap α) (k : Nat) :
    sget d (m.filter (fun e => p e.1)) k = if p k then sget d m k else d k := by
  induction m with
  | nil => simp [sget]
  | cons e r ih =>
    obtain ⟨k', v⟩ := e
    by_cases hk : k = k'
    · subst hk
      by_cases hp : p k = true
      · simp [hp, sget]
      · simp [hp, ih]
    · by_cases hp : p k' = true
      · simp [hp, sget, hk, ih]
      · simp [hp, sget, hk, ih]

theorem sget_append_left {α : Type} {d : Nat → α} {a b : SMap α} {k : Nat} (hb : ∀ e ∈ b, e.1 ≠ k) : sget d (a ++ b) k = sget d a k := by
  induction a with
  | nil =>
    induction b with
    | nil => rfl
    | cons e r ih =>
      obtain ⟨k', v⟩ := e
      have hne : k ≠ k' := fun h => hb (k', v) (by simp) h.symm
      simpa [sget, hne] using ih fun x hx => hb x (by simp [hx])
  | cons e r ih =>
    obtain ⟨k', v⟩ := e
    simp only [List.cons_append, sget, ih]

namespace State

variable {s t u : State}

/-- A pass establishes for an element what its own step establishes and the other steps keep, where `I` holds throughout. -/
theorem each_of_mem {α : Type} {I P : State → Prop} {f : State → α → State} {l : List α} {e : α} (he : e ∈ l) (hI : I s)
    (hstep : ∀ s x, I s → I (f s x)) (hest : ∀ s, I s → P (f s e)) (hkeep : ∀ s x, I s → P s → P (f s x)) : P (s.each l f) := by
  induction l generalizing s with
  | nil => simp at he
  | cons x l ih =>
    rcases List.mem_cons.mp he with rfl | hmem
    · exact (each_induct (fun t => I t ∧ P t) f (fun t y ht => ⟨hstep t y ht.1, hkeep t y ht.1 ht.2⟩) l (f s e)
        ⟨hstep s e hI, hest s hI⟩).2
    · exact ih hmem (hstep s x hI)

/-- What `view` shows of the state stands as it was. -/
def Same {α : Type} (view : State → α) (s t : State) : Prop := view t = view s

namespace Same
variable {α : Type} {view : State → α}

theorem refl (s : State) : Same view s s := rfl
theorem trans (h₁ : Same view s t) (h₂ : Same view t u) : Same view s u := Eq.trans h₂ h₁
theorem each {β : Type} {f : State → β → State} (hf : ∀ s e, Same view s (f s e)) (l : List β) (s : State) : Same view s (s.each l f) :=
  each_induct (fun t => Same view s t) f (fun t e ht => ht.trans (hf t e)) l s (refl s)
theorem onlyIf {f : State → State} (b : Bool) (hf : Same view s (f s)) : Same view s (s.onlyIf b f) := by
  unfold State.onlyIf
  split
  · exact hf
  · exact refl s
theorem ite {c : Prop} [Decidable c] (h₁ : Same view s t) (h₂ : Same view s u) : Same view s (if c then t else u) := by
  split
  · exact h₁
  · exact h₂
end Same

/-! ### The copies of the forme registers -/

/-- An operation on the joined wythes replaces the words that it reaches (R524). -/
theorem sget_takeCopy (s : State) (old new : SMap W32) {a : Nat} (ha : a < 0x1000000 ∨ s.tieCut = false) :
    sget regReset (s.takeCopy old new) a = sget regReset new a := by
  unfold takeCopy
  split
  · next hcut =>
    have hlow : a < 0x1000000 := by simpa [hcut] using ha
    rw [sget_append_left, sget_filter_key regReset (fun k => decide (k < 0x1000000)) new a]
    · simp [hlow]
    · intro e he
      have hhigh : 0x1000000 ≤ e.1 := by simpa using (List.mem_filter.mp he).2
      omega
  · rfl

end State

end Sys2Proof.Machine

end

/-!
# The commands of the tables

A command that a table window executes, and with it the end of a session, changes the tables of its wythe alone
(`InTables`).
-/

section

namespace Sys2Proof.Machine.State

/-- Nothing but the tables of `w`, registers and counters has changed. -/
abbrev InTables (w : WytheIx) (s t : State) : Prop := Only s t (·.updTables w (fun _ => {}))

namespace InTables
variable {s₀ s t : State} {w : WytheIx}

theorem ite {c : Prop} {_ : Decidable c} (h : InTables w s₀ s) (h' : InTables w s₀ t) : InTables w s₀ (if c then s else t) :=
  iteInduction (motive := InTables w s₀) (fun _ => h) (fun _ => h')

/-- A choice between two answers, each with its state. -/
theorem ite2 {α : Type} {r q : α × State} {c : Prop} {_ : Decidable c} (h : InTables w s₀ r.2) (h' : InTables w s₀ q.2) :
    InTables w s₀ (if c then r else q).2 :=
  iteInduction (motive := fun r : α × State => InTables w s₀ r.2) (fun _ => h) (fun _ => h')

theorem each {α : Type} {l : List α} {f : State → α → State} (h : InTables w s₀ s) (hf : ∀ s e, InTables w s₀ s → InTables w s₀ (f s e)) :
    InTables w s₀ (s.each l f) := each_induct (InTables w s₀) f hf l s h

theorem onlyIf {b : Bool} {f : State → State} (h : InTables w s₀ s) (hf : ∀ s, InTables w s₀ s → InTables w s₀ (f s)) :
    InTables w s₀ (s.onlyIf b f) := by
  unfold State.onlyIf
  exact ite (hf s h) h

theorem same (h : InTables w s₀ s) (he : t.essence = s.essence) : InTables w s₀ t := by
  unfold InTables State.updTables at h ⊢
  exact h.same he

theorem setTables (h : InTables w s₀ s) {f : Tables → Tables} : InTables w s₀ (s.setTables w f) := by
  unfold InTables State.updTables at h ⊢
  exact h.change fun _ => rfl

theorem fail (h : InTables w s₀ s) {code : Nat} : InTables w s₀ (State.fail code s).2 := h

theorem count (h : InTables w s₀ s) {a n : Nat} : InTables w s₀ (s.count a n) := h.same (essence_count s a n)

theorem countTable (h : InTables w s₀ s) {t i : Nat} : InTables w s₀ (s.countTable w t i) := by
  unfold State.countTable
  split
  · exact h.count
  · exact h

theorem tableEcc (h : InTables w s₀ s) {t : Nat} {ecc : EccReport} : InTables w s₀ (s.tableEcc w t ecc) := by
  unfold State.tableEcc
  split
  · exact h.countTable
  · exact h.countTable.same (essence_raiseBit _ _ _)
  · exact h

theorem trieWrite (h : InTables w s₀ s) {staged op v6 a len hop} : InTables w s₀ (s.trieWrite w staged op v6 a len hop).2 := by
  unfold State.trieWrite
  dsimp only
  split
  · exact .ite2 h.fail (.ite2 h.fail h.setTables)
  · exact .ite2 h.fail (.ite2 h.setTables (.ite2 h.fail h.setTables))

theorem trieCmd (h : InTables w s₀ s) {c} : InTables w s₀ (s.trieCmd w c).2 := by
  have hone : ∀ (p : Option Prefix) (code : Nat),
      InTables w s₀ (match p with
        | some p => (trieAns p, s)
        | none => State.fail code s).2 := by
    rintro (_ | _) _ <;> exact h
  unfold State.trieCmd
  exact .ite2 h.fail (.ite2 h.fail (.ite2 (hone _ _) (.ite2 (hone _ _) (.ite2 (hone _ _) (.ite2 h.fail h.trieWrite)))))

theorem learnCmd (h : InTables w s₀ s) {c} : InTables w s₀ (s.learnCmd w c).2 := by
  unfold State.learnCmd
  dsimp only
  refine .ite2 (.ite2 h.fail (.ite2 ?_ ?_)) (.ite2 ?_ (.ite2 h.fail ?_))
  · split
    · exact .ite2 h h.fail
    · exact h.fail
  · split
    · exact h
    · exact h.fail
  · split
    · exact h
    · exact h.fail
  · split
    · exact h.fail
    · split
      · exact h.setTables
      · exact h.fail
    · exact h.setTables
    all_goals
      split
      · exact h.setTables
      · exact h.fail

theorem indexWrite (h : InTables w s₀ s) {staged op i b} : InTables w s₀ (s.indexWrite w staged op i b).2 :=
  .ite2 (.ite2 (.ite2 h h.setTables) (.ite2 h (.ite2 h.count h.setTables))) (.ite2 (.ite2 h h.setTables) (.ite2 h h.setTables))

theorem indexCmd (h : InTables w s₀ s) {c} : InTables w s₀ (s.indexCmd w c).2 := by
  unfold State.indexCmd
  refine .ite2 h.fail (.ite2 ?_ (.ite2 ?_ (.ite2 h.indexWrite h.indexWrite.fail)))
  all_goals
    split
    · exact h
    · exact h.fail

theorem exactCmd (h : InTables w s₀ s) {slot cfg c} : InTables w s₀ (s.exactCmd w slot cfg c).2 := by
  unfold State.exactCmd
  dsimp only
  refine .ite2 h.fail (.ite2 h.fail (.ite2 ?_ (.ite2 h.fail ?_)))
  · split
    · exact h
    · exact h.fail
  · split
    · exact h.fail
    · split
      · exact h.setTables
      · exact h.fail
    · exact h.setTables
    all_goals
      split
      · exact h.setTables
      · exact h.fail

theorem ternCmd (h : InTables w s₀ s) {cfg base c} : InTables w s₀ (s.ternCmd w cfg base c).2 := by
  unfold State.ternCmd
  dsimp only
  refine .ite2 h.fail (.ite2 h.fail (.ite2 ?_ (.ite2 ?_ (.ite2 ?_ (.ite2 h.fail (.ite2 h.fail h.setTables))))))
  · split
    · exact .ite2 h h.fail
    · exact h.fail
  · split
    · exact h
    · exact h.fail
  · split
    · exact h.fail
    · exact .ite2 h.fail (.ite2 h.setTables h.setTables)

theorem runCmd (h : InTables w s₀ s) {t c} : InTables w s₀ (s.runCmd w t c).2 := by
  unfold State.runCmd
  refine .ite2 h.fail ?_
  split
  · exact h.trieCmd
  · exact h.learnCmd
  · exact h.indexCmd
  · exact .ite2 h.exactCmd (.ite2 h.ternCmd h.fail)

theorem completeCmd (h : InTables w s₀ s) {t c a} : InTables w s₀ (s.completeCmd w t c a) := .ite h.countTable h.countTable.setTables

theorem popCmd (h : InTables w s₀ s) {t ecc} : InTables w s₀ (s.popCmd w t ecc) := by
  unfold State.popCmd
  split
  · exact h
  · exact .ite h.setTables.tableEcc.completeCmd h.setTables.tableEcc.runCmd.completeCmd

theorem abortCmds (h : InTables w s₀ s) {t p} : InTables w s₀ (s.abortCmds w t p) := .each h.setTables fun _ _ h => h.completeCmd

theorem rootCopied (h : InTables w s₀ s) : InTables w s₀ (s.rootCopied w) := h.setTables

theorem abandonTables (h : InTables w s₀ s) : InTables w s₀ (s.abandonTables w) := h.setTables.setTables

theorem flushSession (h : InTables w s₀ s) : InTables w s₀ (s.flushSession w) :=
  .each (.onlyIf h fun _ h => h.rootCopied) fun _ _ h => .each h fun _ _ h => .onlyIf h fun _ h => h.popCmd

/-! What stays is then read off. -/

theorem wy_same (h : InTables w s t) : { t.wy w with tables := {} } = { s.wy w with tables := {} } := by
  unfold InTables State.updTables at h
  exact h.wy_same

theorem wy_other (h : InTables w s t) {v : WytheIx} (hv : v ≠ w) : t.wy v = s.wy v := by
  unfold InTables State.updTables at h
  exact h.wy_other hv

theorem core (h : InTables w s t) (v : WytheIx) (i : Nat) : t.core v i = s.core v i := by
  by_cases hv : v = w
  · subst hv
    have hcores : (t.wy v).cores = (s.wy v).cores := congrArg (·.cores) h.wy_same
    simp only [State.core, hcores]
  · simp only [State.core, h.wy_other hv]

end InTables

end Sys2Proof.Machine.State

end

/-!
# Staging

Sessions and their end, a staged write and the root copy (R31–R33, R38, R41, R53, R109).
-/

section

namespace Sys2Proof.Machine

/-! ### The pages that a port's mode concerns -/

theorem inst_lt_of_findPage {region o n : Nat} {pg : PageId} :
    ∀ {rs : List PageRow}, (∀ r ∈ rs, r.count ≤ n) → findPage region o rs = some pg → pg.inst < n
  | [], _, h => by simp [findPage] at h
  | r :: rs, hrs, h => by
    unfold findPage at h
    split at h
    · next hin =>
      obtain rfl := Option.some.inj h
      have hr : r.count ≤ n := hrs r (by simp)
      dsimp only
      omega
    · exact inst_lt_of_findPage (fun x hx => hrs x (List.mem_cons_of_mem r hx)) h

/-- No block has more than 64 pages. -/
theorem inst_lt_of_pageOf {a : Nat} {pg : PageId} (h : pageOf a = some pg) : pg.inst < 64 + 1 := by
  have hg : ∀ r ∈ globalPages, r.count ≤ 64 + 1 := by decide
  have hw : ∀ r ∈ wythePages, r.count ≤ 64 + 1 := by decide
  unfold pageOf at h
  split at h
  · exact inst_lt_of_findPage hg h
  · split at h
    · exact inst_lt_of_findPage hw h
    · split at h
      · exact inst_lt_of_findPage hw h
      · cases h

theorem pageOf_compositor (w : WytheIx) : pageOf (pgComp w + 0x100) = some ⟨w.val + 1, 0x10, 0⟩ := by
  rcases wythe_cases w with rfl | rfl <;> decide

/-- A port's MODE register is neither a guard band nor an EARLY word. -/
theorem mode_ne_guard {a : Nat} (ho : a % 0x1000 = 0x100) (w : WytheIx) (p : Nat) : a ≠ pgPress w p + 0x104 := by
  unfold pgPress wyBase
  omega

theorem mode_ne_early {a : Nat} {pg : PageId} (hp : pageOf a = some pg) (hty : pg.type = 0x38) (ho : a % 0x1000 = 0x100) (w : WytheIx) :
    a ≠ pgComp w + 0x100 + 4 * pg.inst := by
  rintro rfl
  have hinst := inst_lt_of_pageOf hp
  have hzero : pg.inst = 0 := by
    simp only [pgComp, wyBase] at ho
    omega
  obtain rfl := Option.some.inj ((pageOf_compositor w).symm.trans (by simpa [hzero] using hp))
  cases hty

theorem regReset_clampNote {b : Nat} (h : b % 0x1000 = 0x28) : regReset b = 0 := by
  have hctrl : ¬ b % 0x1000 = 0x008 := by omega
  have hfuse : ¬ (b = pgForme + 0x14C ∨ b = pgForme + 0x150 ∨ b = pgForme + 0x154) := by
    unfold pgForme
    omega
  have htime : ¬ b = pgTime 1 + 0x100 := by
    rintro rfl
    revert h
    decide
  have hlow : b % 0x1000 < 0x100 := by omega
  simp only [regReset, hctrl, hfuse, htime, hlow, if_false, if_true]

namespace State

variable {s t u : State} {w : WytheIx}

/-! ### What a wythe's tables hold once a session is given up -/

/-- Nothing of a session is left in the tables. -/
def Plain (t : Tables) : Prop :=
  t.copying = false ∧ t.overlay = [] ∧ (∀ x ∈ t.index, x.2.dying = false) ∧ (∀ x ∈ t.learn, x.2.born = false ∧ x.2.dying = false) ∧
    (∀ x ∈ t.exact, x.2.born = false ∧ x.2.dying = false) ∧ (∀ x ∈ t.ternary, x.2.born = false ∧ x.2.dying = false) ∧
    ∀ p ∈ t.trie, reaches (!t.root1) p = false

theorem reaches_setReach (r v : Bool) (p : Prefix) : reaches r (setReach r v p) = v := by
  cases r <;> rfl

theorem abandonTables_plain (s : State) (w : WytheIx) : Plain ((s.abandonTables w).tables w) := by
  have htables : (s.abandonTables w).tables w = _ := congrArg Wythe.tables ((wy_updTables_same _ w _).trans
    (by rw [settle, setTables, wy_updTables_same]))
  rw [htables]
  refine ⟨rfl, rfl, ?_, ?_, ?_, ?_, ?_⟩
  all_goals
    simp only [List.mem_map, List.mem_filter, Prod.exists]
  · rintro _ ⟨_, _, -, rfl⟩
    rfl
  · rintro _ ⟨_, _, -, rfl⟩
    exact ⟨rfl, rfl⟩
  · rintro _ ⟨_, _, -, rfl⟩
    exact ⟨rfl, rfl⟩
  · rintro _ ⟨_, _, -, rfl⟩
    exact ⟨rfl, rfl⟩
  · rintro _ ⟨⟨p, -, rfl⟩, -⟩
    exact reaches_setReach _ false p

/-! ### Sessions -/

/-- Every joined wythe does `f`, to its own tables alone: for a wythe joined, that is what its own turn made of them. -/
theorem each_tables_of_mem {P : Tables → Prop} {f : State → WytheIx → State} {l : List WytheIx} (hw : w ∈ l)
    (hf : ∀ s w, InTables w s (f s w)) (hP : ∀ s, P ((f s w).tables w)) : P ((s.each l f).tables w) := by
  refine each_of_mem (I := fun _ => True) (P := fun t => P (t.tables w)) hw trivial (fun _ _ _ => trivial) (fun s _ => hP s) ?_
  intro s v _ hs
  by_cases hv : w = v
  · exact hv ▸ hP s
  · simpa only [tables, (hf s v).wy_other hv] using hs

/-- A wythe but for its tables and cores. -/
def sansSession (y : Wythe) : Wythe := { y with tables := {}, cores := [] }

/-- The state but for the tables and cores. -/
def sansSessions (s : State) : State := (s.updWy 0 sansSession).updWy 1 sansSession

theorem only_sansSessions {h : Wythe → Wythe} (ho : Only s t (·.updWy w h)) (hh : ∀ y, sansSession (h y) = sansSession y) :
    Only s t sansSessions := by
  have hu : ∀ u : State, (sansSessions u).essence = sansSessions ((u.updWy w h).essence) := by
    intro u
    rcases wythe_cases w with rfl | rfl <;> simp [sansSessions, updWy, setWy, wy, essence, hh]
  unfold Only at ho ⊢
  rw [hu, hu, ho]

theorem InTables.sansSessions (h : InTables w s t) : Only s t sansSessions :=
  only_sansSessions (w := w) (h := fun y => { y with tables := {} }) h fun _ => rfl

theorem only_updCore (s : State) (w : WytheIx) (i : Nat) (f : Core → Core) : Only s (s.updCore w i f) sansSessions :=
  only_sansSessions (w := w) (h := sansSession) (by unfold updCore; exact (Only.refl s _).change fun _ => rfl) fun _ => rfl

theorem Only.tieCut (h : Only s t sansSessions) : t.tieCut = s.tieCut := by
  have h0 : sansSession t.w0 = sansSession s.w0 := congrArg (·.w0) h
  have h1 : sansSession t.w1 = sansSession s.w1 := congrArg (·.w1) h
  have hk0 : (t.wy 0).tie = (s.wy 0).tie := congrArg (·.tie) h0
  have hk1 : (t.wy 1).tie = (s.wy 1).tie := congrArg (·.tie) h1
  simp only [State.tieCut, tieLost, hk0, hk1]

/-- The session opens, and the root copy of each joined wythe begins (R33, R109). -/
theorem sessionOpens_spec (s : State) (n : W16) :
    (s.sessionOpens n).forme = { s.forme with session := .open_ n } ∧
      (∀ w ∈ s.joined, ((s.sessionOpens n).wy w).tables = { (s.wy w).tables with copying := true }) ∧
      (s.sessionOpens n).staged = s.staged ∧ (s.sessionOpens n).active = s.active := by
  unfold sessionOpens joined
  split
  · refine ⟨rfl, ?_, rfl, rfl⟩
    intro w hw
    obtain rfl := List.mem_singleton.mp hw
    rfl
  · refine ⟨rfl, ?_, rfl, rfl⟩
    intro w _
    rcases wythe_cases w with rfl | rfl <;> rfl

theorem openSession_opens {n : W16} (hnone : s.forme.session = .none) (hen : s.enabled pgForme = true) (hsweep : s.sweeps = false) :
    s.openWritten n = s.sessionOpens n := by
  simp [openWritten, hnone, hen, hsweep]

/-! ### ABANDON -/

/-- What ABANDON first does: the tables of the joined wythes give up the session. -/
def abandonSession (s : State) : State :=
  match s.forme.session with
  | .open_ _ => s.each s.joined (fun s w => (s.flushSession w).abandonTables w)
  | .pending _ => s.each s.joined (fun s w => s.each windowIds (fun s t => s.abortCmds w t (fun c => c.kind == CmdKind.pending)))
  | .none => s

/-- What it does next: the cores of the joined wythes stage the images locked up. -/
def unstageImages (s : State) (ws : List WytheIx) : State :=
  s.each ws (fun s w => s.each (List.range 48) (fun s i => s.updCore w i (fun c => { c with staged := c.locked })))

theorem abandonWritten_eq (s : State) : s.abandonWritten =
    { s.abandonSession.unstageImages s.joined with
      staged := s.abandonSession.unstageImages s.joined |>.takeCopy (s.abandonSession.unstageImages s.joined).staged
        (s.abandonSession.unstageImages s.joined).active
      forme := { (s.abandonSession.unstageImages s.joined).forme with
        session := .none, restored := false, journal := [], refusedImages := [] } } := by
  unfold abandonWritten abandonSession
  cases s.forme.session <;> rfl

theorem only_abandonSession (s : State) : Only s s.abandonSession sansSessions := by
  unfold abandonSession
  split
  · exact .each (fun s w => (InTables.abandonTables (.flushSession (.refl s _))).sansSessions) _ s
  · exact .each (fun s w => .each (fun s t => (InTables.abortCmds (.refl s _)).sansSessions) _ s) _ s
  · exact .refl s _

theorem only_unstageImages (s : State) (ws : List WytheIx) : Only s (s.unstageImages ws) sansSessions :=
  .each (fun s w => .each (fun s i => only_updCore s w i _) _ s) ws s

theorem core_abandonSession (s : State) (w : WytheIx) (i : Nat) : s.abandonSession.core w i = s.core w i := by
  have hturn : ∀ {α : Type} (f : State → α → State) (l : List α), (∀ s e, ∃ v, InTables v s (f s e)) → (s.each l f).core w i = s.core w i :=
    fun f l hf => each_induct (fun t => t.core w i = s.core w i) f (fun t e ht => ((hf t e).choose_spec.core w i).trans ht) l s rfl
  unfold abandonSession
  split
  · exact hturn _ _ fun s v => ⟨v, .abandonTables (.flushSession (.refl s _))⟩
  · exact hturn _ _ fun s v => ⟨v, .each (.refl s _) fun _ _ h => h.abortCmds⟩
  · rfl

/-- What a change of one core makes of another: the same change, or nothing. -/
theorem core_updCore (s : State) (v : WytheIx) (k : Nat) (f : Core → Core) (w : WytheIx) (i : Nat) :
    (s.updCore v k f).core w i = if v = w ∧ k = i then f (s.core w i) else s.core w i := by
  by_cases hv : v = w
  · subst hv
    by_cases hk : k = i
    · subst hk
      simp
    · have hne : i ≠ k := fun h => hk h.symm
      simp [core, updCore, wy_updWy_same, kget_kupd_ne _ _ _ hne, hk]
  · have hne : w ≠ v := fun h => hv h.symm
    simp [core, updCore, wy_updWy_ne _ _ hne, hv]

theorem core_each_updCore {f : Core → Core} (hf : ∀ c, f (f c) = f c) (v w : WytheIx) (i : Nat) (l : List Nat) (s : State) :
    (s.each l (fun s k => s.updCore v k f)).core w i = if v = w ∧ i ∈ l then f (s.core w i) else s.core w i := by
  induction l generalizing s with
  | nil => simp [State.each]
  | cons k l ih =>
    refine (ih (s.updCore v k f)).trans ?_
    rw [core_updCore]
    by_cases hv : v = w <;> by_cases hk : k = i <;> by_cases hl : i ∈ l <;> simp [hv, hk, hl, hf, eq_comm (a := i)]

/-- A core stages the image locked up. -/
def unstage (c : Core) : Core := { c with staged := c.locked }

theorem core_unstageImages (ws : List WytheIx) (s : State) {i : Nat} (hi : i < 48) :
    (s.unstageImages ws).core w i = if w ∈ ws then unstage (s.core w i) else s.core w i := by
  induction ws generalizing s with
  | nil => rfl
  | cons v ws ih =>
    refine (ih (s.each (List.range 48) (fun s i => s.updCore v i unstage))).trans ?_
    rw [core_each_updCore (f := unstage) fun _ => rfl]
    by_cases hv : v = w <;> by_cases hw : w ∈ ws <;> simp [hv, hw, hi, unstage, eq_comm (a := w)]

theorem tables_unstageImages (s : State) (ws : List WytheIx) (w : WytheIx) : (s.unstageImages ws).tables w = s.tables w := by
  refine each_induct (fun t => t.tables w = s.tables w) _ (fun t v ht => ?_) ws s rfl
  refine each_induct (fun t => t.tables w = s.tables w) _ (fun t i ht => ?_) (List.range 48) t ht
  rw [← ht]
  rcases wythe_cases w with rfl | rfl <;> rcases wythe_cases v with rfl | rfl <;> rfl

/-- What ABANDON leaves: no session and nothing that it staged (R33, R38). -/
theorem abandon_spec (s : State) : Completes .abandon s (fun t =>
    t.forme = { s.forme with session := .none, restored := false, journal := [], refusedImages := [] } ∧ t.active = s.active ∧
      t.previous = s.previous ∧ (∀ a, (a < 0x1000000 ∨ s.tieCut = false) → t.stStaged a = s.stActive a) ∧
      (∀ w ∈ s.joined, ∀ i < 48, (t.core w i).staged = (s.core w i).locked) ∧
      ∀ n, s.forme.session = .open_ n → ∀ w ∈ s.joined, Plain (t.tables w)) := by
  have hsession := only_abandonSession s
  have hboth : Only s (s.abandonSession.unstageImages s.joined) sansSessions := hsession.trans (only_unstageImages _ _)
  have hforme : (s.abandonSession.unstageImages s.joined).forme = s.forme := congrArg (·.forme) hboth
  have hactive : (s.abandonSession.unstageImages s.joined).active = s.active := congrArg (·.active) hboth
  have hprevious : (s.abandonSession.unstageImages s.joined).previous = s.previous := congrArg (·.previous) hboth
  refine ⟨_, congrArg Host.Outcome.next (abandonWritten_eq s), ?_, hactive, hprevious, fun a ha => ?_, fun w hw i hi => ?_, fun n hn w hw => ?_⟩
  · rw [← hforme]
  · refine (sget_takeCopy _ _ _ ?_).trans (by rw [stActive, hactive])
    rwa [hboth.tieCut]
  · exact (congrArg Core.staged (core_unstageImages s.joined s.abandonSession hi)).trans
      (by rw [if_pos hw, core_abandonSession, unstage])
  · refine (congrArg Plain (tables_unstageImages s.abandonSession s.joined w)).mpr ?_
    simp only [abandonSession, hn]
    exact each_tables_of_mem hw (fun s w => .abandonTables (.flushSession (.refl s _))) (fun s => abandonTables_plain _ w)

/-! ### A staged write -/

/-- The staged words, and the DRAM that bounds its window, are the same in both states: what a staged write reads. -/
def Staged (s u : State) : Prop := u.staged = s.staged ∧ ∀ w, u.dram w = s.dram w

@[simp] theorem dram_updDs (s : State) (v : WytheIx) (f : Datestone → Datestone) (w : WytheIx) : (s.updDs v f).dram w = s.dram w := by
  rcases wythe_cases v with rfl | rfl <;> rcases wythe_cases w with rfl | rfl <;> rfl

theorem noteClamp_dram (s : State) (a n : Nat) (w : WytheIx) : (s.noteClamp a n).dram w = s.dram w := by
  unfold noteClamp
  dsimp only
  split
  · rfl
  · split
    · exact dram_updDs _ _ _ w
    · rfl

namespace Staged

theorem stStaged (h : Staged s u) (a : Nat) : u.stStaged a = s.stStaged a := by
  simp only [State.stStaged, h.1]

theorem earlyAllowed (h : Staged s u) (w : WytheIx) (p : Nat) : u.earlyAllowed w p = s.earlyAllowed w p := by
  simp only [State.earlyAllowed, h.stStaged]

theorem stage (h : Staged s u) {a : Nat} {v : W32} {n : Nat} : Staged (s.stage a v n) (u.stage a v n) := by
  refine ⟨?_, fun w => ?_⟩
  · simp only [State.stage, (noteClamp_copies _ a n).1, h.1]
  · simp only [State.stage, noteClamp_dram]
    exact h.2 w

theorem reguard (h : Staged s u) {w : WytheIx} {p : Nat} : Staged (s.reguard w p) (u.reguard w p) := by
  simp only [State.reguard, h.stStaged]
  split
  · exact h.stage
  · exact h

theorem reearly (h : Staged s u) {w : WytheIx} {p : Nat} : Staged (s.reearly w p) (u.reearly w p) := by
  simp only [State.reearly, h.earlyAllowed, h.stStaged]
  split
  · exact h.stage
  · exact h

theorem rewindow (h : Staged s u) {w : WytheIx} : Staged (s.rewindow w) (u.rewindow w) := by
  simp only [State.rewindow, h.stStaged, h.2]
  split
  · exact h.stage
  · exact h

/-- Pool by pool, the room left is the same in both. -/
theorem relayout (h : Staged s u) {w : WytheIx} {dram : Bool} : Staged (s.relayout w dram) (u.relayout w dram) := by
  refine (List.foldl_rel (r := fun (x y : State × Nat) => Staged x.1 y.1 ∧ y.2 = x.2) ⟨h, by simp only [h.stStaged]⟩ ?_).1
  rintro p - ⟨t, left⟩ ⟨t', left'⟩ ⟨ht, hleft⟩
  dsimp only at ht hleft ⊢
  subst hleft
  simp only [ht.stStaged]
  split
  · exact ⟨ht, rfl⟩
  · split
    · exact ⟨ht, rfl⟩
    · exact ⟨ht.stage, rfl⟩

theorem stageAfter (h : Staged s u) {pg : PageId} {o : Nat} : Staged (s.stageAfter pg o) (u.stageAfter pg o) := by
  unfold State.stageAfter
  dsimp only
  split
  · exact h.reguard.reearly
  · split
    · exact h.rewindow.relayout.relayout
    · exact h

theorem clampSpecial (h : Staged s u) (pg : PageId) (o : Nat) (v : W32) : u.clampSpecial pg o v = s.clampSpecial pg o v := by
  simp only [State.clampSpecial, h.earlyAllowed, h.stStaged]

theorem stageWord (h : Staged s u) {a : Nat} {v : W32} : Staged (s.stageWord a v) (u.stageWord a v) := by
  simp only [State.stageWord, h.clampSpecial]
  split
  · split
    · exact h.stage.stageAfter
    · exact h
  · exact h

end Staged

theorem staged_journal (s : State) (b : Bytes) : Staged s (s.journal b) := ⟨rfl, fun _ => rfl⟩

section
variable {α : Type} {view : State → α} (hstaged : ∀ (s : State) m, Same view s { s with staged := m })
  (hnote : ∀ (s : State) a n, Same view s (s.noteClamp a n))
include hstaged hnote

/-! A view that neither a staged copy nor a noted clamp changes is not changed by a staged write. -/

theorem same_stage (s : State) (a : Nat) (v : W32) (n : Nat) : Same view s (s.stage a v n) := (hstaged s _).trans (hnote _ a n)

theorem same_reguard (s : State) (w : WytheIx) (p : Nat) : Same view s (s.reguard w p) :=
  .ite (same_stage hstaged hnote s _ _ _) (.refl s)
theorem same_reearly (s : State) (w : WytheIx) (p : Nat) : Same view s (s.reearly w p) :=
  .ite (same_stage hstaged hnote s _ _ _) (.refl s)
theorem same_rewindow (s : State) (w : WytheIx) : Same view s (s.rewindow w) := .ite (same_stage hstaged hnote s _ _ _) (.refl s)
theorem same_relayout (s : State) (w : WytheIx) (dram : Bool) : Same view s (s.relayout w dram) :=
  List.foldlRecOn (motive := fun acc : State × Nat => Same view s acc.1) _ _ (.refl s) fun acc h p _ => by
    dsimp only
    split
    · exact h
    · exact .ite h (h.trans (same_stage hstaged hnote _ _ _ _))

theorem same_stageAfter (s : State) (pg : PageId) (o : Nat) : Same view s (s.stageAfter pg o) :=
  .ite ((same_reguard hstaged hnote s _ _).trans (same_reearly hstaged hnote _ _ _))
    (.ite (((same_rewindow hstaged hnote s _).trans (same_relayout hstaged hnote _ _ _)).trans (same_relayout hstaged hnote _ _ _)) (.refl s))

theorem same_stageWord (s : State) (a : Nat) (v : W32) : Same view s (s.stageWord a v) := by
  unfold stageWord
  split
  · exact .ite ((same_stage hstaged hnote s _ _ _).trans (same_stageAfter hstaged hnote _ _ _)) (.refl s)
  · exact .refl s

end

/-- The formes in force and the forme unit: what a staged write leaves alone. -/
def inForce (s : State) : SMap W32 × SMap W32 × FormeUnit := (s.active, s.previous, s.forme)

theorem inForce_noteClamp (s : State) (a n : Nat) : Same inForce s (s.noteClamp a n) := by
  unfold noteClamp
  dsimp only
  split
  · rfl
  · split
    · simp [Same, inForce]
    · rfl

theorem stStaged_stage_same (hs : s.Canon) (a : Nat) (v : W32) (n : Nat) : (s.stage a v n).stStaged a = v := by
  simp only [stage, stStaged, (noteClamp_copies _ a n).1]
  exact sget_sput_same regReset _ a v hs.staged

theorem stStaged_stage_ne (s : State) {a b : Nat} (v : W32) (n : Nat) (h : b ≠ a) : (s.stage a v n).stStaged b = s.stStaged b := by
  simp only [stage, stStaged, (noteClamp_copies _ a n).1]
  exact sget_sput_ne regReset _ v h

theorem stStaged_ite_stage (s : State) {a b : Nat} {c : Prop} [Decidable c] (v : W32) (n : Nat) (h : b ≠ a) :
    (if c then s.stage a v n else s).stStaged b = s.stStaged b := by
  split
  · exact stStaged_stage_ne s v n h
  · rfl

/-- Of the words that a write changes besides its own, none is the one written, but on a GALLEY page. -/
theorem stStaged_stageAfter {a : Nat} {pg : PageId} (s : State) (hp : pageOf a = some pg) (hpool : ¬ (pg.type = 0x1C ∧ a % 0x1000 < 0x170)) :
    (s.stageAfter pg (a % 0x1000)).stStaged a = s.stStaged a := by
  unfold stageAfter
  dsimp only
  split
  · next hmode =>
    exact (stStaged_ite_stage _ _ _ (mode_ne_early hp hmode.1 hmode.2 _)).trans (stStaged_ite_stage _ _ _ (mode_ne_guard hmode.2 _ _))
  · rfl

theorem stageAfter_self {pg : PageId} {o : Nat} (s : State) (hpool : ¬ (pg.type = 0x1C ∧ o < 0x170)) (hmode : ¬ (pg.type = 0x38 ∧ o = 0x100)) :
    s.stageAfter pg o = s := by
  simp only [stageAfter, hpool, hmode, if_false]

theorem stageWord_eq {a : Nat} {d : RegDesc} {pg : PageId} (s : State) (raw : W32) (hd : regDesc a = some d)
    (hacc : d.acc = .st ∨ d.acc = .stKept) (hp : pageOf a = some pg) :
    let r := s.clampSpecial pg (a % 0x1000) (w32 (clampWord d.flds raw.toNat))
    s.stageWord a raw = (s.stage a r.1 (clampsIn d.flds raw.toNat + r.2)).stageAfter pg (a % 0x1000) := by
  simp only [stageWord, hd, hp, hacc, if_true]

theorem stWrite_eq {a : Nat} {d : RegDesc} (s : State) (v : W32) (en : BitVec 4) (hd : regDesc a = some d)
    (hacc : d.acc = .st ∨ d.acc = .stKept) :
    s.stWrite a v en = (s.journal (1 :: toBe 4 a ++ toBe 4 (mergeBytes (s.stStaged a) v en).toNat)).stageWord a
      (mergeBytes (s.stStaged a) v en) := by
  have hst : isSt a = true := by
    simp only [isSt, hd]
    rcases hacc with h | h <;> simp [h]
  simp only [stWrite, hst, Bool.not_true, Bool.false_eq_true, if_false]

/-- A write of an ST register is staged, clamped and journalled; the formes in force stay (R31, R32, R41, R52). -/
theorem stFieldWrite_spec {a : Nat} {d : RegDesc} {pg : PageId} (v : W32) (en : BitVec 4) (hd : regDesc a = some d)
    (hacc : d.acc = .st ∨ d.acc = .stKept) (hp : pageOf a = some pg) (hreach : a < 0x1000000 ∨ s.tieCut = false) (hs : s.Canon) :
    let raw := mergeBytes (s.stStaged a) v en
    Completes (.stFieldWrite a v en) s (fun t => t.active = s.active ∧ t.previous = s.previous ∧
      t.forme = { s.forme with journal := s.forme.journal ++ (1 :: toBe 4 a ++ toBe 4 raw.toNat) } ∧
      t.staged = (s.stageWord a raw).staged ∧
      (¬ (pg.type = 0x1C ∧ a % 0x1000 < 0x170) → t.stStaged a = (s.clampSpecial pg (a % 0x1000) (w32 (clampWord d.flds raw.toNat))).1 ∧
        (¬ (pg.type = 0x38 ∧ a % 0x1000 = 0x100) → ∀ b, b ≠ a → t.stStaged b = s.stStaged b))) := by
  intro raw
  have hr : (decide (a < 0x1000000) || !s.tieCut) = true := by simpa using hreach
  have hexec : Machine.exec (.stFieldWrite a v en) s = .next _ := congrArg Host.Outcome.next ((if_pos hr).trans (stWrite_eq s v en hd hacc))
  have hforce := same_stageWord (view := inForce) (fun _ _ => rfl) inForce_noteClamp (s.journal (1 :: toBe 4 a ++ toBe 4 raw.toNat)) a raw
  have hstaged : Staged (s.stageWord a raw) ((s.journal (1 :: toBe 4 a ++ toBe 4 raw.toNat)).stageWord a raw) :=
    (staged_journal s _).stageWord
  simp only [Same, inForce, Prod.mk.injEq] at hforce
  obtain ⟨hactive, hprevious, hforme⟩ := hforce
  refine ⟨_, hexec, hactive, hprevious, hforme, hstaged.1, fun hpool => ?_⟩
  simp only [raw, hstaged.stStaged, stageWord_eq s raw hd hacc hp]
  refine ⟨(stStaged_stageAfter _ hp hpool).trans (stStaged_stage_same hs _ _ _), fun hmode b hb => ?_⟩
  rw [stageAfter_self _ hpool hmode]
  exact stStaged_stage_ne s _ _ hb

/-! ### CLAMP_CLEAR and the root copy -/

theorem clampClear_spec {a : Agent} (hreach : s.reachGlobal a = true) :
    Completes (.clampClear a) s (fun t => (∀ b, b % 0x1000 ≠ 0x28 → t.rd b = s.rd b) ∧
      (∀ b, b % 0x1000 = 0x28 → (b < 0x1000000 ∨ s.tieCut = false) → t.rd b = 0) ∧ Only s t id) := by
  have hrd : ∀ b, s.clampsCleared.rd b =
      if (b % 0x1000 != 0x28 || (s.tieCut && decide (0x1000000 ≤ b))) = true then s.rd b else regReset b :=
    fun b => sget_filter_key regReset (fun k => k % 0x1000 != 0x28 || (s.tieCut && decide (0x1000000 ≤ k))) s.regs b
  refine ⟨_, congrArg Host.Outcome.next (if_pos hreach), fun b hb => ?_, fun b hb hlow => ?_, rfl⟩
  · rw [hrd, if_pos (by simp [hb])]
  · have hgone : ¬ (b % 0x1000 != 0x28 || (s.tieCut && decide (0x1000000 ≤ b))) = true := by
      rcases hlow with hlow | hlow
      · have hnot : ¬ 0x1000000 ≤ b := by omega
        simp [hb, hnot]
      · simp [hb, hlow]
    rw [hrd, if_neg hgone, regReset_clampNote hb]

theorem trieRootCopyEnd_spec (hcopying : (s.tables w).copying = true) :
    Completes (.trieRootCopyEnd w) s (fun t => (t.tables w).copying = false ∧
      (∀ p ∈ (t.tables w).trie, reaches true p = reaches false p ∨ reaches (s.tables w).root1 p = false) ∧
      Only s t (·.updWy w (fun y => { y with tables := {} }))) := by
  have htables : (s.rootCopied w).tables w = _ := congrArg Wythe.tables (wy_updTables_same _ w _)
  refine ⟨_, congrArg Host.Outcome.next (if_pos hcopying), ?_, ?_, InTables.rootCopied (.refl s _)⟩
  · rw [htables]
  · rw [htables]
    simp only [List.mem_map]
    rintro _ ⟨p, -, rfl⟩
    split
    · next h =>
      left
      cases hroot : (s.wy w).tables.root1 <;> simp_all [reaches, setReach]
    · next h => exact .inr (Bool.eq_false_iff.mpr h)

end State

/-- Settles O39: each clause is the lemma of its command. -/
theorem staging : Obligations.Staging := by
  unfold Obligations.Staging
  intro s
  refine ⟨fun n => ⟨fun hnone hen hsweep => ?_, fun hnone hen hsweep => ?_, fun hnot => ?_, fun hpending hsweep => ?_⟩, fun hsweep => ?_,
    s.abandon_spec, fun a d pg v en hd hacc hp hreach hs => State.stFieldWrite_spec v en hd hacc hp hreach hs,
    fun a hreach => State.clampClear_spec hreach, fun w hcopying => State.trieRootCopyEnd_spec hcopying⟩
  · exact ⟨_, congrArg Host.Outcome.next (State.openSession_opens hnone hen hsweep), s.sessionOpens_spec n⟩
  · refine ⟨_, congrArg Host.Outcome.next ?_, rfl⟩
    simp [State.openWritten, hnone, hen, hsweep, State.setForme]
  · refine ⟨_, congrArg Host.Outcome.next ?_, rfl⟩
    rcases hnot with h | h <;> simp [State.openWritten, h]
  · refine ⟨_, congrArg Host.Outcome.next ?_, s.sessionOpens_spec n⟩
    simp [State.pendingOpens, hpending, hsweep]
  · refine ⟨_, congrArg Host.Outcome.next ?_, rfl⟩
    unfold State.pendingOpens
    split
    · simp [hsweep]
    · rfl

end Sys2Proof.Machine

end

/-!
# What traffic leaves standing

Most functions of the model work on frames, tasks, tables, registers and counters. They leave alone the copies of the
forme registers, the forme unit, the requests that the mode unit holds, each wythe's forme numbers and sweep, whether
its Datestone has started, the images that its cores hold and the pauses of its courses (`standing`). `Steady` says so,
and the rules below follow it through the functions that the lock-up, the load of images and the start are made of.
-/

section

namespace Sys2Proof.Machine.State

/-- The images of a core: staged, locked up and loaded. -/
def imagesOf (c : Core) : Option MImage × Option MImage × Option MImage := (c.staged, c.locked, c.image)
/-- A course's pause, and whether images are due. -/
def pauseOf (c : Course) : Bool × Bool := (c.pausing, c.imageDue)
/-- Whether a Datestone has started, and its boot number. -/
def bootOf (d : Datestone) := (d.started, d.boot)

/-- What stands on a wythe. -/
def standingOf (y : Wythe) :=
  (y.forme, y.previous, y.sweep, bootOf y.ds, (fun i => imagesOf (kget {} y.cores i)), (fun c => pauseOf (kget {} y.courses c)))

/-- The start and the requests that the mode unit has before it. -/
def requests (m : Modes) := (m.startDue, m.resetCause, m.causes, m.requestWaiting, m.shutdownDue)

/-- What stands on the device. -/
def standing (s : State) :=
  (s.staged, s.active, s.previous, s.forme, requests s.modes, standingOf s.w0, standingOf s.w1)

/-- What stood in `s` stands in `t`. -/
abbrev Steady : State → State → Prop := Same standing

theorem bootOf_ringFree (d : Datestone) : bootOf (ringFree d).1 = bootOf d := by
  unfold ringFree
  split
  · rfl
  · rfl

namespace Steady
variable {s₀ s t : State}

theorem refl (s : State) : Steady s s := rfl

/-- A change of a field that does not stand for anything above. -/
theorem other (h : Steady s₀ s) (e : standing t = standing s) : Steady s₀ t := e.trans h

theorem ite {c : Prop} {_ : Decidable c} (h : Steady s₀ s) (h' : Steady s₀ t) : Steady s₀ (if c then s else t) :=
  iteInduction (motive := Steady s₀) (fun _ => h) (fun _ => h')
/-- A change made only on a condition; `orElse` has the branches the other way round. -/
theorem maybe {c : Prop} {_ : Decidable c} (h : Steady s₀ s) (hf : Steady s₀ s → Steady s₀ t) : Steady s₀ (if c then t else s) := .ite (hf h) h
theorem orElse {c : Prop} {_ : Decidable c} (h : Steady s₀ s) (hf : Steady s₀ s → Steady s₀ t) : Steady s₀ (if c then s else t) :=
  .ite h (hf h)
theorem ite2 {α : Type} {r q : α × State} {c : Prop} {_ : Decidable c} (h : Steady s₀ r.2) (h' : Steady s₀ q.2) :
    Steady s₀ (if c then r else q).2 :=
  iteInduction (motive := fun r : α × State => Steady s₀ r.2) (fun _ => h) (fun _ => h')
theorem ite3 {α β : Type} {r q : α × β × State} {c : Prop} {_ : Decidable c} (h : Steady s₀ r.2.2) (h' : Steady s₀ q.2.2) :
    Steady s₀ (if c then r else q).2.2 :=
  iteInduction (motive := fun r : α × β × State => Steady s₀ r.2.2) (fun _ => h) (fun _ => h')
theorem each {α : Type} {f : State → α → State} {l : List α} (h : Steady s₀ s) (hf : ∀ s e, Steady s₀ s → Steady s₀ (f s e)) :
    Steady s₀ (s.each l f) := each_induct (Steady s₀) f hf l s h
theorem onlyIf {b : Bool} {f : State → State} (h : Steady s₀ s) (hf : ∀ s, Steady s₀ s → Steady s₀ (f s)) : Steady s₀ (s.onlyIf b f) :=
  .ite (hf s h) h

theorem wr (h : Steady s₀ s) {a v} : Steady s₀ (s.wr a v) := h.other rfl
theorem emit (h : Steady s₀ s) {o} : Steady s₀ (s.emit o) := h.other rfl
theorem draw (h : Steady s₀ s) : Steady s₀ s.draw.2 := h.other rfl
theorem setCtr (h : Steady s₀ s) {a v} : Steady s₀ (s.setCtr a v) := h.other rfl
theorem withFree (h : Steady s₀ s) {v} : Steady s₀ { s with free := v } := h.other rfl
theorem withDbgUnit (h : Steady s₀ s) {v} : Steady s₀ { s with dbgUnit := v } := h.other rfl
theorem withModes (h : Steady s₀ s) {m} (hm : requests m = requests s.modes) : Steady s₀ { s with modes := m } :=
  h.other (congrArg (fun v => (_, _, _, _, v, _)) hm)
theorem updWy (h : Steady s₀ s) {w f} (hf : standingOf (f (s.wy w)) = standingOf (s.wy w)) : Steady s₀ (s.updWy w f) := by
  refine h.other ?_
  rcases wythe_cases w with rfl | rfl
  · exact congrArg (fun v => (s.staged, s.active, s.previous, s.forme, requests s.modes, v, standingOf s.w1)) hf
  · exact congrArg (fun v => (s.staged, s.active, s.previous, s.forme, requests s.modes, standingOf s.w0, v)) hf
theorem updCore (h : Steady s₀ s) {w i f} (hf : ∀ c, imagesOf (f c) = imagesOf c) :
    Steady s₀ (s.updCore w i f) := by
  refine h.updWy (congrArg (fun v => (_, _, _, _, v, _)) (funext fun k => ?_))
  simp only [kget_kupd]
  split
  · next hk => exact hk ▸ hf _
  · rfl
theorem updCourse (h : Steady s₀ s) {w c f} (hf : ∀ c, pauseOf (f c) = pauseOf c) :
    Steady s₀ (s.updCourse w c f) := by
  refine h.updWy (congrArg (fun v => (_, _, _, _, _, v)) (funext fun k => ?_))
  simp only [kget_kupd]
  split
  · next hk => exact hk ▸ hf _
  · rfl
theorem updDs_of (h : Steady s₀ s) {w f} (hf : bootOf (f (s.ds w)) = bootOf (s.ds w)) : Steady s₀ (s.updDs w f) :=
  h.updWy (congrArg (fun v => (_, _, _, v, _, _)) hf)
theorem updDs (h : Steady s₀ s) {w f} (hf : ∀ d, bootOf (f d) = bootOf d) : Steady s₀ (s.updDs w f) :=
  h.updDs_of (hf _)
theorem updCtx (h : Steady s₀ s) {x f} : Steady s₀ (s.updCtx x f) := h.updWy rfl
theorem updTcb (h : Steady s₀ s) {w i f} : Steady s₀ (s.updTcb w i f) := h.updWy rfl
theorem updPort (h : Steady s₀ s) {w p f} : Steady s₀ (s.updPort w p f) := h.updWy rfl
theorem updColl (h : Steady s₀ s) {w f} : Steady s₀ (s.updColl w f) := h.updWy rfl
theorem updGalley (h : Steady s₀ s) {w f} : Steady s₀ (s.updGalley w f) := h.updWy rfl
theorem updPress (h : Steady s₀ s) {w f} : Steady s₀ (s.updPress w f) := h.updWy rfl
theorem updTie (h : Steady s₀ s) {w f} : Steady s₀ (s.updTie w f) := h.updWy rfl
theorem updTables (h : Steady s₀ s) {w f} : Steady s₀ (s.updTables w f) := h.updWy rfl
theorem updQuoin (h : Steady s₀ s) {w f} : Steady s₀ (s.updQuoin w f) := h.updWy rfl

theorem count (h : Steady s₀ s) {a n} : Steady s₀ (s.count a n) := .ite h h.setCtr
theorem raise (h : Steady s₀ s) {page bits} : Steady s₀ (s.raise page bits) := .ite h.wr h.wr.emit
theorem raiseBit (h : Steady s₀ s) {page i} : Steady s₀ (s.raiseBit page i) := h.raise
theorem drop (h : Steady s₀ s) {w p c} : Steady s₀ (s.drop w p c) := h.count.count
theorem enterIntake (h : Steady s₀ s) {w type r} : Steady s₀ (s.enterIntake w type r) := .ite (h.updDs fun _ => by rfl) (.count (h.updDs fun _ => by rfl))
theorem record (h : Steady s₀ s) {w type subject payload} : Steady s₀ (s.record w type subject payload) := .ite h.enterIntake h
theorem sealReq (h : Steady s₀ s) {w reason} : Steady s₀ (s.sealReq w reason) := .ite h.enterIntake h
theorem postFlags (h : Steady s₀ s) {w i t mask} : Steady s₀ (s.postFlags w i t mask) := h.updWy rfl
theorem postBindingsOf (h : Steady s₀ s) {w i kind index} : Steady s₀ (s.postBindingsOf w i kind index) :=
  .each h (fun _ _ h => .onlyIf h (fun _ h => h.postFlags))
theorem postBindings (h : Steady s₀ s) {w kind index} : Steady s₀ (s.postBindings w kind index) := .each h (fun _ _ h => h.postBindingsOf)
theorem postCourseBindings (h : Steady s₀ s) {w c kind index} : Steady s₀ (s.postCourseBindings w c kind index) :=
  .each h (fun _ _ h => h.postBindingsOf)
theorem interrupt (h : Steady s₀ s) {w i src} : Steady s₀ (s.interrupt w i src) := h.updCore fun _ => by rfl
theorem interruptEnabled (h : Steady s₀ s) {w src} : Steady s₀ (s.interruptEnabled w src) :=
  .each h (fun _ _ h => .onlyIf h (fun _ h => h.interrupt))
theorem notice (h : Steady s₀ s) {w code} : Steady s₀ (s.notice w code) := h.postBindings.interruptEnabled
theorem noteClamp (h : Steady s₀ s) {a n} : Steady s₀ (s.noteClamp a n) := .ite h (.ite (h.wr.updDs fun _ => by rfl) h.wr)
theorem setBankByte (h : Steady s₀ s) {w c off v} : Steady s₀ (s.setBankByte w c off v) := h.updCourse fun _ => by rfl
theorem setBankBytes (h : Steady s₀ s) {w c off v} : Steady s₀ (s.setBankBytes w c off v) := .each h (fun _ _ h => .ite h.setBankByte h)
theorem updPool (h : Steady s₀ s) {w p f} : Steady s₀ (s.updPool w p f) := h.updGalley
theorem refDown (h : Steady s₀ s) {w hd} : Steady s₀ (s.refDown w hd) := .ite h.count (.ite h.count (.ite h.updPool.count h.updPool))
theorem layBacking (h : Steady s₀ s) {view w dram} : Steady s₀ (s.layBacking view w dram) :=
  .each h (fun _ _ h => .ite h.updPool (.ite h.updPool h))
theorem setRelay (h : Steady s₀ s) {w dram r} : Steady s₀ (s.setRelay w dram r) := h.updGalley
theorem retirePools (h : Steady s₀ s) {w dram} : Steady s₀ (s.retirePools w dram) := .each h (fun _ _ h => .ite h.updPool h)
theorem relaySwitch (h : Steady s₀ s) {w dram first} : Steady s₀ (s.relaySwitch w dram first) := by
  unfold State.relaySwitch
  refine .ite h.layBacking ?_
  split
  · exact h.retirePools.setRelay
  · exact h.retirePools.setRelay
  · exact h.setRelay
theorem quoinFlag (h : Steady s₀ s) {w r} : Steady s₀ (s.quoinFlag w r) := by
  unfold State.quoinFlag
  split
  · exact h.postFlags
  · exact h
theorem quoinPump (h : Steady s₀ s) {w obj n} : Steady s₀ (State.quoinPump w obj n s) := by
  induction n generalizing s with
  | zero => exact h
  | succ n ih =>
    unfold State.quoinPump
    dsimp only
    split
    · exact h
    · exact .ite h (.ite (.ite h h.updQuoin.count) (ih h.updQuoin.count.quoinFlag))
theorem quoinPumpAll (h : Steady s₀ s) {w} : Steady s₀ (s.quoinPumpAll w) := .each h (fun _ _ h => h.quoinPump)
theorem quoinReset (h : Steady s₀ s) {w p} : Steady s₀ (s.quoinReset w p) :=
  .quoinPumpAll (.each (.ite h.updQuoin h.updQuoin.count.raiseBit) (fun _ _ h => h.quoinPump))
theorem quoinSwitch (h : Steady s₀ s) {w} : Steady s₀ (s.quoinSwitch w) := .quoinPumpAll (.each h (fun _ _ h => h.updQuoin.quoinFlag))
theorem updUnit (h : Steady s₀ s) {w c u f} : Steady s₀ (s.updUnit w c u f) := h.updCourse fun _ => by rfl
theorem cpGrant (h : Steady s₀ s) {w c u abandoned} : Steady s₀ (s.cpGrant w c u abandoned) := by
  unfold State.cpGrant
  split
  · exact h.updUnit
  · dsimp only
    split
    · exact h.updUnit.count.postFlags
    · exact h.updUnit.count
theorem cpFree (h : Steady s₀ s) {w c u abandoned} : Steady s₀ (s.cpFree w c u abandoned) :=
  .cpGrant (.onlyIf h.updUnit (fun _ h => h.count.raiseBit))
theorem cpRelease (h : Steady s₀ s) {w c u abandoned} : Steady s₀ (s.cpRelease w c u abandoned) := .ite h.updUnit h.cpFree
theorem cpSettle (h : Steady s₀ s) {w c u} : Steady s₀ (s.cpSettle w c u) := by
  unfold State.cpSettle
  split
  · exact h.cpRelease
  · exact h
theorem cpWorked (h : Steady s₀ s) {w c u least exact_} : Steady s₀ (s.cpWorked w c u least exact_) := .ite h.count h.draw.count
theorem cpKill (h : Steady s₀ s) {w c q} : Steady s₀ (s.cpKill w c q) :=
  .each (.each (.onlyIf (h.updCourse fun _ => by rfl) (fun _ h => h.count)) (fun _ _ h => h.cpWorked)) (fun _ _ h => h.cpSettle)
theorem cpReset (h : Steady s₀ s) {w c q} : Steady s₀ (s.cpReset w c q) := .each (h.cpKill.updCourse fun _ => by rfl) (fun _ _ h => by
  dsimp only
  split
  · exact .ite h.updUnit.cpRelease h.updUnit
  · exact h.updUnit)
theorem flightDone (h : Steady s₀ s) {w group} : Steady s₀ (s.flightDone w group) := by
  unfold State.flightDone
  split
  · exact h
  · exact h.updColl
theorem countStream (h : Steady s₀ s) {w c which n} : Steady s₀ (s.countStream w c which n) := by
  unfold State.countStream
  split
  · exact h
  · exact h.count
theorem releaseSegs (h : Steady s₀ s) {w c} : Steady s₀ (s.releaseSegs w c) := .each h (fun _ _ h => h.refDown)
theorem dropCopy (h : Steady s₀ s) {w c cause ctrOff} : Steady s₀ (s.dropCopy w c cause ctrOff) := by
  unfold State.dropCopy
  extract_lets s1 s2
  have h1 : Steady s₀ s1 := h.releaseSegs.flightDone.countStream
  have h2 : Steady s₀ s2 := by
    unfold s2
    split
    · exact h1.count
    · exact h1
  exact .ite h1.count.drop h2.drop
theorem setShaper (h : Steady s₀ s) {w p n v} : Steady s₀ (s.setShaper w p n v) := h.updPress
theorem creditSettle (h : Steady s₀ s) {w p c} : Steady s₀ (s.creditSettle w p c) := .ite h.setShaper h
theorem setDeficit (h : Steady s₀ s) {w p c v} : Steady s₀ (s.setDeficit w p c v) := h.updPress
theorem queueLeft (h : Steady s₀ s) {w c} : Steady s₀ (s.queueLeft w c) := .ite h h.setDeficit.creditSettle
theorem dropQueued (h : Steady s₀ s) {w p cause} : Steady s₀ (s.dropQueued w p cause) :=
  .each (.each h.updPress (fun _ _ h => h.dropCopy)) (fun _ _ h => h.queueLeft)
theorem gateRefresh (h : Steady s₀ s) {w p} : Steady s₀ (s.gateRefresh w p) := .ite h (.each h.updPress (fun _ _ h => h.creditSettle))
theorem linkFalls (h : Steady s₀ s) {w p localFault remoteFault} : Steady s₀ (s.linkFalls w p localFault remoteFault) :=
  .ite h.updPort.count.raiseBit h.updPort
theorem bwCutShort (h : Steady s₀ s) {w p} : Steady s₀ (s.bwCutShort w p) := h.updPort
theorem updClock (h : Steady s₀ s) {w f} : Steady s₀ (s.updClock w f) := h.updWy rfl
theorem stepTo (h : Steady s₀ s) {w ns set} : Steady s₀ (s.stepTo w ns set) :=
  .each (.each (.maybe h.updClock.count.raiseBit (fun h => .maybe h (fun h => h.record.count))) (fun _ _ h => h.gateRefresh)) (fun _ _ h =>
    h.bwCutShort)
theorem setTables (h : Steady s₀ s) {w f} : Steady s₀ (s.setTables w f) := h.updTables
theorem countTable (h : Steady s₀ s) {w t i} : Steady s₀ (s.countTable w t i) := by
  unfold State.countTable
  split
  · exact h.count
  · exact h
theorem tableEcc (h : Steady s₀ s) {w t ecc} : Steady s₀ (s.tableEcc w t ecc) := by
  unfold State.tableEcc
  split
  · exact h.countTable
  · exact h.countTable.draw.wr.raiseBit
  · exact h
theorem trieLook (h : Steady s₀ s) {w v6 a n ecc} : Steady s₀ (s.trieLook w v6 a n ecc).2 := by
  unfold State.trieLook
  refine .ite2 h.count.tableEcc.count ?_
  dsimp only
  split
  · exact h.count.tableEcc.count
  · exact .ite2 h.count.tableEcc.count h.count.tableEcc.count
theorem learnRequest (h : Steady s₀ s) {w r err} : Steady s₀ (s.learnRequest w r err).2 :=
  .ite2 h.count (.ite2 h.count (.ite2 h.count h.setTables))
theorem learnLook (h : Steady s₀ s) {w r learn refresh ecc} : Steady s₀ (s.learnLook w r learn refresh ecc).2.2 := by
  unfold State.learnLook
  dsimp only
  split
  · exact .ite3 h.count.tableEcc.learnRequest h.count.tableEcc
  · exact .ite3 h.count.tableEcc.learnRequest h.count.tableEcc
  · exact .onlyIf h.count.tableEcc.setTables.count (fun _ h => h.count)
theorem indexLook (h : Steady s₀ s) {w i bornView ecc} : Steady s₀ (s.indexLook w i bornView ecc).2 := by
  unfold State.indexLook
  dsimp only
  split
  · exact h.count.tableEcc
  · exact h.count.tableEcc.count
  · exact h.count.tableEcc
theorem rootCopied (h : Steady s₀ s) {w} : Steady s₀ (s.rootCopied w) := h.setTables
theorem switchTrie (h : Steady s₀ s) {w copied} : Steady s₀ (s.switchTrie w copied) := .setTables (.ite h h.rootCopied)
theorem freeSlot (h : Steady s₀ s) {w i} : Steady s₀ (s.freeSlot w i) := h.updColl
theorem leaveOrder (h : Steady s₀ s) {w d i} : Steady s₀ (s.leaveOrder w d i) := h.updColl
theorem discardDone (h : Steady s₀ s) {w i x} : Steady s₀ (s.discardDone w i x) := h.refDown.count.freeSlot.flightDone
theorem passDiscarded (h : Steady s₀ s) {w d n} : Steady s₀ (State.passDiscarded w d n s) := by
  induction n generalizing s with
  | zero => exact h
  | succ n ih =>
    unfold State.passDiscarded
    split
    · exact .ite (ih h.leaveOrder.discardDone) h
    · exact h
theorem discardSlot (h : Steady s₀ s) {w i serial} : Steady s₀ (s.discardSlot w i serial) := by
  unfold State.discardSlot
  split
  · exact h
  · refine .ite h ?_
    split
    · exact h.updColl.passDiscarded
    · exact h.discardDone
    · exact h
theorem takeSlot (h : Steady s₀ s) {w b} : Steady s₀ (s.takeSlot w b) :=
  have hfree := bootOf_ringFree (s.ds w)
  .maybe (.ite (h.updDs_of hfree) (h.updDs_of hfree).count.raiseBit) (fun h => h.raiseBit.notice)
theorem appendNotice (h : Steady s₀ s) {w type} : Steady s₀ (s.appendNotice w type) := by
  unfold State.appendNotice
  split
  · exact h.notice
  · exact h.notice
  · exact h.notice
  · exact h.notice
  · exact h
theorem appendRecord (h : Steady s₀ s) {w type subject time payload off missed} :
    Steady s₀ (s.appendRecord w type subject time payload off missed) :=
  .appendNotice (.count (.takeSlot (h.updDs fun _ => by rfl)))
theorem periodicSeal (h : Steady s₀ s) {w} : Steady s₀ (s.periodicSeal w) := .ite h h.sealReq
theorem snapOne (h : Steady s₀ s) {w all kind index ctrs tail} : Steady s₀ (s.snapOne w all kind index ctrs tail) := .ite h.record h
theorem snapStream (h : Steady s₀ s) {w all k stream} : Steady s₀ (s.snapStream w all k stream) := h.snapOne
theorem snapRound (h : Steady s₀ s) {w all} : Steady s₀ (s.snapRound w all) :=
  .updDs (hf := fun _ => by simp only [bootOf]) (.snapOne (.each (.each (.each (.each h (fun _ _ h => h.snapOne)) (fun _ _ h =>
    .ite h.snapStream h)) (fun _ _ h => .each h (fun _ _ h => h.snapOne))) (fun _ _ h => h.snapOne)))
theorem updDram (h : Steady s₀ s) {w f} : Steady s₀ (s.updDram w f) := h.updWy rfl
theorem updCh (h : Steady s₀ s) {w c f} : Steady s₀ (s.updCh w c f) := h.updDram
theorem dramPlumb (h : Steady s₀ s) {w entering} : Steady s₀ (s.dramPlumb w entering) :=
  .maybe (.onlyIf h (fun _ h => h.raiseBit)) (fun h => .each h (fun _ _ h => h.updCh))
theorem enterMode (h : Steady s₀ s) {w m} : Steady s₀ (s.enterMode w m) :=
  .ite h (.onlyIf (.maybe (.count (.raiseBit (.each (.updWy (.onlyIf h (fun _ h => .each h (fun _ _ h => h.updCore fun _ => by rfl))) (by rfl)) (fun _ _ h =>
    h.interrupt)))) (fun h => h.withModes (by rfl))) (fun _ h => h.dramPlumb))
theorem tieOriginal (h : Steady s₀ s) {t} : Steady s₀ (s.tieOriginal t) := h.releaseSegs.flightDone
theorem tieFree (h : Steady s₀ s) {w t} : Steady s₀ (s.tieFree w t) := .updColl (.each h (fun _ _ h => h.refDown))
theorem tieFalls (h : Steady s₀ s) {w why} : Steady s₀ (s.tieFalls w why) :=
  .maybe (.record (.raiseBit (.count (.each (.each h.updTie (fun _ _ h => h.tieOriginal.drop)) (fun _ _ h =>
    h.tieOriginal.tieFree.drop.count))))) (fun h => h.withModes (by rfl))
theorem rejoinComplete (h : Steady s₀ s) : Steady s₀ s.rejoinComplete :=
  .each (.orElse (.each h (fun _ _ h => .ite h.updTie.enterMode h.updTie)) (fun h => h.stepTo)) (fun _ _ h => h.record.snapRound.raiseBit)
theorem unquiet (h : Steady s₀ s) {w c} : Steady s₀ (s.unquiet w c) := h.updCourse fun _ => by rfl
theorem setCtxState (h : Steady s₀ s) {x st} : Steady s₀ (s.setCtxState x st) :=
  .onlyIf (.onlyIf (.onlyIf (by split; exacts [h.updCtx.updTcb, h.updCtx]) (fun _ h => h.interrupt)) (fun _ h => h.unquiet)) (fun _ h =>
    h.raiseBit)
theorem lookWord (h : Steady s₀ s) {x p ecc} : Steady s₀ (s.lookWord x p ecc).2.2 := by
  unfold State.lookWord
  split
  · exact h.trieLook
  · exact h.trieLook
  · exact h.learnLook
  · exact h.indexLook
theorem completeIssued (h : Steady s₀ s) {x} : Steady s₀ (s.completeIssued x) := .updCtx (.each h (fun _ _ h => h.lookWord))
theorem freshTiming (h : Steady s₀ s) {x} : Steady s₀ (s.freshTiming x) := h.updCore fun _ => by rfl
theorem updTask (h : Steady s₀ s) {k t f} : Steady s₀ (s.updTask k t f) := h.updTcb
theorem stamp (h : Steady s₀ s) {k} : Steady s₀ (s.stamp k).2 := h.updCourse fun _ => by rfl
theorem becomeReady (h : Steady s₀ s) {k t} : Steady s₀ (s.becomeReady k t) := h.stamp.updTask.unquiet.updCore fun _ => by rfl
theorem beginSwap (h : Steady s₀ s) {x save t slug} : Steady s₀ (s.beginSwap x save t slug) := by
  unfold State.beginSwap
  dsimp only
  split
  · exact .updTask (.updTask (.updCtx (h.updCore fun _ => by rfl)))
  · exact .updCtx (.updTask (.updCtx (h.updCore fun _ => by rfl)))
theorem updChan (h : Steady s₀ s) {w c ch f} : Steady s₀ (s.updChan w c ch f) := h.updCourse fun _ => by rfl
theorem chanDeliver (h : Steady s₀ s) {w c ch aborted} : Steady s₀ (s.chanDeliver w c ch aborted) :=
  .ite h.updChan h.updChan.postCourseBindings
theorem forceClose (h : Steady s₀ s) {w c ch} : Steady s₀ (s.forceClose w c ch) := by
  unfold State.forceClose
  dsimp only
  split
  · exact h
  · exact .maybe h.chanDeliver.count.raiseBit (fun h => h.record)
theorem closeOwned (h : Steady s₀ s) {w c q} : Steady s₀ (s.closeOwned w c q) := .each h (fun _ _ h => .onlyIf h (fun _ h => h.forceClose))
theorem discardSlug (h : Steady s₀ s) {w i g} : Steady s₀ (s.discardSlug w i g) := h.discardSlot.count
theorem emptyContext (h : Steady s₀ s) {x} : Steady s₀ (s.emptyContext x) :=
  .setCtxState (.updCtx (.freshTiming (.completeIssued (.ite h.withDbgUnit h))))
theorem endHoldings (h : Steady s₀ s) {k t slugs} : Steady s₀ (s.endHoldings k t slugs) :=
  .each h.cpReset.closeOwned.quoinReset (fun _ _ h => h.discardSlug)
theorem makeTask (h : Steady s₀ s) {k t entry prio taker pin} : Steady s₀ (s.makeTask k t entry prio taker pin) := by
  unfold State.makeTask
  dsimp only
  split
  · exact h.updTask.becomeReady
  · exact h.updTask.updTask.beginSwap
theorem freshCtx (h : Steady s₀ s) {x st pcx} : Steady s₀ (s.freshCtx x st pcx) := h.updCtx.withFree
theorem createTable (h : Steady s₀ s) {k b} : Steady s₀ (s.createTable k b) := .each h (fun _ _ h => .ite h.makeTask h)
theorem endTasks (h : Steady s₀ s) {k} : Steady s₀ (s.endTasks k) :=
  .updCore (.each (.each (.each h (fun _ _ h => .ite h h.endHoldings.updTask)) (fun _ _ h => h.discardSlug)) (fun _ _ h => h.emptyContext)) fun _ => by rfl
theorem startCore (h : Steady s₀ s) {k} : Steady s₀ (s.startCore k) := by
  unfold State.startCore
  dsimp only
  split
  · exact .createTable (.each (.withFree (h.updCore fun _ => by rfl)) (fun _ _ h => h.freshCtx))
  · exact .each (.withFree (h.updCore fun _ => by rfl)) (fun _ _ h => h.freshCtx)
theorem shaperResetDue (h : Steady s₀ s) {old w p n} : Steady s₀ (State.shaperResetDue old s w p n) := .ite h h.updPress
theorem portRestart (h : Steady s₀ s) {old w p} : Steady s₀ (State.portRestart old s w p) :=
  .each h.linkFalls.dropQueued.updPort (fun _ _ h => h.shaperResetDue)
theorem ledgerLock (h : Steady s₀ s) {w n prev digest} : Steady s₀ (s.ledgerLock w n prev digest) := h.record.sealReq
theorem ledgerOff (h : Steady s₀ s) {w} : Steady s₀ (s.ledgerOff w) :=
  .onlyIf (.each (h.updDs fun _ => by rfl) (fun _ _ h => by split <;> exact h.enterIntake)) (fun _ h => h.raiseBit)


end Steady

end Sys2Proof.Machine.State

end

/-!
# What a start leaves as it is

Once its Datestones have started or refused their firmware, nothing of a start changes whether they have, their boot
numbers, or the requests that the mode unit holds (`begun`): not the restoration of a forme, its lock-up, the load of
its images or the modes entered.
-/

section

namespace Sys2Proof.Machine.State

namespace Steady
variable {s₀ s t : State} {w : WytheIx}

/-- A table's command leaves all of it standing. -/
theorem inTables (h : Steady s₀ s) (ht : InTables w s t) : Steady s₀ t := by
  refine h.other ?_
  have hsame : ∀ u : State, standing u = standing (u.updTables w (fun _ => {})).essence := by
    intro u
    rcases wythe_cases w with rfl | rfl <;> rfl
  rw [hsame t, hsame s]
  exact congrArg standing ht

theorem runCmd (h : Steady s₀ s) {t c} : Steady s₀ (s.runCmd w t c).2 := h.inTables (.runCmd (.refl s _))
theorem flushSession (h : Steady s₀ s) : Steady s₀ (s.flushSession w) := h.inTables (.flushSession (.refl s _))

theorem setProof (h : Steady s₀ s) {f} : Steady s₀ (s.setProof f) := h.other rfl
theorem keepUnsigned (h : Steady s₀ s) {payload} : Steady s₀ (s.keepUnsigned payload) := h.setProof
theorem holdFailed (h : Steady s₀ s) {mask quads} : Steady s₀ (s.holdFailed mask quads) :=
  .each (.each (.each h.setProof (fun _ _ h => .each h (fun _ _ h => .onlyIf h (fun _ h => h.updCourse fun _ => by rfl))))
    (fun _ _ h => .each h (fun _ _ h => h.linkFalls))) (fun _ _ h => .onlyIf h (fun _ h => h.updDram))
theorem proofMeasured (h : Steady s₀ s) {why parts result mask quads duration temp} :
    Steady s₀ (s.proofMeasured why parts result mask quads duration temp) :=
  .holdFailed (.raiseBit (.onlyIf (.onlyIf (.count (.onlyIf (.each h.setProof (fun _ _ h => h.record)) (fun _ h => h.keepUnsigned)))
    (fun _ h => h.count.raiseBit)) (fun _ h => h.count)))
theorem freshness (h : Steady s₀ s) {temp} : Steady s₀ (s.freshness temp).2 := h.setProof
theorem trainDram (h : Steady s₀ s) {warm i failed} : Steady s₀ (s.trainDram w warm i failed) :=
  .onlyIf (.orElse (.each h.updDram (fun _ _ h => h.updCh)) (fun h => h.other (by rfl))) (fun _ h => h.raiseBit)
theorem applyKept (h : Steady s₀ s) : Steady s₀ s.applyKept :=
  .each (.each h (fun _ _ h => h.updClock)) (fun _ _ h => .each h (fun _ _ h => h.updCourse fun _ => by rfl))
theorem openOutputs (h : Steady s₀ s) : Steady s₀ (s.openOutputs w) := h.updWy rfl
theorem enterOrHalf (h : Steady s₀ s) {m} : Steady s₀ (s.enterOrHalf m) :=
  .each h (fun _ _ h => .ite (.enterMode (h.updWy (by rfl))) h.enterMode)
theorem resumeLost (h : Steady s₀ s) : Steady s₀ (s.resumeLost w).2 := .updDs (.each h fun _ _ h => h.setCtr) fun _ => rfl
theorem verifyImage (h : Steady s₀ s) {course b} : Steady s₀ (s.verifyImage course b).2 := h.count.record

end Steady

/-! ### What a start has begun -/

/-- The requests before the mode unit, and the Datestones' starts. -/
def begun (s : State) := (requests s.modes, bootOf s.w0.ds, bootOf s.w1.ds)

/-- What `s` has begun stays so in `t`. -/
abbrev Begun : State → State → Prop := Same begun

namespace Begun
variable {s₀ s t : State} {w : WytheIx}

theorem refl (s : State) : Begun s s := rfl
theorem other (h : Begun s₀ s) (e : begun t = begun s) : Begun s₀ t := e.trans h

theorem steady (h : Begun s₀ s) (ht : Steady s t) : Begun s₀ t := by
  refine h.other ?_
  simp only [Same, standing, standingOf, Prod.mk.injEq] at ht
  obtain ⟨-, -, -, -, hrequests, ⟨-, -, -, h0, -⟩, -, -, -, h1, -⟩ := ht
  simp only [begun, hrequests, h0, h1]

theorem ite {c : Prop} {_ : Decidable c} (h : Begun s₀ s) (h' : Begun s₀ t) : Begun s₀ (if c then s else t) :=
  iteInduction (motive := Begun s₀) (fun _ => h) (fun _ => h')
theorem each {α : Type} {f : State → α → State} {l : List α} (h : Begun s₀ s) (hf : ∀ s e, Begun s₀ s → Begun s₀ (f s e)) :
    Begun s₀ (s.each l f) := each_induct (Begun s₀) f hf l s h
theorem onlyIf {b : Bool} {f : State → State} (h : Begun s₀ s) (hf : ∀ s, Begun s₀ s → Begun s₀ (f s)) : Begun s₀ (s.onlyIf b f) :=
  .ite (hf s h) h

theorem setForme (h : Begun s₀ s) {f} : Begun s₀ (s.setForme f) := h.other rfl
theorem setModes (h : Begun s₀ s) {f} (hf : requests (f s.modes) = requests s.modes) : Begun s₀ (s.setModes f) :=
  h.other (congrArg (fun v => (v, _, _)) hf)
theorem updWy (h : Begun s₀ s) {f} (hf : ∀ y, bootOf (f y).ds = bootOf y.ds) : Begun s₀ (s.updWy w f) := by
  refine h.other ?_
  rcases wythe_cases w with rfl | rfl
  · exact congrArg (fun v => (requests s.modes, v, bootOf s.w1.ds)) (hf s.w0)
  · exact congrArg (fun v => (requests s.modes, bootOf s.w0.ds, v)) (hf s.w1)
theorem updCore (h : Begun s₀ s) {i f} : Begun s₀ (s.updCore w i f) := h.updWy fun _ => rfl
theorem updCourse (h : Begun s₀ s) {c f} : Begun s₀ (s.updCourse w c f) := h.updWy fun _ => rfl
theorem updPress (h : Begun s₀ s) {f} : Begun s₀ (s.updPress w f) := h.updWy fun _ => rfl
theorem count (h : Begun s₀ s) {a n} : Begun s₀ (s.count a n) := h.steady (.count (.refl s))
theorem noteClamp (h : Begun s₀ s) {a n} : Begun s₀ (s.noteClamp a n) := h.steady (.noteClamp (.refl s))

/-! A forme restored -/

theorem restoreOne (h : Begun s₀ s) {e} : Begun s₀ (s.restoreOne e) := .ite (h.other rfl) (.ite (h.other rfl) h)
theorem restoreKept (h : Begun s₀ s) : Begun s₀ s.restoreKept := .steady (.each h fun _ _ h => h.restoreOne) (.applyKept (.refl _))
theorem stageWord (h : Begun s₀ s) {a v} : Begun s₀ (s.stageWord a v) :=
  h.trans (same_stageWord (view := begun) (fun _ _ => rfl) (fun s _ _ => Begun.noteClamp (refl s)) s a v)
theorem holdImage (h : Begun s₀ s) {course mask b} : Begun s₀ (s.holdImage course mask b) := .each h fun _ _ h => h.updCore
theorem applyEntry (h : Begun s₀ s) {b : Bytes} {r : Bytes × State} (hr : s.applyEntry b = some r) : Begun s₀ r.2 := by
  unfold State.applyEntry at hr
  split at hr
  · exact Option.some.inj hr ▸ h.stageWord
  · exact Option.some.inj hr ▸ .ite (h.steady (.runCmd (.refl s))) h
  · exact Option.some.inj hr ▸ h
  · have hverified : Begun s₀ (s.verifyImage (beAt b 1 1) (slice b 7 (beAt b 3 4))).2 := h.steady (.verifyImage (.refl s))
    exact Option.some.inj hr ▸ .ite hverified.holdImage hverified.setForme
  · cases hr
theorem applyEntries (h : Begun s₀ s) {n b} : Begun s₀ (State.applyEntries n b s) := by
  induction n generalizing b s with
  | zero => exact h
  | succ n ih =>
    unfold State.applyEntries
    split
    · exact h
    · next e => exact ih (h.applyEntry e)
theorem sessionOpens (h : Begun s₀ s) {n} : Begun s₀ (s.sessionOpens n) := .each h.setForme fun s _ h => h.steady (.updTables (.refl s))
theorem restoreSlot (h : Begun s₀ s) {b} : Begun s₀ (s.restoreSlot b) :=
  .setForme (.applyEntries (.each h.sessionOpens fun s _ h => h.steady (.rootCopied (.refl s))))

/-! Its lock-up -/

theorem gateSwitch (h : Begun s₀ s) {p} : Begun s₀ (s.gateSwitch w p) := .ite h.updPress (.ite h.updPress (.noteClamp (.other h.updPress (by rfl))))
theorem switchReg (h : Begun s₀ s) {old a} : Begun s₀ (State.switchReg old s a) := by
  unfold State.switchReg
  dsimp only
  split
  · exact h
  · exact .ite (h.steady (.shaperResetDue (.refl s))) (.ite h.updPress (.ite (h.steady (.portRestart (.refl s)))
      (.ite h.updCourse (.ite (h.steady (.snapStream (.refl s))) h))))
theorem pauseCourses (h : Begun s₀ s) : Begun s₀ (s.pauseCourses w) :=
  .each h fun _ _ h => .each (.onlyIf h fun _ h => h.updCourse) fun _ _ h => h.updCore
theorem switchWythe (h : Begun s₀ s) {before n digest} : Begun s₀ (State.switchWythe before n digest s w) := by
  unfold State.switchWythe
  extract_lets old s1 s2 s3 s4 s5 s6
  have h1 : Begun s₀ s1 := h.updWy fun _ => rfl
  have h3 : Begun s₀ s3 := h1.steady (.ledgerLock (.switchTrie (.refl s1)))
  have h4 : Begun s₀ s4 := h3.steady (.each (.refl s3) fun _ _ h => .onlyIf h fun _ h => h.relaySwitch)
  have h5 : Begun s₀ s5 := h4.pauseCourses.steady (.quoinSwitch (.refl _))
  have h6 : Begun s₀ s6 := .each h5 fun _ _ h => .onlyIf h fun _ h => h.gateSwitch
  exact h6.updWy fun _ => rfl
theorem persistDone (h : Begun s₀ s) {b code} : Begun s₀ (s.persistDone b code) := .ite h.setForme.count h.setForme.count
theorem persistStarts (h : Begun s₀ s) {n} : Begun s₀ (s.persistStarts n) := .ite h.persistDone (.ite h.persistDone h.setForme)
theorem lockUp (h : Begun s₀ s) {n persist digest} : Begun s₀ (s.lockUp n persist digest) := by
  unfold State.lockUp
  extract_lets ws changed forme s1 s2 s3 s4 s5 s6
  have h2 : Begun s₀ s2 := .each (s := s1) (h.other rfl) fun _ _ h => h.switchWythe
  have h4 : Begun s₀ s4 := .each (.each h2 fun _ _ h => h.switchReg) fun s _ h => h.steady (.wr (.refl s))
  have h5 : Begun s₀ s5 := h4.count.setForme
  have h6 : Begun s₀ s6 := .ite (h5.steady (.rejoinComplete (.refl s5))) h5
  exact .onlyIf h6 fun _ h => h.persistStarts

/-! The load of its images -/

theorem loadSections (h : Begun s₀ s) {k b} : Begun s₀ (s.loadSections k b) :=
  .each h fun _ _ h => .each h fun s _ h => .ite h.updCore (.ite h.updCore (h.steady (.setBankBytes (.refl s))))
theorem loadCourse (h : Begun s₀ s) {c} : Begun s₀ (s.loadCourse w c) := by
  unfold State.loadCourse
  extract_lets ks s1 s2 s3 s4 s5
  have h2 : Begun s₀ s2 := h.steady (.closeOwned (.each (.refl s) fun _ _ h => h.endTasks.cpReset.quoinReset))
  have h4 : Begun s₀ s4 := .each (.each h2 fun _ _ h => h.updCore) fun _ _ h => by
    split
    · exact h.loadSections
    · exact h
  exact .each h4.updCourse fun s _ h => h.steady (.startCore (.each (.refl s) fun _ _ h => h.updCtx))
theorem imageLoads (h : Begun s₀ s) {c} : Begun s₀ (s.imageLoads w c) := .ite h (.ite h.loadCourse h.updCourse)

/-! The rest of the start -/

theorem lockRestored (h : Begun s₀ s) : Begun s₀ s.lockRestored.2 := by
  unfold State.lockRestored
  extract_lets n code s1
  have h1 : Begun s₀ s1 := h.lockUp
  clear_value s1
  split
  · dsimp only
    exact .each h1 fun _ _ h => .each h fun _ _ h => h.imageLoads
  · exact h.setForme.count

end Begun

end Sys2Proof.Machine.State

end

/-!
# Resets, power and the start

What a reset, the loss of the rails or of VKEEP leaves (R479, R480, R552, R553), and the outcome of a start (R481,
R482, R385).
-/

section

namespace Sys2Proof.Machine

namespace State

variable {s t : State} {w : WytheIx}

/-! ### Resets and power -/

/-- The counters that a reset keeps stand as they were, and the others are 0 (R367). -/
theorem ctr_filter (s : State) (p : Nat → Bool) (b : Nat) :
    { s with counters := s.counters.filter (fun e => p e.1) }.ctr b = if p b then s.ctr b else 0 :=
  sget_filter_key (fun _ => 0) p s.counters b

/-- What a reset of a powered device leaves (R62, R479, R480). -/
def Restarted (s t : State) (code : Nat) : Prop :=
  t.modes.startDue = true ∧ t.modes.causes = s.modes.causes ||| 2 ^ (code - 1) ∧ t.keep = s.keep ∧ t.staged = [] ∧
    t.active = [] ∧ t.forme.flash = s.forme.flash ∧ t.forme.lockCount = s.forme.lockCount ∧
    (∀ w, (t.wy w).mode = .proof ∧ (t.wy w).forme = 0 ∧ (t.wy w).cores = [] ∧ (t.wy w).rx = [] ∧ (t.wy w).repairs = (s.wy w).repairs ∧
      (t.ds w).head = (s.ds w).head ∧ (t.ds w).nextSeq = (s.ds w).nextSeq ∧ (t.ds w).ring = (s.ds w).ring ∧ (t.ds w).lc = (s.ds w).lc ∧
      (t.ds w).imageKeys = (s.ds w).imageKeys) ∧
    ∀ b, t.ctr b = if keptCounter b then s.ctr b else 0

theorem resetWith_restarted (hpowered : s.powered = true) (hbrace : s.proof.bracing = false) (code : Nat) :
    Restarted s (s.resetWith code) code := by
  have hrun : ¬ (!s.powered || s.proof.bracing) = true := by simp [hpowered, hbrace]
  unfold resetWith
  rw [if_neg hrun]
  refine ⟨rfl, rfl, rfl, rfl, rfl, rfl, rfl, fun w => ?_, ctr_filter s keptCounter⟩
  rcases wythe_cases w with rfl | rfl <;> exact ⟨rfl, rfl, rfl, rfl, rfl, rfl, rfl, rfl, rfl, rfl⟩

theorem resetCmd_acts {a : Agent} {v : W32} (hreach : s.reachGlobal a = true) (hkey : fld v 31 16 = 0xA55A) (hreset : flag v 0 = true) :
    Machine.exec (.resetCmd a v) s = .next (s.resetWith 6) :=
  congrArg Host.Outcome.next ((if_pos hreach).trans (if_pos ⟨hkey, hreset⟩))

theorem resetCmd_ignored {a : Agent} {v : W32} (hreach : s.reachGlobal a = true) (hkey : fld v 31 16 ≠ 0xA55A ∨ flag v 0 = false) :
    Machine.exec (.resetCmd a v) s = .next s := by
  refine congrArg Host.Outcome.next ((if_pos hreach).trans (if_neg ?_))
  rintro ⟨hk, hr⟩
  rcases hkey with h | h
  · exact h hk
  · rw [h] at hr
    cases hr

theorem mainRailsFall_spec (hup : s.modes.railsUp = true) : Completes .mainRailsFall s (fun t =>
    t.modes.railsUp = false ∧ t.modes.startDue = false ∧ t.keep = s.keep ∧
      (∀ w, (t.wy w).mode = .off ∧ (t.ds w).head = (s.ds w).head ∧ (t.ds w).ring = (s.ds w).ring ∧ (t.ds w).lc = (s.ds w).lc) ∧
      ∀ b, t.ctr b = if keptCounter b then s.ctr b else 0) := by
  have hrun : ¬ (!s.modes.railsUp) = true := by simp [hup]
  refine ⟨_, congrArg Host.Outcome.next (if_neg hrun), rfl, rfl, rfl, fun w => ?_, ctr_filter s keptCounter⟩
  rcases wythe_cases w with rfl | rfl <;> exact ⟨rfl, rfl, rfl, rfl⟩

theorem powerOn_spec (hdown : s.modes.railsUp = false) : Completes .powerOn s (fun t =>
    t.modes.railsUp = true ∧ t.modes.startDue = true ∧ t.modes.vkeep = true ∧ t.modes.causes = (if s.modes.keepValid then 2 else 0) ∧
      (∀ w, (t.wy w).mode = .proof ∧ t.ds w = s.ds w) ∧ t.keep = s.keep) := by
  have hrun : ¬ s.modes.railsUp = true := by simp [hdown]
  refine ⟨_, congrArg Host.Outcome.next (if_neg hrun), rfl, rfl, rfl, rfl, fun w => ?_, rfl⟩
  rcases wythe_cases w with rfl | rfl <;> exact ⟨rfl, rfl⟩

theorem vkeepLoss_spec (s : State) : Completes .vkeepLoss s (fun t =>
    t.keep = [] ∧ t.modes.vkeep = false ∧ t.proof.record = [] ∧ (∀ b, t.ctr b = if keptCounter b then 0 else s.ctr b) ∧
      ∀ w, (t.ds w).ring = [] ∧ (t.ds w).head = [] ∧ (t.ds w).lc = (s.ds w).lc ∧ (t.ds w).imageKeys = (s.ds w).imageKeys ∧
        (t.ds w).boot = (s.ds w).boot ∧ (t.wy w).repairs = []) := by
  refine ⟨_, rfl, rfl, rfl, rfl, fun b => ?_, fun w => ?_⟩
  · refine (ctr_filter s (fun k => !keptCounter k) b).trans ?_
    cases keptCounter b <;> rfl
  · rcases wythe_cases w with rfl | rfl <;> exact ⟨rfl, rfl, rfl, rfl, rfl, rfl⟩

/-! ### The modes that a start enters -/

theorem mode_enterMode (s : State) (w : WytheIx) (m : DevMode) (v : WytheIx) :
    ((s.enterMode w m).wy v).mode = if v = w then m else (s.wy v).mode := by
  refine (congrArg Wythe.mode (alike_enterMode s w m v)).trans ?_
  rw [wy_updWy]
  split
  · rfl
  · rfl

theorem mode_each_enterMode (s : State) (m : DevMode) (w : WytheIx) : ((s.each wythes (fun s v => s.enterMode v m)).wy w).mode = m := by
  have hw : w ∈ wythes := by rcases wythe_cases w with rfl | rfl <;> decide
  refine each_of_mem (I := fun _ => True) (P := fun t => (t.wy w).mode = m) hw trivial (fun _ _ _ => trivial) (fun s _ => ?_) (fun s v _ hs => ?_)
  · rw [mode_enterMode, if_pos rfl]
  · rw [mode_enterMode]
    split
    · rfl
    · exact hs

/-- Each wythe enters the mode, or HALF in its place (R522). -/
theorem mode_enterOrHalf (s : State) (m : DevMode) (w : WytheIx) :
    ((s.enterOrHalf m).wy w).mode = .half ∨ ((s.enterOrHalf m).wy w).mode = m := by
  have hw : w ∈ wythes := by rcases wythe_cases w with rfl | rfl <;> decide
  refine each_of_mem (I := fun _ => True) (P := fun t => (t.wy w).mode = .half ∨ (t.wy w).mode = m) hw trivial (fun _ _ _ => trivial)
    (fun s _ => ?_) (fun s v _ hs => ?_)
  · split
    · exact .inl ((mode_enterMode _ w .half w).trans (if_pos rfl))
    · exact .inr ((mode_enterMode s w m w).trans (if_pos rfl))
  · by_cases hv : w = v
    · split
      · exact .inl ((mode_enterMode _ v .half w).trans (if_pos hv))
      · exact .inr ((mode_enterMode s v m w).trans (if_pos hv))
    · split
      · rwa [mode_enterMode, if_neg hv, wy_updWy_ne _ _ hv]
      · rwa [mode_enterMode, if_neg hv]

/-- The modes that a start enters. -/
abbrev EnteredAtStart (m : DevMode) : Prop := m ∈ [.setting, .run, .plumb, .half]

theorem entered_enterOrHalf (s : State) {m : DevMode} (hm : EnteredAtStart m) (w : WytheIx) : EnteredAtStart ((s.enterOrHalf m).wy w).mode := by
  rcases mode_enterOrHalf s m w with h | h
  · rw [h]
    decide
  · rwa [h]

theorem entered_of_forwards {m : DevMode} (h : forwards m = true) : EnteredAtStart m := by
  cases m <;> revert h <;> decide

theorem mode_openOutputs (s : State) (v w : WytheIx) : ((s.openOutputs v).wy w).mode = (s.wy w).mode := by
  unfold openOutputs
  rw [wy_updWy]
  split
  · next h => rw [h]
  · rfl

theorem entered_startForme (s : State) (last : DevMode) (inRange : Bool) (mask : W32) (quads : BitVec 12) (w : WytheIx) :
    EnteredAtStart ((s.startForme last inRange mask quads).wy w).mode := by
  unfold startForme
  split
  · exact entered_enterOrHalf s (by decide) w
  · extract_lets s1
    split
    · next hlast =>
      simp only [Bool.and_eq_true] at hlast
      split
      extract_lets s3
      split
      · refine each_induct (fun t => EnteredAtStart (t.wy w).mode) _ (fun t v ht => ?_) wythes _
          (entered_enterOrHalf s3 (entered_of_forwards hlast.1.1) w)
        rwa [mode_openOutputs]
      · exact entered_enterOrHalf _ (by decide) w
    · exact entered_enterOrHalf s1 (by decide) w

/-! ### Its Datestones -/

/-- Both firmwares are accepted, and both Datestones start (R385). -/
theorem startDatestones_accepted {i : StartInput} {r0 r1 : Bool × Bytes} (h0 : fwLoaded (s.ds 0) (s.ds 0).authkey i.fwA i.fwB = some r0)
    (h1 : fwLoaded (s.ds 1) (s.ds 0).authkey i.fwA i.fwB = some r1) (intact : Bool) (cause : Nat) :
    s.startDatestones i intact cause = (true, (s.startDatestone 0 intact r0.1 r0.2 cause).startDatestone 1 intact r1.1 r1.2 cause) := by
  simp only [startDatestones, h0, h1]

/-- A Datestone starts, with its next boot; the rest of its start changes neither. -/
theorem begun_startDatestone (s : State) (w : WytheIx) (intact copyB : Bool) (fw : Bytes) (cause : Nat) :
    Begun (s.updDs w (fun d => { d with started := true, boot := d.boot + 1 })) (s.startDatestone w intact copyB fw cause) := by
  unfold startDatestone
  extract_lets s1
  have h1 : Begun (s.updDs w (fun d => { d with started := true, boot := d.boot + 1 })) s1 := by
    rcases wythe_cases w with rfl | rfl <;> rfl
  exact h1.steady (.ledgerOff (.record (.updDs (.onlyIf (.ite2 (.refl s1) (.resumeLost (.refl s1))) fun _ h => h.appendRecord.periodicSeal)
    fun _ => by rfl)))

/-- Where a firmware is refused no Datestone starts: each wythe's refusal is noted, and nothing else stirs (R385, R386). -/
theorem startDatestones_refused {i : StartInput} (h : ((fwLoaded (s.ds 0) (s.ds 0).authkey i.fwA i.fwB).isSome &&
      (fwLoaded (s.ds 1) (s.ds 0).authkey i.fwA i.fwB).isSome) = false) (intact : Bool) (cause : Nat) :
    (s.startDatestones i intact cause).1 = false ∧ requests (s.startDatestones i intact cause).2.modes = requests s.modes ∧
      ∀ w, ((s.startDatestones i intact cause).2.ds w).fwRejected = (fwLoaded (s.ds w) (s.ds 0).authkey i.fwA i.fwB).isNone ∧
        ((s.startDatestones i intact cause).2.ds w).boot = (s.ds w).boot := by
  unfold startDatestones
  dsimp only
  split
  · next h0 h1 => simp [h0, h1] at h
  · refine ⟨rfl, rfl, fun w => ?_⟩
    rcases wythe_cases w with rfl | rfl <;> exact ⟨rfl, rfl⟩

/-! ### The start -/

/-- What a start does first: the causes are taken, and each wythe's outputs are closed. -/
def startBegins (s : State) (causes : Nat) : State :=
  (s.setModes (fun m => { m with
    startDue := false, causes := 0, keepValid := true, vkeep := true, resetCause := topCause causes, resetSeen := causes })).each wythes
      (fun t w => t.updWy w (fun y => { y with outputsClosed := true, tables := { y.tables with epochStart := s.now } }))

/-- The tie trains, or is lost. -/
def startTies (s : State) (trains : Bool) : State :=
  s.each wythes (fun s w => if trains then s.updTie w (fun k => { k with state := .up }) else s.tieFalls w .tieLost)

/-- How a start ends: with the forme kept, or in SETTING where firmware is refused. -/
def startEnds (s : State) (i : StartInput) (intact ok : Bool) : State :=
  if ok then s.startRest i intact else s.each wythes (fun s w => s.enterMode w .setting)

/-- A start up to what waits for its end. -/
def startRun (s : State) (i : StartInput) (intact : Bool) : State :=
  let r := (s.startBegins (s.startCauses intact)).startDatestones i intact (topCause (s.startCauses intact))
  (r.2.startTies i.tieTrains).startEnds i intact r.1

theorem startUp_eq {i : StartInput} (hup : s.modes.railsUp = true) (hdue : s.modes.startDue = true) (hpwr : s.modes.pwrfailN = true) :
    s.startUp i = (s.startRun i (s.modes.keepValid && i.retentionIntact)).changeEnds := by
  have hrun : ¬ (!s.modes.railsUp || !s.modes.startDue || !s.modes.pwrfailN) = true := by simp [hup, hdue, hpwr]
  unfold startUp
  rw [if_neg hrun]
  rfl

theorem startUp_idle {i : StartInput} (h : s.modes.railsUp = false ∨ s.modes.startDue = false ∨ s.modes.pwrfailN = false) : s.startUp i = s := by
  unfold startUp
  exact if_pos (by rcases h with h | h | h <;> simp [h])

/-- With nothing asked of the mode unit, the end of a change brings nothing. -/
theorem changeEnds_idle (hwaiting : s.modes.requestWaiting = false) (hdue : s.modes.shutdownDue = false) : s.changeEnds = s := by
  simp [changeEnds, hwaiting, hdue]

theorem steady_startTies (s : State) (trains : Bool) : Steady s (s.startTies trains) :=
  .each (.refl s) fun _ _ h => .ite h.updTie h.tieFalls

namespace Begun
variable {s₀ : State}

theorem startForme (h : Begun s₀ s) {last inRange mask quads} : Begun s₀ (s.startForme last inRange mask quads) := by
  unfold State.startForme
  split
  · exact h.steady (.enterOrHalf (.refl s))
  · extract_lets s1
    have h1 : Begun s₀ s1 := h.restoreSlot
    clear_value s1
    have h2 : Begun s₀ s1.lockRestored.2 := h1.lockRestored
    split
    · dsimp only
      split
      · refine .steady (h2.setModes ?_) (.each (.enterOrHalf (.refl _)) fun _ _ h => h.openOutputs)
        rfl
      · exact h2.steady (.enterOrHalf (.refl _))
    · exact h1.steady (.enterOrHalf (.refl s1))

theorem startRest (h : Begun s₀ s) {i intact} : Begun s₀ (s.startRest i intact) := by
  unfold State.startRest
  extract_lets slot modes s1 last s2
  have h1 : Begun s₀ s1 := by
    refine .ite h ?_
    clear_value slot
    cases slot with
    | none => exact h.other rfl
    | some v => exact h.other rfl
  have h2 : Begun s₀ s2 := h1.restoreKept.setModes rfl
  exact .startForme (.setModes (h2.steady (.each (.proofMeasured (.draw (.freshness (.refl s2)))) fun _ _ h => h.trainDram)) (by rfl))

theorem startEnds (h : Begun s₀ s) {i intact ok} : Begun s₀ (s.startEnds i intact ok) :=
  .ite h.startRest (h.steady (.each (.refl s) fun _ _ h => h.enterMode))

end Begun

theorem enteredAtStart_startEnds (s : State) (i : StartInput) (intact ok : Bool) (w : WytheIx) :
    EnteredAtStart ((s.startEnds i intact ok).wy w).mode := by
  unfold startEnds
  split
  · exact entered_startForme _ _ _ _ _ w
  · rw [mode_each_enterMode]
    decide

/-- Both Datestones have started with their next boots. -/
theorem begun_startDatestones {i : StartInput} {r0 r1 : Bool × Bytes} (h0 : fwLoaded (s.ds 0) (s.ds 0).authkey i.fwA i.fwB = some r0)
    (h1 : fwLoaded (s.ds 1) (s.ds 0).authkey i.fwA i.fwB = some r1) (intact : Bool) (cause : Nat) :
    begun (s.startDatestones i intact cause).2 = (requests s.modes, (true, s.w0.ds.boot + 1), (true, s.w1.ds.boot + 1)) := by
  have hfirst : begun (s.startDatestone 0 intact r0.1 r0.2 cause) = (requests s.modes, (true, s.w0.ds.boot + 1), bootOf s.w1.ds) :=
    begun_startDatestone s 0 intact r0.1 r0.2 cause
  rw [startDatestones_accepted h0 h1]
  refine Eq.trans (begun_startDatestone (s.startDatestone 0 intact r0.1 r0.2 cause) 1 intact r1.1 r1.2 cause) ?_
  generalize s.startDatestone 0 intact r0.1 r0.2 cause = u at hfirst
  simp only [begun, bootOf, Prod.mk.injEq] at hfirst
  obtain ⟨hrequests, ⟨hs0, hb0⟩, -, hb1⟩ := hfirst
  change (requests u.modes, (u.w0.ds.started, u.w0.ds.boot), (true, u.w1.ds.boot + 1)) = _
  rw [hrequests, hs0, hb0, hb1]

/-- Whether a wythe's Datestone was refused its firmware, and its boot. -/
def refusalOf (y : Wythe) : Bool × W16 := (y.ds.fwRejected, y.ds.boot)

/-- What traffic there is does not matter to it. -/
theorem Alike.refusal (h : Alike sansTraffic s t) : Alike refusalOf s t := fun v =>
  show refusalOf (sansTraffic _) = refusalOf (sansTraffic _) from congrArg refusalOf (h v)

theorem alike_startTies (s : State) (trains : Bool) : Alike refusalOf s (s.startTies trains) := by
  refine .each (fun s w => ?_) wythes s
  split
  · exact .updWy s w fun _ => rfl
  · refine .trans ?_ (alike_tieFalls s w .tieLost).refusal
    exact .updWy s w fun _ => rfl

theorem alike_held (s : State) : Alike refusalOf s (s.each wythes (fun s w => s.enterMode w .setting)) := by
  refine .each (fun s w => ?_) wythes s
  refine .trans ?_ (alike_enterMode s w .setting).refusal
  exact .updWy s w fun _ => rfl

/-- A start whose firmware is refused holds both wythes in SETTING, its refusals noted and no boot counted (R385). -/
theorem startEnds_refused {i : StartInput} {intact : Bool} {cause : Nat} (trains : Bool)
    (h : ((fwLoaded (s.ds 0) (s.ds 0).authkey i.fwA i.fwB).isSome && (fwLoaded (s.ds 1) (s.ds 0).authkey i.fwA i.fwB).isSome) = false)
    (w : WytheIx) :
    let t := ((s.startDatestones i intact cause).2.startTies trains).startEnds i intact false
    (t.wy w).mode = .setting ∧ (t.ds w).fwRejected = (fwLoaded (s.ds w) (s.ds 0).authkey i.fwA i.fwB).isNone ∧
      (t.ds w).boot = (s.ds w).boot := by
  intro t
  obtain ⟨-, -, hds⟩ := startDatestones_refused h intact cause
  have hkept : refusalOf (t.wy w) = refusalOf ((s.startDatestones i intact cause).2.wy w) :=
    ((alike_startTies _ trains).trans (alike_held _)) w
  simp only [refusalOf, Prod.mk.injEq] at hkept
  exact ⟨mode_each_enterMode _ .setting w, hkept.1.trans (hds w).1, hkept.2.trans (hds w).2⟩

/-- Both firmwares are accepted at this start (R385, R386). -/
def bothAccepted (s : State) (i : StartInput) : Bool :=
  (fwLoaded (s.ds 0) (s.ds 0).authkey i.fwA i.fwB).isSome && (fwLoaded (s.ds 1) (s.ds 0).authkey i.fwA i.fwB).isSome

theorem ds_startBegins (s : State) (causes : Nat) (w : WytheIx) : (s.startBegins causes).ds w = s.ds w := by
  rcases wythe_cases w with rfl | rfl <;> rfl

/-- What the Datestones' starts have begun stays to the end of the start. -/
theorem begun_startRun (s : State) (i : StartInput) (intact : Bool) : begun (s.startRun i intact) =
    begun ((s.startBegins (s.startCauses intact)).startDatestones i intact (topCause (s.startCauses intact))).2 :=
  Begun.startEnds (.steady (.refl _) (steady_startTies _ i.tieTrains))

theorem begun_startRun_accepted {i : StartInput} {intact : Bool} (h : s.bothAccepted i = true) :
    begun (s.startRun i intact) = ((false, topCause (s.startCauses intact), 0, s.modes.requestWaiting, s.modes.shutdownDue),
      (true, s.w0.ds.boot + 1), (true, s.w1.ds.boot + 1)) := by
  simp only [bothAccepted, Bool.and_eq_true, Option.isSome_iff_exists] at h
  obtain ⟨⟨r0, h0⟩, r1, h1⟩ := h
  rw [← ds_startBegins s (s.startCauses intact) 0] at h0 h1
  rw [← ds_startBegins s (s.startCauses intact) 1] at h1
  exact (begun_startRun s i intact).trans (begun_startDatestones h0 h1 intact _)

theorem startRun_refused {i : StartInput} {intact : Bool} (h : s.bothAccepted i = false) :
    requests (s.startRun i intact).modes = (false, topCause (s.startCauses intact), 0, s.modes.requestWaiting, s.modes.shutdownDue) ∧
      ∀ w, ((s.startRun i intact).wy w).mode = .setting ∧
        ((s.startRun i intact).ds w).fwRejected = (fwLoaded (s.ds w) (s.ds 0).authkey i.fwA i.fwB).isNone ∧
        ((s.startRun i intact).ds w).boot = (s.ds w).boot := by
  have hu := ds_startBegins s (s.startCauses intact)
  have hrefused := h
  simp only [bothAccepted, ← hu] at hrefused
  obtain ⟨hok, hrequests, -⟩ := startDatestones_refused hrefused intact (topCause (s.startCauses intact))
  have hrun : s.startRun i intact = (((s.startBegins (s.startCauses intact)).startDatestones i intact
      (topCause (s.startCauses intact))).2.startTies i.tieTrains).startEnds i intact false := by
    simp only [startRun, hok]
  refine ⟨(congrArg Prod.fst (begun_startRun s i intact)).trans hrequests, fun w => ?_⟩
  rw [hrun, ← hu w, ← hu 0]
  exact startEnds_refused i.tieTrains hrefused w

/-- What a start with nothing asked of the mode unit comes to (R481, R482). -/
theorem startUp_spec {i : StartInput} (hup : s.modes.railsUp = true) (hdue : s.modes.startDue = true) (hpwr : s.modes.pwrfailN = true)
    (hwaiting : s.modes.requestWaiting = false) (hshut : s.modes.shutdownDue = false) :
    Completes (.startUp i) s (fun t => t.modes.startDue = false ∧
      t.modes.resetCause = topCause (s.startCauses (s.modes.keepValid && i.retentionIntact)) ∧ t.modes.causes = 0 ∧
      (∀ w, EnteredAtStart (t.wy w).mode) ∧
      (s.bothAccepted i = true → ∀ w, (t.ds w).started = true ∧ (t.ds w).boot = (s.ds w).boot + 1) ∧
      (s.bothAccepted i = false → ∀ w, (t.wy w).mode = .setting ∧
        (t.ds w).fwRejected = (fwLoaded (s.ds w) (s.ds 0).authkey i.fwA i.fwB).isNone ∧ (t.ds w).boot = (s.ds w).boot)) := by
  generalize hintact : (s.modes.keepValid && i.retentionIntact) = intact
  have hmodes : requests (s.startRun i intact).modes = (false, topCause (s.startCauses intact), 0, false, false) := by
    have hasked : (false, topCause (s.startCauses intact), 0, s.modes.requestWaiting, s.modes.shutdownDue) =
        (false, topCause (s.startCauses intact), 0, false, false) := by rw [hwaiting, hshut]
    refine Eq.trans ?_ hasked
    cases hb : s.bothAccepted i with
    | true => exact congrArg Prod.fst (begun_startRun_accepted hb)
    | false => exact (startRun_refused hb).1
  simp only [requests, Prod.mk.injEq] at hmodes
  obtain ⟨hdue', hcause, hcauses, hwaiting', hshut'⟩ := hmodes
  have hrun : s.startUp i = s.startRun i intact := hintact ▸ (startUp_eq hup hdue hpwr).trans (by rw [hintact]; exact changeEnds_idle hwaiting' hshut')
  refine ⟨_, congrArg Host.Outcome.next hrun, hdue', hcause, hcauses, enteredAtStart_startEnds _ i intact _, fun hb w => ?_,
    fun hb => (startRun_refused hb).2⟩
  have hboots := begun_startRun_accepted (intact := intact) hb
  simp only [begun, bootOf, Prod.mk.injEq] at hboots
  obtain ⟨-, h0, h1⟩ := hboots
  rcases wythe_cases w with rfl | rfl
  · exact h0
  · exact h1

end State

/-- Settles O45: each clause is the lemma of its command. -/
theorem resetsAndPower : Obligations.ResetsAndPower := by
  unfold Obligations.ResetsAndPower
  intro s
  refine ⟨fun hpowered hbrace => ⟨?_, fun a v hreach hkey hreset => ?_, fun hpwr => ?_⟩, fun a v hreach hkey => ?_, fun hpwr => ?_, fun hoff => ?_,
    State.mainRailsFall_spec, State.powerOn_spec, fun hup => ?_, s.vkeepLoss_spec, fun i => ⟨fun h => ?_, State.startUp_spec⟩⟩
  · exact ⟨_, rfl, State.resetWith_restarted hpowered hbrace 5⟩
  · exact ⟨_, State.resetCmd_acts hreach hkey hreset, State.resetWith_restarted hpowered hbrace 6⟩
  · exact ⟨_, congrArg Host.Outcome.next (if_pos hpwr), State.resetWith_restarted hpowered hbrace 4⟩
  · exact ⟨_, State.resetCmd_ignored hreach hkey, rfl⟩
  · exact ⟨_, congrArg Host.Outcome.next (if_neg (by simp [hpwr])), rfl⟩
  · exact ⟨_, congrArg Host.Outcome.next (if_pos (by simp [hoff])), rfl⟩
  · exact ⟨_, congrArg Host.Outcome.next (if_pos hup), rfl⟩
  · exact ⟨_, congrArg Host.Outcome.next (State.startUp_idle h), rfl⟩

end Sys2Proof.Machine

end

/-!
# Drains, sweeps, image loads and persists

The parts of the lock-up that follow its switch (R47, R49, R50, R56–R58).
-/

section

namespace Sys2Proof.Machine

/-! ### Byte strings of known length -/

theorem length_toLe (n v : Nat) : (toLe n v).length = n := by
  induction n generalizing v with
  | zero => rfl
  | succ n ih => simp [toLe, ih]

@[simp] theorem length_toBe (n v : Nat) : (toBe n v).length = n := by
  rw [toBe, List.length_reverse, length_toLe]

theorem length_wordBytes (l : List W32) : (wordBytes l).length = 4 * l.length := by
  induction l with
  | nil => rfl
  | cons x l ih =>
    simp only [wordBytes, List.flatMap_cons, List.length_append, length_toBe, List.length_cons] at ih ⊢
    omega

theorem length_shaRound {h : List W32} (hh : h.length = 8) (kw : W32 × W32) : (shaRound h kw).length = 8 := by
  unfold shaRound
  split
  · rfl
  · exact hh

theorem length_shaBlock {h : List W32} (hh : h.length = 8) (b : Bytes) : (shaBlock h b).length = 8 := by
  have hrounds : ∀ l : List (W32 × W32), (l.foldl shaRound h).length = 8 := fun l =>
    List.foldlRecOn (motive := fun x : List W32 => x.length = 8) l shaRound hh fun x hx kw _ => length_shaRound hx kw
  rw [shaBlock, List.length_zipWith, hh, hrounds]
  rfl

theorem length_shaBlocks {h : List W32} (hh : h.length = 8) (l : Bytes) : (shaBlocks h l).length = 8 :=
  List.foldlRecOn (motive := fun x : List W32 => x.length = 8) _ shaBlock hh fun _ hx b _ => length_shaBlock hx b

@[simp] theorem length_sha256 (m : Bytes) : (sha256 m).length = 32 := by
  rw [sha256, length_wordBytes, length_shaBlocks (by decide)]

@[simp] theorem length_ecdsaSign (d k : Nat) (m : Bytes) : (ecdsaSign d k m).length = 64 := by
  unfold ecdsaSign
  split
  · simp
  · simp

/-- The bytes between what precedes and what follows them. -/
theorem slice_append (a b c : Bytes) {off n : Nat} (ha : a.length = off) (hb : b.length = n) : slice (a ++ b ++ c) off n = b := by
  subst ha hb
  simp [slice]

theorem be_toBe_two {v : Nat} (hv : v < 65536) : be (toBe 2 v) = v := by
  simp only [toBe, toLe, List.reverse_cons, List.reverse_nil, List.nil_append, List.cons_append, be, List.foldl_cons, List.foldl_nil,
    BitVec.toNat_ofNat]
  omega

namespace State

variable {s t u : State} {w : WytheIx}

/-! ### The end of a persist -/

/-- A persist to slot B or A has ended with `code`, counted as one (R57, R58). -/
def PersistEnded (s t : State) (slotB : Bool) (code : Nat) : Prop :=
  t.forme.persist = none ∧ t.forme.persistStatus = w32 (256 * b2n slotB + code) ∧
    (s.Canon → Counted s t (pgForme + if code = 2 then 0x60 else 0x68)) ∧ Only s t (fun x => { x with forme := {} })

theorem essence_count_forme (s : State) (a n : Nat) : { s.count a n with forme := {} }.essence = { s with forme := {} }.essence := by
  unfold count
  split
  · rfl
  · rfl

theorem persistDone_eq (s : State) (slotB : Bool) (code : Nat) : s.persistDone slotB code =
    (s.setForme (fun f => { f with persist := none, persistStatus := w32 (256 * b2n slotB + code) })).count
      (pgForme + if code = 2 then 0x60 else 0x68) 1 := by
  unfold persistDone
  by_cases hcode : code = 2
  · simp only [hcode, if_true]
  · simp only [hcode, if_false]

/-- What a persist does beside its end is to the forme unit and the free values. -/
theorem persistDone_ended (hwords : u.words = s.words) (honly : Only s u (fun x => { x with forme := {} })) (slotB : Bool) (code : Nat) :
    PersistEnded s (u.persistDone slotB code) slotB code := by
  simp only [words, Prod.mk.injEq] at hwords
  obtain ⟨-, hregs, hstaged, hactive, hprevious, hcounters⟩ := hwords
  rw [persistDone_eq]
  refine ⟨by simp [setForme], by simp [setForme], fun hs => ?_, ?_⟩
  · refine .of_spares (t := u.setForme _) (.of_words hcounters hregs) ?_ rfl
    simpa only [Canon, setForme, hregs, hstaged, hactive, hprevious, hcounters] using hs
  · exact (essence_count_forme _ _ 1).trans honly

theorem flash_persistDone (s : State) (slotB : Bool) (code : Nat) : (s.persistDone slotB code).forme.flash = s.forme.flash := by
  rw [persistDone_eq]
  simp [setForme]

/-- The head of a slot that holds a persisted forme (R57). -/
def slotHead (p : Persist) (sig kept : Bytes) : Bytes :=
  toBe 4 2 ++ toBe 2 p.number.toNat ++ [0, 0] ++ toBe 4 p.lockCount.toNat ++ toBe 4 p.image.length ++ sha256 p.image ++ sig ++ kept
/-- Its tail, which makes it valid. -/
def slotTail (p : Persist) (head : Bytes) : Bytes := toBe 4 0x5EA1C0DE ++ toBe 4 p.lockCount.toNat ++ toBe 4 (crc32c head) ++ [0, 0, 0, 0]

theorem length_slotHead (p : Persist) {sig kept : Bytes} (hsig : sig.length = 64) (hkept : kept.length = 144) :
    (slotHead p sig kept).length = 0x100 := by
  simp [slotHead, hsig, hkept]

theorem slice_slot_image (p : Persist) {head : Bytes} (hhead : head.length = 0x100) (tail : Bytes) :
    slice (head ++ p.image ++ tail) 0x100 p.image.length = p.image := slice_append head p.image tail hhead rfl

theorem beAt_slot_number (p : Persist) (sig kept rest : Bytes) : beAt (slotHead p sig kept ++ rest) 4 2 = p.number.toNat := by
  have hsplit : slotHead p sig kept ++ rest = toBe 4 2 ++ toBe 2 p.number.toNat ++
      ([0, 0] ++ toBe 4 p.lockCount.toNat ++ toBe 4 p.image.length ++ sha256 p.image ++ sig ++ kept ++ rest) := by
    simp only [slotHead, List.append_assoc]
  rw [hsplit, beAt, slice_append _ _ _ (length_toBe 4 2) (length_toBe 2 _), be_toBe_two p.number.isLt]

/-- The state in which a persist ends whole: its slot written, two free values drawn. -/
def slotWritten (s : State) (p : Persist) (v : FlashSlot) : State :=
  { s with free := s.free + 2 }.setForme (fun f => { f with flash := sins f.flash p.base v })

/-- The slot of a persisted forme, whole. -/
def wholeSlot (p : Persist) (sig kept : Bytes) : FlashSlot :=
  ⟨slotHead p sig kept ++ p.image ++ slotTail p (slotHead p sig kept), p.keep, p.last⟩

theorem persistEnds_whole {p : Persist} (hp : s.forme.persist = some p) (hlc : (s.ds 0).lc ≠ .retired) :
    ∃ sig kept : Bytes, sig.length = 64 ∧ kept.length = 144 ∧ s.persistEnds false =
      (s.slotWritten p (wholeSlot p sig kept)).persistDone p.slotB 2 := by
  refine ⟨if (s.ds 0).lc = .blank then List.replicate 64 0 else ecdsaSign (s.ds 0).privkey s.drawScalar.1 (sha256 p.image),
    (List.range 144).map (fun i => Config.freeByte (s.free + 1) 254 i 0), ?_, by simp, ?_⟩
  · split
    · simp
    · simp
  · simp only [persistEnds, hp, Bool.false_eq_true, if_false, hlc]
    rfl

/-- How a persist under way ends (R56–R58). -/
theorem persistEnd_spec {p : Persist} (hp : s.forme.persist = some p) :
    (Completes (.persistEnd true) s (fun t => PersistEnded s t p.slotB 3 ∧ t.forme.flash = s.forme.flash)) ∧
    ((s.ds 0).lc = .retired → Completes (.persistEnd false) s (fun t => PersistEnded s t p.slotB 6 ∧ t.forme.flash = s.forme.flash)) ∧
    ((s.ds 0).lc ≠ .retired → Completes (.persistEnd false) s (fun t => PersistEnded s t p.slotB 2 ∧
      (∃ v, sfind t.forme.flash p.base = some v ∧ beAt v.bytes 4 2 = p.number.toNat ∧ slice v.bytes 0x100 p.image.length = p.image ∧
        v.keep = p.keep) ∧
      ∀ b, b ≠ p.base → sfind t.forme.flash b = sfind s.forme.flash b)) := by
  refine ⟨⟨s.persistDone p.slotB 3, ?_, persistDone_ended rfl (.refl s _) _ _, flash_persistDone s _ _⟩,
    fun hlc => ⟨s.persistDone p.slotB 6, ?_, persistDone_ended rfl (.refl s _) _ _, flash_persistDone s _ _⟩, fun hlc => ?_⟩
  · exact congrArg Host.Outcome.next (by simp [persistEnds, hp])
  · exact congrArg Host.Outcome.next (by simp [persistEnds, hp, hlc])
  · obtain ⟨sig, kept, hsig, hkept, hwhole⟩ := persistEnds_whole hp hlc
    refine ⟨_, congrArg Host.Outcome.next hwhole, persistDone_ended rfl rfl _ _, ⟨wholeSlot p sig kept, ?_, ?_, ?_, rfl⟩, fun b hb => ?_⟩
    · rw [flash_persistDone]
      exact sfind_sins_same _ _ _
    · rw [wholeSlot, List.append_assoc]
      exact beAt_slot_number p sig kept _
    · exact slice_slot_image p (length_slotHead p hsig hkept) _
    · rw [flash_persistDone]
      exact sfind_sins_ne _ _ hb

/-! ### What stands, read off -/

namespace Steady
variable (h : Steady s t)
include h

theorem copies : t.staged = s.staged ∧ t.active = s.active ∧ t.previous = s.previous ∧ t.forme = s.forme := by
  simp only [Same, standing, Prod.mk.injEq] at h
  obtain ⟨hstaged, hactive, hprevious, hforme, -⟩ := h
  exact ⟨hstaged, hactive, hprevious, hforme⟩

theorem wythe (w : WytheIx) : standingOf (t.wy w) = standingOf (s.wy w) := by
  simp only [Same, standing, Prod.mk.injEq] at h
  obtain ⟨-, -, -, -, -, h0, h1⟩ := h
  rcases wythe_cases w with rfl | rfl
  · exact h0
  · exact h1

theorem images (w : WytheIx) (i : Nat) : imagesOf (t.core w i) = imagesOf (s.core w i) := by
  have hw := h.wythe w
  simp only [standingOf, Prod.mk.injEq] at hw
  obtain ⟨-, -, -, -, himages, -⟩ := hw
  exact congrFun himages i

theorem pause (w : WytheIx) (c : Nat) : pauseOf (t.course w c) = pauseOf (s.course w c) := by
  have hw := h.wythe w
  simp only [standingOf, Prod.mk.injEq] at hw
  obtain ⟨-, -, -, -, -, hpause⟩ := hw
  exact congrFun hpause c

end Steady

/-! ### The load of images -/

theorem Steady.loadSections {s₀ : State} (h : Steady s₀ s) {k b} : Steady s₀ (s.loadSections k b) :=
  .each h fun _ _ h => .each h fun _ _ h => .ite (h.updCore fun _ => by rfl) (.ite (h.updCore fun _ => by rfl) h.setBankBytes)

theorem each_map {α β : Type} (s : State) (g : α → β) (l : List α) (f : State → β → State) :
    s.each (l.map g) f = s.each l (fun s x => f s (g x)) := List.foldl_map

/-- A core holds the image locked up. -/
def loadImage (c : Core) : Core := { c with image := c.locked }

/-- The cores of a course. -/
def coresOf (w : WytheIx) (c : CourseIx) : List CoreId := (List.finRange 8).map (fun k => ⟨w, c, k⟩)

theorem image_loadCourse_cores (s : State) (w : WytheIx) (c : CourseIx) (k : CoreIx) :
    ((s.each (coresOf w c) (fun s k => s.updCore w k.ix loadImage)).core w (coreIx c k)).image = (s.core w (coreIx c k)).locked := by
  have hk : coreIx c k ∈ (List.finRange 8).map (coreIx c) := List.mem_map_of_mem (List.mem_finRange k)
  have heach : s.each (coresOf w c) (fun s k => s.updCore w k.ix loadImage) =
      s.each ((List.finRange 8).map (coreIx c)) (fun s i => s.updCore w i loadImage) :=
    (each_map s _ _ _).trans (each_map s (coreIx c) (List.finRange 8) fun s i => s.updCore w i loadImage).symm
  rw [heach, core_each_updCore (f := loadImage) fun _ => rfl, if_pos ⟨rfl, hk⟩]
  rfl

theorem loadCourse_spec (s : State) (w : WytheIx) (c : CourseIx) :
    ((s.loadCourse w c).course w c.val).pausing = false ∧ ((s.loadCourse w c).course w c.val).imageDue = false ∧
      ∀ k : CoreIx, ((s.loadCourse w c).core w (coreIx c k)).image = (s.core w (coreIx c k)).locked := by
  unfold loadCourse
  extract_lets ks s1 s2 s3 s4 s5
  have hbefore : Steady s s2 := .closeOwned (.each (.refl s) fun _ _ h => h.endTasks.cpReset.quoinReset)
  have hloaded : Steady s3 s4 := .each (.refl s3) fun _ _ h => by
    split
    · exact h.loadSections
    · exact h
  have hafter : Steady s5 (s5.each ks (fun s k => (s.each (ctxsOf k) (fun s x => s.updCtx x (fun q => { q with bkpt := false }))).startCore k)) :=
    .each (.refl s5) fun _ _ h => .startCore (.each h fun _ _ h => h.updCtx)
  have hpause := hafter.pause w c.val
  have hs5 : pauseOf (s5.course w c.val) = (false, false) := congrArg pauseOf (course_updCourse_same s4 w c.val _)
  rw [hs5] at hpause
  simp only [pauseOf, Prod.mk.injEq] at hpause
  refine ⟨hpause.1, hpause.2, fun k => ?_⟩
  have himage := hafter.images w (coreIx c k)
  have hcore : s5.core w (coreIx c k) = s4.core w (coreIx c k) := updCourse_core _ _ _ _ _ _
  have hlocked := hbefore.images w (coreIx c k)
  rw [hcore, hloaded.images] at himage
  simp only [imagesOf, Prod.mk.injEq] at himage hlocked
  exact himage.2.2.trans ((image_loadCourse_cores s2 w c k).trans hlocked.2.1)

theorem courseImageLoad_spec (w : WytheIx) (c : CourseIx) :
    ((s.course w c.val).pausing = true → s.oldSlugs w c = false →
      ((s.course w c.val).imageDue = true → Completes (.courseImageLoad w c) s (fun t => (t.course w c.val).pausing = false ∧
        (t.course w c.val).imageDue = false ∧ ∀ k : CoreIx, (t.core w (coreIx c k)).image = (s.core w (coreIx c k)).locked)) ∧
      ((s.course w c.val).imageDue = false → Completes (.courseImageLoad w c) s (fun t =>
        t = s.updCourse w c.val (fun q => { q with pausing := false })))) ∧
    ((s.course w c.val).pausing = false ∨ s.oldSlugs w c = true → Completes (.courseImageLoad w c) s (fun t => t = s)) := by
  refine ⟨fun hpausing hold => ?_, fun hnot => ⟨_, congrArg Host.Outcome.next (if_pos ?_), rfl⟩⟩
  · have hgo : ¬ (!(s.course w c.val).pausing || s.oldSlugs w c) = true := by simp [hpausing, hold]
    refine ⟨fun hdue => ?_, fun hdue => ?_⟩
    · exact ⟨_, congrArg Host.Outcome.next ((if_neg hgo).trans (if_pos hdue)), loadCourse_spec s w c⟩
    · exact ⟨_, congrArg Host.Outcome.next ((if_neg hgo).trans (if_neg (by simp [hdue]))), rfl⟩
  · rcases hnot with h | h <;> simp [h]

/-! ### The sweep's start and end -/

theorem sweepStart_runs {f : W16} (hprev : (s.wy w).previous = some f) (hsweep : (s.wy w).sweep = .draining) (hgone : s.flightOf w f = 0) :
    Completes (.sweepStart w) s (fun t => (t.wy w).sweep = .sweeping ∧ Only s t (·.updWy w (fun y => { y with sweep := .idle }))) := by
  refine ⟨s.updWy w (fun y => { y with sweep := .sweeping }), congrArg Host.Outcome.next ?_, by simp, (Only.refl s _).change fun _ => rfl⟩
  simp [sweepStarts, hprev, hsweep, hgone]

theorem sweepStart_waits {f : W16} (hprev : (s.wy w).previous = some f) (hleft : s.flightOf w f ≠ 0) :
    Completes (.sweepStart w) s (fun t => t = s) := by
  refine ⟨s, congrArg Host.Outcome.next ?_, rfl⟩
  simp [sweepStarts, hprev, hleft]

theorem sweepEnd_waits (hsweep : (s.wy w).sweep = .draining) : Completes (.sweepEnd w) s (fun t => t = s) :=
  ⟨s, congrArg Host.Outcome.next (if_pos (by simp [hsweep])), rfl⟩

/-- The state of a sweep's end before SWEEPS counts it. -/
def sweepLeaves (s : State) (w : WytheIx) : State :=
  ((s.sweepTables w).updWy w (fun y => { y with sweep := .idle, previous := none })).setForme (fun f => { f with
    sweepOn := s.forme.sweepOn.filter (· != w) })

theorem sweepEnds_eq (hsweep : (s.wy w).sweep = .sweeping) : s.sweepEnds w =
    (s.sweepLeaves w).onlyIf ((s.forme.sweepOn.filter (· != w)).isEmpty && s.forme.sweepOn.contains w) (fun s => s.count (pgForme + 0x50) 1) := by
  have hforme : (s.sweepTables w).forme = s.forme := by simp [sweepTables, settle, setTables]
  have hgo : ¬ (s.wy w).sweep ≠ .sweeping := by simp [hsweep]
  simp only [sweepEnds, hgo, if_false, sweepLeaves, setForme, updWy_forme, hforme]

theorem sweepEnd_runs (hsweep : (s.wy w).sweep = .sweeping) : Completes (.sweepEnd w) s (fun t =>
    (t.wy w).sweep = .idle ∧ (t.wy w).previous = none ∧ t.forme.sweepOn = s.forme.sweepOn.filter (· != w) ∧ t.active = s.active ∧
      t.staged = s.staged ∧ (s.forme.sweepOn = [w] → s.Canon → Counted s t (pgForme + 0x50))) := by
  refine ⟨_, congrArg Host.Outcome.next (sweepEnds_eq hsweep), ?_⟩
  have hcounted : Same (fun t => (t.active, t.staged, t.forme, t.wy w)) (s.sweepLeaves w)
      ((s.sweepLeaves w).onlyIf ((s.forme.sweepOn.filter (· != w)).isEmpty && s.forme.sweepOn.contains w) (fun s => s.count (pgForme + 0x50) 1)) :=
    .onlyIf _ (by simp [Same])
  simp only [Same, Prod.mk.injEq] at hcounted
  obtain ⟨hactive, hstaged, hforme, hwy⟩ := hcounted
  beta_reduce
  rw [hactive, hstaged, hforme, hwy]
  have hleft : (s.sweepLeaves w).wy w = { (s.sweepTables w).wy w with sweep := .idle, previous := none } := wy_updWy_same _ w _
  refine ⟨by rw [hleft], by rw [hleft], rfl, by simp [sweepLeaves, setForme, sweepTables, settle, setTables],
    by simp [sweepLeaves, setForme, sweepTables, settle, setTables], fun hlast hs => ?_⟩
  refine .of_spares (t := s.sweepLeaves w) (.of_words ?_ ?_) ?_ ?_
  · simp [sweepLeaves, setForme, sweepTables, settle, setTables]
  · simp [sweepLeaves, setForme, sweepTables, settle, setTables]
  · exact (((Keeps.refl s).sweepTables.updWy).setForme).2 hs
  · simp [hlast, onlyIf]

end State

end Sys2Proof.Machine

end

/-!
# The drain limit

DRAIN_LIMIT discards what is left of the previous forme on one wythe (R50). Beside the dispatch queues and the store of
that wythe it works on buffers, flights and copies in motion, which `quelled` leaves out.
-/

section

namespace Sys2Proof.Machine.State

/-- A wythe but for its buffers, its flights, the tie's queues, and of its Press all but the store. -/
def quelled (y : Wythe) : Wythe := { y with galley := {}, coll := {}, tie := {}, press := { store := y.press.store } }

/-- The registers, the time, and both wythes so. -/
def unmoved (s : State) := (s.regs, s.now, quelled s.w0, quelled s.w1)

/-- A discard moves nothing that `unmoved` shows. -/
abbrev Discards : State → State → Prop := Same unmoved

namespace Discards
variable {s₀ s t : State} {w : WytheIx}

theorem refl (s : State) : Discards s s := rfl
theorem other (h : Discards s₀ s) (e : unmoved t = unmoved s) : Discards s₀ t := e.trans h

theorem ite {c : Prop} {_ : Decidable c} (h : Discards s₀ s) (h' : Discards s₀ t) : Discards s₀ (if c then s else t) :=
  iteInduction (motive := Discards s₀) (fun _ => h) (fun _ => h')
theorem each {α : Type} {f : State → α → State} {l : List α} (h : Discards s₀ s) (hf : ∀ s e, Discards s₀ s → Discards s₀ (f s e)) :
    Discards s₀ (s.each l f) := each_induct (Discards s₀) f hf l s h
theorem onlyIf {b : Bool} {f : State → State} (h : Discards s₀ s) (hf : ∀ s, Discards s₀ s → Discards s₀ (f s)) : Discards s₀ (s.onlyIf b f) :=
  .ite (hf s h) h

theorem updWy (h : Discards s₀ s) {f} (hf : ∀ y, quelled (f y) = quelled y) : Discards s₀ (s.updWy w f) := by
  refine h.other ?_
  rcases wythe_cases w with rfl | rfl
  · exact congrArg (fun v => (s.regs, s.now, v, quelled s.w1)) (hf s.w0)
  · exact congrArg (fun v => (s.regs, s.now, quelled s.w0, v)) (hf s.w1)
theorem updColl (h : Discards s₀ s) {f} : Discards s₀ (s.updColl w f) := h.updWy fun _ => rfl
theorem updGalley (h : Discards s₀ s) {f} : Discards s₀ (s.updGalley w f) := h.updWy fun _ => rfl
theorem updTie (h : Discards s₀ s) {f} : Discards s₀ (s.updTie w f) := h.updWy fun _ => rfl
theorem updPress (h : Discards s₀ s) {f} (hf : ∀ p, (f p).store = p.store) : Discards s₀ (s.updPress w f) :=
  h.updWy fun y => congrArg (fun l : List Copy => { quelled y with press := { store := l } }) (hf y.press)
theorem count (h : Discards s₀ s) {a n} : Discards s₀ (s.count a n) := .ite h (h.other rfl)
theorem drop (h : Discards s₀ s) {p c} : Discards s₀ (s.drop w p c) := h.count.count

theorem refDown (h : Discards s₀ s) {hd} : Discards s₀ (s.refDown w hd) :=
  .ite h.count (.ite h.count (.ite (.count h.updGalley) h.updGalley))
theorem releaseSegs (h : Discards s₀ s) {c} : Discards s₀ (s.releaseSegs w c) := .each h fun _ _ h => h.refDown
theorem flightDone (h : Discards s₀ s) {group} : Discards s₀ (s.flightDone w group) := by
  unfold State.flightDone
  split
  · exact h
  · exact h.updColl
theorem countStream (h : Discards s₀ s) {c which n} : Discards s₀ (s.countStream w c which n) := by
  unfold State.countStream
  split
  · exact h
  · exact h.count

/-! Slots of the Collator -/

theorem leaveOrder (h : Discards s₀ s) {d i} : Discards s₀ (s.leaveOrder w d i) := h.updColl
theorem discardDone (h : Discards s₀ s) {i x} : Discards s₀ (s.discardDone w i x) := .flightDone (.updColl h.refDown.count)
theorem passDiscarded (h : Discards s₀ s) {d n} : Discards s₀ (State.passDiscarded w d n s) := by
  induction n generalizing s with
  | zero => exact h
  | succ n ih =>
    unfold State.passDiscarded
    split
    · exact .ite (ih h.leaveOrder.discardDone) h
    · exact h
theorem turnPasses (h : Discards s₀ s) {d i} : Discards s₀ (s.turnPasses w d i) :=
  h.leaveOrder.passDiscarded
theorem discardSlot (h : Discards s₀ s) {i serial} : Discards s₀ (s.discardSlot w i serial) := by
  unfold State.discardSlot
  split
  · exact h
  · refine .ite h ?_
    split
    · exact h.updColl.passDiscarded
    · exact h.discardDone
    · exact h
theorem dropRefs (h : Discards s₀ s) {sl v} : Discards s₀ (s.dropRefs w sl v) := .onlyIf (.each h fun _ _ h => h.refDown) fun _ h => h.refDown
theorem collDrain (h : Discards s₀ s) {forme} : Discards s₀ (s.collDrain w forme) := .each h fun _ _ h => by
  dsimp only
  split
  · exact h.discardDone.drop
  · exact .turnPasses (.drop (.flightDone (.updColl (.ite h h.dropRefs))))
  · exact h

/-! Copies of the Press and of the tie -/

theorem dropCopy (h : Discards s₀ s) {c cause ctrOff} : Discards s₀ (s.dropCopy w c cause ctrOff) := by
  unfold State.dropCopy
  extract_lets s1 s2
  have h1 : Discards s₀ s1 := h.releaseSegs.flightDone.countStream
  have h2 : Discards s₀ s2 := by
    unfold s2
    split
    · exact h1.count
    · exact h1
  exact .ite h1.count.drop h2.drop
theorem queueLeft (h : Discards s₀ s) {c} : Discards s₀ (s.queueLeft w c) := by
  have hdeficit : Discards s₀ (s.setDeficit w c.port c.cls 0) := h.updPress fun _ => rfl
  exact .ite h (.ite (hdeficit.updPress fun _ => rfl) hdeficit)
theorem tieOriginal (h : Discards s₀ s) {t} : Discards s₀ (s.tieOriginal t) := h.releaseSegs.flightDone
theorem tieFree (h : Discards s₀ s) {t} : Discards s₀ (s.tieFree w t) := .updColl (.each h fun _ _ h => h.refDown)
theorem dropTargets (h : Discards s₀ s) {t cause} : Discards s₀ (s.dropTargets w t cause) := .each h fun _ _ h => h.drop

theorem wythe (h : Discards s t) (w : WytheIx) : quelled (t.wy w) = quelled (s.wy w) := by
  simp only [Same, unmoved, Prod.mk.injEq] at h
  obtain ⟨-, -, h0, h1⟩ := h
  rcases wythe_cases w with rfl | rfl
  · exact h0
  · exact h1

end Discards

/-! ### One wythe's turn -/

variable {s t u : State} {w : WytheIx} {f : W16}

/-- The dispatch queues of a wythe lose the slugs of a forme. -/
def purgeQueues (s : State) (w : WytheIx) (f : W16) : State :=
  s.each (List.range 6) (fun s c => s.updCourse w c (fun k => { k with dq := k.dq.filter (fun g => slugForme g != f) }))

/-- The copies of a forme in the store that have not started leave it. -/
def purgeStore (s : State) (w : WytheIx) (f : W16) : State :=
  s.updPress w (fun x => { x with store := x.store.filter (fun c => !(c.forme == f && !c.started)) })

/-- A drain discards before and after the store is purged. -/
theorem drainWythe_discards (s : State) (w : WytheIx) (f : W16) : ∃ a b : State, Discards (s.purgeQueues w f) a ∧
    Discards (a.purgeStore w f) b ∧ s.drainWythe w f = b.updWy w (fun y => { y with drained := true, sweep := .sweeping }) := by
  unfold drainWythe
  extract_lets before s1 pend s2 s3 p mine s4 s5 s6 k s7 s8 s9 left
  have h5 : Discards s1 s5 := by
    have h2 : Discards s1 s2 := .each (.refl s1) fun _ _ h => h.discardSlot.drop
    have h4 : Discards s1 s4 := h2.collDrain.updPress fun _ => rfl
    exact .each h4 fun _ _ h => h.dropCopy
  have h9 : Discards (s5.purgeStore w f) s9 := by
    have h6 : Discards (s5.purgeStore w f) s6 := .each (.each (.refl _) fun _ _ h => h.dropCopy) fun _ _ h => h.queueLeft
    have h8 : Discards (s5.purgeStore w f) s8 := .each h6.updTie fun _ _ h => h.tieOriginal.drop
    exact .each h8 fun _ _ h => h.tieOriginal.tieFree.dropTargets
  exact ⟨s5, _, h5, h9.count, rfl⟩

/-! What a drain leaves of its wythe -/

/-- Of forme `f`, a drained wythe has nothing in its queues and only what has started in its store. -/
def Drained (f : W16) (y : Wythe) : Prop :=
  y.sweep = .sweeping ∧ y.drained = true ∧ y.previous = some f ∧ (∀ c ∈ y.press.store, c.forme = f → c.started = true) ∧
    ∀ c < 6, ∀ g ∈ (kget {} y.courses c).dq, slugForme g ≠ f

/-- What `quelled` shows of a wythe. -/
theorem quelled_fields {y z : Wythe} (h : quelled z = quelled y) : z.courses = y.courses ∧ z.press.store = y.press.store ∧
    z.previous = y.previous ∧ z.sweep = y.sweep ∧ z.switchAt = y.switchAt :=
  ⟨(congrArg Wythe.courses h :), (congrArg (fun y : Wythe => y.press.store) h :), (congrArg Wythe.previous h :), (congrArg Wythe.sweep h :),
    (congrArg Wythe.switchAt h :)⟩

theorem Drained.congr {y z : Wythe} (h : Drained f y) (hz : quelled z = quelled y) : Drained f z := by
  have hquelled : Drained f (quelled z) := hz ▸ h
  exact hquelled

theorem dq_purgeQueues {c : Nat} (hc : c < 6) {g : SlugRec} (hg : g ∈ ((s.purgeQueues w f).course w c).dq) : slugForme g ≠ f := by
  refine each_of_mem (I := fun _ => True) (P := fun t => ∀ g ∈ (t.course w c).dq, slugForme g ≠ f) (List.mem_range.mpr hc) trivial
    (fun _ _ _ => trivial) (fun s _ => ?_) (fun s k _ hs => ?_) g hg
  · simp
  · intro g hg
    by_cases hk : c = k
    · subst hk
      simp only [course_updCourse_same] at hg
      exact hs g (List.mem_of_mem_filter hg)
    · exact hs g (by simpa [course, kget_kupd, hk] using hg)

theorem previous_purgeQueues : ((s.purgeQueues w f).wy w).previous = (s.wy w).previous :=
  Same.each (view := fun t => (t.wy w).previous) (fun _ _ => by simp [Same]) _ _

theorem started_purgeStore {c : Copy} (hc : c ∈ ((s.purgeStore w f).wy w).press.store) (hf : c.forme = f) : c.started = true := by
  simp only [purgeStore, wy_updPress_same] at hc
  simpa [hf] using List.of_mem_filter hc

theorem drainWythe_drained (hprev : (s.wy w).previous = some f) : Drained f ((s.drainWythe w f).wy w) := by
  obtain ⟨a, b, ha, hb, hturn⟩ := s.drainWythe_discards w f
  obtain ⟨hacourses, -, haprevious, -⟩ := quelled_fields (ha.wythe w)
  obtain ⟨hbcourses, hstore, hbprevious, -⟩ := quelled_fields (hb.wythe w)
  have hcourses : (b.wy w).courses = ((s.purgeQueues w f).wy w).courses := by rw [hbcourses, ← hacourses, purgeStore, wy_updPress_same]
  have hprevious : (b.wy w).previous = (s.wy w).previous := by
    rw [hbprevious, purgeStore, wy_updPress_same, haprevious, previous_purgeQueues]
  rw [hturn, wy_updWy_same]
  refine ⟨rfl, rfl, hprevious.trans hprev, fun c hc => started_purgeStore (hstore ▸ hc), fun c hc g hg => ?_⟩
  rw [hcourses] at hg
  exact dq_purgeQueues hc hg

/-! What it leaves of the other -/

/-- The registers, the time and one wythe. -/
def aside (v : WytheIx) (s : State) := (s.regs, s.now, quelled (s.wy v))

theorem Discards.aside (h : Discards s t) (v : WytheIx) : Same (State.aside v) s t := by
  have hv := h.wythe v
  simp only [Same, unmoved, Prod.mk.injEq] at h
  obtain ⟨hregs, hnow, -, -⟩ := h
  simp only [Same, State.aside, hregs, hnow, hv]

theorem drainWythe_aside {v : WytheIx} (hv : v ≠ w) : Same (aside v) s (s.drainWythe w f) := by
  obtain ⟨a, b, ha, hb, hturn⟩ := s.drainWythe_discards w f
  have hqueues : Same (aside v) s (s.purgeQueues w f) := .each (fun _ _ => by simp [Same, aside, wy_updCourse, hv]) _ _
  have hstore : Same (aside v) a (a.purgeStore w f) := by simp [Same, aside, purgeStore, wy_updPress, hv]
  have hlast : Same (aside v) b (s.drainWythe w f) := by simp [hturn, Same, aside, wy_updWy, hv]
  exact (hqueues.trans (ha.aside v)).trans (hstore.trans ((hb.aside v).trans hlast))

/-! ### Both turns -/

/-- One wythe's turn at DRAIN_LIMIT. -/
def drainTurn (s : State) (w : WytheIx) : State :=
  match (s.wy w).previous with
  | some f => if (s.wy w).sweep = .draining ∧ (s.wy w).switchAt + s.drainLimit ≤ s.now then s.drainWythe w f else s
  | none => s

theorem drainExpires_eq (s : State) : s.drainExpires = (s.drainTurn 0).drainTurn 1 := rfl

theorem drainTurn_aside {v : WytheIx} (hv : v ≠ w) : Same (aside v) s (s.drainTurn w) := by
  unfold drainTurn
  split
  · exact .ite (drainWythe_aside hv) (.refl s)
  · exact .refl s

/-- A wythe drains its previous forme, and has reached the drain limit. -/
def Overdue (w : WytheIx) (f : W16) (s : State) : Prop :=
  (s.wy w).previous = some f ∧ (s.wy w).sweep = .draining ∧ (s.wy w).switchAt + s.drainLimit ≤ s.now

theorem Overdue.aside (h : Overdue w f s) (hs : Same (aside w) s t) : Overdue w f t := by
  simp only [Same, State.aside, Prod.mk.injEq] at hs
  obtain ⟨hregs, hnow, hw⟩ := hs
  obtain ⟨-, -, hprevious, hsweep, hswitch⟩ := quelled_fields hw
  simpa only [Overdue, drainLimit, rd, hprevious, hsweep, hswitch, hregs, hnow] using h

theorem Overdue.drainTurn (h : Overdue w f s) : Drained f ((s.drainTurn w).wy w) := by
  obtain ⟨hprev, hsweep, hlimit⟩ := h
  have hturn : s.drainTurn w = s.drainWythe w f := by simp [State.drainTurn, hprev, hsweep, hlimit]
  exact hturn ▸ drainWythe_drained hprev

theorem Overdue.drainExpires (h : Overdue w f s) : Drained f (s.drainExpires.wy w) := by
  rw [drainExpires_eq]
  rcases wythe_cases w with rfl | rfl
  · have hlater : Same (State.aside 0) (s.drainTurn 0) ((s.drainTurn 0).drainTurn 1) := drainTurn_aside (by decide)
    exact h.drainTurn.congr (congrArg (fun x => x.2.2) hlater)
  · exact (h.aside (drainTurn_aside (by decide))).drainTurn

theorem drainLimitExpiry_spec (h : Overdue w f s) : Completes .drainLimitExpiry s (fun t => (t.wy w).sweep = .sweeping ∧ (t.wy w).drained = true ∧
    (t.wy w).previous = some f ∧ (∀ c ∈ (t.wy w).press.store, c.forme = f → c.started = true) ∧
    ∀ c < 6, ∀ g ∈ (t.course w c).dq, slugForme g ≠ f) :=
  ⟨s.drainExpires, rfl, h.drainExpires⟩

end Sys2Proof.Machine.State

end

/-!
# The lock-up

The end of a validation (R40–R49): the first code that applies, or the switch. Beside the copies of the forme registers
and the images, a switch works on frames, gates and courses; `locked` is what it settles and these leave alone.
-/

section

namespace Sys2Proof.Machine

theorem type_pgPress : ∀ (w : WytheIx) (p : Fin 24), ((pageOf (pgPress w p.val)).any (fun pg => pg.type == 0x40)) = true := by decide

namespace State

variable {s t u : State} {w : WytheIx}

/-- A forme unit but for the slots in flash, the persist under way and the wait for the ledger. -/
def lockOf (f : FormeUnit) : FormeUnit := { f with flash := [], persist := none, persistStatus := 0, ledgerWait := false }

/-- A wythe's forme numbers, its sweep, and the images staged and locked up. -/
def lockedOf (y : Wythe) :=
  (y.forme, y.previous, y.sweep, (fun i => (kget {} y.cores i).staged), fun i => (kget {} y.cores i).locked)

/-- A register in force, but for those of the Press's ports, where a gate that starts late moves its base time. -/
def offPress (s : State) (a : Nat) : W32 := if (pageOf a).any (fun pg => pg.type == 0x40) then 0 else s.stActive a

/-- The copies of the forme registers, and the forme unit. -/
def formeCopies (s : State) := (s.previous, s.offPress, lockOf s.forme)

/-- What a lock-up settles. -/
def locked (s : State) := (s.formeCopies, lockedOf s.w0, lockedOf s.w1)

/-- What `s` has settled stays so in `t`. -/
abbrev Settled : State → State → Prop := Same locked

namespace Settled
variable {s₀ s t : State} {w : WytheIx}

theorem refl (s : State) : Settled s s := rfl
theorem other (h : Settled s₀ s) (e : locked t = locked s) : Settled s₀ t := e.trans h

theorem ite {c : Prop} {_ : Decidable c} (h : Settled s₀ s) (h' : Settled s₀ t) : Settled s₀ (if c then s else t) :=
  iteInduction (motive := Settled s₀) (fun _ => h) (fun _ => h')
theorem each {α : Type} {f : State → α → State} {l : List α} (h : Settled s₀ s) (hf : ∀ s e, e ∈ l → Settled s₀ s → Settled s₀ (f s e)) :
    Settled s₀ (s.each l f) := List.foldlRecOn (motive := Settled s₀) l f h fun s hs e he => hf s e he hs
theorem onlyIf {b : Bool} {f : State → State} (h : Settled s₀ s) (hf : ∀ s, Settled s₀ s → Settled s₀ (f s)) : Settled s₀ (s.onlyIf b f) :=
  .ite (hf s h) h

/-- What traffic leaves standing stays settled. -/
theorem steady (h : Settled s₀ s) (ht : Steady s t) : Settled s₀ t := by
  obtain ⟨-, hactive, hprevious, hforme⟩ := ht.copies
  have himages : ∀ v i, (t.core v i).staged = (s.core v i).staged ∧ (t.core v i).locked = (s.core v i).locked := by
    intro v i
    have hi := ht.images v i
    simp only [imagesOf, Prod.mk.injEq] at hi
    exact ⟨hi.1, hi.2.1⟩
  have hwythe : ∀ v, lockedOf (t.wy v) = lockedOf (s.wy v) := by
    intro v
    have hv := ht.wythe v
    simp only [standingOf, Prod.mk.injEq] at hv
    obtain ⟨hnumber, hprev, hsweep, -⟩ := hv
    simp only [lockedOf, hnumber, hprev, hsweep, Prod.mk.injEq, true_and]
    exact ⟨funext fun i => (himages v i).1, funext fun i => (himages v i).2⟩
  have hoffPress : t.offPress = s.offPress := by
    funext a
    simp only [offPress, stActive, hactive]
  have h0 : lockedOf t.w0 = lockedOf s.w0 := hwythe 0
  have h1 : lockedOf t.w1 = lockedOf s.w1 := hwythe 1
  exact h.other (by simp only [locked, formeCopies, hprevious, hforme, hoffPress, h0, h1])

theorem updCourse (h : Settled s₀ s) {c f} : Settled s₀ (s.updCourse w c f) := by
  refine h.other ?_
  rcases wythe_cases w with rfl | rfl <;> rfl

theorem setForme (h : Settled s₀ s) {f} (hf : lockOf (f s.forme) = lockOf s.forme) : Settled s₀ (s.setForme f) :=
  h.other (congrArg (fun v => ((s.previous, s.offPress, v), lockedOf s.w0, lockedOf s.w1)) hf)

/-- New words of Press pages in the copies staged and in force. -/
theorem pressWords (h : Settled s₀ s) {staged active : SMap W32}
    (hactive : ∀ a, (pageOf a).any (fun pg => pg.type == 0x40) = false → sget regReset active a = s.stActive a) :
    Settled s₀ { s with active := active, staged := staged } := by
  refine h.other (congrArg (fun v => ((s.previous, v, lockOf s.forme), lockedOf s.w0, lockedOf s.w1)) (funext fun a => ?_))
  unfold offPress
  split
  · rfl
  · next hpage => exact hactive a (by simpa using hpage)

end Settled

/-! ### The parts of a switch -/

theorem pageOf_press_word {p o : Nat} (hp : p < 24) (ho : o < 0x1000) : (pageOf (pgPress w p + o)).any (fun pg => pg.type == 0x40) = true := by
  have hpage : pageOf (pgPress w p + o) = pageOf (pgPress w p) := pageOf_congr (by unfold pgPress wyBase; omega)
  exact hpage ▸ type_pgPress w ⟨p, hp⟩

theorem Settled.gateSwitch {s₀ : State} (h : Settled s₀ s) {p : Nat} (hp : p < 24) : Settled s₀ (s.gateSwitch w p) := by
  unfold State.gateSwitch
  extract_lets pg g put cyc b t b' entries s1 set
  have hput : ∀ g, Settled s₀ (put s g) := fun g => h.steady (.updPress (.refl s))
  refine .ite (hput _) (.ite (hput _) (.steady (.pressWords (hput _) fun a ha => ?_) (.noteClamp (.refl _))))
  have hne : ∀ o < 0x1000, a ≠ pg + o := by
    rintro o ho rfl
    simp [pg, pageOf_press_word hp ho] at ha
  have hactive : s1.stActive a = sget regReset s1.active a := rfl
  rw [hactive, sget_sput_ne _ _ _ (hne 0x114 (by decide)), sget_sput_ne _ _ _ (hne 0x110 (by decide))]

theorem Settled.switchReg {s₀ : State} (h : Settled s₀ s) {old a} : Settled s₀ (State.switchReg old s a) := by
  unfold State.switchReg
  dsimp only
  split
  · exact h
  · exact .ite (h.steady (.shaperResetDue (.refl s))) (.ite (h.steady (.updPress (.refl s))) (.ite (h.steady (.portRestart (.refl s)))
      (.ite h.updCourse (.ite (h.steady (.snapStream (.refl s))) h))))

theorem Settled.persistDone {s₀ : State} (h : Settled s₀ s) {b code} : Settled s₀ (s.persistDone b code) :=
  have hdone := h.setForme (f := fun f => { f with persist := none, persistStatus := w32 (256 * b2n b + code) }) rfl
  .ite (hdone.steady (.count (.refl _))) (hdone.steady (.count (.refl _)))

theorem Settled.persistStarts {s₀ : State} (h : Settled s₀ s) {n} : Settled s₀ (s.persistStarts n) :=
  .ite h.persistDone (.ite h.persistDone (h.setForme rfl))

/-! The images -/

/-- A core locks up the image it stages. -/
def lockImage (c : Core) : Core := { c with locked := c.staged }

/-- One course's part of `pauseCourses`. -/
def pauseCourse (w : WytheIx) (s : State) (c : Nat) : State :=
  (s.onlyIf ((List.range 8).any (fun k => (s.core w (8 * c + k)).staged != (s.core w (8 * c + k)).locked))
    (fun s => s.updCourse w c (fun k => { k with pausing := true, imageDue := true }))).each ((List.range 8).map (8 * c + ·))
      (fun s i => s.updCore w i lockImage)

theorem pauseCourses_eq (s : State) (w : WytheIx) : s.pauseCourses w = s.each (List.range 6) (pauseCourse w) := rfl

theorem core_pauseCourse (s : State) (v : WytheIx) (c i : Nat) : (pauseCourse w s c).core v i =
    if w = v ∧ i ∈ (List.range 8).map (8 * c + ·) then lockImage (s.core v i) else s.core v i := by
  have hpaused : ∀ b : Bool, (s.onlyIf b (fun s => s.updCourse w c (fun k => { k with pausing := true, imageDue := true }))).core v i =
      s.core v i := by
    intro b
    cases b
    · rfl
    · exact updCourse_core _ _ _ _ _ _
  rw [pauseCourse, core_each_updCore (f := lockImage) fun _ => rfl, hpaused]

/-- Each core's staged image. -/
def stagedImages (s : State) := fun (v : WytheIx) (i : Nat) => (s.core v i).staged

theorem staged_pauseCourses : Same stagedImages s (s.pauseCourses w) := by
  rw [pauseCourses_eq]
  refine .each (fun s c => funext fun v => funext fun i => ?_) _ s
  simp only [stagedImages, core_pauseCourse]
  split
  · rfl
  · rfl

theorem locked_pauseCourses {i : Nat} (hi : i < 48) : ((s.pauseCourses w).core w i).locked = ((s.pauseCourses w).core w i).staged := by
  rw [pauseCourses_eq]
  refine each_of_mem (I := fun _ => True) (P := fun t => (t.core w i).locked = (t.core w i).staged)
    (List.mem_range.mpr (by omega : i / 8 < 6)) trivial (fun _ _ _ => trivial) (fun s _ => ?_) (fun s c _ hs => ?_)
  · have hmem : i ∈ (List.range 8).map (8 * (i / 8) + ·) :=
      List.mem_map.mpr ⟨i % 8, List.mem_range.mpr (Nat.mod_lt _ (by decide)), by omega⟩
    rw [core_pauseCourse, if_pos ⟨rfl, hmem⟩]
    rfl
  · rw [core_pauseCourse]
    split
    · rfl
    · exact hs

/-- The load of images is noted in courses and cores of the wythe alone. -/
theorem same_pauseCourses {α : Type} {view : State → α} (hcourse : ∀ s c f, view (s.updCourse w c f) = view s)
    (hcore : ∀ s i f, view (s.updCore w i f) = view s) : Same view s (s.pauseCourses w) := by
  rw [pauseCourses_eq]
  refine .each (fun s c => ?_) _ s
  have hpaused : Same view s (s.onlyIf ((List.range 8).any (fun k => (s.core w (8 * c + k)).staged != (s.core w (8 * c + k)).locked))
    (fun s => s.updCourse w c (fun k => { k with pausing := true, imageDue := true }))) := .onlyIf _ (hcourse s c _)
  exact hpaused.trans (.each (fun s i => hcore s i lockImage) _ _)

/-! ### The switch of one wythe -/

/-- The numbers of the forme and of the previous one. -/
def numbers (w : WytheIx) (s : State) : W16 × Option W16 := ((s.wy w).forme, (s.wy w).previous)

theorem Settled.lockedOf (h : Settled s t) (w : WytheIx) : lockedOf (t.wy w) = State.lockedOf (s.wy w) := by
  simp only [Same, locked, Prod.mk.injEq] at h
  obtain ⟨-, h0, h1⟩ := h
  rcases wythe_cases w with rfl | rfl
  · exact h0
  · exact h1

theorem Settled.copies (h : Settled s t) : Same formeCopies s t := congrArg Prod.fst h

/-- What `lockedOf` shows of a wythe. -/
theorem lockedOf_wythe (h : lockedOf (t.wy w) = lockedOf (s.wy w)) : numbers w t = numbers w s ∧ (t.wy w).sweep = (s.wy w).sweep ∧
    (∀ i, (t.core w i).staged = (s.core w i).staged) ∧ ∀ i, (t.core w i).locked = (s.core w i).locked := by
  simp only [lockedOf, Prod.mk.injEq] at h
  obtain ⟨hforme, hprevious, hsweep, hstaged, hlocked⟩ := h
  exact ⟨by simp only [numbers, hforme, hprevious], hsweep, congrFun hstaged, congrFun hlocked⟩

theorem Settled.staged (h : Settled s t) : Same stagedImages s t :=
  funext fun w => funext (lockedOf_wythe (h.lockedOf w)).2.2.1

/-- What the previous forme is once `old` is no longer in force: none, where no forme was. -/
def previousOf (old : W16) : Option W16 := if old = 0 then none else some old

/-- A wythe takes its new number. -/
def takeNumber (s : State) (w : WytheIx) (n old : W16) : State :=
  s.updWy w (fun y => { y with forme := n, previous := if old = 0 then none else some old, switchAt := s.now, drained := false })

/-- A wythe's switch: its number, what settles nothing more, its images, and the sweep. -/
theorem switchWythe_settled (before : State) (n : W16) (digest : Bytes) (s : State) (w : WytheIx) : ∃ (a b : State) (x : Sweep), x ≠ .idle ∧
    Settled (s.takeNumber w n (before.wy w).forme) a ∧ Settled (a.pauseCourses w) b ∧
    switchWythe before n digest s w = b.updWy w (fun y => { y with sweep := x }) := by
  unfold switchWythe
  extract_lets old s1 s2 s3 s4 s5 s6
  have h4 : Steady s1 s4 := .each (.ledgerLock (.switchTrie (.refl s1))) fun _ _ h => .onlyIf h fun _ h => h.relaySwitch
  have h6 : Settled (s4.pauseCourses w) s6 := .each (.steady (.refl _) (.quoinSwitch (.refl _))) fun s p hp h =>
    .onlyIf h fun _ h => h.gateSwitch (List.mem_range.mp hp)
  refine ⟨s4, s6, _, ?_, .steady (.refl s1) h4, h6, rfl⟩
  split
  · simp
  · simp

theorem numbers_of_takeNumber {n old : W16} (h : Settled (s.takeNumber w n old) t) : numbers w t = (n, previousOf old) :=
  (lockedOf_wythe (h.lockedOf w)).1.trans (by simp [numbers, takeNumber, previousOf])

theorem formeCopies_updWy (s : State) (w : WytheIx) (f : Wythe → Wythe) : Same formeCopies s (s.updWy w f) := by
  rcases wythe_cases w with rfl | rfl <;> rfl

theorem staged_updWy (s : State) (w : WytheIx) {f : Wythe → Wythe} (hf : ∀ y, (f y).cores = y.cores) : Same stagedImages s (s.updWy w f) := by
  funext v i
  by_cases hv : v = w
  · subst hv
    simp [stagedImages, core, hf]
  · simp [stagedImages, core, wy_updWy, hv]

theorem switchWythe_copies {before n digest} : Same formeCopies s (switchWythe before n digest s w) := by
  obtain ⟨a, b, x, -, ha, hb, hswitch⟩ := switchWythe_settled before n digest s w
  rw [hswitch]
  exact (formeCopies_updWy s w _).trans (ha.copies.trans
    ((same_pauseCourses (fun _ _ _ => formeCopies_updWy _ _ _) fun _ _ _ => formeCopies_updWy _ _ _).trans (hb.copies.trans (formeCopies_updWy b w _))))

theorem switchWythe_staged {before n digest} : Same stagedImages s (switchWythe before n digest s w) := by
  obtain ⟨a, b, x, -, ha, hb, hswitch⟩ := switchWythe_settled before n digest s w
  have hnumber : Same stagedImages s (s.takeNumber w n (before.wy w).forme) := staged_updWy s w fun _ => rfl
  have hsweep : Same stagedImages b (b.updWy w (fun y => { y with sweep := x })) := staged_updWy b w fun _ => rfl
  exact hswitch ▸ hnumber.trans (ha.staged.trans (staged_pauseCourses.trans (hb.staged.trans hsweep)))

theorem switchWythe_other {before n digest} {v : WytheIx} (hv : v ≠ w) :
    lockedOf ((switchWythe before n digest s w).wy v) = lockedOf (s.wy v) := by
  obtain ⟨a, b, x, -, ha, hb, hswitch⟩ := switchWythe_settled before n digest s w
  have hpause : (a.pauseCourses w).wy v = a.wy v :=
    same_pauseCourses (view := fun t => t.wy v) (fun s c f => wy_updWy_ne s _ hv) fun s i f => wy_updWy_ne s _ hv
  rw [hswitch, wy_updWy_ne _ _ hv, hb.lockedOf v, hpause, ha.lockedOf v, takeNumber, wy_updWy_ne _ _ hv]

/-- A wythe has switched: its numbers, a sweep to come, and the images locked up. -/
def Switched (n : W16) (before : State) (w : WytheIx) (t : State) : Prop :=
  numbers w t = (n, previousOf (before.wy w).forme) ∧ (t.wy w).sweep ≠ .idle ∧ ∀ i < 48, (t.core w i).locked = (before.core w i).staged

theorem Switched.congr {before : State} {n : W16} (h : Switched n before w s) (ht : State.lockedOf (t.wy w) = State.lockedOf (s.wy w)) :
    Switched n before w t := by
  obtain ⟨hnumbers, hsweep, -, hlocked⟩ := lockedOf_wythe ht
  obtain ⟨h1, h2, h3⟩ := h
  exact ⟨hnumbers.trans h1, hsweep ▸ h2, fun i hi => (hlocked i).trans (h3 i hi)⟩

theorem switchWythe_switched {before : State} {n : W16} {digest : Bytes} (hs : Same stagedImages before s) :
    Switched n before w (switchWythe before n digest s w) := by
  have hstaged := hs.trans (switchWythe_staged (before := before) (n := n) (digest := digest) (w := w))
  obtain ⟨a, b, x, hx, ha, hb, hswitch⟩ := switchWythe_settled before n digest s w
  obtain ⟨hnumbers, -, hb1, hb2⟩ := lockedOf_wythe (hb.lockedOf w)
  have hpause : numbers w (a.pauseCourses w) = numbers w a :=
    same_pauseCourses (view := numbers w) (fun _ _ _ => by simp [numbers]) fun _ _ _ => by simp [numbers]
  rw [hswitch] at hstaged ⊢
  refine ⟨?_, by simpa using hx, fun i hi => ?_⟩
  · rw [← numbers_of_takeNumber ha, ← hpause, ← hnumbers]
    simp [numbers]
  · have himage : (b.core w i).locked = (b.core w i).staged := (hb2 i).trans ((locked_pauseCourses hi).trans (hb1 i).symm)
    have hcore : (b.updWy w (fun y => { y with sweep := x })).core w i = b.core w i := by simp [core]
    have hi := congrFun (congrFun hstaged w) i
    simp only [stagedImages, hcore] at hi
    rw [hcore, himage, hi]

/-! ### The switch of the device -/

/-- The copies and the forme unit at a switch, before the wythes take their turns (R43). -/
def nextForme (s : State) : State :=
  { s with
    previous := s.takeCopy s.previous s.active
    active := s.takeCopy s.active s.staged
    forme := { s.forme with
      lockCount := s.forme.lockCount + 1, switchTime := s.gptp 0, lockResult := 0, session := .none, restored := false
      journal := [], refusedImages := [], sweepOn := s.joined } }

/-- Once the wythes have switched, a lock-up settles nothing more. -/
theorem lockUp_settled (s : State) (n : W16) (persist : Bool) (digest : Bytes) :
    Settled (s.nextForme.each s.joined (switchWythe s n digest)) (s.lockUp n persist digest) := by
  unfold lockUp
  extract_lets ws changed forme s1 s2 s3 s4 s5 s6
  have h4 : Settled s2 s4 := .each (.each (.refl s2) fun _ _ _ h => h.switchReg) fun s _ _ h => h.steady (.wr (.refl s))
  have h5 : Settled s2 s5 := (h4.steady (.count (.refl s4))).setForme rfl
  have h6 : Settled s2 s6 := .ite (h5.steady (.rejoinComplete (.refl s5))) h5
  exact .onlyIf h6 fun _ h => h.persistStarts

variable {n : W16} {persist : Bool} {digest : Bytes}

theorem lockUp_copies : Same formeCopies s.nextForme (s.lockUp n persist digest) :=
  (Same.each (fun _ _ => switchWythe_copies) s.joined s.nextForme).trans (lockUp_settled s n persist digest).copies

theorem lockUp_switched (hw : w ∈ s.joined) : Switched n s w (s.lockUp n persist digest) := by
  refine Switched.congr ?_ ((lockUp_settled s n persist digest).lockedOf w)
  refine each_of_mem (I := Same stagedImages s) (P := Switched n s w) hw rfl (fun _ _ h => h.trans switchWythe_staged)
    (fun _ h => switchWythe_switched h) fun t v ht h => ?_
  by_cases hv : w = v
  · exact hv ▸ switchWythe_switched ht
  · exact h.congr (switchWythe_other hv)

theorem lockUp_left (hw : w ∉ s.joined) : numbers w (s.lockUp n persist digest) = numbers w s := by
  refine (lockedOf_wythe ((lockUp_settled s n persist digest).lockedOf w)).1.trans ?_
  refine List.foldlRecOn (motive := fun t : State => numbers w t = numbers w s) s.joined (switchWythe s n digest) rfl fun t ht v hv => ?_
  exact (lockedOf_wythe (switchWythe_other fun h : w = v => hw (h ▸ hv))).1.trans ht

theorem lockUp_registers {a : Nat} {pg : PageId} (hp : pageOf a = some pg) (ha : a < 0x1000000 ∨ s.tieCut = false) :
    (s.lockUp n persist digest).stPrevious a = s.stActive a ∧
      (pg.type ≠ 0x40 → (s.lockUp n persist digest).stActive a = s.stStaged a) := by
  have hcopies := lockUp_copies (s := s) (n := n) (persist := persist) (digest := digest)
  simp only [Same, formeCopies, Prod.mk.injEq] at hcopies
  obtain ⟨hprevious, hactive, -⟩ := hcopies
  refine ⟨?_, fun htype => ?_⟩
  · rw [stPrevious, hprevious]
    exact sget_takeCopy s _ _ ha
  · have hoff : ∀ t : State, t.offPress a = t.stActive a := fun t => by simp [offPress, hp, htype]
    rw [← hoff, hactive, hoff]
    exact sget_takeCopy s _ _ ha

theorem lockUp_forme : (s.lockUp n persist digest).forme.locking = s.forme.locking ∧ (s.lockUp n persist digest).forme.session = .none ∧
    (s.lockUp n persist digest).forme.journal = [] ∧ (s.lockUp n persist digest).forme.lockCount = s.forme.lockCount + 1 ∧
    (s.lockUp n persist digest).forme.lockResult = 0 ∧ (s.lockUp n persist digest).forme.sweepOn = s.joined := by
  have hcopies := lockUp_copies (s := s) (n := n) (persist := persist) (digest := digest)
  simp only [Same, formeCopies, Prod.mk.injEq] at hcopies
  obtain ⟨-, -, hforme⟩ := hcopies
  exact ⟨(congrArg FormeUnit.locking hforme :), (congrArg FormeUnit.session hforme :), (congrArg FormeUnit.journal hforme :),
    (congrArg FormeUnit.lockCount hforme :), (congrArg FormeUnit.lockResult hforme :), (congrArg FormeUnit.sweepOn hforme :)⟩

/-! ### LOCK_GO and the end of the validation -/

theorem lockGo_holds (hlocking : s.forme.locking = none) (hledger : s.forme.ledgerWait = false) (hen : s.enabled pgForme = true) :
    Completes .lockGo s (fun t => t =
      { s with forme := { s.forme with locking := some ((s.rd (pgForme + 0x108)).setWidth 16, flag (s.rd (pgForme + 0x108)) 16) } }) :=
  ⟨_, congrArg Host.Outcome.next (if_neg (by simp [hlocking, hledger, hen])), rfl⟩

theorem lockGo_ignored (h : s.forme.locking ≠ none ∨ s.forme.ledgerWait = true ∨ s.enabled pgForme = false) :
    Completes .lockGo s (fun t => t = s) := by
  refine ⟨s, congrArg Host.Outcome.next (if_pos ?_), rfl⟩
  rcases h with h | h | h
  · simp [Option.isSome_iff_ne_none.mpr h]
  · simp [h]
  · simp [h]

theorem validation_fails (hlocking : s.forme.locking = some (n, persist)) (hcode : s.validate n persist true ≠ 0) :
    Completes .lockupValidationEnd s (fun t => Only s t (fun x => { x with forme := {} }) ∧
      t.forme = { s.forme with locking := none, lockResult := s.validate n persist true } ∧ (s.Canon → Counted s t (pgForme + 0x48))) := by
  refine ⟨((s.setForme (fun f => { f with locking := none })).setForme (fun f => { f with lockResult := s.validate n persist true })).count
    (pgForme + 0x48) 1, congrArg Host.Outcome.next ?_, essence_count_forme _ _ 1, by simp [setForme], fun hs => ?_⟩
  · simp [validationEnds, hlocking, hcode]
  · exact .of_spares (t := (s.setForme _).setForme _) (.of_words rfl rfl) hs rfl

/-- The state that a validated forme is locked up from: no number waits, and the session's commands have run. -/
def validated (s : State) : State :=
  (s.setForme (fun f => { f with locking := none })).each s.joined (fun s w => s.flushSession w)

theorem validated_steady (s : State) : Steady (s.setForme (fun f => { f with locking := none })) s.validated :=
  .each (.refl _) fun _ _ h => h.flushSession

theorem validated_tieCut (s : State) : s.validated.tieCut = s.tieCut := by
  have honly : Only (s.setForme (fun f => { f with locking := none })) s.validated sansSessions :=
    each_induct (fun t => Only (s.setForme (fun f => { f with locking := none })) t sansSessions) _
      (fun t w ht => ht.trans (InTables.sansSessions (.flushSession (.refl t _)))) _ _ (.refl _ _)
  exact honly.tieCut

theorem validation_switches (hlocking : s.forme.locking = some (n, persist)) (hcode : s.validate n persist true = 0) :
    Completes .lockupValidationEnd s (fun t =>
      (∀ w ∈ s.joined, (t.wy w).forme = n ∧ (t.wy w).previous = (if (s.wy w).forme = 0 then none else some (s.wy w).forme) ∧
        (t.wy w).sweep ≠ .idle) ∧
      (∀ w, w ∉ s.joined → (t.wy w).forme = (s.wy w).forme ∧ (t.wy w).previous = (s.wy w).previous) ∧
      (∀ a pg, pageOf a = some pg → (a < 0x1000000 ∨ s.tieCut = false) →
        t.stPrevious a = s.stActive a ∧ (pg.type ≠ 0x40 → t.stActive a = s.stStaged a)) ∧
      t.forme.locking = none ∧ t.forme.session = .none ∧ t.forme.journal = [] ∧ t.forme.lockCount = s.forme.lockCount + 1 ∧
      t.forme.lockResult = 0 ∧ t.forme.sweepOn = s.joined ∧ ∀ w ∈ s.joined, ∀ i < 48, (t.core w i).locked = (s.core w i).staged) := by
  obtain ⟨digest, hrun⟩ : ∃ digest, s.validationEnds = s.validated.lockUp n persist digest :=
    ⟨sha256 (s.journalBytes s.lockNumber), by simp only [validationEnds, hlocking, hcode, if_true]; rfl⟩
  have htie := validated_tieCut s
  have hjoined : s.validated.joined = s.joined := by simp only [joined, htie]
  obtain ⟨hstaged, hactive, -, hforme⟩ := (validated_steady s).copies
  have hwythe := fun w => lockedOf_wythe (((Settled.refl _).steady (validated_steady s)).lockedOf w)
  have hnumbers : ∀ w, (s.validated.wy w).forme = (s.wy w).forme ∧ (s.validated.wy w).previous = (s.wy w).previous :=
    fun w => Prod.mk.inj (hwythe w).1
  have hswitched : ∀ w ∈ s.joined, Switched n s.validated w s.validationEnds := fun w hw => hrun ▸ lockUp_switched (hjoined ▸ hw)
  refine ⟨s.validationEnds, rfl, fun w hw => ?_, fun w hw => ?_, fun a pg hp ha => ?_, ?_⟩
  · obtain ⟨hnew, hsweep, -⟩ := hswitched w hw
    obtain ⟨hforme, hprevious⟩ := Prod.mk.inj hnew
    exact ⟨hforme, by rw [hprevious, (hnumbers w).1, previousOf], hsweep⟩
  · have hleft : numbers w s.validationEnds = numbers w s.validated := hrun ▸ lockUp_left (hjoined ▸ hw)
    obtain ⟨hforme, hprevious⟩ := Prod.mk.inj hleft
    exact ⟨hforme.trans (hnumbers w).1, hprevious.trans (hnumbers w).2⟩
  · rw [hrun]
    obtain ⟨hprevious, hin⟩ := lockUp_registers (s := s.validated) (n := n) (persist := persist) (digest := digest) hp (htie.symm ▸ ha)
    refine ⟨hprevious.trans ?_, fun htype => (hin htype).trans ?_⟩
    · simp only [stActive, hactive, setForme]
    · simp only [stStaged, hstaged, setForme]
  · obtain ⟨hlock, hsession, hjournal, hcount, hresult, hsweepOn⟩ :=
      lockUp_forme (s := s.validated) (n := n) (persist := persist) (digest := digest)
    rw [← hrun] at hlock hsession hjournal hcount hresult hsweepOn
    rw [hforme] at hlock hcount
    refine ⟨hlock, hsession, hjournal, hcount, hresult, hsweepOn.trans hjoined, fun w hw i hi => ?_⟩
    obtain ⟨-, -, himages⟩ := hswitched w hw
    obtain ⟨-, -, hstagedImages, -⟩ := hwythe w
    exact (himages i hi).trans (hstagedImages i)

end State

/-- Settles O40: each clause is the lemma of its event. -/
theorem lockUps : Obligations.LockUps := by
  unfold Obligations.LockUps
  intro s
  refine ⟨State.lockGo_holds, State.lockGo_ignored, fun hnone => ⟨s, congrArg Host.Outcome.next ?_, rfl⟩,
    fun n persist hlocking => ⟨State.validation_fails hlocking, State.validation_switches hlocking⟩, fun w c => State.courseImageLoad_spec w c,
    fun w f hprev hsweep => ⟨fun hlimit => State.drainLimitExpiry_spec ⟨hprev, hsweep, hlimit⟩, State.sweepStart_runs hprev hsweep,
      State.sweepStart_waits hprev, State.sweepEnd_waits hsweep⟩, fun w hsweep => State.sweepEnd_runs hsweep, fun p hp => State.persistEnd_spec hp⟩
  simp [State.validationEnds, hnone]

end Sys2Proof.Machine

end

/-!
# The Compositor's path

Each command of the Compositor is followed to the state that it answers; what the slugs of R15 carry to the Collator and
to their course is read off the updates of a release.
-/

section

namespace Sys2Proof.Machine

/-! ### The lowest free key of a map -/

theorem sfind_eq_none_of_rising {α : Type} {m : SMap α} : ∀ {lo k : Nat}, risingFrom lo m = true → k < lo → sfind m k = none := by
  induction m with
  | nil => exact fun _ _ => rfl
  | cons e r ih =>
    intro lo k hr hk
    simp only [risingFrom, Bool.and_eq_true, decide_eq_true_eq] at hr
    have hne : k ≠ e.1 := by omega
    simp only [sfind, hne, if_false]
    exact ih hr.2 (by omega)

namespace State

theorem le_firstFree {α : Type} (m : SMap α) : ∀ n : Nat, n ≤ firstFree n m := by
  induction m with
  | nil => exact fun n => Nat.le_refl n
  | cons e r ih =>
    intro n
    simp only [firstFree]
    split
    · exact Nat.le_of_succ_le (ih (n + 1))
    · exact Nat.le_refl n

theorem sfind_firstFree {α : Type} (m : SMap α) : ∀ {n : Nat}, risingFrom n m = true → sfind m (firstFree n m) = none := by
  induction m with
  | nil => exact fun _ => rfl
  | cons e r ih =>
    intro n hr
    simp only [risingFrom, Bool.and_eq_true, decide_eq_true_eq] at hr
    obtain ⟨hle, hrest⟩ := hr
    simp only [firstFree]
    split
    · next hkey =>
      have hne : firstFree (n + 1) r ≠ e.1 := by have := le_firstFree r (n + 1); omega
      simp only [sfind, hne, if_false]
      exact ih (hkey ▸ hrest)
    · next hkey =>
      have hne : n ≠ e.1 := fun h => hkey h.symm
      simp only [sfind, hne, if_false]
      exact sfind_eq_none_of_rising hrest (by omega)

variable {s : State} {w : WytheIx} {e : CompEntry} {f : RxFrame}

theorem only_updComp (s : State) (w : WytheIx) (g : Compositor → Compositor) : Only s (s.updComp w g) (·.updComp w (fun _ => {})) := by
  unfold updComp
  exact (Only.refl s _).change fun _ => rfl

theorem only_updRx (s : State) (w : WytheIx) (id : Nat) (g : RxFrame → RxFrame) :
    Only s (s.updRx w id g) (·.updWy w (fun y => { y with rx := [] })) := by
  unfold updRx
  exact (Only.refl s _).change fun _ => rfl
theorem only_delRx (s : State) (w : WytheIx) (id : Nat) : Only s (s.delRx w id) (·.updWy w (fun y => { y with rx := [] })) := by
  unfold delRx
  exact (Only.refl s _).change fun _ => rfl
theorem only_updCourse (s : State) (w : WytheIx) (c : Nat) (g : Course → Course) :
    Only s (s.updCourse w c g) (·.updWy w (fun y => { y with courses := [] })) := by
  unfold updCourse
  exact (Only.refl s _).change fun _ => rfl

/-! ### Intake and recirculation -/

theorem compIntake_stopped (w : WytheIx) (p : Nat) (hstop : s.compStopped w = true) : s.compIntake w p = s := by
  unfold compIntake
  split
  · rfl
  · simp only [hstop, Bool.or_true, Bool.true_or, if_true]

theorem compIntake_takes {p : Nat} (hf : s.intakeReady w p = some f) (hen : s.enabled (pgComp w) = true)
    (hout : (s.wy w).outputsClosed = false) (hstop : s.compStopped w = false) (hturn : s.intakeTurn w p = true) :
    ∃ e : CompEntry, s.compIntake w p = (s.updRx w f.id (fun r => { r with taken := true })).updComp w (fun c =>
        { c with entries := c.entries ++ [e], lastIn := p }) ∧
      e.frame = f.id ∧ e.port = p ∧ e.forme = s.formeNo w ∧ e.stage = .pipeline ∧ e.parsed = false ∧ e.fields = [] ∧ e.except_ = 0 := by
  simp only [compIntake, hf, hen, hout, hstop, hturn, Bool.not_true, Bool.or_false, Bool.false_eq_true, if_false]
  exact ⟨_, rfl, rfl, rfl, rfl, rfl, rfl, rfl, rfl⟩

theorem compositorIntake_spec {p : PortIx} (hf : s.intakeReady w p.val = some f) (hen : s.enabled (pgComp w) = true)
    (hout : (s.wy w).outputsClosed = false) (hstop : s.compStopped w = false) (hturn : s.intakeTurn w p.val = true) :
    Completes (.compositorIntake w p) s (fun t => ∃ e, (t.wy w).comp.entries = (s.wy w).comp.entries ++ [e] ∧ e.frame = f.id ∧
      e.port = p.val ∧ e.forme = s.formeNo w ∧ e.stage = .pipeline ∧ e.parsed = false ∧ e.fields = [] ∧ e.except_ = 0 ∧
      (∀ r ∈ (t.wy w).rx, r.id = f.id → r.taken = true) ∧ Only s t (·.updWy w (fun y => { y with rx := [], comp := {} }))) := by
  obtain ⟨e, heq, hframe, hport, hforme, hstage, hparsed, hfields, hexcept⟩ := compIntake_takes hf hen hout hstop hturn
  refine ⟨_, congrArg Host.Outcome.next heq, e, by simp [updRx], hframe, hport, hforme, hstage, hparsed, hfields, hexcept, ?_,
    ((only_updRx s w _ _).forget fun _ => rfl).trans ((only_updComp _ w _).forget fun _ => rfl)⟩
  intro r hr hid
  simp only [updRx, wy_updComp_same, wy_updWy_same, List.mem_map] at hr
  obtain ⟨q, -, rfl⟩ := hr
  by_cases hq : q.id = f.id
  · simp [hq]
  · simp [hq] at hid

theorem setEntry_entries (s : State) (w : WytheIx) (e : CompEntry) :
    ((s.setEntry w e).wy w).comp.entries = (s.wy w).comp.entries.map (fun x => if x.frame = e.frame then e else x) := by
  simp [setEntry]

theorem only_setEntry (s : State) (w : WytheIx) (e : CompEntry) : Only s (s.setEntry w e) (·.updComp w (fun _ => {})) :=
  only_updComp s w _

theorem recirculation_spec {p : PortIx}
    (he : (s.wy w).comp.entries.find? (fun e => e.port == p.val && e.stage == .recirculating) = some e) (hstop : s.compStopped w = false) :
    Completes (.recirculation w p) s (fun t =>
      (t.wy w).comp.entries = (s.wy w).comp.entries.map (fun x => if x.frame = e.frame then { e with stage := .pipeline } else x) ∧
      Only s t (·.updComp w (fun _ => {}))) := by
  refine ⟨s.setEntry w { e with stage := .pipeline }, ?_, setEntry_entries s w _, only_setEntry s w _⟩
  change execRecirculation w p s = _
  simp only [execRecirculation, he, hstop, Bool.false_eq_true, if_false]

/-! ### Spreading without a Case table -/

/-- The entry of a frame that no Case slot handles, held with its hash (R94). -/
def heldEntry (s : State) (w : WytheIx) (e : CompEntry) : CompEntry :=
  { e with stage := .held, hitmap := 0, tablesRun := 0, heldAt := s.now, hash := s.spreadHash w { e with hitmap := 0, tablesRun := 0 } }

section
variable {p : Nat} (he : (s.wy w).comp.entries.find? (fun e => e.port == p && e.stage == .pipeline) = some e)
  (hf : (s.wy w).rx.find? (fun f => f.id == e.frame) = some f)
  (hnone : (s.wy w).comp.entries.any (fun e => e.port == p && e.stage == .held) = false)
  (hearly : earlyPort w (s.stOf w e.forme) p = false) (parity corrected : Byte)
include he hf hnone hearly

theorem spreadEnd_parsed (hparsed : e.parsed = true) (hslot : 8 ≤ e.nextSlot) :
    s.spreadEnd w p parity corrected = s.setEntry w (s.heldEntry w e) := by
  simp only [spreadEnd, heldEntry, he, hf, hnone, hearly, hparsed, hslot, Bool.false_eq_true, if_false, if_true]

/-- The first pass parses the frame, and with no Case slot it is the last (R73, R81). -/
theorem spreadEnd_parses (hparsed : e.parsed = false) (hentry : 8 ≤ (parseFrame (s.stOf w e.forme) w p f.data).entry) :
    ∃ e' : CompEntry, s.spreadEnd w p parity corrected = s.setEntry w e' ∧ e'.frame = e.frame ∧ e'.stage = .held ∧ e'.parsed = true ∧
      e'.fields = (parseFrame (s.stOf w e.forme) w p f.data).fields ∧ e'.offsets = (parseFrame (s.stOf w e.forme) w p f.data).offsets ∧
      e'.proto = (parseFrame (s.stOf w e.forme) w p f.data).proto ∧ e'.forme = e.forme ∧
      e'.lastNode = BitVec.ofNat 16 (256 * (parseFrame (s.stOf w e.forme) w p f.data).done + (parseFrame (s.stOf w e.forme) w p f.data).last) := by
  simp only [spreadEnd, he, hf, hnone, hearly, hparsed, hentry, Bool.false_eq_true, if_false, if_true]
  exact ⟨_, rfl, rfl, rfl, rfl, rfl, rfl, rfl, rfl, rfl⟩
end

theorem spreadingEnd_parsed {p : PortIx} (parity corrected : Byte)
    (he : (s.wy w).comp.entries.find? (fun e => e.port == p.val && e.stage == .pipeline) = some e)
    (hf : (s.wy w).rx.find? (fun f => f.id == e.frame) = some f)
    (hnone : (s.wy w).comp.entries.any (fun e => e.port == p.val && e.stage == .held) = false) (hparsed : e.parsed = true)
    (hslot : 8 ≤ e.nextSlot) (hearly : earlyPort w (s.stOf w e.forme) p.val = false) :
    Completes (.spreadingEnd w p parity corrected) s (fun t =>
      (t.wy w).comp.entries = (s.wy w).comp.entries.map (fun x => if x.frame = e.frame then s.heldEntry w e else x) ∧
      Only s t (·.updComp w (fun _ => {}))) :=
  ⟨_, congrArg Host.Outcome.next (spreadEnd_parsed he hf hnone hearly parity corrected hparsed hslot), setEntry_entries s w _,
    only_setEntry s w _⟩

theorem spreadingEnd_parses {p : PortIx} (parity corrected : Byte)
    (he : (s.wy w).comp.entries.find? (fun e => e.port == p.val && e.stage == .pipeline) = some e)
    (hf : (s.wy w).rx.find? (fun f => f.id == e.frame) = some f)
    (hnone : (s.wy w).comp.entries.any (fun e => e.port == p.val && e.stage == .held) = false) (hparsed : e.parsed = false)
    (hearly : earlyPort w (s.stOf w e.forme) p.val = false) :
    let r := parseFrame (s.stOf w e.forme) w p.val f.data
    8 ≤ r.entry → Completes (.spreadingEnd w p parity corrected) s (fun t => ∃ e', e' ∈ (t.wy w).comp.entries ∧ e'.frame = e.frame ∧
      e'.stage = .held ∧ e'.parsed = true ∧ e'.fields = r.fields ∧ e'.offsets = r.offsets ∧ e'.proto = r.proto ∧ e'.forme = e.forme ∧
      e'.lastNode = BitVec.ofNat 16 (256 * r.done + r.last) ∧ Only s t (·.updComp w (fun _ => {}))) := by
  intro r hentry
  obtain ⟨e', heq, hframe, hstage, hparsed', hfields, hoffsets, hproto, hforme, hlast⟩ :=
    spreadEnd_parses he hf hnone hearly parity corrected hparsed hentry
  refine ⟨_, congrArg Host.Outcome.next heq, e', ?_, hframe, hstage, hparsed', hfields, hoffsets, hproto, hforme, hlast, only_setEntry s w _⟩
  rw [setEntry_entries]
  exact List.mem_map.mpr ⟨e, List.mem_of_find?_eq_some he, if_pos hframe.symm⟩

/-! ### Release -/

theorem slugRelease_stopped (e : CompEntry) (hstop : s.compStopped w = true) : s.slugRelease w e = s := by
  unfold slugRelease
  split
  · rfl
  · simp only [hstop, Bool.or_true, Bool.true_or, if_true]

theorem exec_slugRelease {p : PortIx} (he : (s.wy w).comp.entries.find? (fun e => e.port == p.val && e.stage == .held) = some e) :
    exec (.slugRelease w p) s = .next (s.slugRelease w e) := by
  change execSlugRelease w p s = _
  simp only [execSlugRelease, he]

/-- What leaves the Compositor with a slug: its entry and its turn. -/
def slugGone (s : State) (w : WytheIx) (e : CompEntry) : State :=
  (s.compDiscard w e.frame).updComp w (fun c => { c with lastOut := e.port })

/-- The slot that a slug takes in its domain. -/
def releasedSlot (s : State) (w : WytheIx) (e : CompEntry) (f : RxFrame) : SeqSlot :=
  { state := .pending, domain := (s.placeOf w e).2.2, seq := kget 0 (s.wy w).coll.nextSeq (s.placeOf w e).2.2, forme := e.forme
    port := e.port, handle := w32 (f.handle.getD 0), serial := (s.wy w).coll.nextSerial, frame := none }

/-- The Collator with that slot: the lowest free one, last in the order of the domain. -/
def slotEntered (s : State) (w : WytheIx) (e : CompEntry) (f : RxFrame) (c : Collator) : Collator :=
  let old := (s.wy w).coll
  let dom := (s.placeOf w e).2.2
  { c with
    slots := sins c.slots (firstFree 0 old.slots) (s.releasedSlot w e f), nextSerial := old.nextSerial + 1
    nextSeq := sins c.nextSeq dom (kget 0 old.nextSeq dom + 1)
    order := sins c.order dom (kget [] old.order dom ++ [firstFree 0 old.slots])
    headSince := if (kget [] old.order dom).isEmpty then sins c.headSince dom s.now else c.headSince
    flights := sins c.flights old.nextSerial ⟨e.forme, 1⟩, slotsMax := max c.slotsMax (old.slots.length + 1) }

theorem length_padTo_take (d : Bytes) : (padTo 128 (d.take 128)).length = 128 := by
  simp only [padTo, List.length_append, List.length_replicate, List.length_take]
  omega

theorem essence_onlyIf {g : State → State} (b : Bool) (hg : (g s).essence = s.essence) : (s.onlyIf b g).essence = s.essence := by
  unfold onlyIf
  split
  · exact hg
  · rfl

section
variable (hf : (s.wy w).rx.find? (fun f => f.id == e.frame) = some f) (hready : s.heldReady w e = true) (hended : f.ended = true)
  (hstop : s.compStopped w = false) (hturn : s.releaseTurn w e = true)
include hf hready hended hstop hturn

theorem slugRelease_closed (hheld : (s.course w (s.placeOf w e).2.1).held = true) :
    s.slugRelease w e = (((((s.slugGone w e).rxFree w f).drop w e.port .courseClosed).count (pgComp w + 0xF0) 1).delRx w f.id) := by
  simp only [slugRelease, hf, hready, hstop, hturn, hheld, hended, Bool.not_true, Bool.or_false, Bool.false_eq_true, if_false, if_true]
  rfl

/-- A slug that its course takes enters the Collator and the course's queue; the counts and events of a release are none of
the essence (R15, R70). -/
theorem essence_slugRelease (hfb : (s.placeOf w e).1 = false) (hheld : (s.course w (s.placeOf w e).2.1).held = false) :
    ∃ g : SlugRec, g.slot = firstFree 0 (s.wy w).coll.slots ∧ g.bytes.take 128 = padTo 128 (f.data.take 128) ∧
      (s.slugRelease w e).essence = ((((s.slugGone w e).updColl w (s.slotEntered w e f)).updCourse w (s.placeOf w e).2.1
        (fun k => { k with dq := k.dq ++ [g], dqMax := max k.dqMax (k.dq.length + 1) })).delRx w f.id).essence := by
  simp only [slugRelease, hf, hready, hstop, hturn, hheld, hended, hfb, Bool.not_true, Bool.or_false, Bool.false_eq_true, if_false]
  simp only [essence_onlyIf, essence_count, essence_raiseBit]
  exact ⟨⟨_, _, _⟩, rfl, List.take_left' (length_padTo_take _), rfl⟩

end

theorem only_slugGone (s : State) (w : WytheIx) (e : CompEntry) : Only s (s.slugGone w e) (·.updComp w (fun _ => {})) :=
  (only_updComp s w _).trans (only_updComp _ w _)

theorem slugGone_entries (s : State) (w : WytheIx) (e : CompEntry) : ∀ x ∈ ((s.slugGone w e).wy w).comp.entries, x.frame ≠ e.frame := by
  simp [slugGone, compDiscard]

theorem delRx_gone (s : State) (w : WytheIx) (id : Nat) : ∀ r ∈ ((s.delRx w id).wy w).rx, r.id ≠ id := by
  simp [delRx]

theorem only_rxFree (s : State) (w : WytheIx) (f : RxFrame) : Only s (s.rxFree w f) (·.updGalley w (fun _ => {})) := by
  unfold rxFree
  split
  · exact only_refDown s w _
  · exact .refl s _

section
variable {p : PortIx} (he : (s.wy w).comp.entries.find? (fun e => e.port == p.val && e.stage == .held) = some e)
  (hf : (s.wy w).rx.find? (fun f => f.id == e.frame) = some f) (hready : s.heldReady w e = true) (hended : f.ended = true)
  (hstop : s.compStopped w = false) (hturn : s.releaseTurn w e = true)
include he hf hready hended hstop hturn

theorem slugRelease_spec (hfb : (s.placeOf w e).1 = false) (hheld : (s.course w (s.placeOf w e).2.1).held = false) :
    Completes (.slugRelease w p) s (fun t => ∃ slot g sl,
      (risingFrom 0 (s.wy w).coll.slots = true → sfind (s.wy w).coll.slots slot = none) ∧ sfind (t.wy w).coll.slots slot = some sl ∧
      sl.state = .pending ∧ sl.domain = (s.placeOf w e).2.2 ∧ sl.seq = kget 0 (s.wy w).coll.nextSeq (s.placeOf w e).2.2 ∧
      kget 0 (t.wy w).coll.nextSeq (s.placeOf w e).2.2 = kget 0 (s.wy w).coll.nextSeq (s.placeOf w e).2.2 + 1 ∧
      sl.handle = w32 (f.handle.getD 0) ∧ sl.port = e.port ∧ sl.forme = e.forme ∧
      kget [] (t.wy w).coll.order (s.placeOf w e).2.2 = kget [] (s.wy w).coll.order (s.placeOf w e).2.2 ++ [slot] ∧
      (t.course w (s.placeOf w e).2.1).dq = (s.course w (s.placeOf w e).2.1).dq ++ [g] ∧ g.slot = slot ∧
      g.bytes.take 128 = padTo 128 (f.data.take 128) ∧
      (∀ x ∈ (t.wy w).comp.entries, x.frame ≠ e.frame) ∧ (∀ r ∈ (t.wy w).rx, r.id ≠ f.id) ∧
      Only s t (·.updWy w (fun y => { y with rx := [], comp := {}, coll := {}, courses := [] }))) := by
  obtain ⟨g, hslot, hbytes, hess⟩ := essence_slugRelease hf hready hended hstop hturn hfb hheld
  have hentries := slugGone_entries s w e
  have hgone := only_slugGone s w e
  have hcoll : ((s.slugGone w e).wy w).coll = (s.wy w).coll := congrArg (·.coll) hgone.wy_same
  have hcourses : ((s.slugGone w e).wy w).courses = (s.wy w).courses := congrArg (·.courses) hgone.wy_same
  have honly : Only s ((((s.slugGone w e).updColl w (s.slotEntered w e f)).updCourse w (s.placeOf w e).2.1
      (fun k => { k with dq := k.dq ++ [g], dqMax := max k.dqMax (k.dq.length + 1) })).delRx w f.id)
      (·.updWy w (fun y => { y with rx := [], comp := {}, coll := {}, courses := [] })) :=
    (((hgone.forget fun _ => rfl).trans ((only_updColl _ w _).forget fun _ => rfl)).trans
      ((only_updCourse _ w _ _).forget fun _ => rfl)).trans ((only_delRx _ w _).forget fun _ => rfl)
  have hwy : (s.slugRelease w e).wy w = ((((s.slugGone w e).updColl w (s.slotEntered w e f)).updCourse w (s.placeOf w e).2.1
      (fun k => { k with dq := k.dq ++ [g], dqMax := max k.dqMax (k.dq.length + 1) })).delRx w f.id).wy w := by
    rw [← essence_wy, hess, essence_wy]
  refine ⟨_, exec_slugRelease he, firstFree 0 (s.wy w).coll.slots, g, s.releasedSlot w e f, sfind_firstFree _, ?_, rfl, rfl, rfl, ?_, rfl, rfl,
    rfl, ?_, ?_, hslot, hbytes, ?_, ?_, honly.same hess⟩
  all_goals simp only [course, hwy]
  · simp [delRx, slotEntered, hcoll, sfind_sins_same]
  · simp [delRx, slotEntered, hcoll]
  · simp [delRx, slotEntered, hcoll]
  · simp [delRx, hcourses]
  · simpa [delRx] using hentries
  · exact delRx_gone _ w f.id

theorem slugRelease_closed_spec (hheld : (s.course w (s.placeOf w e).2.1).held = true) :
    Completes (.slugRelease w p) s (fun t => (∀ x ∈ (t.wy w).comp.entries, x.frame ≠ e.frame) ∧ (∀ r ∈ (t.wy w).rx, r.id ≠ f.id) ∧
      (t.wy w).coll = (s.wy w).coll) := by
  have hentries := slugGone_entries s w e
  have hcoll : ((s.slugGone w e).wy w).coll = (s.wy w).coll := congrArg (·.coll) (only_slugGone s w e).wy_same
  have hfree := (only_rxFree (s.slugGone w e) w f).wy_same
  have hcoll' : (((s.slugGone w e).rxFree w f).wy w).coll = (s.wy w).coll := (congrArg (·.coll) hfree).trans hcoll
  have hcomp : (((s.slugGone w e).rxFree w f).wy w).comp = ((s.slugGone w e).wy w).comp := congrArg (·.comp) hfree
  refine ⟨_, (exec_slugRelease he).trans (congrArg Host.Outcome.next (slugRelease_closed hf hready hended hstop hturn hheld)), ?_,
    delRx_gone _ w f.id, ?_⟩
  · simpa [delRx, hcomp] using hentries
  · simpa [delRx] using hcoll'

end

end State

/-- Settles O18: each clause is the lemma of its command. -/
theorem compositorPath : Obligations.CompositorPath := by
  unfold Obligations.CompositorPath
  intro s w p es
  refine ⟨fun hstop => ⟨⟨s, congrArg Host.Outcome.next (State.compIntake_stopped w p.val hstop), rfl⟩, s, ?_, rfl⟩,
    fun f hf hen hout hstop hturn => State.compositorIntake_spec hf hen hout hstop hturn,
    fun e he hstop => State.recirculation_spec he hstop,
    fun e f parity corrected he hf hnone hparsed hslot hearly => State.spreadingEnd_parsed parity corrected he hf hnone hparsed hslot hearly,
    fun e f parity corrected he hf hnone hparsed hearly => State.spreadingEnd_parses parity corrected he hf hnone hparsed hearly,
    fun e f he hf hready hended hfb => ?_,
    fun e f he hf hready hended hheld hstop hturn => State.slugRelease_closed_spec he hf hready hended hstop hturn hheld⟩
  · refine congrArg Host.Outcome.next ?_
    split
    · exact State.slugRelease_stopped _ hstop
    · rfl
  · intro course dom hheld hstop hturn
    exact State.slugRelease_spec he hf hready hended hstop hturn hfb hheld

end Sys2Proof.Machine

end

/-!
# CTRL of a page

A page's CTRL acts through `ctrlStore` alone. `CtrlSet` says what a write does that starts no abort; the pages are named by
their place in a wythe's region.
-/

section

namespace Sys2Proof.Machine

/-! ### Bits of a register word -/

theorem flag_eq_getLsbD (v : W32) (i : Nat) : flag v i = v.getLsbD i := by
  simp only [flag, bitOf, BitVec.getLsbD, Nat.testBit_eq_decide_div_mod_eq]
  rfl

/-- FREEZE_COUNTERS is set, and what stands below it stays. -/
theorem flag_setFld_freeze (v : W32) (on : Bool) :
    flag (setFld v 2 2 (b2n on)) 0 = flag v 0 ∧ flag (setFld v 2 2 (b2n on)) 1 = flag v 1 ∧ flag (setFld v 2 2 (b2n on)) 2 = on := by
  have hv := v.isLt
  have hword : (setFld v 2 2 (b2n on)).toNat = v.toNat - v.toNat / 4 % 2 * 4 + b2n on * 4 := by
    cases on <;> simp [setFld, w32, at', fld, bitsOf, b2n] <;> omega
  simp only [flag, bitOf, hword]
  cases on <;> simp [b2n] <;> omega

theorem or_one_of_flag {v : W32} (h : flag v 0 = true) : v ||| 1 = v := by
  rw [flag_eq_getLsbD] at h
  refine BitVec.eq_of_getLsbD_eq fun i hi => ?_
  rcases Nat.eq_zero_or_pos i with rfl | hpos
  · simp [h]
  · have hzero : i ≠ 0 := by omega
    simp [hzero]

/-! ### The pages of a wythe -/

theorem row_of_findPage {region o : Nat} {pg : PageId} : ∀ {rs : List PageRow}, findPage region o rs = some pg →
    ∃ r ∈ rs, pg = ⟨region, r.type, (o - r.base) / 0x1000⟩ ∧ r.base ≤ o ∧ o < r.base + 0x1000 * r.count
  | [], h => by simp [findPage] at h
  | r :: rs, h => by
    unfold findPage at h
    split at h
    · next hin => exact ⟨r, by simp, (Option.some.inj h).symm, hin⟩
    · obtain ⟨q, hq, hrest⟩ := row_of_findPage h
      exact ⟨q, List.mem_cons_of_mem r hq, hrest⟩

theorem row_of_pageOf {addr : Nat} {pg : PageId} {w : WytheIx} (h : pageOf addr = some pg) (hw : pg.region = w.val + 1) :
    ∃ r ∈ wythePages, pg = ⟨w.val + 1, r.type, (addr - wyBase w - r.base) / 0x1000⟩ ∧ wyBase w + r.base ≤ addr ∧
      addr < wyBase w + r.base + 0x1000 * r.count := by
  unfold pageOf at h
  split at h
  · obtain ⟨r, -, rfl, -, -⟩ := row_of_findPage h
    simp at hw
  · split at h
    · obtain ⟨r, hr, rfl, hle, hlt⟩ := row_of_findPage h
      obtain rfl : w = 0 := Fin.ext (by simpa using hw.symm)
      exact ⟨r, hr, rfl, by simp only [wyBase]; omega, by simp only [wyBase]; omega⟩
    · split at h
      · obtain ⟨r, hr, rfl, hle, hlt⟩ := row_of_findPage h
        obtain rfl : w = 1 := Fin.ext (by simpa using hw.symm)
        exact ⟨r, hr, rfl, by simp only [wyBase]; omega, by simp only [wyBase]; omega⟩
      · cases h

/-- Neither the FORME page nor the DEBUG page lies on a wythe. -/
theorem type_of_wythePage {addr : Nat} {pg : PageId} {w : WytheIx} (h : pageOf addr = some pg) (hw : pg.region = w.val + 1) :
    pg.type ≠ 0x03 ∧ pg.type ≠ 0x07 := by
  have hrows : ∀ r ∈ wythePages, r.type ≠ 0x03 ∧ r.type ≠ 0x07 := by decide
  obtain ⟨r, hr, rfl, -, -⟩ := row_of_pageOf h hw
  exact hrows r hr

/-- A CORE page is the page of the core that has its number. -/
theorem pgCore_pageCore {addr : Nat} {pg : PageId} {w : WytheIx} (h : pageOf addr = some pg) (hw : pg.region = w.val + 1)
    (ht : pg.type = 0x30) : (pageCore pg).w = w ∧ pgCore w (pageCore pg).ix = State.pageBase addr := by
  have hrows : ∀ r ∈ wythePages, r.type = 0x30 → r.base = 0x30000 ∧ r.count = 48 := by decide
  obtain ⟨r, hr, rfl, hle, hlt⟩ := row_of_pageOf h hw
  obtain ⟨hbase, hcount⟩ := hrows r hr ht
  rw [hbase] at hle hlt ⊢
  rw [hcount] at hlt
  have hinst : (addr - wyBase w - 0x30000) / 0x1000 < 48 := by omega
  have hbase : wyBase w % 0x1000 = 0 := by
    unfold wyBase
    omega
  have hix : (coreOf w ((addr - wyBase w - 0x30000) / 0x1000)).ix = (addr - wyBase w - 0x30000) / 0x1000 := by
    simp only [coreOf, CoreId.ix, coreIx, Fin.ofNat]
    omega
  refine ⟨State.pageWythe_wythe w _ _, ?_⟩
  simp only [pageCore, State.pageWythe_wythe, hix, pgCore, State.pageBase]
  omega

namespace State

variable {s t : State} {a : Agent} {base : Nat} {pg : PageId} {v : W32}

/-! ### What a write of CTRL does -/

/-- CTRL of the page at `base` holds `v`, and nothing else has changed. -/
structure CtrlSet (s t : State) (base : Nat) (v : W32) : Prop where
  word : t.rd (base + 8) = v
  others : ∀ b, b ≠ base + 8 → t.rd b = s.rd b
  counters : t.counters = s.counters
  rest : Only s t id

theorem ctrlSet_wr (hs : s.Canon) (base : Nat) (v : W32) : CtrlSet s (s.wr (base + 8) v) base v :=
  ⟨rd_wr_same s _ v hs.regs, fun _ hb => rd_wr_ne s v hb, rfl, rfl⟩

/-- An agent's access reaches the page at `base`, whose CTRL takes effect. -/
structure CtrlPage (s : State) (a : Agent) (base : Nat) (pg : PageId) : Prop where
  page : pageOf base = some pg
  reached : s.pageReach a pg = true
  acts : pg.type < 0x48

theorem ctrlWrite_ignored (hp : pageOf base = some pg) (ht : 0x48 ≤ pg.type) (v : W32) : s.ctrlWrite a base v = s := by
  simp only [ctrlWrite, hp, ctrlStore, ht, if_true, ite_self]

theorem CtrlPage.ctrlWrite (h : CtrlPage s a base pg) (v : W32) : s.ctrlWrite a base v = s.ctrlStore pg base v := by
  simp only [State.ctrlWrite, h.page, h.reached, if_true]

theorem CtrlPage.of_wythe {w : WytheIx} (hr : s.reach a w = true) (hp : pageOf base = some pg) (hw : pg.region = w.val + 1)
    (ht : pg.type < 0x48) : CtrlPage s a base pg where
  page := hp
  reached := by
    have hdebug := (type_of_wythePage hp hw).2
    have hwythe : pageWythe pg = w := by
      obtain ⟨region, type, inst⟩ := pg
      obtain rfl : region = w.val + 1 := hw
      exact pageWythe_wythe w type inst
    simp only [pageReach, hdebug, hw, hwythe, hr, Nat.succ_ne_zero, if_false]
  acts := ht

/-- CTRL's ENABLE, ABORT and FREEZE_COUNTERS as a page keeps them. -/
theorem flag_ctrlKept {type : Nat} (ht : type < 0x48) (v : W32) :
    flag (v &&& ctrlKept type) 0 = flag v 0 ∧ flag (v &&& ctrlKept type) 1 = false ∧ flag (v &&& ctrlKept type) 2 = flag v 2 := by
  have h48 : ¬ 0x48 ≤ type := by omega
  simp only [flag_eq_getLsbD, BitVec.getLsbD_and, ctrlKept, h48, if_false]
  split <;> simp

/-- Writing CTRL of a page of a wythe, but for that of BANKS, changes that word alone, where it starts neither an abort nor a core. -/
theorem ctrlStore_set {w : WytheIx} (h : CtrlPage s a base pg) (hw : pg.region = w.val + 1) (hbanks : pg.type ≠ 0x28) (hs : s.Canon)
    (habort : flag v 1 = false) (hcore : pg.type = 0x30 → flag v 0 = true → pgCore (pageCore pg).w (pageCore pg).ix = base ∧
      (s.core (pageCore pg).w (pageCore pg).ix).aborted = false) :
    CtrlSet s (s.ctrlStore pg base v) base (v &&& ctrlKept pg.type) := by
  have hforme := (type_of_wythePage h.page hw).1
  have h48 : ¬ 0x48 ≤ pg.type := Nat.not_le.mpr h.acts
  have hset := ctrlSet_wr hs base (v &&& ctrlKept pg.type)
  simp only [ctrlStore, h48, hforme, hbanks, habort, decide_false, Bool.false_and, Bool.false_eq_true, Bool.not_false, Bool.and_true,
    if_false, Bool.and_eq_true, decide_eq_true_eq]
  split
  · next hc =>
    obtain ⟨htype, hflag⟩ := hc
    obtain ⟨hbase, halive⟩ := hcore htype hflag
    have hword : (s.wr (base + 8) (v &&& ctrlKept pg.type)).rd (base + 8) ||| 1 = v &&& ctrlKept pg.type := by
      rw [hset.word]
      exact or_one_of_flag ((flag_ctrlKept h.acts v).1.trans hflag)
    simp only [enableCore, hbase, wr_core, halive, hword, Bool.false_eq_true, if_false]
    have hcanon : (s.wr (base + 8) (v &&& ctrlKept pg.type)).Canon := (Keeps.refl s).wr.2 hs
    have hagain := ctrlSet_wr hcanon base (v &&& ctrlKept pg.type)
    exact ⟨hagain.word, fun b hb => (hagain.others b hb).trans (hset.others b hb), hagain.counters.trans hset.counters, rfl⟩
  · exact hset

/-! ### Disabling and freezing -/

/-- ENABLE of the page at `base` is clear, and beside its CTRL nothing has changed. -/
def Disabled (s t : State) (base : Nat) : Prop :=
  t.enabled base = false ∧ (∀ b, b ≠ base + 8 → t.rd b = s.rd b) ∧ t.counters = s.counters ∧ Only s t id

theorem flag_clearEnable (v : W32) : flag (v &&& 0xFFFFFFFE#32) 0 = false ∧ flag (v &&& 0xFFFFFFFE#32) 1 = flag v 1 ∧
    flag (v &&& 0xFFFFFFFE#32) 2 = flag v 2 := by
  simp only [flag_eq_getLsbD, BitVec.getLsbD_and]
  simp

theorem flag_setAbort (v : W32) : flag (v ||| 2) 0 = flag v 0 ∧ flag (v ||| 2) 1 = true := by
  simp only [flag_eq_getLsbD, BitVec.getLsbD_or]
  simp

variable {w : WytheIx}

section
variable (h : CtrlPage s a base pg) (hw : pg.region = w.val + 1) (hbanks : pg.type ≠ 0x28) (hs : s.Canon)
  (habort : flag (s.rd (base + 8)) 1 = false)
include h hw hbanks hs habort

theorem ctrlDisable_disabled : Disabled s (s.ctrlDisable a base) base := by
  obtain ⟨hclear, hkeep, -⟩ := flag_clearEnable (s.rd (base + 8))
  have hset := ctrlStore_set h hw hbanks hs (hkeep.trans habort) fun _ he => absurd (hclear.symm.trans he) (by decide)
  rw [ctrlDisable, h.ctrlWrite]
  refine ⟨?_, hset.others, hset.counters, hset.rest⟩
  rw [enabled, hset.word]
  exact (flag_ctrlKept h.acts _).1.trans hclear

theorem ctrlFreeze_frozen (on : Bool) (hcore : pg.type = 0x30 → pgCore (pageCore pg).w (pageCore pg).ix = base ∧
      (s.core (pageCore pg).w (pageCore pg).ix).aborted = false) :
    let t := s.ctrlWrite a base (setFld (s.rd (base + 8)) 2 2 (b2n on))
    t.frozen base = on ∧ t.enabled base = s.enabled base ∧ (∀ b, b ≠ base + 8 → t.rd b = s.rd b) ∧ t.counters = s.counters ∧ Only s t id := by
  intro t
  obtain ⟨henable, hno, hfreeze⟩ := flag_setFld_freeze (s.rd (base + 8)) on
  have hset : CtrlSet s t base _ := h.ctrlWrite (s := s) _ ▸ ctrlStore_set h hw hbanks hs (hno.trans habort) fun ht _ => hcore ht
  obtain ⟨hkept, -, hkept'⟩ := flag_ctrlKept h.acts (setFld (s.rd (base + 8)) 2 2 (b2n on))
  refine ⟨?_, ?_, hset.others, hset.counters, hset.rest⟩
  · rw [frozen, hset.word]
    exact hkept'.trans hfreeze
  · rw [enabled, hset.word]
    exact hkept.trans henable

end

/-- The pages of a wythe that have a DISABLE and an ABORT of their own, by the block's type and the page's number. -/
theorem disable_spec {c : Instr} {type inst : Nat} (hr : s.reach a w = true) (hs : s.Canon)
    (hp : pageOf base = some ⟨w.val + 1, type, inst⟩) (hc : exec c s = .next (s.ctrlDisable a base)) (ht : type < 0x48 ∧ type ≠ 0x28)
    (habort : flag (s.rd (base + 8)) 1 = false) : Completes c s (Disabled s · base) :=
  ⟨_, hc, ctrlDisable_disabled (.of_wythe hr hp rfl ht.1) rfl ht.2 hs habort⟩

/-! ### The page of a course's banks -/

theorem settleConflicts_regs (s : State) (w : WytheIx) (c : Nat) : (s.settleConflicts w c).regs = s.regs := by
  unfold settleConflicts
  extract_lets most
  split
  · rfl
  · rw [updWy_regs]
    refine each_induct (fun t => t.regs = s.regs) _ (fun t n ht => ?_) _ s rfl
    exact (count_regs _ _ _).trans ht

theorem only_settleConflicts (s : State) (w : WytheIx) (c : Nat) :
    Only s (s.settleConflicts w c) (·.updWy w (fun y => { y with conflictAt := [] })) := by
  unfold settleConflicts
  extract_lets most
  split
  · exact .refl s _
  · refine Only.change (Only.each (fun t n => ?_) _ s) fun _ => rfl
    exact (Only.refl t _).same ((essence_count _ _ _).trans rfl)

/-- A write of CTRL of BANKS counts the conflicts first (R306). -/
theorem ctrlStore_banks (ht : pg.type = 0x28) (habort : flag v 1 = false) :
    s.ctrlStore pg base v = (s.settleConflicts (pageWythe pg) pg.inst).wr (base + 8) (v &&& ctrlKept 0x28) := by
  simp [ctrlStore, ht, habort]

theorem ctrlWrite_banks (h : CtrlPage s a base pg) (ht : pg.type = 0x28) (hwythe : pageWythe pg = w) (hs : s.Canon)
    (habort : flag v 1 = false) :
    let t := s.ctrlWrite a base v
    t.rd (base + 8) = v &&& ctrlKept 0x28 ∧ (∀ b, b ≠ base + 8 → t.rd b = s.rd b) ∧
      Only s t (·.updWy w (fun y => { y with conflictAt := [] })) := by
  intro t
  have heq : t = _ := (h.ctrlWrite v).trans (ctrlStore_banks ht habort)
  have hcanon : (s.settleConflicts (pageWythe pg) pg.inst).Canon := (Keeps.refl s).settleConflicts.2 hs
  rw [hwythe] at heq hcanon
  rw [heq]
  refine ⟨rd_wr_same _ _ _ hcanon.regs, fun b hb => (rd_wr_ne _ _ hb).trans ?_, (only_settleConflicts s w pg.inst).same rfl⟩
  simp only [rd, settleConflicts_regs]

theorem disable_banks (h : CtrlPage s a base pg) (ht : pg.type = 0x28) (hwythe : pageWythe pg = w) (hs : s.Canon)
    (habort : flag (s.rd (base + 8)) 1 = false) :
    let t := s.ctrlDisable a base
    t.enabled base = false ∧ t.frozen base = s.frozen base ∧ (∀ b, b ≠ base + 8 → t.rd b = s.rd b) ∧
      Only s t (·.updWy w (fun y => { y with conflictAt := [] })) := by
  obtain ⟨hclear, hkeep, hfreeze⟩ := flag_clearEnable (s.rd (base + 8))
  obtain ⟨hword, hrest⟩ := ctrlWrite_banks h ht hwythe hs (hkeep.trans habort)
  obtain ⟨henable, -, hfrozen⟩ := flag_ctrlKept (type := 0x28) (by decide) (s.rd (base + 8) &&& 0xFFFFFFFE#32)
  refine ⟨?_, ?_, hrest⟩
  · rw [ctrlDisable, enabled, hword]
    exact henable.trans hclear
  · rw [ctrlDisable, frozen, hword]
    exact hfrozen.trans hfreeze

theorem freeze_banks (h : CtrlPage s a base pg) (ht : pg.type = 0x28) (hwythe : pageWythe pg = w) (hs : s.Canon)
    (habort : flag (s.rd (base + 8)) 1 = false) (on : Bool) :
    let t := s.ctrlWrite a base (setFld (s.rd (base + 8)) 2 2 (b2n on))
    t.frozen base = on ∧ t.enabled base = s.enabled base ∧ (∀ b, b ≠ base + 8 → t.rd b = s.rd b) ∧
      Only s t (·.updWy w (fun y => { y with conflictAt := [] })) := by
  obtain ⟨hkeep, hno, hfreeze⟩ := flag_setFld_freeze (s.rd (base + 8)) on
  obtain ⟨hword, hrest⟩ := ctrlWrite_banks h ht hwythe hs (hno.trans habort)
  obtain ⟨henable, -, hfrozen⟩ := flag_ctrlKept (type := 0x28) (by decide) (setFld (s.rd (base + 8)) 2 2 (b2n on))
  refine ⟨?_, ?_, hrest⟩
  · rw [frozen, hword]
    exact hfrozen.trans hfreeze
  · rw [enabled, hword]
    exact henable.trans hkeep

/-! ### Aborts -/

/-- ENABLE stays as it is, and ABORT reads 0. -/
def Kept (s t : State) (base : Nat) : Prop := t.enabled base = s.enabled base ∧ flag (t.rd (base + 8)) 1 = false

theorem kept_wr {u : State} {type : Nat} (hu : u.Canon) (ht : type < 0x48) :
    Kept s (u.wr (base + 8) ((s.rd (base + 8) ||| 2) &&& ctrlKept type)) base := by
  obtain ⟨henable, habort, -⟩ := flag_ctrlKept ht (s.rd (base + 8) ||| 2)
  refine ⟨?_, ?_⟩
  · rw [enabled, rd_wr_same _ _ _ hu.regs]
    exact henable.trans (flag_setAbort _).1
  · rw [rd_wr_same _ _ _ hu.regs]
    exact habort

theorem ctrlAbort_eq (h : CtrlPage s a base pg) (hforme : pg.type ≠ 0x03) (hbanks : pg.type ≠ 0x28) :
    s.ctrlAbort a base = (s.pageAbort pg).wr (base + 8) ((s.rd (base + 8) ||| 2) &&& ctrlKept pg.type) := by
  have h48 : ¬ 0x48 ≤ pg.type := Nat.not_le.mpr h.acts
  rw [ctrlAbort, h.ctrlWrite]
  simp only [ctrlStore, h48, hforme, hbanks, (flag_setAbort _).2, decide_false, Bool.false_and, Bool.and_false, Bool.not_true,
    Bool.false_eq_true, if_false, if_true]

/-- An abort is the page's own, and then CTRL's. -/
theorem abort_spec {c : Instr} {u : State} {P : State → Prop} (h : CtrlPage s a base pg) (hs : s.Canon)
    (hc : exec c s = .next (s.ctrlAbort a base)) (hu : s.pageAbort pg = u) (hne : pg.type ≠ 0x03 ∧ pg.type ≠ 0x28)
    (hP : ∀ v, P (u.wr (base + 8) v)) : Completes c s (fun t => Kept s t base ∧ P t) := by
  refine ⟨_, hc, ?_⟩
  rw [ctrlAbort_eq h hne.1 hne.2, hu]
  exact ⟨kept_wr (hu ▸ (Keeps.refl s).pageAbort.2 hs) h.acts, hP _⟩

end State
end Sys2Proof.Machine
end

/-!
# Disabling and freezing

The pages of the blocks, and the clauses of `Obligations.PageControl` that start no abort.
-/

section

namespace Sys2Proof.Machine

/-! ### The pages of the blocks -/

theorem pageOf_comp : ∀ w : WytheIx, pageOf (pgComp w) = some ⟨w.val + 1, 0x10, 0⟩ := by decide
theorem pageOf_keys : ∀ w : WytheIx, pageOf (pgKeys w) = some ⟨w.val + 1, 0x13, 0⟩ := by decide
theorem pageOf_table : ∀ (w : WytheIx) (n : Fin 3), pageOf (pgTable w n) = some ⟨w.val + 1, 0x18 + n.val, 0⟩ := by decide
theorem pageOf_galley : ∀ w : WytheIx, pageOf (pgGalley w) = some ⟨w.val + 1, 0x1C, 0⟩ := by decide
theorem pageOf_coll : ∀ w : WytheIx, pageOf (pgColl w) = some ⟨w.val + 1, 0x1D, 0⟩ := by decide
theorem pageOf_march : ∀ w : WytheIx, pageOf (pgMarch w) = some ⟨w.val + 1, 0x20, 0⟩ := by decide
theorem pageOf_quoin : ∀ w : WytheIx, pageOf (pgQuoin w) = some ⟨w.val + 1, 0x21, 0⟩ := by decide
theorem pageOf_banks : ∀ (w : WytheIx) (c : CourseIx), pageOf (pgBanks w c.val) = some ⟨w.val + 1, 0x28, c.val⟩ := by decide
theorem pageOf_coproc : ∀ (w : WytheIx) (c : CourseIx), pageOf (pgCoproc w c.val) = some ⟨w.val + 1, 0x29, c.val⟩ := by decide
theorem pageOf_port : ∀ (w : WytheIx) (p : EthIx), pageOf (pgPort w p.val) = some ⟨w.val + 1, 0x38, p.val⟩ := by decide
theorem pageOf_press : ∀ (w : WytheIx) (p : EthIx), pageOf (pgPress w p.val) = some ⟨w.val + 1, 0x40, p.val⟩ := by decide
theorem pageOf_pressMain : ∀ w : WytheIx, pageOf (pgPressMain w) = some ⟨w.val + 1, 0x41, 0⟩ := by decide

theorem pageOf_pageBase (addr : Nat) : pageOf (State.pageBase addr) = pageOf addr :=
  pageOf_congr (by simp only [State.pageBase]; omega)

theorem pageBase_banks : ∀ (w : WytheIx) (c : CourseIx), State.pageBase (pgBanks w c.val) = pgBanks w c.val := by decide

namespace State

variable {s t u : State} {a : Agent} {w : WytheIx}

/-! ### Disabling and freezing -/

section
variable {addr : Nat} {pg : PageId} (hr : s.reach a w = true) (hs : s.Canon) (hp : pageOf addr = some pg) (hw : pg.region = w.val + 1)
  (ht : pg.type < 0x48)
include hr hp hw ht

theorem CtrlPage.of_addr : CtrlPage s a (pageBase addr) pg := .of_wythe hr ((pageOf_pageBase addr).trans hp) hw ht

include hs

theorem disable_page_spec (hbanks : pg.type ≠ 0x28) (habort : flag (s.rd (pageBase addr + 8)) 1 = false) :
    Completes (.disable a addr) s (Disabled s · (pageBase addr)) :=
  ⟨_, rfl, ctrlDisable_disabled (.of_addr hr hp hw ht) hw hbanks hs habort⟩

theorem freezeCounters_spec (hbanks : pg.type ≠ 0x28) (on : Bool) (habort : flag (s.rd (pageBase addr + 8)) 1 = false)
    (halive : pg.type = 0x30 → (s.core w (pageCore pg).ix).aborted = false) :
    Completes (.freezeCounters a addr on) s (fun t => t.frozen (pageBase addr) = on ∧ t.enabled (pageBase addr) = s.enabled (pageBase addr) ∧
      (∀ b, b ≠ pageBase addr + 8 → t.rd b = s.rd b) ∧ t.counters = s.counters ∧ Only s t id) := by
  refine ⟨_, rfl, ctrlFreeze_frozen (.of_addr hr hp hw ht) hw hbanks hs habort on fun h30 => ?_⟩
  obtain ⟨hcw, hbase⟩ := pgCore_pageCore hp hw h30
  rw [hcw]
  exact ⟨hbase, halive h30⟩

end

theorem ctrl_ignored {addr : Nat} {pg : PageId} (on : Bool) (hp : pageOf addr = some pg) (ht : 0x48 ≤ pg.type) :
    Completes (.freezeCounters a addr on) s (fun t => t = s) ∧ Completes (.disable a addr) s (fun t => t = s) ∧
      Completes (.abort a addr) s (fun t => t = s) :=
  have hignored : ∀ v, s.ctrlWrite a (pageBase addr) v = s := ctrlWrite_ignored ((pageOf_pageBase addr).trans hp) ht
  ⟨⟨_, rfl, hignored _⟩, ⟨_, rfl, hignored _⟩, _, rfl, hignored _⟩

theorem pageControl_banks (hr : s.reach a w = true) (hs : s.Canon) (c : CourseIx) (on : Bool) (habort : flag (s.rd (pgBanks w c.val + 8)) 1 = false) :
    let settled := fun (t : State) => (∀ b, b ≠ pgBanks w c.val + 8 → t.rd b = s.rd b) ∧
      Only s t (·.updWy w (fun y => { y with conflictAt := [] }))
    Completes (.disable a (pgBanks w c.val)) s (fun t => t.enabled (pgBanks w c.val) = false ∧
      t.frozen (pgBanks w c.val) = s.frozen (pgBanks w c.val) ∧ settled t) ∧
    Completes (.freezeCounters a (pgBanks w c.val) on) s (fun t => t.frozen (pgBanks w c.val) = on ∧
      t.enabled (pgBanks w c.val) = s.enabled (pgBanks w c.val) ∧ settled t) := by
  have hpage : CtrlPage s a (pgBanks w c.val) _ := .of_wythe hr (pageOf_banks w c) rfl (show 0x28 < 0x48 by decide)
  have hwythe := pageWythe_wythe w 0x28 c.val
  have hdisable : exec (.disable a (pgBanks w c.val)) s = .next (s.ctrlDisable a (pgBanks w c.val)) :=
    congrArg (fun b => Host.Outcome.next (s.ctrlDisable a b)) (pageBase_banks w c)
  have hfreeze : exec (.freezeCounters a (pgBanks w c.val) on) s =
      .next (s.ctrlWrite a (pgBanks w c.val) (setFld (s.rd (pgBanks w c.val + 8)) 2 2 (b2n on))) :=
    congrArg (fun b => Host.Outcome.next (s.ctrlWrite a b (setFld (s.rd (b + 8)) 2 2 (b2n on)))) (pageBase_banks w c)
  exact ⟨⟨_, hdisable, disable_banks hpage rfl hwythe hs habort⟩, _, hfreeze, freeze_banks hpage rfl hwythe hs habort on⟩

/-- The clauses of `Obligations.PageControl` that start no abort. -/
theorem pageControl_disable (hr : s.reach a w = true) (hs : s.Canon) :
    let off := fun (c : Instr) (base : Nat) => flag (s.rd (base + 8)) 1 = false → Completes c s (Disabled s · base)
    off (.compositorDisable a w) (pgComp w) ∧ off (.caseEngineDisable a w) (pgKeys w) ∧ (∀ n, off (.tableDisable a w n) (pgTable w n)) ∧
    off (.galleyDisable a w) (pgGalley w) ∧ off (.collatorDisable a w) (pgColl w) ∧ (∀ c, off (.coprocDisable a w c) (pgCoproc w c.val)) ∧
    off (.marchDisable a w) (pgMarch w) ∧ off (.quoinDisable a w) (pgQuoin w) ∧ off (.pressDisable a w) (pgPressMain w) ∧
    (∀ p, off (.pressPortDisable a w p) (pgPress w p.val)) ∧ (∀ p, off (.portDisable a w p) (pgPort w p.val)) :=
  ⟨disable_spec hr hs (pageOf_comp w) rfl (by decide), disable_spec hr hs (pageOf_keys w) rfl (by decide),
    fun n => disable_spec hr hs (pageOf_table w n) rfl (by omega), disable_spec hr hs (pageOf_galley w) rfl (by decide),
    disable_spec hr hs (pageOf_coll w) rfl (by decide), fun c => disable_spec hr hs (pageOf_coproc w c) rfl (by decide),
    disable_spec hr hs (pageOf_march w) rfl (by decide), disable_spec hr hs (pageOf_quoin w) rfl (by decide),
    disable_spec hr hs (pageOf_pressMain w) rfl (by decide), fun p => disable_spec hr hs (pageOf_press w p) rfl (by decide),
    fun p => disable_spec hr hs (pageOf_port w p) rfl (by decide)⟩

end State
end Sys2Proof.Machine
end

/-!
# Aborts of the Compositor, the ports and the tables

A pass over the work in flight removes each element by its key (`each_exhausts`); a window's queue is emptied before its
commands are answered.
-/

section

namespace Sys2Proof.Machine.State

variable {s t u : State} {a : Agent} {w : WytheIx}

/-! ### What an abort leaves -/

/-- An abort of a page of a wythe is the block's own, and then CTRL's. -/
theorem abort_wythe_spec {c : Instr} {base type inst : Nat} {P : State → Prop} (hr : s.reach a w = true) (hs : s.Canon)
    (hp : pageOf base = some ⟨w.val + 1, type, inst⟩) (hc : exec c s = .next (s.ctrlAbort a base))
    (hu : s.pageAbort ⟨w.val + 1, type, inst⟩ = u)
    (hne : type < 0x48 ∧ type ≠ 0x03 ∧ type ≠ 0x28) (hP : ∀ v, P (u.wr (base + 8) v)) : Completes c s (fun t => Kept s t base ∧ P t) :=
  abort_spec (.of_wythe hr hp rfl hne.1) hs hc hu hne.2 hP

/-- A pass over the elements of a list, each of which goes by its key, leaves none of them. -/
theorem each_exhausts {α : Type} {view : State → List α} {key : α → Nat} {f : State → α → State}
    (hstep : ∀ s e, view (f s e) = (view s).filter (fun x => key x != key e)) (s : State) : view (s.each (view s) f) = [] := by
  have hpass : ∀ (l : List α) (s : State), view (s.each l f) = (view s).filter (fun x => l.all (fun e => key x != key e)) := by
    intro l
    induction l with
    | nil => exact fun s => by simp [each]
    | cons e l ih =>
      intro s
      refine (ih (f s e)).trans ?_
      simp [hstep, List.filter_filter, Bool.and_comm]
  rw [hpass, List.filter_eq_nil_iff]
  intro x hx hall
  simpa using List.all_eq_true.mp hall x hx

theorem alike_rxFree {α : Type} {view : Wythe → α} (hview : ∀ y, view (sansBuffers y) = view y) (s : State) (w : WytheIx) (f : RxFrame) :
    Alike view s (s.rxFree w f) := alike_galley hview (only_rxFree s w f)
theorem alike_of_count {α : Type} (view : Wythe → α) (s : State) (b n : Nat) : Alike view s (s.count b n) := .of_wy (by simp)
theorem alike_of_raiseBit {α : Type} (view : Wythe → α) (s : State) (page i : Nat) : Alike view s (s.raiseBit page i) := .of_wy (by simp)
theorem alike_of_drop {α : Type} (view : Wythe → α) (s : State) (w : WytheIx) (p : Nat) (c : Cause) : Alike view s (s.drop w p c) :=
  .of_wy (by simp)

/-! ### The Compositor and the ports -/

theorem compDiscard_entries (s : State) (w : WytheIx) (id : Nat) :
    ((s.compDiscard w id).wy w).comp.entries = (s.wy w).comp.entries.filter (fun e => e.frame != id) := by
  simp [compDiscard]

theorem compAbort_entries (s : State) (w : WytheIx) : ((s.compAbort w).wy w).comp.entries = [] := by
  refine each_exhausts (view := fun s => (s.wy w).comp.entries) (key := CompEntry.frame) (fun s e => ?_) s
  refine Eq.trans ?_ (compDiscard_entries s w e.frame)
  split
  · rfl
  · next f hf =>
    dsimp only
    have hdropped : Alike (·.comp.entries) (s.compDiscard w e.frame)
        ((((s.compDiscard w e.frame).rxFree w f).drop w e.port .compositorAbort).count (pgComp w + 0xF8) 1) :=
      (alike_rxFree (fun _ => rfl) _ _ _).trans ((alike_of_drop _ _ _ _ _).trans (alike_of_count _ _ _ _))
    split
    · exact (hdropped.trans (.of_only (only_delRx _ w _) fun _ => rfl)) w
    · exact (hdropped.trans (.of_only (only_updRx _ w _ _) fun _ => rfl)) w

theorem compositorAbort_spec (hr : s.reach a w = true) (hs : s.Canon) :
    Completes (.compositorAbort a w) s (fun t => Kept s t (pgComp w) ∧ (t.wy w).comp.entries = []) :=
  abort_wythe_spec hr hs (pageOf_comp w) rfl (by simp only [pageAbort, pageWythe_wythe]) (by decide) fun _ => compAbort_entries s w

/-- The frames that wait in a port's FIFO. -/
def fifoWaits (p : Nat) (y : Wythe) : List RxFrame := y.rx.filter (fun f => f.port == p && rxWaits f)

theorem fifoWaits_delRx (s : State) (w : WytheIx) (p id : Nat) :
    fifoWaits p ((s.delRx w id).wy w) = (fifoWaits p (s.wy w)).filter (fun f => f.id != id) := by
  simp [fifoWaits, delRx, List.filter_filter, Bool.and_comm]

/-- A frame that is refused waits no more. -/
theorem fifoWaits_refused (s : State) (w : WytheIx) (p id : Nat) :
    fifoWaits p ((s.updRx w id (fun r => { r with refused := true, cause := none, handle := none })).wy w) =
      (fifoWaits p (s.wy w)).filter (fun f => f.id != id) := by
  simp only [fifoWaits, updRx, wy_updWy_same, List.filter_filter]
  induction (s.wy w).rx with
  | nil => rfl
  | cons f l ih =>
    simp only [List.map_cons, List.filter_cons, ih]
    by_cases hid : f.id = id
    · simp [hid, rxWaits]
    · simp [hid]

theorem portAbortFifo_waits (s : State) (w : WytheIx) (p : Nat) : fifoWaits p ((s.portAbortFifo w p).wy w) = [] := by
  refine each_exhausts (view := fun s => fifoWaits p (s.wy w)) (key := RxFrame.id) (fun s f => ?_) s
  dsimp only
  have hdropped : Alike (fifoWaits p) s (((s.drop w p .portDown).compDiscard w f.id).rxFree w f) :=
    (alike_of_drop _ _ _ _ _).trans ((Alike.of_only (only_updComp _ w _) fun _ => rfl).trans (alike_rxFree (fun _ => rfl) _ _ _))
  split
  · exact (fifoWaits_delRx _ w p f.id).trans (congrArg _ (hdropped w))
  · exact (fifoWaits_refused _ w p f.id).trans (congrArg _ (hdropped w))

theorem portAbort_spec (hr : s.reach a w = true) (hs : s.Canon) (p : EthIx) :
    Completes (.portAbort a w p) s (fun t => Kept s t (pgPort w p.val) ∧ ∀ f ∈ (t.wy w).rx, f.port = p.val → rxWaits f = false) := by
  refine abort_wythe_spec (u := s.portAbortFifo w p.val) hr hs (pageOf_port w p) rfl ?_ ?_ fun _ f hf hport => ?_
  · simp only [pageAbort, pageWythe_wythe, p.isLt, if_true]
  · decide
  have hnone := List.filter_eq_nil_iff.mp (portAbortFifo_waits s w p.val) f hf
  simpa [hport] using hnone

/-! ### Tables -/

theorem window_updWindow (s : State) (w : WytheIx) (n m : Nat) (f : Window → Window) :
    (s.updWindow w n f).window w m = if m = n then f (s.window w n) else s.window w m := by
  simp [window, updWindow, setTables, tables, kget_kupd]

/-- A wythe's tables with the commands that wait in each window, without the answers there. -/
def commands (y : Wythe) : Tables × (Nat → List WinCmd) := ({ y.tables with windows := [] }, fun n => (kget {} y.tables.windows n).fifo)

theorem commands_window (s : State) (w : WytheIx) (n : Nat) : (commands (s.wy w)).2 n = (s.window w n).fifo := rfl

theorem alike_updWindow (s : State) (w : WytheIx) (n : Nat) {f : Window → Window} (hf : ∀ x, (f x).fifo = x.fifo) :
    Alike commands s (s.updWindow w n f) := by
  unfold updWindow setTables updTables
  refine .updWy s w fun y => Prod.ext rfl (funext fun m => ?_)
  simp only [commands, kget_kupd]
  split
  · next hm => rw [hm, hf]
  · rfl

theorem alike_completeCmd (s : State) (w : WytheIx) (n : Nat) (c : WinCmd) (r : CmdAns) : Alike commands s (s.completeCmd w n c r) := by
  have hcount : Alike commands s (s.countTable w n 0) := by
    unfold countTable
    split
    · exact alike_of_count commands s _ 1
    · exact .refl commands s
  simp only [completeCmd]
  split
  · exact hcount
  · exact hcount.trans (alike_updWindow _ w n fun _ => rfl)

theorem alike_abortCmds (s : State) (w : WytheIx) (n : Nat) (p : WinCmd → Bool) :
    Alike commands (s.updWindow w n (fun x => { x with fifo := x.fifo.filter (fun c => !p c) })) (s.abortCmds w n p) :=
  .each (fun t c => alike_completeCmd t w n c _) _ _

/-- An abort of every command of a window leaves none there, and every other window's. -/
theorem abortCmds_fifo (s : State) (w : WytheIx) (n m : Nat) :
    ((s.abortCmds w n (fun _ => true)).window w m).fifo = if m = n then [] else (s.window w m).fifo := by
  rw [← commands_window, alike_abortCmds s w n _ w, commands_window, window_updWindow]
  split
  · exact List.filter_false _
  · rfl

theorem abortCmds_tables (s : State) (w : WytheIx) (n : Nat) (p : WinCmd → Bool) :
    { (s.abortCmds w n p).tables w with windows := [] } = { s.tables w with windows := [] } :=
  (congrArg Prod.fst (alike_abortCmds s w n p w)).trans (by simp [commands, tables, updWindow, setTables])

theorem caseAbortAll_fifo (s : State) (w : WytheIx) {n : Nat} (hn : n < 8) : ((s.caseAbortAll w).window w (8 + n)).fifo = [] := by
  have hmem : 8 + n ∈ (List.range 8).map (· + 8) := List.mem_map.mpr ⟨n, List.mem_range.mpr hn, Nat.add_comm n 8⟩
  refine each_of_mem (I := fun _ => True) (P := fun t => (t.window w (8 + n)).fifo = []) hmem trivial (fun _ _ _ => trivial)
    (fun t _ => ?_) (fun t m _ ht => ?_)
  · rw [abortCmds_fifo, if_pos rfl]
  · rw [abortCmds_fifo, ht, ite_self]

theorem caseEngineAbort_spec (hr : s.reach a w = true) (hs : s.Canon) :
    Completes (.caseEngineAbort a w) s (fun t => Kept s t (pgKeys w) ∧ ∀ n < 8, (t.window w (8 + n)).fifo = []) :=
  abort_wythe_spec hr hs (pageOf_keys w) rfl (by simp only [pageAbort, pageWythe_wythe]) (by decide) fun _ _ => caseAbortAll_fifo s w

/-- What an abort leaves of a table: no command, and the entries as they were. -/
def TableAborted (w : WytheIx) (n : Fin 3) (s t : State) : Prop :=
  (t.window w (n.val + 1)).fifo = [] ∧ (n = 1 → (t.tables w).learnQ = []) ∧ (t.tables w).trie = (s.tables w).trie ∧
    (t.tables w).learn = (s.tables w).learn

theorem tableAbortAll_aborted (s : State) (w : WytheIx) (n : Fin 3) : TableAborted w n s (s.tableAbortAll w (n.val + 1)) := by
  have htables := abortCmds_tables s w (n.val + 1) (fun _ => true)
  have hfifo := (abortCmds_fifo s w (n.val + 1) (n.val + 1)).trans (if_pos rfl)
  have htrie := congrArg Tables.trie htables
  have hlearn := congrArg Tables.learn htables
  simp only [tableAbortAll]
  split
  · refine ⟨?_, fun _ => ?_, ?_, ?_⟩
    · simpa [window, tables, setTables] using hfifo
    · simp [tables, setTables]
    · simpa [tables, setTables] using htrie
    · simpa [tables, setTables] using hlearn
  · next hne => exact ⟨hfifo, fun h1 => absurd (congrArg (·.val + 1) h1) hne, htrie, hlearn⟩

theorem pageAbort_table (s : State) (w : WytheIx) (n : Fin 3) : s.pageAbort ⟨w.val + 1, 0x18 + n.val, 0⟩ = s.tableAbortAll w (n.val + 1) := by
  match n with
  | 0 => exact congrArg (s.tableAbortAll · 1) (pageWythe_wythe w _ _)
  | 1 => exact congrArg (s.tableAbortAll · 2) (pageWythe_wythe w _ _)
  | 2 => exact congrArg (s.tableAbortAll · 3) (pageWythe_wythe w _ _)

theorem tableAbort_spec (hr : s.reach a w = true) (hs : s.Canon) (n : Fin 3) :
    Completes (.tableAbort a w n) s (fun t => Kept s t (pgTable w n) ∧ TableAborted w n s t) :=
  abort_wythe_spec hr hs (pageOf_table w n) rfl (pageAbort_table s w n) (by omega) fun _ => tableAbortAll_aborted s w n

end Sys2Proof.Machine.State
end

/-!
# Aborts of the Galley, the Collator, the Quoin, the coprocessors and the Press

What an abort empties is read through a view of the wythe that its later steps, counts and answers, leave alone (`Alike`).
-/

section

namespace Sys2Proof.Machine

/-! ### Maps -/

theorem risingFrom_sins {α : Type} {m : SMap α} {k : Nat} (v : α) : ∀ {lo : Nat}, risingFrom lo m = true → lo ≤ k →
    risingFrom lo (sins m k v) = true := by
  induction m with
  | nil => exact fun _ hk => by simp [sins, risingFrom, hk]
  | cons e r ih =>
    intro lo hr hk
    have hr' := hr
    simp only [risingFrom, Bool.and_eq_true, decide_eq_true_eq] at hr
    obtain ⟨hle, hrest⟩ := hr
    simp only [sins]
    split
    · next hlt => simp [risingFrom, hk, hrest, Nat.succ_le_of_lt hlt]
    · split
      · next heq => simp [risingFrom, heq, hle, hrest]
      · simp only [risingFrom, hle, decide_true, Bool.true_and]
        exact ih hrest (by omega)

theorem key_ge_of_rising {α : Type} {m : SMap α} : ∀ {lo : Nat}, risingFrom lo m = true → ∀ e ∈ m, lo ≤ e.1 := by
  induction m with
  | nil => exact fun _ _ he => absurd he List.not_mem_nil
  | cons x r ih =>
    intro lo hr e he
    simp only [risingFrom, Bool.and_eq_true, decide_eq_true_eq] at hr
    rcases List.mem_cons.mp he with rfl | hmem
    · exact hr.1
    · have := ih hr.2 e hmem
      omega

/-- What a map holds after a write: the new value, and what other keys hold. -/
theorem mem_sins {α : Type} {m : SMap α} {k : Nat} {v : α} {e : Nat × α} : ∀ {lo : Nat}, risingFrom lo m = true → e ∈ sins m k v →
    e = (k, v) ∨ e ∈ m ∧ e.1 ≠ k := by
  induction m with
  | nil => exact fun _ he => .inl (List.mem_singleton.mp he)
  | cons x r ih =>
    intro lo hr he
    simp only [risingFrom, Bool.and_eq_true, decide_eq_true_eq] at hr
    have hlater := key_ge_of_rising hr.2 e
    simp only [sins] at he
    split at he
    · next hlt =>
      rcases List.mem_cons.mp he with rfl | hmem
      · exact .inl rfl
      · refine .inr ⟨hmem, ?_⟩
        rcases List.mem_cons.mp hmem with rfl | htail
        · exact Nat.ne_of_gt hlt
        · have := hlater htail
          omega
    · split at he
      · next heq =>
        rcases List.mem_cons.mp he with rfl | htail
        · exact .inl rfl
        · have := hlater htail
          exact .inr ⟨List.mem_cons_of_mem x htail, by omega⟩
      · next hne =>
        rcases List.mem_cons.mp he with rfl | htail
        · exact .inr ⟨List.mem_cons_self, Ne.symm hne⟩
        · exact (ih hr.2 htail).imp_right fun ⟨hmem, hk⟩ => ⟨List.mem_cons_of_mem x hmem, hk⟩

namespace State

variable {s t u : State} {a : Agent} {w : WytheIx}

/-! ### The Galley -/

theorem takeMove_pools (g : Galley) (m : Move) : (takeMove g m).pools = g.pools := by
  unfold takeMove
  split <;> rfl

theorem takeHeld_pools (g : Galley) : (takeHeld g).pools = g.pools :=
  List.foldlRecOn (motive := fun x : Galley => x.pools = g.pools) g.heldMoves takeMove rfl fun x hx m _ => (takeMove_pools x m).trans hx

theorem takeHeld_moves {g : Galley} (h : g.heldMoves = []) : (takeHeld g).moves = g.moves := by
  simp [takeHeld, h]

theorem alike_setMoveStatus (s : State) (w : WytheIx) (owner : MoveOwner) (v : Nat) :
    Alike (fun y => (y.galley.heldMoves, y.galley.pools)) s (s.setMoveStatus w owner v) := by
  unfold setMoveStatus updGalley
  exact .updWy s w fun _ => rfl

theorem alike_answerStatus (s : State) (w : WytheIx) : Alike (fun y => (y.galley.moves, y.galley.pools)) s (s.answerStatus w) := by
  unfold answerStatus updGalley
  extract_lets done
  refine .trans ?_ (.each (fun s b => .of_wy (answer_wy s (s.moveStatusWord w b))) _ _)
  exact .updWy s w fun _ => rfl

theorem galleyAbortMoves_galley (s : State) (w : WytheIx) :
    ((s.wy w).galley.heldMoves = [] → ((s.galleyAbortMoves w).wy w).galley.moves = []) ∧
      ((s.galleyAbortMoves w).wy w).galley.pools = (s.wy w).galley.pools := by
  have hstatus := Alike.each (fun s m => alike_setMoveStatus s w (Move.owner m) 5) (s.wy w).galley.moves s w
  obtain ⟨hheld, hpools⟩ := Prod.mk.injEq .. ▸ hstatus
  obtain ⟨hmoves, hpools'⟩ := Prod.mk.injEq .. ▸ alike_answerStatus
    ((s.each (s.wy w).galley.moves (fun s m => s.setMoveStatus w m.owner 5)).updGalley w (fun g => takeHeld { g with moves := [] })) w w
  rw [wy_updGalley_same] at hmoves hpools'
  exact ⟨fun h => hmoves.trans (takeHeld_moves (hheld.trans h)), hpools'.trans ((takeHeld_pools _).trans hpools)⟩

theorem galleyAbort_spec (hr : s.reach a w = true) (hs : s.Canon) :
    Completes (.galleyAbort a w) s (fun t => Kept s t (pgGalley w) ∧ ((s.wy w).galley.heldMoves = [] → (t.wy w).galley.moves = []) ∧
      (t.wy w).galley.pools = (s.wy w).galley.pools) :=
  abort_wythe_spec hr hs (pageOf_galley w) rfl (by simp only [pageAbort, pageWythe_wythe]) (by decide) fun _ => galleyAbortMoves_galley s w

/-! ### The Collator -/

/-- The slots and the order of a wythe's Collator. -/
def collQueue (y : Wythe) : SMap SeqSlot × SMap (List Nat) := (y.coll.slots, y.coll.order)

theorem alike_flightDone (s : State) (w : WytheIx) (group : Nat) : Alike collQueue s (s.flightDone w group) := by
  unfold flightDone updColl
  split
  · exact .refl _ s
  · exact .updWy s w fun _ => rfl

theorem alike_collQueue_refDown (s : State) (w : WytheIx) (hd : Nat) : Alike collQueue s (s.refDown w hd) :=
  .of_only (only_refDown s w hd) fun _ => rfl

theorem collAbort_queue (s : State) (w : WytheIx) : collQueue ((s.collAbort w).wy w) = ([], []) := by
  unfold collAbort
  refine (Alike.each (view := collQueue) (fun s e => ?_) _ _ w).trans (by simp [collQueue])
  refine .trans (.trans ?_ ((alike_collQueue_refDown _ w _).trans (alike_of_count _ _ _ _)))
    ((alike_of_drop _ _ w _ _).trans (alike_flightDone _ w _))
  split
  · exact .each (fun s g => alike_collQueue_refDown s w _) _ s
  · exact .refl _ s

theorem collatorAbort_spec (hr : s.reach a w = true) (hs : s.Canon) :
    Completes (.collatorAbort a w) s (fun t => Kept s t (pgColl w) ∧ (t.wy w).coll.slots = [] ∧ (t.wy w).coll.order = []) :=
  abort_wythe_spec hr hs (pageOf_coll w) rfl (by simp only [pageAbort, pageWythe_wythe]) (by decide) fun _ =>
    Prod.mk.inj (collAbort_queue s w)

/-! ### The Quoin -/

/-- What a wythe's Quoin holds, who waits there, and what was abandoned. -/
def quoinClaims (y : Wythe) : List QHold × List QWait × SMap Bool := (y.quoin.holds, y.quoin.waits, y.quoin.abandoned)

theorem alike_quoinFlag (s : State) (w : WytheIx) (r : QWait) : Alike quoinClaims s (s.quoinFlag w r) := by
  unfold quoinFlag postFlags
  split
  · exact .updWy s w fun _ => rfl
  · exact .refl _ s

theorem alike_setResult (s : State) (w : WytheIx) (h : Holder) (v : W32) : Alike quoinClaims s (s.updQuoin w (fun q => setResult q h v)) := by
  unfold updQuoin
  exact .updWy s w fun _ => rfl

/-- Every object held is noted as abandoned. -/
def abandonAll (hs : List QHold) (m : SMap Bool) : SMap Bool := hs.foldl (fun m h => sins m h.object true) m

theorem sfind_abandonAll {o : Nat} : ∀ {hs : List QHold} {m : SMap Bool}, (∃ h ∈ hs, h.object = o) ∨ sfind m o = some true →
    sfind (abandonAll hs m) o = some true
  | [], _, h => by simpa [abandonAll] using h
  | x :: hs, m, h => by
    refine sfind_abandonAll (hs := hs) (m := sins m x.object true) ?_
    by_cases hx : o = x.object
    · rw [hx]
      exact .inr (sfind_sins_same _ _ _)
    · rcases h with ⟨g, hg, hgo⟩ | hfound
      · rcases List.mem_cons.mp hg with rfl | hmem
        · exact absurd hgo.symm hx
        · exact .inl ⟨g, hmem, hgo⟩
      · exact .inr ((sfind_sins_ne _ _ hx).trans hfound)

theorem quoinAbortAll_claims (s : State) (w : WytheIx) :
    quoinClaims ((s.quoinAbortAll w).wy w) = ([], [], abandonAll (s.wy w).quoin.holds (s.wy w).quoin.abandoned) := by
  have hanswers := Alike.each (view := quoinClaims)
    (fun s r => (alike_setResult s w (QWait.holder r) (acqWord 28 r.object false)).trans (alike_quoinFlag _ w r)) (s.wy w).quoin.waits
  simp only [quoinAbortAll]
  split
  · exact (hanswers _ w).trans (by simp [quoinClaims, abandonAll])
  · exact (((hanswers _).trans ((alike_of_count _ _ _ _).trans (alike_of_raiseBit _ _ _ _))) w).trans (by simp [quoinClaims, abandonAll])

theorem quoinAbort_spec (hr : s.reach a w = true) (hs : s.Canon) :
    Completes (.quoinAbort a w) s (fun t => Kept s t (pgQuoin w) ∧ (t.wy w).quoin.holds = [] ∧ (t.wy w).quoin.waits = [] ∧
      ∀ h ∈ (s.wy w).quoin.holds, sfind (t.wy w).quoin.abandoned h.object = some true) := by
  refine abort_wythe_spec (u := s.quoinAbortAll w) hr hs (pageOf_quoin w) rfl (by simp only [pageAbort, pageWythe_wythe]) (by decide) fun _ => ?_
  obtain ⟨hholds, hrest⟩ := Prod.mk.inj (quoinAbortAll_claims s w)
  obtain ⟨hwaits, habandoned⟩ := Prod.mk.inj hrest
  exact ⟨hholds, hwaits, fun h hmem => (congrArg (sfind · h.object) habandoned).trans (sfind_abandonAll (.inl ⟨h, hmem, rfl⟩))⟩

/-! ### The coprocessor -/

/-- A command that an abort leaves: it has completed, or will be cancelled at COMMIT (R292). -/
def Ended (p : Place) : Prop := p.state = .done ∨ p.state = .queued ∧ p.cancelled = some true

/-- The places of a course's coprocessor. -/
def placesOf (c : Nat) (y : Wythe) : SMap Place := (kget {} y.courses c).places

theorem alike_courses_interrupt (s : State) (w : WytheIx) (i src : Nat) : Alike Wythe.courses s (s.interrupt w i src) := by
  unfold interrupt updCore
  exact .updWy s w fun _ => rfl

theorem alike_courses_postFlags (s : State) (w : WytheIx) (i : Nat) (k : TcbIx) (m : W32) : Alike Wythe.courses s (s.postFlags w i k m) := by
  unfold postFlags
  exact .updWy s w fun _ => rfl

theorem Alike.places {c : Nat} (h : Alike Wythe.courses s t) : Alike (placesOf c) s t := fun v => by
  simp only [placesOf, h v]

theorem alike_updUnit {c : Nat} (s : State) (w : WytheIx) (c' n : Nat) (f : CpUnit → CpUnit) : Alike (placesOf c) s (s.updUnit w c' n f) := by
  unfold updUnit updCourse
  refine .updWy s w fun y => ?_
  simp only [placesOf, kget_kupd]
  split
  · next h => rw [h]
  · rfl

theorem alike_cpGrant {c : Nat} (s : State) (w : WytheIx) (c' n : Nat) (b : Bool) : Alike (placesOf c) s (s.cpGrant w c' n b) := by
  unfold cpGrant
  split
  · exact alike_updUnit s w c' n _
  · extract_lets s1
    have hgranted : Alike (placesOf c) s s1 := (alike_updUnit s w c' n _).trans (alike_of_count _ _ _ _)
    split
    · exact hgranted.trans (alike_courses_postFlags s1 w _ _ _).places
    · exact hgranted

theorem alike_cpSettle {c : Nat} (s : State) (w : WytheIx) (c' n : Nat) : Alike (placesOf c) s (s.cpSettle w c' n) := by
  have hfree : ∀ b, Alike (placesOf c) s (s.cpFree w c' n b) := fun b =>
    (alike_updUnit s w c' n _).trans ((Alike.onlyIf _ b ((alike_of_count _ _ _ _).trans (alike_of_raiseBit _ _ _ _))).trans
      (alike_cpGrant _ w c' n b))
  unfold cpSettle
  split
  · unfold cpRelease
    split
    · exact alike_updUnit s w c' n _
    · exact hfree _
  · exact .refl _ s

/-- A command's place is freed, or holds the command as an abort leaves it. -/
def PlaceEnds (k : Nat) (m m' : SMap Place) : Prop := m' = kdel m k ∨ ∃ p, Ended p ∧ m' = sins m k p

theorem placesOf_updCourse (s : State) (w : WytheIx) (c : Nat) (f : Course → Course) :
    placesOf c ((s.updCourse w c f).wy w) = (f (s.course w c)).places := by
  simp [placesOf, updCourse, course]

theorem cpComplete_ends (s : State) (w : WytheIx) (c : CourseIx) (k : Nat) (p : Place) (status : Nat) :
    PlaceEnds k (placesOf c (s.wy w)) (placesOf c ((s.cpComplete w c k p status).wy w)) := by
  unfold cpComplete
  extract_lets pg s1 s2 s3 gone s4
  have h1 : Alike Wythe.courses s s1 := (alike_of_count _ _ _ _).trans (.onlyIf _ _ (alike_of_count _ _ _ _))
  have h2 : Alike Wythe.courses s s2 := h1.trans (.onlyIf _ _ ((alike_of_count _ _ _ _).trans ((alike_of_raiseBit _ _ _ _).trans
    (alike_courses_interrupt _ _ _ _))))
  have h3 : Alike Wythe.courses s s3 := by
    refine h2.trans ?_
    unfold s3
    split
    · split
      · exact alike_of_count _ _ _ _
      · split
        · exact alike_courses_postFlags _ _ _ _ _
        · exact .refl _ _
    · exact .refl _ _
  have h4 : placesOf c (s4.wy w) =
      if gone then kdel (placesOf c (s.wy w)) k else sins (placesOf c (s.wy w)) k { p with state := .done, status := status } := by
    rw [← h3.places w]
    exact placesOf_updCourse s3 w c _
  rw [alike_cpSettle s4 w c p.unit w, h4]
  split
  · exact .inl rfl
  · exact .inr ⟨_, .inl rfl, rfl⟩

/-- One command's part in an abort. -/
def cpAbortPlace (w : WytheIx) (c : CourseIx) (s : State) (e : Nat × Place) : State :=
  if e.2.state = .committed then s.cpCancel w c e.1 e.2 true
  else s.updCourse w c (fun k => { k with places := sins k.places e.1 { e.2 with cancelled := some true } })

theorem cpAbort_eq (s : State) (w : WytheIx) (c : CourseIx) :
    s.cpAbort w c = s.each (((s.course w c).places).filter (fun e => e.2.state != .done)) (cpAbortPlace w c) := rfl

theorem cpAbortPlace_ends (s : State) (w : WytheIx) (c : CourseIx) (e : Nat × Place) :
    PlaceEnds e.1 (placesOf c (s.wy w)) (placesOf c ((cpAbortPlace w c s e).wy w)) := by
  unfold cpAbortPlace
  split
  · have hworked : Alike Wythe.courses s ((s.onlyIf true (fun s => s.count (pgCoproc w c + 0x60) 1)).cpWorked w c e.2.unit 0 false) := by
      refine (Alike.onlyIf s true (f := fun s => s.count (pgCoproc w c + 0x60) 1) (alike_of_count _ _ _ _)).trans ?_
      simp only [cpWorked, Bool.false_eq_true, if_false]
      exact (Alike.of_wy fun _ => rfl).trans (alike_of_count _ _ _ _)
    rw [← hworked.places w]
    exact cpComplete_ends _ w c e.1 e.2 8
  · next hstate =>
    refine .inr ⟨{ e.2 with cancelled := some true }, ?_, placesOf_updCourse s w c _⟩
    cases h : e.2.state with
    | queued => exact .inr ⟨h, rfl⟩
    | committed => exact absurd h hstate
    | done => exact .inl h

section
variable {m m' : SMap Place} {k : Nat} (h : PlaceEnds k m m') (hm : risingFrom 0 m = true)
include h hm

theorem PlaceEnds.rising : risingFrom 0 m' = true := by
  rcases h with rfl | ⟨p, -, rfl⟩
  · exact risingFrom_filter _ m hm
  · exact risingFrom_sins p hm (Nat.zero_le k)

/-- What stands after one command's end has ended, or stood before under another key. -/
theorem PlaceEnds.mem {e : Nat × Place} (he : e ∈ m') : Ended e.2 ∨ e ∈ m ∧ e.1 ≠ k := by
  rcases h with rfl | ⟨p, hp, rfl⟩
  · obtain ⟨hmem, hne⟩ := List.mem_filter.mp he
    exact .inr ⟨hmem, by simpa using hne⟩
  · exact (mem_sins hm he).imp_left fun heq => (congrArg Prod.snd heq).symm ▸ hp
end

/-- The places while an abort passes over the commands in `live`: in order, and beside ended ones only some of those. -/
def Passing (live : SMap Place) (m : SMap Place) : Prop := risingFrom 0 m = true ∧ ∀ e ∈ m, Ended e.2 ∨ e ∈ live

theorem Passing.ends {live m m' : SMap Place} {k : Nat} (hm : Passing live m) (h : PlaceEnds k m m') : Passing live m' :=
  ⟨h.rising hm.1, fun e he => (h.mem hm.1 he).elim .inl fun hold => hm.2 e hold.1⟩

theorem cpAbort_ended {c : CourseIx} (hrise : risingFrom 0 (s.course w c.val).places = true) {e : Nat × Place}
    (he : e ∈ placesOf c ((s.cpAbort w c).wy w)) : Ended e.2 := by
  rw [cpAbort_eq] at he
  generalize hlive : ((s.course w c).places).filter (fun e => e.2.state != .done) = live at he
  have hstart : Passing live (placesOf c (s.wy w)) := by
    refine ⟨hrise, fun x hx => ?_⟩
    by_cases hdone : x.2.state = .done
    · exact .inl (.inl hdone)
    · exact .inr (hlive ▸ List.mem_filter.mpr ⟨hx, by simpa using hdone⟩)
  have hstep : ∀ t x, Passing live (placesOf c (State.wy t w)) → Passing live (placesOf c ((cpAbortPlace w c t x).wy w)) :=
    fun t x ht => ht.ends (cpAbortPlace_ends t w c x)
  have hend := each_induct (fun t => Passing live (placesOf c (t.wy w))) (cpAbortPlace w c) hstep live s hstart
  rcases hend.2 e he with hended | hin
  · exact hended
  · refine each_of_mem (I := fun t => Passing live (placesOf c (t.wy w)))
      (P := fun t => ∀ x ∈ placesOf c (t.wy w), x.1 = e.1 → Ended x.2) hin hstart hstep (fun t ht x hx hkey => ?_)
      (fun t y ht hP x hx hkey => ?_) e he rfl
    · exact ((cpAbortPlace_ends t w c e).mem ht.1 hx).elim id fun hold => absurd hkey hold.2
    · exact ((cpAbortPlace_ends t w c y).mem ht.1 hx).elim id fun hold => hP x hold.1 hkey

theorem coprocAbort_spec (hr : s.reach a w = true) (hs : s.Canon) (c : CourseIx) (hrise : risingFrom 0 (s.course w c.val).places = true) :
    Completes (.coprocAbort a w c) s (fun t => Kept s t (pgCoproc w c.val) ∧
      ∀ e ∈ (t.course w c.val).places, e.2.state = .done ∨ e.2.state = .queued ∧ e.2.cancelled = some true) := by
  have hc : Fin.ofNat 6 c.val = c := Fin.ext (Nat.mod_eq_of_lt c.isLt)
  refine abort_wythe_spec (u := s.cpAbort w c) hr hs (pageOf_coproc w c) rfl ?_ (by omega) fun _ e he => cpAbort_ended hrise he
  simp only [pageAbort, pageWythe_wythe, hc]

/-! ### The Press -/

theorem dropQueued_store (s : State) (w : WytheIx) (p : Copy → Bool) (cause : Cause) :
    ((s.dropQueued w p cause).wy w).press.store = (s.wy w).press.store.filter (fun c => !(p c && !c.started)) := by
  have hafter : Discards (s.updPress w (fun x => { x with store := x.store.filter (fun c => !(p c && !c.started)) })) (s.dropQueued w p cause) :=
    .each (.each (.refl _) fun _ _ h => h.dropCopy) fun _ _ h => h.queueLeft
  rw [(quelled_fields (hafter.wythe w)).2.1, wy_updPress_same]

theorem pageAbort_pressMain (s : State) (w : WytheIx) : s.pageAbort ⟨w.val + 1, 0x41, 0⟩ =
    (s.count (pgPressMain w + 0x60) ((s.wy w).press.store.filter (fun c => !c.started)).length).dropQueued w (fun _ => true) .pressAbort := by
  simp only [pageAbort, pageWythe_wythe]

theorem pageAbort_press (s : State) (w : WytheIx) (p : Nat) :
    s.pageAbort ⟨w.val + 1, 0x40, p⟩ = s.dropQueued w (fun c => !c.hostq && c.port == p) .pressAbort := by
  simp only [pageAbort, pageWythe_wythe]

theorem pressAbort_spec (hr : s.reach a w = true) (hs : s.Canon) :
    Completes (.pressAbort a w) s (fun t => Kept s t (pgPressMain w) ∧ (t.wy w).press.store = (s.wy w).press.store.filter (·.started)) :=
  abort_wythe_spec hr hs (pageOf_pressMain w) rfl (pageAbort_pressMain s w) (by decide) fun _ => (dropQueued_store _ w _ _).trans (by simp)

theorem pressPortAbort_spec (hr : s.reach a w = true) (hs : s.Canon) (p : EthIx) :
    Completes (.pressPortAbort a w p) s (fun t => Kept s t (pgPress w p.val) ∧
      (t.wy w).press.store = (s.wy w).press.store.filter (fun c => c.started || c.hostq || c.port != p.val)) := by
  refine abort_wythe_spec hr hs (pageOf_press w p) rfl (pageAbort_press s w p.val) (by omega) fun _ =>
    (dropQueued_store s w _ _).trans (List.filter_congr fun c _ => ?_)
  simp only [Bool.not_and, Bool.not_not, bne, Bool.or_comm, Bool.or_left_comm]

end State
end Sys2Proof.Machine
end

/-!
# Aborts of the Marches, the mailbox and the forme unit

With these the statement about CTRL stands whole (`pageControl`).
-/

section

namespace Sys2Proof.Machine.State

variable {s t u : State} {a : Agent} {w : WytheIx}

/-! ### The Marches -/

/-- The result of a STATUS word (R333). -/
theorem fld_marchWord {result target : Nat} (hr : result < 16) (ht : target < 32) : fld (marchWord result target 0 false) 31 28 = result := by
  simp only [marchWord, fld, bitsOf, at', w32, b2n, BitVec.toNat_ofNat, Bool.false_eq_true, if_false]
  omega

theorem alike_setBlock (s : State) (w : WytheIx) (b n : Nat) : Alike Wythe.marches s (s.setBlock w b n) := by
  unfold setBlock updGalley updTables
  extract_lets v
  split
  iterate 6 · exact .updWy s w fun _ => rfl
  · exact (Alike.of_only (only_updColl s w _) fun _ => rfl).trans (.of_only (only_updPress _ w _) fun _ => rfl)

theorem alike_marches_updTcb (s : State) (w : WytheIx) (i : Nat) (f : Tcb → Tcb) : Alike Wythe.marches s (s.updTcb w i f) := by
  unfold updTcb
  exact .updWy s w fun _ => rfl

theorem alike_marches_updCore (s : State) (w : WytheIx) (i : Nat) (f : Core → Core) : Alike Wythe.marches s (s.updCore w i f) := by
  unfold updCore
  exact .updWy s w fun _ => rfl

theorem alike_marchUndef (s : State) (w : WytheIx) (b : Nat) : Alike Wythe.marches s (s.marchUndef w b) := by
  unfold marchUndef
  extract_lets n s1
  have hdrawn : Alike Wythe.marches s s1 := .of_wy fun _ => rfl
  split
  · refine hdrawn.trans (.trans (.of_only (only_updCourse s1 w b _) fun _ => rfl) (.each (fun s k => ?_) _ _))
    exact (Alike.each (fun s i => alike_marches_updTcb s w _ _) _ s).trans (alike_marches_updCore _ w _ _)
  · exact hdrawn.trans (.each (fun s k => alike_setBlock s w k n) _ _)

theorem march_updMarch (s : State) (w : WytheIx) (e e' : Nat) (f : March → March) :
    (s.updMarch w e f).march w e' = if e' = e then f (s.march w e) else s.march w e' := by
  simp [march, updMarch, kget_kupd]

theorem Alike.march (h : Alike Wythe.marches s t) (w : WytheIx) (e : Nat) : t.march w e = s.march w e := by
  simp only [State.march, h w]

theorem march_marchResult (s : State) (w : WytheIx) (e e' : Nat) (st : W32) :
    (s.marchResult w e st).march w e' = if e' = e then { s.march w e with status := st } else s.march w e' := by
  have hcounted : Alike Wythe.marches (s.updMarch w e (fun m => { m with status := st })) (s.marchResult w e st) := by
    unfold marchResult
    extract_lets r s1 s2
    have hdone : Alike Wythe.marches (s.updMarch w e (fun m => { m with status := st })) s2 :=
      (alike_of_count _ _ _ _).trans (alike_of_raiseBit _ _ _ _)
    split
    · exact hdone.trans ((alike_of_count _ _ _ _).trans (alike_of_raiseBit _ _ _ _))
    · exact hdone
  rw [hcounted.march, march_updMarch]

/-- One engine's part in an abort. -/
def marchAbortEngine (w : WytheIx) (s : State) (e : Nat) : State :=
  let m := s.march w e
  if !m.running then s
  else
    let s1 := s.updMarch w e (fun m => { m with running := false })
    let s2 := if m.preserving then s1 else s1.marchUndef w m.target.toNat
    s2.marchResult w e (marchWord 5 m.target.toNat 0 false)

theorem marchAbortAll_eq (s : State) (w : WytheIx) : s.marchAbortAll w = s.each (List.range 7) (marchAbortEngine w) := rfl

theorem marchAbortEngine_march (s : State) (w : WytheIx) (e e' : Nat) : (marchAbortEngine w s e).march w e' =
    if e' = e ∧ (s.march w e).running = true then
      { s.march w e with running := false, status := marchWord 5 (s.march w e).target.toNat 0 false } else s.march w e' := by
  unfold marchAbortEngine
  extract_lets m s1 s2
  split
  · next hstill => simp_all [m]
  · next hrun =>
    have hs2 : Alike Wythe.marches s1 s2 := by
      unfold s2
      split
      · exact .refl _ _
      · exact alike_marchUndef _ w _
    rw [march_marchResult, hs2.march, hs2.march, march_updMarch, march_updMarch]
    simp_all [m]

/-- An engine whose march was aborted (R329). -/
def MarchAborted (m m' : March) : Prop :=
  m'.running = false ∧ (m.running = true → m.target.toNat < 32 → fld m'.status 31 28 = 5)

theorem marchAbortAll_aborted (s : State) (w : WytheIx) {e : Nat} (he : e < 7) : MarchAborted (s.march w e) ((s.marchAbortAll w).march w e) := by
  have hown : ∀ t, t.march w e = s.march w e ∨ MarchAborted (s.march w e) (t.march w e) →
      MarchAborted (s.march w e) ((marchAbortEngine w t e).march w e) := fun t ht => by
    rw [marchAbortEngine_march]
    split
    · next hrun =>
      rcases ht with heq | hdone
      · rw [heq]
        exact ⟨rfl, fun _ htarget => fld_marchWord (by decide) htarget⟩
      · exact absurd (hdone.1.symm.trans hrun.2) (by decide)
    · next hstill =>
      rcases ht with heq | hdone
      · rw [heq] at hstill ⊢
        have hnot : (s.march w e).running = false := by simpa using hstill
        exact ⟨hnot, fun hrun => absurd (hnot.symm.trans hrun) (by decide)⟩
      · exact hdone
  have hstep : ∀ t x, t.march w e = s.march w e ∨ MarchAborted (s.march w e) (t.march w e) →
      (marchAbortEngine w t x).march w e = t.march w e ∨ MarchAborted (s.march w e) ((marchAbortEngine w t x).march w e) := fun t x ht => by
    by_cases hx : e = x
    · exact .inr (hx ▸ hown t ht)
    · exact .inl ((marchAbortEngine_march t w x e).trans (if_neg fun h => hx h.1))
  rw [marchAbortAll_eq]
  refine each_of_mem (I := fun t => t.march w e = s.march w e ∨ MarchAborted (s.march w e) (t.march w e))
    (P := fun t => MarchAborted (s.march w e) (t.march w e)) (List.mem_range.mpr he) (.inl rfl) (fun t x ht => ?_) hown (fun t x ht hP => ?_)
  · exact (hstep t x ht).elim (fun h => h ▸ ht) .inr
  · exact (hstep t x ht).elim (fun h => h ▸ hP) id

theorem marchAbort_spec (hr : s.reach a w = true) (hs : s.Canon) :
    Completes (.marchAbort a w) s (fun t => Kept s t (pgMarch w) ∧ ∀ e < 7, (t.march w e).running = false ∧
      ((s.march w e).running = true → (s.march w e).target.toNat < 32 → fld (t.march w e).status 31 28 = 5)) :=
  abort_wythe_spec hr hs (pageOf_march w) rfl (by simp only [pageAbort, pageWythe_wythe]) (by decide) fun _ _ he =>
    marchAbortAll_aborted s w he

/-! ### The device's own pages -/

theorem CtrlPage.of_global {base type inst : Nat} (hr : s.reachGlobal a = true) (hp : pageOf base = some ⟨0, type, inst⟩)
    (ht : type < 0x48 ∧ type ≠ 0x07) : CtrlPage s a base ⟨0, type, inst⟩ where
  page := hp
  reached := by simp only [pageReach, ht.2, if_false, if_true, hr]
  acts := ht.1

theorem mboxAbort_spec (hr : s.reachGlobal a = true) (hs : s.Canon) :
    Completes (.abort a pgMbox) s (fun t => Kept s t pgMbox ∧ t.plinth = { s.plinth with req := none, again := false }) :=
  abort_spec (pg := ⟨0, 0x02, 0⟩) (.of_global hr (by decide) (by decide)) hs rfl rfl (by decide) fun _ => rfl

/-- A lock-up that is being validated fails with `code`. -/
def lockupFails (s : State) (code : Nat) : State :=
  if s.forme.locking.isSome then (s.setForme (fun x => { x with locking := none, lockResult := code })).count (pgForme + 0x48) 1 else s
/-- A persist that has begun ends with `code`. -/
def persistStops (s : State) (code : Nat) : State :=
  match s.forme.persist with
  | some p => s.persistDone p.slotB code
  | none => s

theorem formeAbort_eq (s : State) :
    s.formeAbort = (s.draw.2.lockupFails (s.draw.1.toNat % 256)).persistStops (3 + s.draw.1.toNat / 256 % 253) := rfl

theorem lockupFails_ended (s : State) (code : Nat) :
    (s.lockupFails code).forme.locking = none ∧ (s.lockupFails code).active = s.active ∧ (s.lockupFails code).staged = s.staged := by
  unfold lockupFails
  split
  · simp [setForme]
  · next hidle => exact ⟨by simpa using hidle, rfl, rfl⟩

theorem persistStops_ended (s : State) (code : Nat) : (s.persistStops code).forme.persist = none ∧
    (s.persistStops code).forme.locking = s.forme.locking ∧ (s.persistStops code).active = s.active ∧
    (s.persistStops code).staged = s.staged := by
  unfold persistStops
  split
  · rw [persistDone_eq]
    simp [setForme]
  · next hidle => exact ⟨hidle, rfl, rfl, rfl⟩

/-- An abort of the forme unit leaves no lock-up and no persist, and the words as they were. -/
def FormeAborted (s t : State) : Prop := t.forme.locking = none ∧ t.forme.persist = none ∧ t.active = s.active ∧ t.staged = s.staged

theorem formeAbort_aborted (s : State) : FormeAborted s s.formeAbort := by
  rw [formeAbort_eq]
  obtain ⟨hnone, hactive, hstaged⟩ := lockupFails_ended s.draw.2 (s.draw.1.toNat % 256)
  obtain ⟨hpersist, hlocking, hactive', hstaged'⟩ := persistStops_ended (s.draw.2.lockupFails (s.draw.1.toNat % 256))
    (3 + s.draw.1.toNat / 256 % 253)
  exact ⟨hlocking.trans hnone, hpersist, hactive'.trans hactive, hstaged'.trans hstaged⟩

/-- An abort of the FORME page, with the clearing of the clamps where CTRL asks for it. -/
theorem ctrlAbort_forme (h : CtrlPage s a pgForme ⟨0, 0x03, 0⟩) : s.ctrlAbort a pgForme =
    (s.formeAbort.onlyIf (flag (s.rd (pgForme + 8) ||| 2) 5) State.clampsCleared).wr (pgForme + 8)
      ((s.rd (pgForme + 8) ||| 2) &&& ctrlKept 0x03) := by
  rw [ctrlAbort, h.ctrlWrite]
  have habort := (flag_setAbort (s.rd (pgForme + 8))).2
  generalize s.rd (pgForme + 8) ||| 2 = v at habort ⊢
  simp [ctrlStore, habort, pageAbort, onlyIf]

theorem formeAbort_spec (hr : s.reachGlobal a = true) (hs : s.Canon) :
    Completes (.abort a pgForme) s (fun t => Kept s t pgForme ∧ FormeAborted s t) := by
  have hpage : CtrlPage s a pgForme ⟨0, 0x03, 0⟩ := .of_global hr (by decide) (by decide)
  have hkeeps : Keeps s (s.formeAbort.onlyIf (flag (s.rd (pgForme + 8) ||| 2) 5) State.clampsCleared) :=
    .onlyIf ((Keeps.refl s).pageAbort (pg := ⟨0, 0x03, 0⟩)) fun _ h => h.clampsCleared
  have haborted : FormeAborted s (s.formeAbort.onlyIf (flag (s.rd (pgForme + 8) ||| 2) 5) State.clampsCleared) := by
    unfold onlyIf
    split
    · exact formeAbort_aborted s
    · exact formeAbort_aborted s
  refine ⟨s.ctrlAbort a pgForme, rfl, ?_⟩
  rw [ctrlAbort_forme hpage]
  exact ⟨kept_wr (hkeeps.2 hs) (by decide), haborted⟩

/-- Settles O42: a write of CTRL that starts no abort changes that word alone (`CtrlSet`), at BANKS after the conflicts are
counted; an abort is the block's own, followed by that write (`abort_spec`). -/
theorem pageControl : Obligations.PageControl := by
  unfold Obligations.PageControl
  refine ⟨fun s a w hr hs => ?_, fun s a w hr hs => ?_⟩
  · obtain ⟨hcomp, hkeys, htable, hgalley, hcoll, hcoproc, hmarch, hquoin, hpress, hpressPort, hport⟩ := pageControl_disable hr hs
    exact ⟨hcomp, hkeys, htable, hgalley, hcoll, hcoproc, hmarch, hquoin, hpress, hpressPort, hport,
      fun addr pg hp hw ht hbanks => ⟨disable_page_spec hr hs hp hw ht hbanks,
        fun on habort halive => freezeCounters_spec hr hs hp hw ht hbanks on habort halive⟩,
      fun c on habort => pageControl_banks hr hs c on habort, fun addr pg on hp ht => ctrl_ignored on hp ht⟩
  · exact ⟨compositorAbort_spec hr hs, caseEngineAbort_spec hr hs, tableAbort_spec hr hs, galleyAbort_spec hr hs,
      collatorAbort_spec hr hs, coprocAbort_spec hr hs, marchAbort_spec hr hs, quoinAbort_spec hr hs, pressAbort_spec hr hs,
      fun p => ⟨pressPortAbort_spec hr hs p, portAbort_spec hr hs p⟩,
      fun hglobal => ⟨mboxAbort_spec hglobal hs, formeAbort_spec hglobal hs⟩⟩

end Sys2Proof.Machine.State
end

/-!
# Learning and ageing

What a change of a wythe's tables leaves them as, and the learn table's own events (R110, R115, R118–R120).
-/

section

namespace Sys2Proof.Machine

theorem sfind_kdel_ne {α : Type} (m : SMap α) {k k' : Nat} (h : k' ≠ k) : sfind (kdel m k) k' = sfind m k' := by
  induction m with
  | nil => rfl
  | cons e r ih =>
    obtain ⟨j, v⟩ := e
    by_cases hj : j = k
    · have hne : k' ≠ j := hj ▸ h
      simpa [kdel, sfind, hj, h] using ih
    · by_cases hk : k' = j
      · simp [kdel, sfind, hj, hk]
      · simpa [kdel, sfind, hj, hk] using ih

/-- Removing the keys of a list leaves the others. -/
theorem sfind_foldl_kdel {α : Type} (l : List Nat) (m : SMap α) (k : Nat) :
    sfind (l.foldl kdel m) k = if k ∈ l then none else sfind m k := by
  induction l generalizing m with
  | nil => simp
  | cons j l ih =>
    rw [List.foldl_cons, ih]
    by_cases hk : k = j
    · simp [hk, State.sfind_kdel_same]
    · simp [hk, sfind_kdel_ne m hk]

/-- An entry that is placed stands at the place answered. -/
theorem sfind_placeEntry {α : Type} {m m' : SMap α} {r : Reloc} {free : Option Nat} {first : List Nat} {depth p : Nat} {v : α}
    (h : placeEntry m r free first depth v = some (p, m')) : sfind m' p = some v := by
  unfold placeEntry at h
  split at h
  · cases h
    exact sfind_sins_same m _ v
  · split at h
    · cases h
    · cases h
      exact sfind_sins_same _ _ v

namespace State

variable {s : State} {w : WytheIx}

/-! ### The tables after a change -/

@[simp] theorem tables_setTables (s : State) (w : WytheIx) (f : Tables → Tables) : (s.setTables w f).tables w = f (s.tables w) := by
  simp [setTables, tables]
@[simp] theorem tables_count (s : State) (a n : Nat) (v : WytheIx) : (s.count a n).tables v = s.tables v := by simp [tables]
@[simp] theorem tables_countTable (s : State) (w v : WytheIx) (t i : Nat) : (s.countTable w t i).tables v = s.tables v := by
  unfold countTable
  split
  · exact tables_count s _ _ v
  · rfl
@[simp] theorem tables_tableEcc (s : State) (w v : WytheIx) (t : Nat) (ecc : EccReport) : (s.tableEcc w t ecc).tables v = s.tables v := by
  unfold tableEcc
  split
  · exact tables_countTable s w v t 2
  · simp only [draw, tables, raiseBit_wy, wr_wy]
    exact tables_countTable s w v t 3
  · rfl

theorem tableEcc_good (s : State) (w : WytheIx) (t : Nat) : s.tableEcc w t .good = s := rfl

theorem setTables_setTables (s : State) (w : WytheIx) (f g : Tables → Tables) :
    (s.setTables w f).setTables w g = s.setTables w (fun t => g (f t)) := by
  unfold setTables updTables
  rw [updWy_updWy]

/-- A change of the tables alone, then one count: the counter shows it. -/
theorem counted_setTables (f : Tables → Tables) (a : Nat) (hs : s.Canon) : Counted s ((s.setTables w f).count a 1) a :=
  .of_spares (.updWy s w _) ((Keeps.refl s).setTables.2 hs) rfl

/-! ### A learn request is served -/

/-- The entry that a queued request leaves (R115). -/
def learnedEntry (t : Tables) (r : LearnReq) : LearnEntry := ⟨false, false, false, t.epoch, r.kindKey, r.port, r.flags, r.data⟩

theorem learnServe_learned {r : LearnReq} {rest : List LearnReq} {p : Nat} {m : SMap LearnEntry} (hq : (s.tables w).learnQ = r :: rest)
    (hnone : learnCopies (s.tables w).learn r.kindKey = [])
    (hplace : learnPlace (s.tables w).learn (fld (s.rd (pgLearn w + 0x108)) 1 0) (learnedEntry (s.tables w) r) = some (p, m)) :
    s.learnServe w .good =
      (s.setTables w (fun t => { t with learnQ := rest, learn := m })).count (pgLearn w + 0x50) 1 := by
  have hseen : s.learnSeen w r.kindKey r.forme = [] := by simp [learnSeen, hnone]
  unfold learnedEntry at hplace
  simp [learnServe, hq, hseen, hnone, hplace, tableEcc_good, setTables_setTables]

theorem learnRequestService_learns {r : LearnReq} {rest : List LearnReq} (hq : (s.tables w).learnQ = r :: rest)
    (hon : s.enabled (pgLearn w) = true) (hnone : learnCopies (s.tables w).learn r.kindKey = [])
    (hplace : (learnPlace (s.tables w).learn (fld (s.rd (pgLearn w + 0x108)) 1 0) (learnedEntry (s.tables w) r)).isSome = true) :
    Completes (.learnRequestService w .good) s (fun t => (t.tables w).learnQ = rest ∧
      (∃ p, sfind (t.tables w).learn p = some (learnedEntry (s.tables w) r)) ∧ (s.Canon → Counted s t (pgLearn w + 0x50)) ∧
      Only s t (·.updTables w (fun _ => {}))) := by
  obtain ⟨⟨p, m⟩, hplaced⟩ := Option.isSome_iff_exists.mp hplace
  refine ⟨_, congrArg Host.Outcome.next ((if_pos hon).trans (learnServe_learned hq hnone hplaced)), ?_, ⟨p, ?_⟩,
    counted_setTables _ _, (InTables.setTables (.refl s _)).count⟩
  · simp
  · simpa using sfind_placeEntry hplaced

/-! ### The epoch -/

theorem epochChange_due (hdue : (s.tables w).epochStart + (s.tables w).epochPeriod * 10000000 ≤ s.now) :
    Completes (.epochChange w) s (fun t => (t.tables w).epoch = (s.tables w).epoch + 1 ∧
      (t.tables w).epochPeriod = fld (s.rd (pgLearn w + 0x100)) 15 0 ∧ (t.tables w).learn = (s.tables w).learn ∧
      ((s.tables w).pass = none → flag (s.rd (pgLearn w + 0x100)) 16 = true → (t.tables w).pass = some 0) ∧
      Only s t (·.updTables w (fun _ => {}))) := by
  refine ⟨_, congrArg Host.Outcome.next (if_neg (Nat.not_lt.mpr hdue)), ?_, ?_, ?_, fun hpass hon => ?_, InTables.setTables (.refl s _)⟩
  · rw [tables_setTables]
  · rw [tables_setTables, ageCfg]
  · rw [tables_setTables]
  · simp [ageCfg, hpass, hon]

theorem epochChange_early (hearly : s.now < (s.tables w).epochStart + (s.tables w).epochPeriod * 10000000) :
    Completes (.epochChange w) s (fun t => t = s) :=
  ⟨_, congrArg Host.Outcome.next (if_pos hearly), rfl⟩

/-! ### The ager -/

/-- The positions of a bucket whose entries have aged (R118, R119). -/
def agedOut (t : Tables) (limit b : Nat) : List Nat :=
  (learnWays b).filter (fun p => match sfind t.learn p with
    | some e => aged t.epoch limit e
    | none => false)

theorem mem_agedOut {t : Tables} {limit b p : Nat} :
    p ∈ agedOut t limit b ↔ p ∈ learnWays b ∧ ∃ e, sfind t.learn p = some e ∧ aged t.epoch limit e = true := by
  unfold agedOut
  rw [List.mem_filter]
  refine and_congr_right fun _ => ?_
  cases sfind t.learn p <;> simp

/-- One visit removes what has aged and moves on to the next bucket, or to the next pass. -/
theorem agerVisit_eq {b : Nat} (hpass : (s.tables w).pass = some b) (hon : s.enabled (pgLearn w) = true) (hsweep : (s.wy w).sweep ≠ .sweeping) :
    ∃ (next : Option Nat) (owed : Tables → Nat) (n : Nat), (b + 1 < 65536 → next = some (b + 1)) ∧ s.agerVisit w .good = (s.setTables w (fun t => { t with
      learn := (agedOut (s.tables w) (fld (s.ageCfg w) 31 24) b).foldl kdel t.learn, pass := next, passesOwed := owed t })).count
        (pgLearn w + 0x78) n := by
  refine ⟨if b + 1 < 65536 then some (b + 1) else if 0 < (s.tables w).passesOwed then some 0 else none,
    fun t => if b + 1 < 65536 then t.passesOwed else t.passesOwed - 1, (agedOut (s.tables w) (fld (s.ageCfg w) 31 24) b).length,
    fun h => if_pos h, ?_⟩
  have hgoes : (!s.enabled (pgLearn w) || (s.wy w).sweep == .sweeping) = false := by simp [hon, hsweep]
  simp only [agerVisit, hpass, hgoes, tableEcc_good, Bool.false_eq_true, reduceCtorEq, if_false]
  rfl

theorem agerVisit_evicts {b : Nat} (hpass : (s.tables w).pass = some b) (hon : s.enabled (pgLearn w) = true)
    (hsweep : (s.wy w).sweep ≠ .sweeping) :
    Completes (.agerVisit w .good) s (fun t =>
      (∀ p e, p ∈ learnWays b → sfind (s.tables w).learn p = some e → aged (s.tables w).epoch (fld (s.ageCfg w) 31 24) e = true →
        sfind (t.tables w).learn p = none) ∧
      (∀ p, p ∉ learnWays b → sfind (t.tables w).learn p = sfind (s.tables w).learn p) ∧
      (∀ p e, sfind (s.tables w).learn p = some e → aged (s.tables w).epoch (fld (s.ageCfg w) 31 24) e = false →
        sfind (t.tables w).learn p = some e) ∧
      (b + 1 < 65536 → (t.tables w).pass = some (b + 1)) ∧ Only s t (·.updTables w (fun _ => {}))) := by
  obtain ⟨next, owed, n, hnext, hvisit⟩ := agerVisit_eq hpass hon hsweep
  refine ⟨_, congrArg Host.Outcome.next hvisit, fun p e hp he haged => ?_, fun p hp => ?_, fun p e he hfresh => ?_, fun hb => ?_, ?_⟩
  · have hgone : p ∈ agedOut (s.tables w) (fld (s.ageCfg w) 31 24) b := mem_agedOut.mpr ⟨hp, e, he, haged⟩
    simp [sfind_foldl_kdel, hgone]
  · have hstays : p ∉ agedOut (s.tables w) (fld (s.ageCfg w) 31 24) b := fun h => hp (mem_agedOut.mp h).1
    simp [sfind_foldl_kdel, hstays]
  · have hstays : p ∉ agedOut (s.tables w) (fld (s.ageCfg w) 31 24) b := fun h => by
      obtain ⟨-, e', he', haged⟩ := mem_agedOut.mp h
      obtain rfl := Option.some.inj (he.symm.trans he')
      simp [hfresh] at haged
    simp [sfind_foldl_kdel, hstays, he]
  · simp [hnext hb]
  · exact (InTables.setTables (.refl s _)).count

end State

/-- Settles O24: each clause is the lemma of its event. -/
theorem learningAndAgeing : Obligations.LearningAndAgeing := by
  unfold Obligations.LearningAndAgeing
  intro s w
  exact ⟨fun r rest hq hon hnone hplace => State.learnRequestService_learns hq hon hnone hplace, State.epochChange_due, State.epochChange_early,
    fun b hpass hon hsweep => State.agerVisit_evicts hpass hon hsweep⟩

end Sys2Proof.Machine

end

/-!
# Table commands

What a window accepts (`acceptCmd_joins`, `acceptCmd_rejects`), and what the engine answers to the oldest command: a
command's run leaves every window as it was (`KeepsWindows`), so the answer alone changes the window.
-/

section

namespace Sys2Proof.Machine.State

variable {s t u : State} {w : WytheIx}

/-! ### A command is accepted -/

/-- When a command is accepted, as its kind records it (R33). -/
def kindNow (s : State) : CmdKind := if s.sessionOpen = true then .session else if s.sessionPending = true then .pending else .plain

/-- A command as it waits, with the KEY and DATA words as they stand (R125). -/
def waitingCmd (s : State) (x : Window) (op : Nat) (tag : Byte) (quiet : Bool) : WinCmd :=
  ⟨op, tag, quiet, (List.range 20).map (sget (fun _ => 0) x.keys), (List.range 8).map (sget (fun _ => 0) x.datas), s.kindNow⟩

/-- The state in which a command has joined its window's FIFO. -/
def cmdJoined (s : State) (w : WytheIx) (n op : Nat) (tag : Byte) (quiet : Bool) : State :=
  s.updWindow w n (fun x => { x with fifo := x.fifo ++ [s.waitingCmd (s.window w n) op tag quiet] })

/-- Where there is room, the command joins the FIFO, and in a session the journal may grow (R41). -/
theorem acceptCmd_room {n op : Nat} {tag : Byte} {quiet : Bool} (hok : windowOk n = true)
    (hroom : (s.window w n).fifo.length + (s.window w n).resps.length < 16) :
    s.acceptCmd w n op tag quiet = s.cmdJoined w n op tag quiet ∨
      s.forme.session ≠ .none ∧ ∃ b, s.acceptCmd w n op tag quiet = (s.cmdJoined w n op tag quiet).journal b := by
  have hfull : ¬ 16 ≤ (s.window w n).fifo.length + (s.window w n).resps.length := by omega
  simp only [acceptCmd, hok, hfull, Bool.not_true, Bool.false_eq_true, if_false]
  split
  · next hsession =>
    refine .inr ⟨fun hnone => ?_, _, rfl⟩
    simp [sessionOpen, sessionPending, hnone] at hsession
  · exact .inl rfl

/-- Where there is none, the window notes the rejection alone, and it is counted. -/
theorem acceptCmd_full {n op : Nat} {tag : Byte} {quiet : Bool} (hok : windowOk n = true)
    (hfull : ¬ (s.window w n).fifo.length + (s.window w n).resps.length < 16) :
    s.acceptCmd w n op tag quiet = (s.updWindow w n (fun x => { x with rejected := true })).countTable w n 1 := by
  simp only [acceptCmd, hok, Nat.not_lt.mp hfull, Bool.not_true, Bool.false_eq_true, if_false, if_true]

/-- What a window's FIFO and the rest of the state are after the command `op` has joined it. -/
def Joined (s t : State) (w : WytheIx) (n op : Nat) (tag : Byte) (quiet : Bool) : Prop :=
  (t.window w n).fifo = (s.window w n).fifo ++ [s.waitingCmd (s.window w n) op tag quiet] ∧ (t.window w n).resps = (s.window w n).resps ∧
    (∀ j, j ≠ n → t.window w j = s.window w j) ∧ (s.forme.session = .none → t.forme = s.forme) ∧
    Only s t (fun s => { s.updTables w (fun _ => {}) with forme := {} })

/-- A journal entry is of no concern to a window that a command has joined. -/
theorem Joined.journal {n op : Nat} {tag : Byte} {quiet : Bool} (h : Joined s t w n op tag quiet) (hsession : s.forme.session ≠ .none) (b : Bytes) :
    Joined s (t.journal b) w n op tag quiet := by
  obtain ⟨hfifo, hresps, hothers, -, honly⟩ := h
  exact ⟨hfifo, hresps, hothers, fun hnone => absurd hnone hsession,
    honly.trans (by rcases wythe_cases w with rfl | rfl <;> rfl)⟩

theorem cmdJoined_joined (s : State) (w : WytheIx) (n op : Nat) (tag : Byte) (quiet : Bool) :
    Joined s (s.cmdJoined w n op tag quiet) w n op tag quiet := by
  refine ⟨?_, ?_, fun j hj => (window_updWindow s w n j _).trans (if_neg hj), fun _ => updTables_forme s w _, ?_⟩
  · rw [cmdJoined, window_updWindow, if_pos rfl]
  · rw [cmdJoined, window_updWindow, if_pos rfl]
  · rcases wythe_cases w with rfl | rfl <;> rfl

theorem acceptCmd_joins {n : Nat} (op : Nat) (tag : Byte) (quiet : Bool) (hok : windowOk n = true)
    (hroom : (s.window w n).fifo.length + (s.window w n).resps.length < 16) :
    Joined s (s.acceptCmd w n op tag quiet) w n op tag quiet := by
  have hjoined := s.cmdJoined_joined w n op tag quiet
  rcases acceptCmd_room (op := op) (tag := tag) (quiet := quiet) hok hroom with heq | ⟨hsession, b, heq⟩
  · exact heq ▸ hjoined
  · exact heq ▸ hjoined.journal hsession b

/-- What a rejection leaves: FIFO and responses as they were. -/
def Rejected (s t : State) (w : WytheIx) (n : Nat) : Prop :=
  (t.window w n).fifo = (s.window w n).fifo ∧ (t.window w n).resps = (s.window w n).resps ∧ (t.window w n).rejected = true ∧
    Only s t (·.updTables w (fun _ => {}))

@[simp] theorem window_countTable (s : State) (w v : WytheIx) (n i m : Nat) : (s.countTable w n i).window v m = s.window v m := by
  simp [window]

theorem acceptCmd_rejects {n : Nat} (op : Nat) (tag : Byte) (quiet : Bool) (hok : windowOk n = true)
    (hfull : ¬ (s.window w n).fifo.length + (s.window w n).resps.length < 16) : Rejected s (s.acceptCmd w n op tag quiet) w n := by
  rw [acceptCmd_full hok hfull]
  refine ⟨?_, ?_, ?_, (InTables.setTables (.refl s _)).countTable⟩ <;> simp [window_updWindow]

/-- A command of the host through its window does what the window does with it. -/
theorem completes_cmdRow {c : Instr} {n : Fin 16} {op : Nat} {tag : Byte} {quiet : Bool} {P : State → Prop}
    (hc : exec c s = .next (cmdRow w n op tag quiet s)) (hr : s.reach .host w = true) (h : P (s.acceptCmd w n.val op tag quiet)) :
    Completes c s P := ⟨_, hc.trans (congrArg Host.Outcome.next (if_pos hr)), h⟩

/-- Each of the six operations goes its way through the window (R128). -/
theorem completes_six {n : Fin 16} {tag : Byte} {quiet : Bool} {P : Nat → State → Prop} (hr : s.reach .host w = true)
    (h : ∀ op, P op (s.acceptCmd w n.val op tag quiet)) :
    Completes (.read w n tag quiet) s (P 1) ∧ Completes (.write w n tag quiet) s (P 2) ∧ Completes (.insert w n tag quiet) s (P 3) ∧
      Completes (.delete w n tag quiet) s (P 4) ∧ Completes (.search w n tag quiet) s (P 5) ∧ Completes (.nextCmd w n tag quiet) s (P 6) :=
  ⟨completes_cmdRow rfl hr (h 1), completes_cmdRow rfl hr (h 2), completes_cmdRow rfl hr (h 3), completes_cmdRow rfl hr (h 4),
    completes_cmdRow rfl hr (h 5), completes_cmdRow rfl hr (h 6)⟩

/-- A read of NEXT drops the oldest response (R127). -/
theorem respNext_drops {n : Fin 16} {a : WinResp} {r : List WinResp} (hr : s.reach .host w = true) (hok : windowOk n.val = true)
    (hresps : (s.window w n.val).resps = a :: r) :
    Completes (.respNext w n) s (fun t => (t.window w n.val).resps = r ∧ (t.window w n.val).fifo = (s.window w n.val).fifo ∧
      Only s t (·.updTables w (fun _ => {}))) := by
  refine ⟨_, congrArg Host.Outcome.next ((if_pos hr).trans (if_pos hok)), ?_, ?_, InTables.setTables (.refl s _)⟩
  · simp [window_updWindow, hresps]
  · simp [window_updWindow]

/-! ### A command's run leaves the windows -/

/-- The windows of wythe `w` are the same in both states. -/
def KeepsWindows (w : WytheIx) (s t : State) : Prop := (t.tables w).windows = (s.tables w).windows

theorem putExact_windows (t : Tables) (m : SMap ExactEntry) : (t.putExact m).windows = t.windows := rfl
theorem putAct_windows (t : Tables) (n : Nat) (b : Bytes) : (t.putAct n b).windows = t.windows := by
  unfold Tables.putAct
  split
  · rfl
  · split
    · rfl
    · dsimp only
      split <;> rfl

namespace KeepsWindows

theorem refl (w : WytheIx) (s : State) : KeepsWindows w s s := rfl

/-- A choice between two answers, each with its state. -/
theorem ite2 {α : Type} {r q : α × State} {c : Prop} {_ : Decidable c} (h : KeepsWindows w s r.2) (h' : KeepsWindows w s q.2) :
    KeepsWindows w s (if c then r else q).2 :=
  iteInduction (motive := fun r : α × State => KeepsWindows w s r.2) (fun _ => h) (fun _ => h')

theorem setTables {f : Tables → Tables} (hf : (f (s.tables w)).windows = (s.tables w).windows) : KeepsWindows w s (s.setTables w f) := by
  simpa [KeepsWindows] using hf

theorem count (s : State) (a n : Nat) : KeepsWindows w s (s.count a n) := by simp [KeepsWindows]

theorem fail (s : State) (code : Nat) : KeepsWindows w s (State.fail code s).2 := rfl

theorem trieWrite (s : State) (staged : Bool) (op : Nat) (v6 : Bool) (a : W64) (len : Nat) (hop : BitVec 20) :
    KeepsWindows w s (s.trieWrite w staged op v6 a len hop).2 := by
  unfold State.trieWrite
  dsimp only
  split
  · exact .ite2 (.fail s _) (.ite2 (.fail s _) (.setTables rfl))
  · exact .ite2 (.fail s _) (.ite2 (.setTables rfl) (.ite2 (.fail s _) (.setTables rfl)))

theorem trieCmd (s : State) (c : WinCmd) : KeepsWindows w s (s.trieCmd w c).2 := by
  have hone : ∀ (p : Option Prefix) (code : Nat),
      KeepsWindows w s (match p with
        | some p => (trieAns p, s)
        | none => State.fail code s).2 := by
    rintro (_ | _) _ <;> exact .refl w s
  unfold State.trieCmd
  exact .ite2 (.fail s _) (.ite2 (.fail s _) (.ite2 (hone _ _) (.ite2 (hone _ _) (.ite2 (hone _ _) (.ite2 (.fail s _) (.trieWrite s _ _ _ _ _ _))))))

theorem learnCmd (s : State) (c : WinCmd) : KeepsWindows w s (s.learnCmd w c).2 := by
  unfold State.learnCmd
  dsimp only
  refine .ite2 (.ite2 (.fail s _) (.ite2 ?_ ?_)) (.ite2 ?_ (.ite2 (.fail s _) ?_))
  · split
    · exact .ite2 (.refl w s) (.fail s _)
    · exact .fail s _
  · split
    · exact .refl w s
    · exact .fail s _
  · split
    · exact .refl w s
    · exact .fail s _
  · split
    · exact .fail s _
    · split
      · exact .setTables rfl
      · exact .fail s _
    · exact .setTables rfl
    all_goals
      split
      · exact .setTables rfl
      · exact .fail s _

theorem indexWrite (s : State) (staged : Bool) (op i : Nat) (b : Bytes) : KeepsWindows w s (s.indexWrite w staged op i b).2 :=
  .ite2 (.ite2 (.ite2 (.refl w s) (.setTables rfl)) (.ite2 (.refl w s) (.ite2 (.count s _ _) (.setTables rfl))))
    (.ite2 (.ite2 (.refl w s) (.setTables rfl)) (.ite2 (.refl w s) (.setTables rfl)))

theorem indexCmd (s : State) (c : WinCmd) : KeepsWindows w s (s.indexCmd w c).2 := by
  unfold State.indexCmd
  refine .ite2 (.fail s _) (.ite2 ?_ (.ite2 ?_ (.ite2 (.indexWrite s _ _ _ _) (.indexWrite s _ _ _ _))))
  all_goals
    split
    · exact .refl w s
    · exact .fail s _

theorem exactCmd (s : State) (slot : Nat) (cfg : W32) (c : WinCmd) : KeepsWindows w s (s.exactCmd w slot cfg c).2 := by
  unfold State.exactCmd
  dsimp only
  refine .ite2 (.fail s _) (.ite2 (.fail s _) (.ite2 ?_ (.ite2 (.fail s _) ?_)))
  · split
    · exact .refl w s
    · exact .fail s _
  · split
    · exact .fail s _
    · split
      · exact .setTables (putExact_windows _ _)
      · exact .fail s _
    · exact .setTables (putExact_windows _ _)
    all_goals
      split
      · exact .setTables (putExact_windows _ _)
      · exact .fail s _

theorem ternCmd (s : State) (cfg : W32) (base : Nat) (c : WinCmd) : KeepsWindows w s (s.ternCmd w cfg base c).2 := by
  unfold State.ternCmd
  dsimp only
  refine .ite2 (.fail s _) (.ite2 (.fail s _) (.ite2 ?_ (.ite2 ?_ (.ite2 ?_ (.ite2 (.fail s _) (.ite2 (.fail s _)
    (.setTables (putAct_windows _ _ _))))))))
  · split
    · exact .ite2 (.refl w s) (.fail s _)
    · exact .fail s _
  · split
    · exact .refl w s
    · exact .fail s _
  · split
    · exact .fail s _
    · exact .ite2 (.fail s _) (.ite2 (.setTables rfl) (.setTables rfl))

theorem runCmd (s : State) (n : Nat) (c : WinCmd) : KeepsWindows w s (s.runCmd w n c).2 := by
  unfold State.runCmd
  refine .ite2 (.fail s _) ?_
  split
  · exact .trieCmd s c
  · exact .learnCmd s c
  · exact .indexCmd s c
  · exact .ite2 (.exactCmd s _ _ _) (.ite2 (.ternCmd s _ _ _) (.fail s _))

theorem window (h : KeepsWindows w s t) (n : Nat) : t.window w n = s.window w n := by
  unfold KeepsWindows at h
  simp only [State.window, h]

end KeepsWindows

/-! ### The oldest command is answered -/

/-- The window without its oldest command, as the engine runs that command (R126). -/
def taken (s : State) (w : WytheIx) (n : Nat) (rest : List WinCmd) : State := s.updWindow w n (fun x => { x with fifo := rest })

theorem window_taken (s : State) (w : WytheIx) (n : Nat) (rest : List WinCmd) :
    (s.taken w n rest).window w n = { s.window w n with fifo := rest } := (window_updWindow s w n n _).trans (if_pos rfl)

theorem window_of_runCmd {n : Nat} {rest : List WinCmd} {c : WinCmd} {a : CmdAns} (hrun : (s.taken w n rest).runCmd w n c = (a, u)) :
    u.window w n = { s.window w n with fifo := rest } := by
  rw [← window_taken, ← (KeepsWindows.runCmd (s.taken w n rest) n c).window, hrun]

/-- A command that succeeds without an answer (R127). -/
def quietSuccess (c : WinCmd) (code : Nat) : Bool := c.quiet && code == stOk && (c.op == opWrite || c.op == opInsert || c.op == opDelete)

theorem completeCmd_answers {n : Nat} {c : WinCmd} {a : CmdAns} (h : quietSuccess c a.1 = false) :
    (s.completeCmd w n c a).window w n =
      { s.window w n with resps := (s.window w n).resps ++ [⟨c.op, c.tag, a.1, a.2.1, a.2.2⟩] } := by
  unfold quietSuccess at h
  simp [completeCmd, h, window_updWindow]

theorem completeCmd_quiet {n : Nat} {c : WinCmd} {a : CmdAns} (h : quietSuccess c a.1 = true) :
    (s.completeCmd w n c a).window w n = s.window w n := by
  unfold quietSuccess at h
  simp [completeCmd, h]

/-- The tables of wythe `w` but for their windows are the same in both states. -/
def SameEntries (w : WytheIx) (s t : State) : Prop := { t.tables w with windows := [] } = { s.tables w with windows := [] }

theorem SameEntries.index (h : SameEntries w s t) : (t.tables w).index = (s.tables w).index := (congrArg Tables.index h :)
theorem SameEntries.overlay (h : SameEntries w s t) : (t.tables w).overlay = (s.tables w).overlay := (congrArg Tables.overlay h :)

/-- An answer touches no entry of a table. -/
theorem completeCmd_entries (s : State) (w : WytheIx) (n : Nat) (c : WinCmd) (a : CmdAns) : SameEntries w s (s.completeCmd w n c a) :=
  congrArg Prod.fst (alike_completeCmd s w n c a w)

/-- The oldest command of a window has left it, answered by a response of its operation and tag, of which `p` holds. -/
def Answered (s t : State) (w : WytheIx) (n : Nat) (rest : List WinCmd) (c : WinCmd) (p : WinResp → Prop) : Prop :=
  (t.window w n).fifo = rest ∧ ∃ r, (t.window w n).resps = (s.window w n).resps ++ [r] ∧ r.op = c.op ∧ r.tag = c.tag ∧ p r

theorem Answered.imp {n : Nat} {rest : List WinCmd} {c : WinCmd} {p q : WinResp → Prop} (h : Answered s t w n rest c p) (hpq : ∀ r, p r → q r) :
    Answered s t w n rest c q := by
  obtain ⟨hfifo, r, hresps, hop, htag, hp⟩ := h
  exact ⟨hfifo, r, hresps, hop, htag, hpq r hp⟩

theorem completeCmd_answered {n : Nat} {rest : List WinCmd} {c : WinCmd} {a : CmdAns} (hwindow : u.window w n = { s.window w n with fifo := rest })
    (hloud : quietSuccess c a.1 = false) : Answered s (u.completeCmd w n c a) w n rest c (· = ⟨c.op, c.tag, a.1, a.2.1, a.2.2⟩) := by
  rw [Answered, completeCmd_answers hloud, hwindow]
  exact ⟨rfl, _, rfl, rfl, rfl, rfl⟩

section
variable {n : Fin 16} {c : WinCmd} {rest : List WinCmd} (hfifo : (s.window w n.val).fifo = c :: rest)
  (hheld : s.fifoHeld w n.val = false) (hon : s.enabled (enginePage w n.val) = true)
include hfifo hheld hon

/-- The engine runs the oldest command and completes it with what the run gives. -/
theorem commandExecution_good {a : CmdAns} (hrun : (s.taken w n.val rest).runCmd w n.val c = (a, u)) :
    exec (.commandExecution w n .good) s = .next (u.completeCmd w n.val c a) := by
  have htaken : (s.updWindow w n.val (fun x => { x with fifo := rest })).runCmd w n.val c = (a, u) := hrun
  refine congrArg Host.Outcome.next ?_
  simp only [execCmd, hheld, hon, popCmd, hfifo, htaken, Bool.not_true, Bool.or_self, Bool.false_eq_true, if_false, tableEcc_good,
    reduceCtorEq]

/-- A run that is not a quiet success is answered with its code and words, and the entries are as the run left them. -/
theorem commandExecution_answers {a : CmdAns} (hrun : (s.taken w n.val rest).runCmd w n.val c = (a, u)) (hloud : quietSuccess c a.1 = false) :
    Completes (.commandExecution w n .good) s (fun t => Answered s t w n.val rest c (· = ⟨c.op, c.tag, a.1, a.2.1, a.2.2⟩) ∧
      SameEntries w u t) :=
  ⟨_, commandExecution_good hfifo hheld hon hrun, completeCmd_answered (window_of_runCmd hrun) hloud, completeCmd_entries u w n.val c a⟩

/-- An uncorrectable error is answered for what it is (R138). -/
theorem commandExecution_uncorrectable :
    Completes (.commandExecution w n .uncorrectable) s (fun t => Answered s t w n.val rest c (fun r => r.code = 8)) := by
  have hexec : s.execCmd w n.val .uncorrectable =
      ((s.taken w n.val rest).tableEcc w n.val .uncorrectable).completeCmd w n.val c (stUncorrectable, [], []) := by
    simp only [execCmd, hheld, hon, popCmd, hfifo, Bool.not_true, Bool.or_self, Bool.false_eq_true, if_false, if_true]
    rfl
  have hwindow : ((s.taken w n.val rest).tableEcc w n.val .uncorrectable).window w n.val = { s.window w n.val with fifo := rest } := by
    rw [← window_taken]
    simp only [window, tables_tableEcc]
  refine ⟨_, congrArg Host.Outcome.next hexec, ?_⟩
  have hloud : quietSuccess c stUncorrectable = false := by simp [quietSuccess, stUncorrectable, stOk]
  exact (completeCmd_answered (a := (stUncorrectable, [], [])) hwindow hloud).imp fun r hr => hr ▸ rfl

/-- An operation that no command has is answered BAD_OP (R131). -/
theorem commandExecution_badOp (hop : c.op = 0 ∨ 6 < c.op) :
    Completes (.commandExecution w n .good) s (fun t => Answered s t w n.val rest c (fun r => r.code = 5)) := by
  obtain ⟨t, ht, hanswered, -⟩ := commandExecution_answers hfifo hheld hon (if_pos hop) (by simp [quietSuccess, stBadOp, stOk])
  exact ⟨t, ht, hanswered.imp fun r hr => hr ▸ rfl⟩

/-- A command that is not quiet is answered. -/
theorem commandExecution_loud (hloud : c.quiet = false) :
    Completes (.commandExecution w n .good) s (fun t => Answered s t w n.val rest c (fun _ => True)) := by
  obtain ⟨t, ht, hanswered, -⟩ := commandExecution_answers hfifo hheld hon rfl (by simp [quietSuccess, hloud])
  exact ⟨t, ht, hanswered.imp fun _ _ => trivial⟩

end

/-! ### Commands of the index table -/

theorem stages_taken (s : State) (w : WytheIx) (n : Nat) (rest : List WinCmd) (c : WinCmd) : (s.taken w n rest).stages w c = s.stages w c := by
  rcases wythe_cases w with rfl | rfl <;> rfl
theorem hostBorn_taken (s : State) (w : WytheIx) (n : Nat) (rest : List WinCmd) : (s.taken w n rest).hostBorn w = s.hostBorn w := by
  rcases wythe_cases w with rfl | rfl <;> rfl
theorem tables_taken (s : State) (w : WytheIx) (n : Nat) (rest : List WinCmd) :
    (s.taken w n rest).tables w = { s.tables w with windows := kupd {} (s.tables w).windows n (fun x => { x with fifo := rest }) } :=
  tables_setTables s w _

/-- The eight DATA words of a command as an entry's bytes (R121). -/
def entryBytes (c : WinCmd) : Bytes := wordBytes ((List.range 8).map (fun j => w32 (dw c j)))

/-- The tables with entry `i` of the index set, and with it cleared, for every view (R123). -/
def withEntry (i : Nat) (b : Bytes) (t : Tables) : Tables := { t with overlay := kdel t.overlay i, index := sins t.index i ⟨false, b⟩ }
def withoutEntry (i : Nat) (t : Tables) : Tables := { t with overlay := kdel t.overlay i, index := kdel t.index i }

theorem SameEntries.of_withEntry {n i : Nat} {rest : List WinCmd} {b : Bytes} (h : SameEntries w ((s.taken w n rest).setTables w (withEntry i b)) t) :
    sfind (t.tables w).index i = some ⟨false, b⟩ ∧ sfind (t.tables w).overlay i = none ∧
      ∀ j, j ≠ i → sfind (t.tables w).index j = sfind (s.tables w).index j := by
  rw [h.index, h.overlay, tables_setTables, tables_taken]
  exact ⟨sfind_sins_same _ i _, sfind_kdel_same _ i, fun j hj => sfind_sins_ne _ _ hj⟩

theorem SameEntries.of_withoutEntry {n i : Nat} {rest : List WinCmd} (h : SameEntries w ((s.taken w n rest).setTables w (withoutEntry i)) t) :
    sfind (t.tables w).index i = none ∧ sfind (t.tables w).overlay i = none ∧
      ∀ j, j ≠ i → sfind (t.tables w).index j = sfind (s.tables w).index j := by
  rw [h.index, h.overlay, tables_setTables, tables_taken]
  exact ⟨sfind_kdel_same _ i, sfind_kdel_same _ i, fun j hj => sfind_kdel_ne _ hj⟩

/-- The index holds `i`, as an entry of its own or in the overlay of a session. -/
def IndexHolds (t : Tables) (i : Nat) : Prop := (sfind t.overlay i).isSome = true ∨ (sfind t.index i).isSome = true

theorem IndexHolds.not_absent {t : Tables} {i : Nat} (h : IndexHolds t i) : (!(sfind t.overlay i).isSome && (sfind t.index i).isNone) = false := by
  rcases h with h | h
  · simp [h]
  · cases hi : sfind t.index i <;> simp_all

section
variable {op i : Nat} {b : Bytes}

theorem indexWrite_write (hop : op = 2) : s.indexWrite w false op i b = (stOk, s.setTables w (withEntry i b)) := hop ▸ rfl

theorem indexWrite_insert_held (hop : op = 3) (h : IndexHolds (s.tables w) i) : s.indexWrite w false op i b = (stExists, s) :=
  hop ▸ if_pos ⟨rfl, h⟩

theorem indexWrite_delete_held (hop : op = 4) (h : IndexHolds (s.tables w) i) :
    s.indexWrite w false op i b = (stOk, s.setTables w (withoutEntry i)) :=
  hop ▸ if_neg (Bool.eq_false_iff.mp h.not_absent)

end

section
variable {c : WinCmd} (hi : kw c 0 < 65536)
include hi

theorem runCmd_index_read {e : Bytes} (hop : c.op = 1) (hsee : indexSee (s.tables w) (s.hostBorn w) (kw c 0) = some e) :
    s.runCmd w 3 c = (indexAns (kw c 0) e, s) := by
  have hin : ¬ 0x10000 ≤ kw c 0 := by omega
  simp [runCmd, indexCmd, hop, hin, hsee, opNext, opRead]

theorem runCmd_index_write (hop : c.op = 2 ∨ c.op = 3 ∨ c.op = 4) {code : Nat}
    (hwrite : s.indexWrite w (s.stages w c) c.op (kw c 0) (entryBytes c) = (code, u)) :
    ∃ k d, s.runCmd w 3 c = ((code, k, d), u) := by
  have hin : ¬ 0x10000 ≤ kw c 0 := by omega
  have hrun : ¬ (c.op = 0 ∨ opNext < c.op) ∧ ¬ (c.op = opRead ∨ c.op = opSearch) ∧ ¬ c.op = opNext := by
    unfold opNext opRead opSearch
    omega
  obtain ⟨hdefined, hreads, hnext⟩ := hrun
  unfold entryBytes at hwrite
  simp only [runCmd, indexCmd, hdefined, hin, hreads, hnext, if_false, hwrite]
  split
  · next hok => exact ⟨_, _, by rw [hok]⟩
  · exact ⟨_, _, rfl⟩

end

section
variable {c : WinCmd} {rest : List WinCmd} (hfifo : (s.window w 3).fifo = c :: rest) (hheld : s.fifoHeld w 3 = false)
  (hon : s.enabled (enginePage w 3) = true) (hplain : s.stages w c = false) (hi : kw c 0 < 65536)
include hfifo hheld hon hi

/-- READ answers the entry that the host's view finds. -/
theorem commandExecution_indexRead {e : Bytes} (hop : c.op = 1) (hsee : indexSee (s.tables w) (s.hostBorn w) (kw c 0) = some e) :
    Completes (.commandExecution w 3 .good) s (fun t =>
      Answered s t w 3 rest c (fun r => r.code = 0 ∧ r.keys = [w32 (kw c 0)] ∧ r.datas = beWords e) ∧ (t.tables w).index = (s.tables w).index) := by
  have hsee' : indexSee ((s.taken w 3 rest).tables w) ((s.taken w 3 rest).hostBorn w) (kw c 0) = some e := by
    rw [hostBorn_taken, tables_taken]
    exact hsee
  obtain ⟨t, ht, hanswered, hsame⟩ := commandExecution_answers (n := 3) hfifo hheld hon (runCmd_index_read hi hop hsee')
    (by simp [quietSuccess, hop, opWrite, opInsert, opDelete])
  exact ⟨t, ht, hanswered.imp fun r hr => hr ▸ ⟨rfl, rfl, rfl⟩, hsame.index.trans (by rw [tables_taken])⟩

include hplain

omit hfifo hheld hon in
/-- How the engine runs a WRITE, INSERT or DELETE that is no staged write (R123). -/
theorem runCmd_taken_plain (hop : c.op = 2 ∨ c.op = 3 ∨ c.op = 4) {code : Nat}
    (hwrite : (s.taken w 3 rest).indexWrite w false c.op (kw c 0) (entryBytes c) = (code, u)) :
    ∃ k d, (s.taken w 3 rest).runCmd w 3 c = ((code, k, d), u) :=
  runCmd_index_write hi hop (by rw [stages_taken, hplain]; exact hwrite)

/-- WRITE sets its entry, and leaves no response where it is quiet. -/
theorem commandExecution_indexWrite (hop : c.op = 2) :
    Completes (.commandExecution w 3 .good) s (fun t => sfind (t.tables w).index (kw c 0) = some ⟨false, entryBytes c⟩ ∧
      sfind (t.tables w).overlay (kw c 0) = none ∧ (∀ j, j ≠ kw c 0 → sfind (t.tables w).index j = sfind (s.tables w).index j) ∧
      (c.quiet = true → (t.window w 3).resps = (s.window w 3).resps)) := by
  obtain ⟨k, d, hrun⟩ := runCmd_taken_plain (rest := rest) hplain hi (.inl hop) (indexWrite_write hop)
  obtain ⟨hset, hoverlay, hothers⟩ := (completeCmd_entries _ w 3 c (stOk, k, d)).of_withEntry (s := s)
  refine ⟨_, commandExecution_good (n := 3) hfifo hheld hon hrun, hset, hoverlay, hothers, fun hquiet => ?_⟩
  have hsilent : quietSuccess c stOk = true := by simp [quietSuccess, hop, hquiet, opWrite]
  have hwindow := (completeCmd_quiet (a := (stOk, k, d)) hsilent).trans (window_of_runCmd hrun)
  exact (congrArg Window.resps hwindow :)

/-- INSERT refuses an entry that exists. -/
theorem commandExecution_indexInsert (hop : c.op = 3) (hheldi : IndexHolds (s.tables w) (kw c 0)) :
    Completes (.commandExecution w 3 .good) s (fun t => Answered s t w 3 rest c (fun r => r.code = 2) ∧
      (t.tables w).index = (s.tables w).index) := by
  have hholds : IndexHolds ((s.taken w 3 rest).tables w) (kw c 0) := by
    rw [tables_taken]
    exact hheldi
  obtain ⟨k, d, hrun⟩ := runCmd_taken_plain hplain hi (.inr (.inl hop)) (indexWrite_insert_held hop hholds)
  obtain ⟨t, ht, hanswered, hsame⟩ := commandExecution_answers (n := 3) hfifo hheld hon hrun (by simp [quietSuccess, stExists, stOk])
  exact ⟨t, ht, hanswered.imp fun r hr => hr ▸ rfl, hsame.index.trans (by rw [tables_taken])⟩

/-- DELETE clears its entry. -/
theorem commandExecution_indexDelete (hop : c.op = 4) (hheldi : IndexHolds (s.tables w) (kw c 0)) :
    Completes (.commandExecution w 3 .good) s (fun t => sfind (t.tables w).index (kw c 0) = none ∧
      sfind (t.tables w).overlay (kw c 0) = none ∧ ∀ j, j ≠ kw c 0 → sfind (t.tables w).index j = sfind (s.tables w).index j) := by
  have hholds : IndexHolds ((s.taken w 3 rest).tables w) (kw c 0) := by
    rw [tables_taken]
    exact hheldi
  obtain ⟨k, d, hrun⟩ := runCmd_taken_plain hplain hi (.inr (.inr hop)) (indexWrite_delete_held hop hholds)
  exact ⟨_, commandExecution_good (n := 3) hfifo hheld hon hrun, (completeCmd_entries _ w 3 c (stOk, k, d)).of_withoutEntry⟩

end

end Sys2Proof.Machine.State

namespace Sys2Proof.Machine
open State

/-- Settles O23: a window accepts or rejects (`acceptCmd_joins`, `acceptCmd_rejects`), and the engine answers the oldest command. -/
theorem tableCommands : Obligations.TableCommands := by
  unfold Obligations.TableCommands
  refine ⟨fun s w tb tag quiet hr hok => ?_, fun s w tb c rest hfifo hheld hon => ?_⟩
  · exact ⟨fun hroom => completes_six (P := fun op t => Joined s t w tb.val op tag quiet) hr fun op => acceptCmd_joins op tag quiet hok hroom,
      fun hfull => completes_six (P := fun _ t => Rejected s t w tb.val) hr fun op => acceptCmd_rejects op tag quiet hok hfull,
      fun _ _ hresps => respNext_drops hr hok hresps⟩
  · refine ⟨commandExecution_loud hfifo hheld hon, commandExecution_uncorrectable hfifo hheld hon, commandExecution_badOp hfifo hheld hon,
      fun htb hplain hi => ?_⟩
    subst htb
    exact ⟨commandExecution_indexWrite hfifo hheld hon hplain hi, commandExecution_indexInsert hfifo hheld hon hplain hi,
      commandExecution_indexDelete hfifo hheld hon hplain hi, fun hop _ hsee => commandExecution_indexRead hfifo hheld hon hi hop hsee⟩

end Sys2Proof.Machine

end

/-!
# Table lookups of a core

A TLOOK that is ready reads its key block in the state its issue leaves and is outstanding (`tlook_done`); its result changes
the tables and, of the contexts, the one that asked (`lookArrives_eq`).
-/

section

namespace Sys2Proof.Machine.State

variable {s t u : State} {x : CtxId}

/-! ### An instruction that completes -/

/-- A ready long instruction that completes in `u` advances its context; all else is as in `u`, but for what no program sees. -/
theorem issue_advances {i : Issue} {reads addrs : List Reg} {f : State → Effect} {g : Ctx → Ctx} (hready : s.Ready i reads 4 none addrs)
    (hf : f (s.fetched i) = .done u) (hctx : u.ctx i.id = g (s.settled i)) (hstate : (g (s.settled i)).state = (s.settled i).state) :
    Advanced s (s.issue i true reads f none addrs) i 4 g ∧ Quiet u (s.issue i true reads f none addrs) i.id := by
  rw [issue_done s (long := true) hready hf]
  refine ⟨?_, (quiet_updCtx _ _ _).trans (quiet_stepEnds _ _)⟩
  have hrunning : u.ctx i.id = g (s.settled i) ∧ (g (s.settled i)).state = .running :=
    ⟨hctx, by rw [hstate, settled_state, mayIssue_running hready.1]⟩
  unfold Advanced
  rw [stepEnds_ctx]
  · simp [hctx]
  · simp [hrunning]

/-- The same where `u` differs from the state before in that context's registers alone. -/
theorem issue_changesRegs {i : Issue} {reads addrs : List Reg} {f : State → Effect} {g : Ctx → Ctx} (hready : s.Ready i reads 4 none addrs)
    (hf : f (s.fetched i) = .done u) (hctx : u.ctx i.id = g (s.settled i)) (hstate : (g (s.settled i)).state = (s.settled i).state)
    (helse : Elsewhere (s.fetched i) u i.id) : RegsOnly s (s.issue i true reads f none addrs) i 4 g :=
  have ⟨hadvanced, hquiet⟩ := issue_advances hready hf hctx hstate
  ⟨hadvanced, ((quiet_fetched s i none).elsewhere.trans helse).trans hquiet.elsewhere⟩

/-! ### What the notes of an access leave -/

theorem quiet_bankRefused (s : State) (x : CtxId) (w : WytheIx) (c : Nat) (v : BankView) : Quiet s (s.bankRefused w c v) x := by
  cases v with
  | on => exact .refl s x
  | retained => exact (quiet_count s x _ _).trans (quiet_raiseBit _ x _ _)
  | off => exact (quiet_count s x _ _).trans (quiet_raiseBit _ x _ _)

theorem quiet_accessNotes (s : State) (y x : CtxId) (a size : Nat) : Quiet s (s.accessNotes x a size) y := by
  unfold accessNotes
  dsimp only
  split
  · exact .refl s y
  · split
    · exact (quiet_bankRefused s y _ _ _).trans (quiet_recordFault _ y _ _ _)
    · exact quiet_bankRefused s y _ _ _

/-- An access that raises no fault, and whose check bits are good, leaves its notes. -/
theorem accessCheck_good {a size : Nat} (h : s.accessFault x a size = none) : s.accessCheck x a size .good = (none, s.accessNotes x a size) := by
  simp only [accessCheck, h, accessEcc]
  split <;> rfl

/-! ### A TLOOK is outstanding -/

/-- The lookup of a TLOOK: the key block at `a` as its words, by table (R132). -/
def lookAsked (s : State) (x : CtxId) (d : Fin 16) (tag : Fin 4) (tb : LookTable) (learn refresh : Bool) (a : Nat) : PendingLook :=
  let b := (s.seenBy x).memBytes x a (keyLen tb)
  { tag := tag, dest := d, table := tb, key := BitVec.ofNat 64 (if tb = .trie4 then beAt b 0 4 * 2 ^ 32 else if tb = .index then beAt b 0 2 else beAt b 0 8)
    data := w32 (beAt b 8 4), flags := BitVec.ofNat 8 (beAt b 12 1), port := learnPort (BitVec.ofNat 8 (beAt b 13 1)), learn := learn, refresh := refresh
    forme := s.lookForme x, issued := s.cycleOf x }

/-- A block that raises no fault has no word that does. -/
theorem keyFault_none {a n j : Nat} (h : s.keyFault x a n = none) (hj : j < n / 2) : s.accessFault x ((a + 2 * j) % 0x1000000) 2 = none := by
  unfold keyFault at h
  split at h
  · cases h
  · split at h
    · cases h
    · rw [blockFault, List.findSome?_eq_none_iff] at h
      exact h _ (List.mem_map.mpr ⟨j, List.mem_range.mpr hj, rfl⟩)

theorem keyLen_pos (tb : LookTable) : 0 < keyLen tb / 2 := by cases tb <;> decide

/-- The place that a search gives, or else 0, is one of the list's where that is not empty. -/
theorem find?_range_getD_lt {n : Nat} (hn : 0 < n) (p : Nat → Bool) : ((List.range n).find? p).getD 0 < n := by
  cases h : (List.range n).find? p with
  | none => exact hn
  | some j => exact List.mem_range.mp (List.mem_of_find?_eq_some h)

theorem tlook_done {d : Fin 16} {tag : Fin 4} {tb : LookTable} {learn refresh : Bool} {n : Fin 8} (heven : evenReg d = true)
    (hopts : learn = true ∨ refresh = true → tb = .learn) (htag : ∀ l ∈ (s.ctx x).looks, l.tag ≠ tag)
    (hawaits : areaAwaited (s.ctx x) (s.ctx x).a[n.val].toNat (keyLen tb) = false)
    (hfault : s.keyFault x (s.ctx x).a[n.val].toNat (keyLen tb) = none) :
    ∃ p, s.tlook x .good d tag tb learn refresh n = .done (((s.accessNotes x p 2).updCtx x (fun c =>
      { c with looks := c.looks ++ [s.lookAsked x d tag tb learn refresh (s.ctx x).a[n.val].toNat] })).pmc x.w x.core.ix 0x09 (some x.x) 1) := by
  have hlegal : (!evenReg d || ((learn || refresh) && tb != .learn)) = false := by
    cases htb : (learn || refresh)
    · simp [heven]
    · simp [heven, hopts (by simpa using htb)]
  have hfree : ((s.ctx x).looks.any (fun l => l.tag == tag) || areaAwaited (s.ctx x) (s.ctx x).a[n.val].toNat (keyLen tb)) = false := by
    simpa [hawaits] using htag
  refine ⟨((s.ctx x).a[n.val].toNat + 2 * ((List.range (keyLen tb / 2)).find? (fun i =>
    s.areaView x (areaOf x (s.ctx x).sr (((s.ctx x).a[n.val].toNat + 2 * i) % 0x1000000)) != .on)).getD 0) % 0x1000000, ?_⟩
  have hcheck := accessCheck_good (keyFault_none hfault (find?_range_getD_lt (keyLen_pos tb) (fun i =>
    s.areaView x (areaOf x (s.ctx x).sr (((s.ctx x).a[n.val].toNat + 2 * i) % 0x1000000)) != .on)))
  simp only [tlook, hlegal, hfree, hfault, hcheck, Bool.false_eq_true, if_false]
  rfl

/-! ### What the lookup is in the state before the issue -/

theorem keyFault_fetched (s : State) (i : Issue) (a n : Nat) : (s.fetched i).keyFault i.id a n = s.keyFault i.id a n := by
  simp only [keyFault, blockFault, areaOf_fetched, accessFault_fetched]

theorem lookForme_fetched (s : State) (i : Issue) : (s.fetched i).lookForme i.id = (s.ripe i).lookForme i.id := by
  have hctx : (s.fetched i).ctx i.id = (s.ripe i).ctx i.id := by simp [ripe]
  have hforme : (s.fetched i).formeNo i.id.w = (s.ripe i).formeNo i.id.w := by
    have hripe : Quiet (s.ripe i) (s.fetched i) i.id := (quiet_updCtx s i.id _).symm.trans (quiet_fetched s i none)
    exact (congrArg Wythe.forme (hripe.wy i.id.w) :)
  simp only [lookForme, hctx, hforme]

theorem cycleOf_fetched (s : State) (i : Issue) : (s.fetched i).cycleOf i.id = s.issueCycle i := congrArg (·.2.1) (kept_fetched s i none)

/-- One byte of a byte string, as a number (R178). -/
theorem beAt_one (b : Bytes) (k : Nat) : BitVec.ofNat 8 (beAt b k 1) = b.getD k 0 := by
  cases h : b.drop k with
  | nil =>
    have hk : b[k]? = none := by simpa using h
    simp [beAt, slice, be, h, hk]
  | cons v r =>
    have hk : b[k]? = some v := by rw [← List.head?_drop, h]; rfl
    simp [beAt, slice, be, h, hk]

theorem learnPort_eq (p : Byte) : learnPort p = if p.toNat < 25 then p else 0xFF := by
  by_cases hp : p.toNat < 25
  · simp [learnPort, hp]
  · simp [learnPort, hp]

/-- A ready TLOOK is outstanding, with the key block as memory shows it (R132, R133, R217). -/
theorem tlook_outstanding {i : Issue} {d : Fin 16} {tag : Fin 4} {tb : LookTable} {learn refresh : Bool} {n : Fin 8}
    (hready : s.Ready i [.a n] 4 none [.a n]) (hecc : i.dataEcc = .good) (heven : evenReg d = true)
    (hopts : learn = true ∨ refresh = true → tb = .learn) (htag : ∀ l ∈ (s.ctx i.id).looks, l.tag ≠ tag)
    (hawaits : areaAwaited (s.ctx i.id) (s.ctx i.id).a[n.val].toNat (keyLen tb) = false)
    (hfault : s.keyFault i.id (s.ctx i.id).a[n.val].toNat (keyLen tb) = none) :
    Completes (.tlook i d tag tb learn refresh n) s (fun t => RegsOnly s t i 4 (fun c =>
      { c with looks := c.looks ++ [(s.fetched i).lookAsked i.id d tag tb learn refresh (s.ctx i.id).a[n.val].toNat] })) := by
  have ha : ((s.fetched i).ctx i.id).a[n.val] = (s.ctx i.id).a[n.val] := by simp
  obtain ⟨p, hdone⟩ := tlook_done (s := s.fetched i) (x := i.id) (learn := learn) (refresh := refresh) (n := n) heven hopts (tag := tag)
    (by simpa using htag) (by simpa [areaAwaited] using hawaits) (by rw [ha, keyFault_fetched]; exact hfault)
  rw [ha, ← hecc] at hdone
  have hnotes : ((s.fetched i).accessNotes i.id p 2).ctx i.id = s.settled i := by
    rw [Quiet.ctx_all (fun y => quiet_accessNotes _ y i.id p 2), fetched_ctx]
  refine ⟨_, rfl, issue_changesRegs hready hdone ?_ rfl ?_⟩
  · simp [hnotes]
  · exact (((quiet_accessNotes _ i.id i.id p 2).trans (quiet_updCtx _ i.id _)).trans (quiet_pmc _ i.id _ _ _ _ _)).elsewhere

/-- The lookup that a TLOOK leaves outstanding, from the key block as the state of its issue shows it (R132, R133). -/
def lookKeyed (p : PendingLook) (tb : LookTable) (key : Bytes) : Prop :=
  (tb = .index → p.key = BitVec.ofNat 64 (beAt key 0 2)) ∧ (tb = .trie4 → p.key = BitVec.ofNat 64 (beAt key 0 4 * 2 ^ 32)) ∧
  (tb = .trie6 → p.key = BitVec.ofNat 64 (beAt key 0 8)) ∧
  (tb = .learn → p.key = BitVec.ofNat 64 (beAt key 0 8) ∧ p.data = w32 (beAt key 8 4) ∧ p.flags = key.getD 12 0 ∧
    p.port = if (key.getD 13 0).toNat < 25 then key.getD 13 0 else 0xFF)

theorem lookAsked_keyed (s : State) (x : CtxId) (d : Fin 16) (tag : Fin 4) (tb : LookTable) (learn refresh : Bool) (a : Nat) :
    lookKeyed (s.lookAsked x d tag tb learn refresh a) tb ((s.seenBy x).memBytes x a (keyLen tb)) := by
  refine ⟨?_, ?_, ?_, ?_⟩
  · rintro rfl; rfl
  · rintro rfl; rfl
  · rintro rfl; rfl
  · rintro rfl
    exact ⟨rfl, rfl, beAt_one _ _, (learnPort_eq _).trans (by rw [beAt_one])⟩

/-! ### What a lookup leaves of the contexts -/

namespace InTables
variable {s₀ : State} {w : WytheIx}

theorem trieLook (h : InTables w s₀ s) {v6 a n ecc} : InTables w s₀ (s.trieLook w v6 a n ecc).2 := by
  unfold State.trieLook
  refine .ite2 h.count.tableEcc.count ?_
  dsimp only
  split
  · exact h.count.tableEcc.count
  · exact .ite2 h.count.tableEcc.count h.count.tableEcc.count

theorem learnRequest (h : InTables w s₀ s) {r err} : InTables w s₀ (s.learnRequest w r err).2 :=
  .ite2 h.count (.ite2 h.count (.ite2 h.count h.setTables))

theorem learnLook (h : InTables w s₀ s) {r learn refresh ecc} : InTables w s₀ (s.learnLook w r learn refresh ecc).2.2 := by
  unfold State.learnLook
  dsimp only
  split
  · split
    · exact h.count.tableEcc.learnRequest
    · exact h.count.tableEcc
  · split
    · exact h.count.tableEcc.learnRequest
    · exact h.count.tableEcc
  · exact .onlyIf h.count.tableEcc.setTables.count fun _ h => h.count

theorem indexLook (h : InTables w s₀ s) {i bornView ecc} : InTables w s₀ (s.indexLook w i bornView ecc).2 := by
  unfold State.indexLook
  dsimp only
  split
  · exact h.count.tableEcc
  · exact h.count.tableEcc.count
  · exact h.count.tableEcc

theorem lookWord (h : InTables x.w s₀ s) {p ecc} : InTables x.w s₀ (s.lookWord x p ecc).2.2 := by
  unfold State.lookWord
  split
  · exact h.trieLook
  · exact h.trieLook
  · exact h.learnLook
  · exact h.indexLook

theorem ctx (h : InTables w s t) (y : CtxId) : t.ctx y = s.ctx y := by
  by_cases hy : y.w = w
  · subst hy
    have hctxs : (t.wy y.w).ctxs = (s.wy y.w).ctxs := congrArg (·.ctxs) h.wy_same
    simp only [State.ctx, hctxs]
  · simp only [State.ctx, h.wy_other hy]

end InTables

theorem quiet_resultAt (s : State) (y x : CtxId) (rs : List Reg) (addr : Bool) (n : Nat) : Quiet s (s.resultAt x rs addr n) y :=
  quiet_updCore s y _ _ _ fun _ => rfl

theorem quiet_lookLate (s : State) (y x : CtxId) (tb : LookTable) : Quiet s (s.lookLate x tb) y := by
  unfold lookLate
  exact ((quiet_count s y _ _).trans (quiet_raiseBit _ y _ _)).trans (quiet_pmc _ y _ _ _ _ _)

theorem quiet_stopIfDone (s : State) (x : CtxId) : Quiet s (s.stopIfDone x) x := by
  unfold stopIfDone
  dsimp only
  split
  · exact (quiet_updCtx s x _).trans (quiet_setCtxState _ x _)
  · exact .refl s x

/-! ### The result is written -/

/-- What a result changes of a context beside the pair and the lookups: its result areas, and what a stop would. -/
def resultView (c : Ctx) := (c.d, c.a, c.sr, c.pcx, c.looks)
/-- What only a stop changes. -/
def liveView (c : Ctx) := (resultView c, c.x, c.state, c.stopDue)

theorem liveView_setWindowByte (c : Ctx) {o : Nat} (v : Byte) (ho : 0xC0 ≤ o) : liveView (setWindowByte c o v) = liveView c := by
  simp [setWindowByte, Nat.not_lt.mpr ho, liveView, resultView]

/-- The entry of a result, written to the result area of its tag (R134). -/
def areaFilled (tag : Fin 4) (b : Option Bytes) (c : Ctx) : Ctx :=
  match b with
  | some e => (padTo 32 e).zipIdx.foldl (fun c e => setWindowByte c (0xC0 + 0x20 * tag.val + e.2) e.1) c
  | none => c

theorem liveView_areaFilled (tag : Fin 4) (b : Option Bytes) (c : Ctx) : liveView (areaFilled tag b c) = liveView c := by
  have hfold : ∀ (l : List (Byte × Nat)) (c : Ctx),
      liveView (l.foldl (fun c e => setWindowByte c (0xC0 + 0x20 * tag.val + e.2) e.1) c) = liveView c := by
    intro l
    induction l with
    | nil => exact fun c => rfl
    | cons e l ih => exact fun c => (ih _).trans (liveView_setWindowByte c _ (by omega))
  cases b with
  | none => rfl
  | some e => exact hfold _ c

theorem resultView_landAll (c : Ctx) : resultView (landAll c) = resultView c := by
  obtain ⟨hpcx, -, -, ha, hd, hsr⟩ := landFold_keeps c.products { c with products := [] }
  have hlooks := (landFold_holds c.products { c with products := [] }).1
  unfold landAll resultView
  dsimp only
  split <;> simp_all

/-- A context that a result has reached keeps it, whether or not it then stops. -/
theorem resultView_stopIfDone (s : State) (x : CtxId) : resultView ((s.stopIfDone x).ctx x) = resultView (s.ctx x) := by
  unfold stopIfDone
  dsimp only
  split
  · rw [setCtxState_ctx, ctx_updCtx_same]
    exact resultView_landAll (s.ctx x)
  · rfl

theorem stopIfDone_live (h : (s.ctx x).stopDue = false) : s.stopIfDone x = s := by
  simp [stopIfDone, h]

/-- The context as the result of `p` leaves it, but for a stop. -/
def answeredCtx (s : State) (x : CtxId) (p : PendingLook) (ecc : EccReport) : Ctx :=
  areaFilled p.tag (s.lookWord x p ecc).2.1 { (s.ctx x).setPair p.dest (s.lookWord x p ecc).1 with looks := (s.ctx x).looks.erase p }

/-- A result that comes, on a plumb course not before its deadline, is written; then the context may stop. -/
theorem lookArrives_eq {p : PendingLook} {ecc : EccReport} {after : Nat} (hfind : (s.ctx x).looks.find? (fun l => l.tag == p.tag) = some p)
    (hdue : s.plumbAt x.w x.core.ix p.issued = true → p.issued + lookDeadline p.table ≤ s.cycleOf x + after) :
    ∃ u : State, s.lookArrives x p.tag ecc after = u.stopIfDone x ∧ u.ctx x = s.answeredCtx x p ecc ∧ ∀ y, y ≠ x → u.ctx y = s.ctx y := by
  have hnotEarly : (s.plumbAt x.w x.core.ix p.issued && decide (s.cycleOf x + after < p.issued + lookDeadline p.table)) = false := by
    cases hplumb : s.plumbAt x.w x.core.ix p.issued
    · rfl
    · simpa using hdue hplumb
  have hlooked : ∀ y, (s.lookWord x p ecc).2.2.ctx y = s.ctx y := (InTables.lookWord (.refl s _)).ctx
  refine ⟨_, by simp only [lookArrives, hfind, hnotEarly, Bool.false_eq_true, if_false]; rfl, ?_, fun y hy => ?_⟩
  · rw [onlyIf_ctx _ _ _ _ fun s => Quiet.ctx_all (fun z => quiet_lookLate s z x _) x, Quiet.ctx_all (fun z => quiet_resultAt _ z x _ _ _),
      ctx_updCtx_same, hlooked]
    rfl
  · rw [onlyIf_ctx _ _ _ _ fun s => Quiet.ctx_all (fun z => quiet_lookLate s z x _) y, Quiet.ctx_all (fun z => quiet_resultAt _ z x _ _ _),
      ctx_updCtx_ne _ _ hy, hlooked]

/-- The pair that is written to an even register is what is read there (R178). -/
theorem pair_setPair {c c' : Ctx} {n : Fin 16} {v : W32} (heven : evenReg n = true) (hd : c'.d = (c.setPair n v).d) : c'.pair n = v := by
  have hn : n.val % 2 = 0 := by simpa [evenReg] using heven
  have hlt : n.val + 1 < 16 := by omega
  simp only [Ctx.pair, hd, Ctx.setPair, hlt, dite_true, Ctx.setD]
  rw [Vector.getElem_set_self, Vector.getElem_set_ne _ _ (Nat.succ_ne_self _), Vector.getElem_set_self]
  rw [BitVec.extractLsb'_append_extractLsb'_eq_extractLsb' (by omega)]
  exact BitVec.extractLsb'_eq_self

/-- A pair is two D registers: no other field of the context changes. -/
theorem setPair_eq (c : Ctx) (n : Fin 16) (v : W32) : ∃ d, c.setPair n v = { c with d := d } := by
  unfold Ctx.setPair
  dsimp only
  split
  · exact ⟨_, rfl⟩
  · exact ⟨_, rfl⟩

/-- Beside the pair and the lookups, the result keeps what a program sees of the context. -/
theorem liveView_answeredCtx (s : State) (x : CtxId) (p : PendingLook) (ecc : EccReport) : liveView (s.answeredCtx x p ecc) =
    liveView { s.ctx x with d := ((s.ctx x).setPair p.dest (s.lookWord x p ecc).1).d, looks := (s.ctx x).looks.erase p } := by
  obtain ⟨d, hpair⟩ := setPair_eq (s.ctx x) p.dest (s.lookWord x p ecc).1
  rw [answeredCtx, liveView_areaFilled, hpair]

/-- What the result of a lookup leaves (R117, R134, R136). -/
theorem tlookResult_written {p : PendingLook} {ecc : EccReport} {after : Nat} (hfind : (s.ctx x).looks.find? (fun l => l.tag == p.tag) = some p)
    (heven : evenReg p.dest = true) (hdue : s.plumbAt x.w x.core.ix p.issued = true → p.issued + lookDeadline p.table ≤ s.cycleOf x + after) :
    Completes (.tlookResult x p.tag ecc after) s (fun t => (t.ctx x).pair p.dest = (s.lookWord x p ecc).1 ∧
      (t.ctx x).looks = (s.ctx x).looks.erase p ∧ (t.ctx x).a = (s.ctx x).a ∧ (t.ctx x).sr = (s.ctx x).sr ∧ (t.ctx x).pcx = (s.ctx x).pcx ∧
      ((s.ctx x).stopDue = false → (t.ctx x).x = (s.ctx x).x ∧ (t.ctx x).state = (s.ctx x).state) ∧ ∀ y, y ≠ x → t.ctx y = s.ctx y) := by
  obtain ⟨u, harrives, hctx, hothers⟩ := lookArrives_eq (ecc := ecc) hfind hdue
  refine ⟨_, congrArg Host.Outcome.next harrives, ?_⟩
  have hlive : liveView (u.ctx x) = _ := (congrArg liveView hctx).trans (liveView_answeredCtx s x p ecc)
  simp only [liveView, Prod.mk.injEq] at hlive
  obtain ⟨hresult, hx, hstate, hstop⟩ := hlive
  have hstopped := (resultView_stopIfDone u x).trans hresult
  simp only [resultView, Prod.mk.injEq] at hstopped
  obtain ⟨hd, ha, hsr, hpcx, hlooks⟩ := hstopped
  refine ⟨pair_setPair heven hd, hlooks, ha, hsr, hpcx, fun hlive => ?_, fun y hy => ?_⟩
  · rw [stopIfDone_live (hstop.trans hlive)]
    exact ⟨hx, hstate⟩
  · rw [(quiet_stopIfDone u x).ctx y hy, hothers y hy]

end Sys2Proof.Machine.State

end

/-!
# Coprocessor commands of a core

The issue of an instruction leaves every page enabled or not as it was (`fetched_enabled`), and the course's places, units and
banks (`Quiet`). Bytes that are stored where the banks are on are read there (`bankByte_setBankBytes`).
-/

section

namespace Sys2Proof.Machine.State

variable {s t u : State} {x : CtxId}

/-! ### The pages that an issue leaves enabled -/

section
variable {q : Nat}

theorem each_enabled {α : Type} {f : State → α → State} (hf : ∀ s e, (f s e).enabled q = s.enabled q) (l : List α) (s : State) :
    (s.each l f).enabled q = s.enabled q :=
  each_induct (fun t => t.enabled q = s.enabled q) f (fun t e ht => (hf t e).trans ht) l s rfl

theorem onlyIf_enabled {f : State → State} (hf : ∀ s, (f s).enabled q = s.enabled q) (b : Bool) (s : State) :
    (s.onlyIf b f).enabled q = s.enabled q := by
  unfold onlyIf
  split
  · exact hf s
  · rfl

theorem wr_enabled {a : Nat} (v : W32) (ha : q + 8 ≠ a) (s : State) : (s.wr a v).enabled q = s.enabled q := by
  simp only [enabled, rd_wr_ne _ _ ha]

theorem raiseBit_enabled {page : Nat} (i : Nat) (hq : q % 0x1000 = 0) (hp : page % 0x1000 = 0) (s : State) :
    (s.raiseBit page i).enabled q = s.enabled q := by
  have hne : q + 8 ≠ page + 0x10 := by omega
  simp only [enabled, raiseBit, raise_rd_ne _ _ _ hne]

variable (hq : q % 0x1000 = 0)
include hq

theorem pmcOne_enabled (s : State) (w : WytheIx) (i n : Nat) (c : Option CtxIx) (k : Nat) : (s.pmcOne w i n c k).enabled q = s.enabled q := by
  have hpage : pgPerf w i % 0x1000 = 0 := by unfold pgPerf wyBase; omega
  unfold pmcOne
  extract_lets a s1 s2 left
  have h2 : s2.enabled q = s.enabled q := by
    unfold s2
    split
    · rw [raiseBit_enabled _ hq hpage, count_enabled]
    · exact count_enabled s _ _ _
  split
  · exact h2
  · split
    · rw [updCore_enabled, h2]
    · rw [updCore_enabled, h2]

theorem pmc_enabled (s : State) (w : WytheIx) (i code : Nat) (c : Option CtxIx) (k : Nat) : (s.pmc w i code c k).enabled q = s.enabled q :=
  each_enabled (fun s n => onlyIf_enabled (f := fun s => s.pmcOne w i n c k) (fun s => pmcOne_enabled hq s w i n c k) _ s) _ s

theorem nameSample_enabled (s : State) (w : WytheIx) (i : Nat) (d : SampleDue) (n : CtxIx) (pc : W24) (task : Option TcbIx) (next : Bool) :
    (s.nameSample w i d n pc task next).enabled q = s.enabled q := by
  have hpage : pgPerf w i % 0x1000 = 0 := by unfold pgPerf wyBase; omega
  unfold nameSample
  extract_lets s1 w0 w2 first s2
  have h1 : s1.enabled q = s.enabled q := updCore_enabled s _ _ _ _
  have h2 : s2.enabled q = s.enabled q := ((count_enabled _ _ _ _).trans (updCore_enabled _ _ _ _ _)).trans h1
  split
  · rw [count_enabled, h1]
  · split
    · rw [raiseBit_enabled _ hq hpage, h2]
    · exact h2

theorem nameSamples_enabled (s : State) (w : WytheIx) (i : Nat) (n : CtxIx) (c : Ctx) (own : Bool) :
    (s.nameSamples w i n c own).enabled q = s.enabled q := by
  unfold nameSamples
  extract_lets s1
  have h1 : s1.enabled q = s.enabled q := by
    unfold s1
    split
    · exact updCore_enabled s _ _ _ _
    · rfl
  exact (each_enabled (fun s _ => each_enabled (fun s d => nameSample_enabled hq s w i d n _ _ _) _ s) _ s1).trans h1

theorem countIssue_enabled (s : State) (i : Issue) (half : Option Half) : (s.countIssue i half).enabled q = s.enabled q := by
  have htake : ∀ x t gap, (s.takeCycle x t gap).enabled q = s.enabled q := fun x t gap => by
    rw [takeCycle, pmc_enabled hq, onlyIf_enabled fun s => (pmc_enabled hq _ _ _ _ _ _).trans (count_enabled _ _ _ _)]
    exact (updCore_enabled _ _ _ _ _).trans (updCore_enabled _ _ _ _ _)
  unfold countIssue
  split
  · simp only [countPair, pmc_enabled hq, count_enabled, updCore_enabled, nameSamples_enabled hq]
  · simp only [countAlone, pmc_enabled hq, count_enabled, updCore_enabled, nameSamples_enabled hq, htake]

theorem fetchCheck_enabled (s : State) (i : Issue) (pc : Nat) : (s.fetchCheck i pc).enabled q = s.enabled q := by
  have hpage : pgBanks i.id.w i.id.c.val % 0x1000 = 0 := by unfold pgBanks wyBase; omega
  unfold fetchCheck
  split
  · rfl
  · split
    · rfl
    · exact count_enabled s _ _ _
    · rw [bankUncorrectable, raiseBit_enabled _ hq hpage, wr_enabled _ (by omega), count_enabled]

theorem cacheLine_enabled (s : State) (x : CtxId) (pc : Nat) : (s.cacheLine x pc).enabled q = s.enabled q := by
  unfold cacheLine
  extract_lets i l k set keep
  split
  · rfl
  · rw [pmc_enabled hq, updCore_enabled]

theorem fetched_enabled (s : State) (i : Issue) (half : Option Half) : (s.fetched i half).enabled q = s.enabled q := by
  have hwaiting : ∀ (s : State) (x : CtxId) (t : Nat), (s.waitingEnds x t).enabled q = s.enabled q := fun s x t => by
    unfold waitingEnds
    split
    · rfl
    · exact updTcb_enabled s _ _ _ _
  rw [fetched, cacheLine_enabled hq, fetchCheck_enabled hq, accounting, updCtx_enabled, hwaiting, countIssue_enabled hq]

end

/-! ### What a quiet change leaves of a course -/

namespace Quiet

theorem bankRange (h : Quiet s t x) (w : WytheIx) (c o n : Nat) : t.bankRange w c o n = s.bankRange w c o n := by
  simp only [State.bankRange, h.bankView]

theorem bankBytes (h : Quiet s t x) (w : WytheIx) (c o n : Nat) : t.bankBytes w c o n = s.bankBytes w c o n := by
  simp only [State.bankBytes, h.bankView, h.bankByte]

theorem places (h : Quiet s t x) (w : WytheIx) (c : Nat) : (t.course w c).places = (s.course w c).places :=
  (congrArg Course.places (h.course w c) :)

theorem gens (h : Quiet s t x) (w : WytheIx) (c : Nat) : (t.course w c).gens = (s.course w c).gens := (congrArg Course.gens (h.course w c) :)

theorem cpUnit (h : Quiet s t x) (w : WytheIx) (c u : Nat) : t.cpUnit w c u = s.cpUnit w c u :=
  have hunits : (t.course w c).units = (s.course w c).units := (congrArg Course.units (h.course w c) :)
  congrArg (fun m : SMap CpUnit => kget ({} : CpUnit) m u) hunits

theorem bankCanon (h : Quiet s t x) {w : WytheIx} {c : Nat} (hs : swf (undefByte (s.course w c).undef (16 + c)) (s.course w c).banks = true) :
    swf (undefByte (t.course w c).undef (16 + c)) (t.course w c).banks = true := by
  have hbanks : (t.course w c).banks = (s.course w c).banks := (congrArg Course.banks (h.course w c) :)
  have hundef : (t.course w c).undef = (s.course w c).undef := (congrArg Course.undef (h.course w c) :)
  rw [hbanks, hundef]
  exact hs

end Quiet

theorem holderOf_fetched (s : State) (i : Issue) : (s.fetched i).holderOf i.id = s.holderOf i.id := by simp [holderOf]

theorem claimed_fetched (s : State) (i : Issue) (u : Nat) :
    (s.fetched i).claimed i.id u = ((s.cpUnit i.id.w i.id.c.val u).holder == some (s.holderOf i.id)) := by
  rw [claimed, (quiet_fetched s i none).cpUnit, holderOf_fetched]

theorem cpOutstanding_fetched (s : State) (i : Issue) (p : Place → Bool) :
    (s.fetched i).cpOutstanding i.id.w i.id.c.val p = s.cpOutstanding i.id.w i.id.c.val p := by
  rw [cpOutstanding, (quiet_fetched s i none).places, cpOutstanding]

theorem quiet_cost (s : State) (y x : CtxId) (run own : Nat) : Quiet s (s.cost x run own) y :=
  quiet_updCore s y _ _ _ fun _ => rfl

/-! ### Bytes of the banks -/

theorem course_updCourse (s : State) (w : WytheIx) (c : Nat) (f : Course → Course) (v : WytheIx) (d : Nat) :
    (s.updCourse w c f).course v d = if v = w ∧ d = c then f (s.course w c) else s.course v d := by
  simp only [course, wy_updCourse]
  by_cases hv : v = w
  · by_cases hd : d = c
    · simp [hv, hd]
    · simp [hv, hd, kget_kupd]
  · simp [hv]

theorem updCourse_marching (s : State) (w : WytheIx) (c : Nat) (f : Course → Course) (v : WytheIx) (d : Nat) :
    (s.updCourse w c f).marching v d = s.marching v d := by
  have hmarches : ((s.updCourse w c f).wy v).marches = (s.wy v).marches := by
    rw [wy_updCourse]
    split
    · next h => rw [h]
    · rfl
  simp only [marching, hmarches]

/-- A change of a course that keeps the state of its banks keeps what masters see of it. -/
theorem bankView_updCourse (s : State) (w : WytheIx) (c : Nat) {f : Course → Course} (hf : ∀ k, (f k).bankState = k.bankState) (v : WytheIx)
    (d b : Nat) : (s.updCourse w c f).bankView v d b = s.bankView v d b := by
  have hstate : ((s.updCourse w c f).course v d).bankState = (s.course v d).bankState := by
    rw [course_updCourse]
    split
    · next h => rw [hf, h.1, h.2]
    · rfl
  simp only [bankView, updCourse_marching, hstate]

/-- A change of a course that keeps its banks is not seen in memory. -/
theorem elsewhere_updCourse (s : State) (x : CtxId) (w : WytheIx) (c : Nat) {f : Course → Course}
    (hf : ∀ k, (f k).banks = k.banks ∧ (f k).undef = k.undef ∧ (f k).bankState = k.bankState) : Elsewhere s (s.updCourse w c f) x := by
  refine ⟨fun y _ => ⟨by simp, fun a => ?_⟩, fun w k => by simp⟩
  have hbyte : ∀ v d o, (s.updCourse w c f).bankByte v d o = s.bankByte v d o := fun v d o => by
    simp only [bankByte, course_updCourse]
    split
    · next h => rw [(hf _).1, (hf _).2.1, h.1, h.2]
    · rfl
  simp only [State.memByte, bankView_updCourse s w c (fun k => (hf k).2.2), hbyte, updCourse_ctx, updCourse_core]

section
variable {w : WytheIx} {c o : Nat}

theorem bankView_setBankByte (s : State) (w : WytheIx) (c o : Nat) (v : Byte) (d b : Nat) :
    (s.setBankByte w c o v).bankView w d b = s.bankView w d b := by
  unfold setBankByte
  refine bankView_updCourse s w c ?_ w d b
  exact fun _ => rfl

theorem bankByte_setBankByte (hs : swf (undefByte (s.course w c).undef (16 + c)) (s.course w c).banks = true) (v : Byte) (d b : Nat) :
    (s.setBankByte w c o v).bankByte w d b = if d = c ∧ b = o then v else s.bankByte w d b := by
  simp only [bankByte, setBankByte, course_updCourse]
  by_cases hd : d = c
  · subst hd
    by_cases hb : b = o
    · simp [hb, sget_sput_same _ _ _ _ hs]
    · simp [hb, sget_sput_ne]
  · simp [hd]

theorem bankCanon_setBankByte (hs : swf (undefByte (s.course w c).undef (16 + c)) (s.course w c).banks = true) (v : Byte) :
    swf (undefByte ((s.setBankByte w c o v).course w c).undef (16 + c)) ((s.setBankByte w c o v).course w c).banks = true := by
  simp [setBankByte, swf_sput, hs]

/-- Bytes stored where the banks are on are the bytes read there. -/
theorem bankByte_setBankBytes {l : Bytes} (hs : swf (undefByte (s.course w c).undef (16 + c)) (s.course w c).banks = true)
    (hon : ∀ k < l.length, s.bankView w c ((o + k) / 0x40000) = .on) (d b : Nat) :
    (s.setBankBytes w c o l).bankByte w d b = if d = c ∧ o ≤ b ∧ b < o + l.length then l.getD (b - o) 0 else s.bankByte w d b := by
  suffices hfrom : ∀ (l : Bytes) (j : Nat) (s : State), swf (undefByte (s.course w c).undef (16 + c)) (s.course w c).banks = true →
      (∀ k < l.length, s.bankView w c ((o + (j + k)) / 0x40000) = .on) →
      (s.each (l.zipIdx j) (fun s e => if s.bankView w c ((o + e.2) / 0x40000) = .on then s.setBankByte w c (o + e.2) e.1 else s)).bankByte w d b =
        if d = c ∧ o + j ≤ b ∧ b < o + j + l.length then l.getD (b - (o + j)) 0 else s.bankByte w d b by
    simpa [setBankBytes] using hfrom l 0 s hs (by simpa using hon)
  intro l
  induction l with
  | nil =>
    intro j s _ _
    have hno : ¬ (d = c ∧ o + j ≤ b ∧ b < o + j) := by omega
    simp [each, hno]
  | cons v r ih =>
    intro j s hs hon
    have hfirst := hon 0 (by simp)
    have hrest := ih (j + 1) (s.setBankByte w c (o + j) v) (bankCanon_setBankByte hs v) fun k hk => by
      rw [bankView_setBankByte, Nat.add_right_comm, Nat.add_assoc j]
      exact hon (k + 1) (by simpa using hk)
    simp only [List.zipIdx_cons, each, List.foldl_cons, Nat.add_zero] at hrest hfirst ⊢
    rw [if_pos hfirst, hrest, bankByte_setBankByte hs]
    by_cases hd : d = c
    · subst hd
      rcases lt_trichotomy b (o + j) with hb | rfl | hb
      · have hno : ¬ o + j ≤ b ∧ ¬ o + (j + 1) ≤ b ∧ b ≠ o + j := by omega
        simp [hno]
      · simp
      · obtain ⟨n, rfl⟩ : ∃ n, b = o + (j + 1) + n := ⟨b - (o + (j + 1)), by omega⟩
        have hsub : o + (j + 1) + n - (o + j) = n + 1 := by omega
        have hle : o + j ≤ o + (j + 1) + n ∧ o + (j + 1) + n ≠ o + j := by omega
        have hlt : o + (j + 1) + n < o + j + (r.length + 1) ↔ o + (j + 1) + n < o + (j + 1) + r.length := by omega
        simp [hsub, hle, hlt]
    · simp [hd]

end

end Sys2Proof.Machine.State

end

/-!
# The coprocessor instructions

What CPCMD, CPSTAT, CPSAVE and CPREST leave where the unit is claimed, and their fault where it is not.
-/

section

namespace Sys2Proof.Machine.State

variable {s : State} {i : Issue}

/-! ### A ready instruction that changes its course -/

/-- A context that may issue is on no wrong path. -/
theorem wrongPath_of_ready {reads addrs : List Reg} {len : Nat} {half : Option Half} (h : s.Ready i reads len half addrs) :
    s.wrongPath i.id (s.issueCycle i) = false := by
  have hmay := h.1
  simp only [mayIssue, issuable, Bool.and_eq_true, beq_iff_eq, decide_eq_true_eq] at hmay
  obtain ⟨⟨⟨⟨⟨-, ⟨⟨⟨hrunning, -⟩, hnext⟩, -⟩, -⟩, -⟩, -⟩, -⟩, -⟩ := hmay
  simp [wrongPath, hrunning, hnext]

/-- A ready instruction that changes its course, but not the banks, and its context's registers. -/
theorem issue_updCourse {reads addrs : List Reg} {e : State → Effect} {c : Nat} {f : Course → Course} {g : Ctx → Ctx}
    (hready : s.Ready i reads 4 none addrs) (he : e (s.fetched i) = .done (((s.fetched i).updCourse i.id.w c f).updCtx i.id g))
    (hf : ∀ k, (f k).banks = k.banks ∧ (f k).undef = k.undef ∧ (f k).bankState = k.bankState) (hg : ∀ k, (g k).state = k.state) :
    RegsOnly s (s.issue i true reads e none addrs) i 4 g ∧
      ((s.issue i true reads e none addrs).course i.id.w c).places = (f ((s.fetched i).course i.id.w c)).places := by
  have hctx : (((s.fetched i).updCourse i.id.w c f).updCtx i.id g).ctx i.id = g (s.settled i) := by simp
  obtain ⟨hadvanced, hquiet⟩ := issue_advances hready he hctx (hg _)
  refine ⟨⟨hadvanced, ?_⟩, ?_⟩
  · have hcourse := (elsewhere_updCourse (s.fetched i) i.id i.id.w c hf).trans (quiet_updCtx _ i.id g).elsewhere
    exact ((quiet_fetched s i none).elsewhere.trans hcourse).trans hquiet.elsewhere
  · rw [hquiet.places, (quiet_updCtx _ i.id g).places, course_updCourse_same]

/-! ### CPCMD -/

section
variable {w : WytheIx} {c a : Nat}

theorem cpBlock_good (halign : a % 4 = 0) (hlo : 0x400000 ≤ a) (hhi : a + 32 ≤ 0x800000) (hon : s.bankRange w c (a - 0x400000) 32 = .on) :
    s.cpBlock w c a .good = (0, s.bankBytes w c (a - 0x400000) 32, s) := by
  have hin : ¬ (a % 4 ≠ 0 ∨ a < 0x400000 ∨ 0x800000 < a + 32) := by omega
  rw [cpBlock, if_neg hin]
  simp only [hon, if_true]
  rfl

end

/-- The command that a free place takes on an enabled page (R287, R291). -/
def cpQueued (s : State) (w : WytheIx) (c : CourseIx) (h : Holder) (k : CoreIx) (unit : Nat) (block : Bytes) : Place :=
  { owner := h, core := k, unit := unit, block := block, found := 0, dead := false, order := (s.course w c).nextOrder, state := .queued, status := 0
    cancelled := none }

/-- A course of which `q` has taken place `p`, in generation `g`. -/
def placeTaken (p : Nat) (q : Place) (g : Nat) (co : Course) : Course :=
  { co with places := sins co.places p q, gens := sins co.gens p g, nextOrder := co.nextOrder + 1 }
/-- A course of which place `p` has been freed. -/
def placeFreed (p : Nat) (co : Course) : Course := { co with places := kdel co.places p }

theorem cpTake_free {w : WytheIx} {c : CourseIx} {h : Holder} {k : CoreIx} {unit p : Nat} {block : Bytes}
    (hfree : (List.range 16).find? (fun n => (sfind (s.course w c).places n).isNone) = some p) (hen : s.enabled (pgCoproc w c) = true) :
    s.cpTake w c h k unit 0 block = some (p, 16 * ((kget 15 (s.course w c).gens p + 1) % 16) + p,
      s.updCourse w c (placeTaken p (s.cpQueued w c h k unit block) ((kget 15 (s.course w c).gens p + 1) % 16))) := by
  simp only [cpTake, hfree, hen, if_true, cpQueued]
  rfl

theorem cpcmd_queued {d : Fin 16} {u : Fin 4} {n : Fin 8} {p : Nat} (hready : s.Ready i [.a n] 4 none [.a n]) (hecc : i.dataEcc = .good)
    (hclaim : (s.cpUnit i.id.w i.id.c.val u.val).holder = some (s.holderOf i.id))
    (hfree : (List.range 16).find? (fun n => (sfind (s.course i.id.w i.id.c.val).places n).isNone) = some p)
    (hen : s.enabled (pgCoproc i.id.w i.id.c) = true) (halign : (s.ctx i.id).a[n.val].toNat % 4 = 0)
    (hlo : 0x400000 ≤ (s.ctx i.id).a[n.val].toNat) (hhi : (s.ctx i.id).a[n.val].toNat + 32 ≤ 0x800000)
    (hon : s.bankRange i.id.w i.id.c.val ((s.ctx i.id).a[n.val].toNat - 0x400000) 32 = .on) :
    Completes (.cpcmd i d u n) s (fun t =>
      RegsOnly s t i 4 (fun c => c.setD d (BitVec.ofNat 16 (16 * ((kget 15 (s.course i.id.w i.id.c.val).gens p + 1) % 16) + p))) ∧
      ∃ q, sfind (t.course i.id.w i.id.c.val).places p = some q ∧ q.owner = s.holderOf i.id ∧ q.unit = u.val ∧ q.state = .queued ∧
        q.cancelled = none ∧ q.found = 0 ∧
        q.block = s.bankBytes i.id.w i.id.c.val ((s.ctx i.id).a[n.val].toNat - 0x400000) 32) := by
  have hf := quiet_fetched s i none
  have ha : ((s.fetched i).ctx i.id).a[n.val] = (s.ctx i.id).a[n.val] := by simp
  have hpage : pgCoproc i.id.w i.id.c % 0x1000 = 0 := by unfold pgCoproc wyBase; omega
  have hblock := cpBlock_good halign hlo hhi ((hf.bankRange _ _ _ _).trans hon)
  have htake := cpTake_free (s := s.fetched i) (h := s.holderOf i.id) (k := i.id.k) (unit := u.val)
    (block := s.bankBytes i.id.w i.id.c.val ((s.ctx i.id).a[n.val].toNat - 0x400000) 32) (by rw [hf.places]; exact hfree)
    ((fetched_enabled hpage s i none).trans hen)
  rw [hf.gens] at htake
  generalize hq : (s.fetched i).cpQueued _ _ _ _ _ _ = q at htake
  have hdone : (s.fetched i).cpcmd i.id i.dataEcc d u n = .done (((s.fetched i).updCourse i.id.w i.id.c.val
      (placeTaken p q ((kget 15 (s.course i.id.w i.id.c.val).gens p + 1) % 16))).updCtx i.id
        (fun c => c.setD d (BitVec.ofNat 16 (16 * ((kget 15 (s.course i.id.w i.id.c.val).gens p + 1) % 16) + p)))) := by
    simp only [cpcmd, claimed_fetched, hclaim, beq_self_eq_true, Bool.not_true, Bool.false_eq_true, if_false, hecc, ha, hblock, hf.bankBytes,
      holderOf_fetched, htake]
  obtain ⟨hregs, hplaces⟩ := issue_updCourse (e := fun s => s.cpcmd i.id i.dataEcc d u n) hready hdone (fun _ => ⟨rfl, rfl, rfl⟩) fun _ => rfl
  refine ⟨_, congrArg Host.Outcome.next (if_neg (by simp [wrongPath_of_ready hready])), hregs, q, ?_, ?_⟩
  · rw [hplaces]
    exact sfind_sins_same _ _ _
  · rw [← hq]
    exact ⟨rfl, rfl, rfl, rfl, rfl, rfl⟩

/-! ### CPSTAT -/

theorem cpstat_done {d r : Fin 16} {tag : Nat} {p : Place} (hready : s.Ready i [.d r] 4) (htag : ((s.ctx i.id).d[r.val]).toNat % 256 = tag)
    (hfind : sfind (s.course i.id.w i.id.c.val).places (tag % 16) = some p)
    (hgen : kget 15 (s.course i.id.w i.id.c.val).gens (tag % 16) = tag / 16) (howner : p.owner = s.holderOf i.id) (hdone : p.state = .done) :
    Completes (.cpstat i d r) s (fun t => RegsOnly s t i 4 (fun c =>
      { c.setD d (BitVec.ofNat 16 (256 * p.status + tag)) with sr := setFlags c.sr ⟨false, p.status == 0, false, false⟩ }) ∧
      sfind (t.course i.id.w i.id.c.val).places (tag % 16) = none) := by
  have hf := quiet_fetched s i none
  have hd : ((s.fetched i).ctx i.id).d[r.val] = (s.ctx i.id).d[r.val] := by simp
  have heffect : (s.fetched i).cpstat i.id d r = .done (((s.fetched i).updCourse i.id.w i.id.c.val (placeFreed (tag % 16))).updCtx i.id
      (fun c => { c.setD d (BitVec.ofNat 16 (256 * p.status + tag)) with sr := setFlags c.sr ⟨false, p.status == 0, false, false⟩ })) := by
    simp only [cpstat, hd, htag, hf.places, hfind, hf.gens, hgen, holderOf_fetched, howner, hdone, ne_eq, not_true, or_self, if_false]
    rfl
  obtain ⟨hregs, hplaces⟩ := issue_updCourse (e := fun s => s.cpstat i.id d r) hready heffect (fun _ => ⟨rfl, rfl, rfl⟩) fun _ => rfl
  refine ⟨_, rfl, hregs, ?_⟩
  rw [hplaces]
  exact sfind_kdel_same _ _

theorem cpstat_free {d r : Fin 16} {tag : Nat} (hready : s.Ready i [.d r] 4) (htag : ((s.ctx i.id).d[r.val]).toNat % 256 = tag)
    (hfind : sfind (s.course i.id.w i.id.c.val).places (tag % 16) = none) :
    Completes (.cpstat i d r) s (fun t => RegsOnly s t i 4 (fun c =>
      { c.setD d (BitVec.ofNat 16 (0xFF00 + tag)) with sr := setFlags c.sr ⟨false, false, false, false⟩ })) := by
  have hd : ((s.fetched i).ctx i.id).d[r.val] = (s.ctx i.id).d[r.val] := by simp
  have heffect : (s.fetched i).cpstat i.id d r = .done ((s.fetched i).updCtx i.id (fun c =>
      { c.setD d (BitVec.ofNat 16 (0xFF00 + tag)) with sr := setFlags c.sr ⟨false, false, false, false⟩ })) := by
    simp only [cpstat, hd, htag, (quiet_fetched s i none).places, hfind]
    rfl
  exact ⟨_, rfl, issue_changesRegs (f := fun s => s.cpstat i.id d r) hready heffect (by simp) rfl (quiet_updCtx _ _ _).elsewhere⟩

/-! ### CPSAVE and CPREST -/

theorem stateSize_le (u : Nat) : stateSize u ≤ 80 := by
  unfold stateSize
  split <;> decide

theorem cpMove_good {x : CtxId} {u : Fin 4} {n : Fin 8} {save : Bool} (hclaim : s.claimed x u.val = true)
    (hidle : s.cpOutstanding x.w x.c.val (fun p => p.unit == u.val && p.owner == s.holderOf x) = false)
    (halign : (s.ctx x).a[n.val].toNat % 8 = 0) (hlo : 0x400000 ≤ (s.ctx x).a[n.val].toNat) (hhi : (s.ctx x).a[n.val].toNat + 80 ≤ 0x800000)
    (hon : s.bankRange x.w x.c.val ((s.ctx x).a[n.val].toNat - 0x400000) (stateSize u.val) = .on) (hsize : 0 < stateSize u.val) :
    s.cpMove x .good u n save = .done ((if save then s.cpSave x.w x.c.val u.val ((s.ctx x).a[n.val].toNat - 0x400000)
      else s.cpRest x.w x.c.val u.val ((s.ctx x).a[n.val].toNat - 0x400000)).cost x 1 4) := by
  have hin : ¬ ((s.ctx x).a[n.val].toNat % 8 ≠ 0 ∨ (s.ctx x).a[n.val].toNat < 0x400000 ∨ 0x800000 ≤ (s.ctx x).a[n.val].toNat ∨
      0x800000 < (s.ctx x).a[n.val].toNat + stateSize u.val) := by
    have := stateSize_le u.val
    omega
  simp only [cpMove, hclaim, hidle, Bool.not_true, Bool.false_eq_true, if_false, if_neg hin, if_neg hsize.ne', hon, ite_self]
  rfl

section
variable {w : WytheIx} {c o n : Nat}

/-- Where the banks of a range are on, the bank of each of its bytes is. -/
theorem bankView_of_range {k : Nat} (hon : s.bankRange w c o n = .on) (hfit : o + n ≤ 0x400000) (hk : k < n) :
    s.bankView w c ((o + k) / 0x40000) = .on := by
  have hmem : (o + k) / 0x40000 ∈ (List.range 16).filter (fun b => decide (o / 0x40000 ≤ b) && decide (b ≤ (o + n - 1) / 0x40000)) := by
    simp only [List.mem_filter, List.mem_range, Bool.and_eq_true, decide_eq_true_eq]
    omega
  simp only [bankRange] at hon
  split at hon
  · cases hon
  · next hretained =>
    split at hon
    · cases hon
    · next hoff =>
      cases hview : s.bankView w c ((o + k) / 0x40000) with
      | on => rfl
      | retained => exact absurd (List.any_eq_true.mpr ⟨_, hmem, by simp [hview]⟩) hretained
      | off => exact absurd (List.any_eq_true.mpr ⟨_, hmem, by simp [hview]⟩) hoff

end

theorem setBankBytes_ctx (s : State) (w : WytheIx) (c o : Nat) (l : Bytes) (y : CtxId) : (s.setBankBytes w c o l).ctx y = s.ctx y := by
  refine each_induct (fun t => t.ctx y = s.ctx y) _ (fun t e ht => ?_) _ s rfl
  split
  · exact (updCourse_ctx _ _ _ _ _).trans ht
  · exact ht

theorem padTo_length {k : Nat} {l : Bytes} (h : l.length ≤ k) : (padTo k l).length = k := by
  simp [padTo, h]

/-- CPSAVE stores the state of the unit in the own banks, padded to its size (R298). -/
theorem cpsave_stored {u : Fin 4} {n : Fin 8} (hready : s.Ready i [.a n] 4 none [.a n]) (hecc : i.dataEcc = .good)
    (hclaim : (s.cpUnit i.id.w i.id.c.val u.val).holder = some (s.holderOf i.id))
    (hidle : s.cpOutstanding i.id.w i.id.c.val (fun p => p.unit == u.val && p.owner == s.holderOf i.id) = false)
    (halign : (s.ctx i.id).a[n.val].toNat % 8 = 0) (hlo : 0x400000 ≤ (s.ctx i.id).a[n.val].toNat)
    (hhi : (s.ctx i.id).a[n.val].toNat + 80 ≤ 0x800000)
    (hon : s.bankRange i.id.w i.id.c.val ((s.ctx i.id).a[n.val].toNat - 0x400000) (stateSize u.val) = .on) (hsize : 0 < stateSize u.val)
    (hmem : s.MemCanon) (hlen : (s.cpUnit i.id.w i.id.c.val u.val).state.length ≤ stateSize u.val) :
    Completes (.cpsave i u n) s (fun t => Advanced s t i 4 id ∧ ∀ d b, t.bankByte i.id.w d b =
      if d = i.id.c.val ∧ (s.ctx i.id).a[n.val].toNat - 0x400000 ≤ b ∧ b < (s.ctx i.id).a[n.val].toNat - 0x400000 + stateSize u.val then
        (padTo (stateSize u.val) (s.cpUnit i.id.w i.id.c.val u.val).state).getD (b - ((s.ctx i.id).a[n.val].toNat - 0x400000)) 0
      else s.bankByte i.id.w d b) := by
  have hf := quiet_fetched s i none
  have ha : ((s.fetched i).ctx i.id).a[n.val] = (s.ctx i.id).a[n.val] := by simp
  have hmove := cpMove_good (s := s.fetched i) (x := i.id) (u := u) (n := n) (save := true) (by rw [claimed_fetched, hclaim, beq_self_eq_true])
    (by rw [cpOutstanding_fetched, holderOf_fetched]; exact hidle) (by rw [ha]; exact halign) (by rw [ha]; exact hlo) (by rw [ha]; exact hhi)
    (by rw [ha, hf.bankRange]; exact hon) hsize
  rw [ha, ← hecc, if_pos rfl] at hmove
  obtain ⟨hadvanced, hquiet⟩ := issue_advances (f := fun s => s.cpMove i.id i.dataEcc u n true) (g := id) hready hmove
    (by rw [Quiet.ctx_all fun y => quiet_cost _ y i.id 1 4, cpSave, setBankBytes_ctx, fetched_ctx]; rfl) rfl
  refine ⟨_, rfl, hadvanced, fun d b => ?_⟩
  rw [((quiet_cost _ i.id i.id 1 4).trans hquiet).bankByte, cpSave, hf.cpUnit,
    bankByte_setBankBytes (hf.bankCanon (hmem.2.1 _ _)) fun k hk => by
      rw [padTo_length hlen] at hk
      rw [hf.bankView]
      exact bankView_of_range hon (by have := stateSize_le u.val; omega) hk,
    padTo_length hlen, hf.bankByte]

/-- The state that CPREST gives a unit from the bytes that it reads (R298). -/
def restored (u : Nat) (v : Bytes) : Bytes := if stateLegal u v = true then stateOf u v else []

section
variable {w : WytheIx} {c u o : Nat}

theorem updUnit_state (v : Bytes) : ((s.updUnit w c u (fun k => { k with state := v })).cpUnit w c u).state = v := by
  simp [updUnit, cpUnit]

theorem elsewhere_updUnit (s : State) (x : CtxId) (w : WytheIx) (c u : Nat) (f : CpUnit → CpUnit) : Elsewhere s (s.updUnit w c u f) x :=
  elsewhere_updCourse s x w c fun _ => ⟨rfl, rfl, rfl⟩

/-- CPREST gives the unit its state, and changes no bank and no context. -/
theorem cpRest_restores (s : State) (x : CtxId) (w : WytheIx) (c u o : Nat) :
    ((s.cpRest w c u o).cpUnit w c u).state = restored u (s.bankBytes w c o (stateSize u)) ∧ Elsewhere s (s.cpRest w c u o) x ∧
      (s.cpRest w c u o).ctx x = s.ctx x := by
  unfold cpRest restored
  by_cases hlegal : stateLegal u (s.bankBytes w c o (stateSize u)) = true
  · simp only [hlegal, if_true]
    exact ⟨updUnit_state _, elsewhere_updUnit s x w c u _, updCourse_ctx _ _ _ _ _⟩
  · simp only [hlegal, Bool.false_eq_true, if_false]
    have hcount := quiet_count (s.updUnit w c u (fun k => { k with state := [] })) x (pgCoproc w c + 0x80) 1
    refine ⟨?_, (elsewhere_updUnit s x w c u _).trans hcount.elsewhere, ?_⟩
    · rw [hcount.cpUnit, updUnit_state]
    · rw [count_ctx]
      exact updCourse_ctx _ _ _ _ _

end

theorem cprest_restored {u : Fin 4} {n : Fin 8} (hready : s.Ready i [.a n] 4 none [.a n]) (hecc : i.dataEcc = .good)
    (hclaim : (s.cpUnit i.id.w i.id.c.val u.val).holder = some (s.holderOf i.id))
    (hidle : s.cpOutstanding i.id.w i.id.c.val (fun p => p.unit == u.val && p.owner == s.holderOf i.id) = false)
    (halign : (s.ctx i.id).a[n.val].toNat % 8 = 0) (hlo : 0x400000 ≤ (s.ctx i.id).a[n.val].toNat)
    (hhi : (s.ctx i.id).a[n.val].toNat + 80 ≤ 0x800000)
    (hon : s.bankRange i.id.w i.id.c.val ((s.ctx i.id).a[n.val].toNat - 0x400000) (stateSize u.val) = .on) (hsize : 0 < stateSize u.val) :
    Completes (.cprest i u n) s (fun t => RegsOnly s t i 4 id ∧ (t.cpUnit i.id.w i.id.c.val u.val).state =
      restored u.val (s.bankBytes i.id.w i.id.c.val ((s.ctx i.id).a[n.val].toNat - 0x400000) (stateSize u.val))) := by
  have hf := quiet_fetched s i none
  have ha : ((s.fetched i).ctx i.id).a[n.val] = (s.ctx i.id).a[n.val] := by simp
  have hmove := cpMove_good (s := s.fetched i) (x := i.id) (u := u) (n := n) (save := false) (by rw [claimed_fetched, hclaim, beq_self_eq_true])
    (by rw [cpOutstanding_fetched, holderOf_fetched]; exact hidle) (by rw [ha]; exact halign) (by rw [ha]; exact hlo) (by rw [ha]; exact hhi)
    (by rw [ha, hf.bankRange]; exact hon) hsize
  rw [ha, ← hecc, if_neg (by decide)] at hmove
  obtain ⟨hstate, helse, hctx⟩ := cpRest_restores (s.fetched i) i.id i.id.w i.id.c.val u.val ((s.ctx i.id).a[n.val].toNat - 0x400000)
  obtain ⟨hadvanced, hquiet⟩ := issue_advances (f := fun s => s.cpMove i.id i.dataEcc u n false) (g := id) hready hmove
    (by rw [Quiet.ctx_all fun y => quiet_cost _ y i.id 1 4, hctx, fetched_ctx]; rfl) rfl
  have hafter := (quiet_cost _ i.id i.id 1 4).trans hquiet
  refine ⟨_, rfl, ⟨hadvanced, (hf.elsewhere.trans helse).trans hafter.elsewhere⟩, ?_⟩
  rw [hafter.cpUnit, hstate, hf.bankBytes]

/-! ### Without the claim -/

section
variable {d : Fin 16} {u : Fin 4} {n : Fin 8} {e : State → Effect}

/-- An instruction that asks for the claim faults where the context's holder does not have it. -/
theorem issue_unclaimed (hready : s.Ready i [.a n] 4 none [.a n]) (hs : s.Canon) (honce : s.FaultsOnce i.id)
    (he : e (s.fetched i) = (s.fetched i).notClaimed i.id) :
    Faulted s (s.issue i true [.a n] e none [.a n]) i 0x0C (s.ctx i.id).pcx.toNat := by
  rw [notClaimed, fetched_ctx, settled_pcx] at he
  exact (issue_faulted (long := true) hready he hs honce).1

theorem unclaimed_faults (hready : s.Ready i [.a n] 4 none [.a n]) (hs : s.Canon) (honce : s.FaultsOnce i.id)
    (hclaim : (s.cpUnit i.id.w i.id.c.val u.val).holder ≠ some (s.holderOf i.id)) :
    Completes (.cpcmd i d u n) s (fun t => Faulted s t i 0x0C (s.ctx i.id).pcx.toNat) ∧
    Completes (.cpsave i u n) s (fun t => Faulted s t i 0x0C (s.ctx i.id).pcx.toNat) ∧
    Completes (.cprest i u n) s (fun t => Faulted s t i 0x0C (s.ctx i.id).pcx.toNat) := by
  have hno : (!(s.fetched i).claimed i.id u.val) = true := by simp [claimed_fetched, hclaim]
  refine ⟨⟨_, congrArg Host.Outcome.next (if_neg (by simp [wrongPath_of_ready hready])), ?_⟩, ⟨_, rfl, ?_⟩, ⟨_, rfl, ?_⟩⟩
  · exact issue_unclaimed hready hs honce (if_pos hno)
  · exact issue_unclaimed hready hs honce (if_pos hno)
  · exact issue_unclaimed hready hs honce (if_pos hno)

end

end Sys2Proof.Machine.State

namespace Sys2Proof.Machine
open State

/-- Settles O13: an instruction has its effect in the state that its issue leaves, where the tables, the banks and the course's places
and units are those of `s`; a lookup's result changes no context but its own. -/
theorem looksAndCoprocessors : Obligations.LooksAndCoprocessors := by
  unfold Obligations.LooksAndCoprocessors
  refine ⟨⟨?_, fun s x p ecc after => tlookResult_written⟩, ?_⟩
  · intro s i d tag tb learn refresh n x a hready hecc heven hopts htag hawaits hfault
    obtain ⟨t, hstep, hregs⟩ := tlook_outstanding hready hecc heven hopts htag hawaits hfault
    refine ⟨t, hstep, _, hregs, rfl, rfl, rfl, rfl, rfl, lookForme_fetched s i, cycleOf_fetched s i, ?_⟩
    have hkeyed := lookAsked_keyed (s.fetched i) i.id d tag tb learn refresh (s.ctx i.id).a[n.val].toNat
    rwa [memBytes_seenBy_fetched] at hkeyed
  · intro s i d r u n x a o co tag
    refine ⟨fun hready hecc hclaim => ⟨fun p hfree hen halign hlo hhi hon => ?_, fun hidle halign hlo hhi hon hsize =>
      ⟨fun hmem hlen => ?_, ?_⟩⟩, fun hready => ⟨fun p hfind hgen howner hdone => ?_, fun hfind => ?_⟩, fun hready hs honce hclaim => ?_⟩
    · exact cpcmd_queued hready hecc hclaim hfree hen halign hlo hhi hon
    · obtain ⟨t, hstep, hadvanced, hbytes⟩ := cpsave_stored hready hecc hclaim hidle halign hlo hhi hon hsize hmem hlen
      refine ⟨t, hstep, hadvanced, fun k hk => ?_, fun c b hout => ?_⟩
      · rw [hbytes, if_pos ⟨rfl, Nat.le_add_right _ _, Nat.add_lt_add_left hk _⟩, Nat.add_sub_cancel_left]
      · rw [hbytes, if_neg fun ⟨hc, hfrom, hto⟩ => hout.elim (fun h => h hc) fun h => h.elim hfrom.not_gt hto.not_ge]
    · exact cprest_restored hready hecc hclaim hidle halign hlo hhi hon hsize
    · exact cpstat_done hready rfl hfind hgen howner hdone
    · exact cpstat_free hready rfl hfind
    · exact unclaimed_faults hready hs honce hclaim

end Sys2Proof.Machine

end

/-!
# What an issue leaves of the cores

An instruction of either length that completes is described by the state in which it does (`issue_completes`); a view of the
cores that what is counted does not change is followed through an issue by `Alike (coresBy v)`.
-/

section

namespace Sys2Proof.Machine.State

variable {s t u : State} {i : Issue}

/-! ### An instruction of either length -/

section
variable {long : Bool} {reads addrs : List Reg} {half : Option Half} {f : State → Effect} {g : Ctx → Ctx}

/-- A ready instruction that completes in `u` advances its context; all else is as in `u`, but for what no program sees. -/
theorem issue_completes (hready : s.Ready i reads (if long then 4 else 2) half addrs) (hf : f (s.fetched i half) = .done u)
    (hctx : u.ctx i.id = g (s.settled i)) (hstate : (g (s.settled i)).state = (s.settled i).state) :
    Advanced s (s.issue i long reads f half addrs) i (if long then 4 else 2) g ∧ Quiet u (s.issue i long reads f half addrs) i.id := by
  have hrunning : (u.ctx i.id).state = .running := by rw [hctx, hstate, settled_state, mayIssue_running hready.1]
  rw [issue_done s hready hf]
  refine ⟨?_, (quiet_updCtx _ _ _).trans (quiet_stepEnds _ _)⟩
  unfold Advanced
  rw [stepEnds_ctx]
  · simp [hctx]
  · simpa using hrunning

/-- The same where nothing but that context's registers changes. -/
theorem issue_completes_quietly (hready : s.Ready i reads (if long then 4 else 2) half addrs) (hf : f (s.fetched i half) = .done u)
    (hctx : u.ctx i.id = g (s.settled i)) (hstate : (g (s.settled i)).state = (s.settled i).state)
    (hquiet : Quiet (s.fetched i half) u i.id) : RegsOnly s (s.issue i long reads f half addrs) i (if long then 4 else 2) g :=
  have ⟨hadvanced, hafter⟩ := issue_completes hready hf hctx hstate
  ⟨hadvanced, (((quiet_fetched s i half).trans hquiet).trans hafter).elsewhere⟩

/-- The same where the context's registers stay too. -/
theorem issue_passes (hready : s.Ready i reads (if long then 4 else 2) half addrs) (hf : f (s.fetched i half) = .done u)
    (hquiet : ∀ x, Quiet (s.fetched i half) u x) : RegsOnly s (s.issue i long reads f half addrs) i (if long then 4 else 2) id :=
  issue_completes_quietly hready hf (by rw [Quiet.ctx_all hquiet, fetched_ctx]; rfl) rfl (hquiet i.id)

end

/-! ### Views of the cores -/

section
variable {α : Type} {v : Core → α}

/-- What `v` shows of the cores of a wythe. -/
def coresBy (v : Core → α) (y : Wythe) (i : Nat) : α := v (kget {} y.cores i)

theorem Alike.core_by (h : Alike (coresBy v) s t) (w : WytheIx) (i : Nat) : v (t.core w i) = v (s.core w i) := congrFun (h w) i

theorem alike_coresBy_updCore (s : State) (w : WytheIx) (i : Nat) {f : Core → Core} (hf : ∀ c, v (f c) = v c) :
    Alike (coresBy v) s (s.updCore w i f) := by
  unfold updCore
  refine .updWy s w fun y => funext fun k => ?_
  simp only [coresBy, kget_kupd]
  split
  · next hk => rw [hf, hk]
  · rfl

theorem alike_coresBy_updCtx (s : State) (x : CtxId) (f : Ctx → Ctx) : Alike (coresBy v) s (s.updCtx x f) := .updWy s x.w fun _ => rfl

theorem alike_coresBy_setCtxState (s : State) (x : CtxId) (st : CtxState) (hint : ∀ c p, v { c with intPend := p } = v c) :
    Alike (coresBy v) s (s.setCtxState x st) := by
  unfold setCtxState
  extract_lets s1 s2 s3 s4
  have h2 : Alike (coresBy v) s s2 := by
    unfold s2
    split
    · exact (alike_coresBy_updCtx s x _).trans (.updWy _ x.w fun _ => rfl)
    · exact alike_coresBy_updCtx s x _
  have h3 : Alike (coresBy v) s2 s3 := .onlyIf s2 _ (f := fun s => s.interrupt x.w x.core.ix 4)
    (alike_coresBy_updCore s2 _ _ fun c => hint c _)
  have h4 : Alike (coresBy v) s3 s4 := .onlyIf s3 _ (f := fun s => s.unquiet x.w x.c.val) (.updWy s3 x.w fun _ => rfl)
  exact h2.trans (h3.trans (h4.trans (.onlyIf s4 _ (f := fun s => s.raiseBit pgDebug 0) (.of_wy (by simp)))))

theorem alike_coresBy_stepEnds (s : State) (x : CtxId) (hint : ∀ c p, v { c with intPend := p } = v c) :
    Alike (coresBy v) s (s.stepEnds x) := by
  unfold stepEnds
  split
  · refine Alike.trans ?_ (.of_wy fun w => count_wy _ _ _ w)
    refine Alike.trans ?_ (alike_coresBy_setCtxState _ x .halted hint)
    exact alike_coresBy_updCtx s x _
  · exact .refl _ s

/-- A completed instruction leaves the cores as its effect has. -/
theorem issue_done_core {long : Bool} {reads addrs : List Reg} {half : Option Half} {f : State → Effect}
    (hready : s.Ready i reads (if long then 4 else 2) half addrs) (hf : f (s.fetched i half) = .done u)
    (hint : ∀ c p, v { c with intPend := p } = v c) (w : WytheIx) (k : Nat) :
    v ((s.issue i long reads f half addrs).core w k) = v (u.core w k) := by
  rw [issue_done s hready hf]
  exact ((alike_coresBy_updCtx u i.id _).trans (alike_coresBy_stepEnds _ i.id hint)).core_by w k

variable (hcount : ∀ c m l, v { c with countdown := m, due := l } = v c)
include hcount

theorem alike_coresBy_pmcOne (s : State) (w : WytheIx) (i n : Nat) (c : Option CtxIx) (k : Nat) :
    Alike (coresBy v) s (s.pmcOne w i n c k) := by
  unfold pmcOne
  extract_lets a s1 s2 left
  have h2 : Alike (coresBy v) s s2 := by
    refine .of_wy fun y => ?_
    unfold s2 s1
    split <;> simp
  split
  · exact h2
  · split
    · exact h2.trans (alike_coresBy_updCore s2 w i fun c => hcount c _ c.due)
    · exact h2.trans (alike_coresBy_updCore s2 w i fun c => hcount c _ _)

theorem alike_coresBy_pmc (s : State) (w : WytheIx) (i code : Nat) (c : Option CtxIx) (k : Nat) :
    Alike (coresBy v) s (s.pmc w i code c k) :=
  .each (fun s n => .onlyIf s _ (f := fun s => s.pmcOne w i n c k) (alike_coresBy_pmcOne hcount s w i n c k)) _ s

/-- A core that grants a cycle counts it, after its counter has run on. -/
theorem alike_coresBy_takeCycle (s : State) (x : CtxId) (t gap : Nat) (hgrant : ∀ c g, v { c with grants := g } = v c) :
    Alike (coresBy v) (s.runTo x.core t) (s.takeCycle x t gap) := by
  unfold takeCycle
  refine Alike.trans ?_ (alike_coresBy_pmc hcount _ _ _ _ _ _)
  refine Alike.trans ?_ (.onlyIf _ _ (f := fun s => (s.count (pgCore x.w x.core.ix + 0x50) gap).pmc x.w x.core.ix 0x05 none gap) ?_)
  · exact alike_coresBy_updCore _ _ _ fun c => hgrant c _
  · exact (Alike.of_wy (by simp)).trans (alike_coresBy_pmc hcount _ _ _ _ _ _)

end

end Sys2Proof.Machine.State

end

/-!
# Multiplies

A product is on its way from the cycle of its issue (`product_fetched`); what lands of the products that a context holds is
what its registers then show (`settleCtx_shows`).
-/

section

namespace Sys2Proof.Machine.State

variable {s : State} {i : Issue}

/-! ### The products -/

theorem mulU_eq (a b : W16) : mulU a b = BitVec.ofNat 40 (a.toNat * b.toNat) := by
  have hlt : a.toNat * b.toNat < 2 ^ 16 * 2 ^ 16 := Nat.mul_lt_mul'' a.isLt b.isLt
  apply BitVec.eq_of_toNat_eq
  simp [mulU, Nat.mod_eq_of_lt (show a.toNat * b.toNat < 4294967296 from hlt)]

theorem mulS_eq (a b : W16) : mulS a b = (BitVec.ofInt 32 (a.toInt * b.toInt)).setWidth 40 := by
  rw [BitVec.ofInt_mul]
  rfl

/-- A context to which a product is added that reads from cycle `n` on. -/
def withProduct (dest : ProductTo) (v : Ctx → W40) (n : Nat) (c : Ctx) : Ctx := { c with products := c.products ++ [⟨dest, v c, n⟩] }

theorem product_fetched (s : State) (i : Issue) (half : Option Half) (dest : ProductTo) (v : Ctx → W40) :
    (s.fetched i half).product i.id dest v = (s.fetched i half).regsOnly i.id (withProduct dest v (s.issueCycle i + 3)) := by
  have hcycle : ((s.fetched i half).core i.id.w i.id.core.ix).cycle = s.issueCycle i := congrArg (·.2.1) (kept_fetched s i half)
  rw [product, hcycle]
  rfl

/-- A ready multiply puts its product on its way, and changes nothing else. -/
theorem issue_product {long : Bool} {reads : List Reg} {half : Option Half} {dest : ProductTo} {v v' : Ctx → W40}
    (hready : s.Ready i reads (if long then 4 else 2) half) (hv : ∀ c, v c = v' c) :
    RegsOnly s (s.issue i long reads (fun s => s.product i.id dest v) half) i (if long then 4 else 2)
      (withProduct dest v' (s.issueCycle i + 3)) := by
  obtain rfl := funext hv
  exact issue_regsOnly s hready (product_fetched s i half dest v) rfl

/-! ### What lands -/

/-- A window that empties leaves the products and what they have been written to. -/
theorem settleCtx_shows (t : Nat) (c : Ctx) :
    let l := (c.products.filter (fun p => decide (p.lands ≤ t))).foldl landOne
      { c with products := c.products.filter (fun p => !decide (p.lands ≤ t)) }
    (settleCtx t c).products = l.products ∧ (settleCtx t c).mhi = l.mhi ∧ (settleCtx t c).mlo = l.mlo ∧ (settleCtx t c).x = l.x := by
  unfold settleCtx
  dsimp only
  split
  · split <;> exact ⟨rfl, rfl, rfl, rfl⟩
  · exact ⟨rfl, rfl, rfl, rfl⟩

theorem append_halves (v : W40) : v.extractLsb' 16 16 ++ v.extractLsb' 0 16 = v.setWidth 32 := by
  rw [BitVec.setWidth_eq_extractLsb' (by decide)]
  exact BitVec.extractLsb'_append_extractLsb'_eq_extractLsb' (len₁ := 16) rfl

theorem settleCtx_due {c : Ctx} {t : Nat} {p : Product} (hp : c.products = [p]) (hdue : p.lands ≤ t) :
    (settleCtx t c).products = [] ∧ match p.dest with
      | .pair => (settleCtx t c).mhi ++ (settleCtx t c).mlo = p.value.setWidth 32
      | .acc x => (settleCtx t c).x[x.val] = p.value := by
  obtain ⟨hproducts, hmhi, hmlo, hx⟩ := settleCtx_shows t c
  simp only [hp, List.filter_cons, List.filter_nil, hdue, decide_true, Bool.not_true, Bool.false_eq_true, if_true, if_false,
    List.foldl_cons, List.foldl_nil] at hproducts hmhi hmlo hx
  obtain ⟨dest, value, lands⟩ := p
  cases dest with
  | pair => exact ⟨hproducts, by rw [hmhi, hmlo]; exact append_halves value⟩
  | acc x => exact ⟨hproducts, by simp [hx, landOne, Ctx.setX]⟩

theorem settleCtx_early {c : Ctx} {t : Nat} {p : Product} (hp : c.products = [p]) (hearly : t < p.lands) :
    (settleCtx t c).mhi = c.mhi ∧ (settleCtx t c).mlo = c.mlo ∧ (settleCtx t c).x = c.x := by
  have hshows := (settleCtx_shows t c).2
  simpa [hp, Nat.not_le.mpr hearly] using hshows

end Sys2Proof.Machine.State

namespace Sys2Proof.Machine
open State

/-- Settles O5: the three multiplies by `issue_product`, what lands by the case of the one product's cycle. -/
theorem multiplies : Obligations.Multiplies := by
  unfold Obligations.Multiplies
  refine ⟨fun s i a b x long => ⟨fun hready => ⟨⟨_, rfl, ?_⟩, ⟨_, rfl, ?_⟩⟩, fun hready => ⟨_, rfl, ?_⟩⟩,
    fun c t p hp => ⟨settleCtx_due hp, settleCtx_early hp⟩⟩
  · exact issue_product hready fun c => mulU_eq _ _
  · exact issue_product hready fun c => mulS_eq _ _
  · exact issue_product (long := true) hready fun c => congrArg (accNow c x + ·) (BitVec.ofInt_mul ..).symm

end Sys2Proof.Machine

end

/-!
# System and context control

A CTX instruction of context 0 is told by what it does in the state that its issue leaves (`ctxCmd_done`); the context that it
names is another one there.
-/

section

namespace Sys2Proof.Machine.State

variable {s t u : State} {i : Issue}

/-! ### The instruction cache, the timer and breakpoints -/

theorem icinv_empties (hready : s.Ready i [] 2) :
    Completes (.icinv i) s (fun t => RegsOnly s t i 2 id ∧ (t.core i.id.w i.id.core.ix).icache = []) := by
  refine ⟨_, rfl, issue_passes (long := false) hready rfl fun x => ?_,
    (issue_done_core (v := Core.icache) (long := false) hready (by rfl) (fun _ _ => rfl) _ _).trans ?_⟩
  · refine Quiet.trans ?_ (quiet_cost _ x _ _ _)
    exact quiet_updCore _ x _ _ _ fun _ => rfl
  · simp [cost, notBefore]

theorem icinvMem_drops {n : Fin 8} {disp : BitVec 10} (hready : s.Ready i [.a n] 4 none [.a n]) :
    Completes (.icinvMem i ⟨n, .disp disp, true⟩) s (fun t => RegsOnly s t i 4 id ∧
      ((s.ctx i.id).a[n.val] + disp.signExtend 24).toNat / 32 ∉ (t.core i.id.w i.id.core.ix).icache) := by
  refine ⟨_, rfl, issue_passes (long := true) hready rfl fun x => quiet_updCore _ x _ _ _ fun _ => rfl, fun hmem => ?_⟩
  have hdropped := Eq.subst (motive := fun l => _ ∈ l)
    (issue_done_core (v := Core.icache) (long := true) hready (by rfl) (fun _ _ => rfl) _ _) hmem
  simp at hdropped

theorem tdisarm_disarms (hready : s.Ready i [] 2) :
    Completes (.tdisarm i) s (fun t => RegsOnly s t i 2 (fun c => { c with armed := false })) :=
  ⟨_, rfl, issue_regsOnly s (long := false) hready rfl rfl⟩

/-- A breakpoint that does not halt is a NOP. -/
theorem bkpt_passes (hready : s.Ready i [] 2) (hno : ((s.ctx i.id).bkpt && s.debugAllowed i.id.w i.id.c.val) = false) :
    Completes (.bkpt i) s (fun t => RegsOnly s t i 2 id) := by
  have hpass : ¬ (s.mayIssue i [] && (s.ctx i.id).bkpt && s.debugAllowed i.id.w i.id.c.val) = true := by
    rw [Bool.and_assoc, hno, Bool.and_false]
    decide
  exact ⟨_, congrArg Host.Outcome.next (if_neg hpass), issue_passes (long := false) hready rfl fun x => .refl _ x⟩

theorem bkpt_halts (hready : s.Ready i [] 2) (hbkpt : (s.ctx i.id).bkpt = true) (hallowed : s.debugAllowed i.id.w i.id.c.val = true) :
    Completes (.bkpt i) s (fun t => (t.ctx i.id).state = .halted ∧ (t.ctx i.id).pcx = (s.ctx i.id).pcx ∧
      (t.ctx i.id).a = (s.ctx i.id).a ∧ (t.ctx i.id).d = (s.ctx i.id).d ∧ Elsewhere s t i.id) := by
  have hhalt : (s.mayIssue i [] && (s.ctx i.id).bkpt && s.debugAllowed i.id.w i.id.c.val) = true := by
    rw [hready.1, hbkpt, hallowed]
    rfl
  refine ⟨_, congrArg Host.Outcome.next (if_pos hhalt), by simp, by simp, by simp, by simp, ?_⟩
  exact (((quiet_updCtx s i.id _).trans (quiet_setCtxState _ i.id _)).trans (quiet_count _ i.id _ _)).elsewhere

/-! ### What a context instruction reads of another context -/

theorem Quiet.coreCfg (h : Quiet s t i.id) (w : WytheIx) (k off : Nat) : t.coreCfg w k off = s.coreCfg w k off := by
  have hpausing : (t.course w (k / 8)).pausing = (s.course w (k / 8)).pausing := (congrArg Course.pausing (h.course w (k / 8)) :)
  simp only [State.coreCfg, hpausing, stPrevious, stActive, h.1.1, h.1.2]

theorem chaseOwned_fetched (s : State) (i : Issue) (y : CtxId) : (s.fetched i).chaseOwned y = s.chaseOwned y := by
  simp only [chaseOwned, (quiet_fetched s i none).coreCfg]

section
variable {y : CtxId} (hy : y ≠ i.id)
include hy

theorem fetched_ctx_other (half : Option Half) : (s.fetched i half).ctx y = s.ctx y := (quiet_fetched s i half).ctx y hy

theorem ctxIdle_fetched : (s.fetched i).ctxIdle y = s.ctxIdle y := by simp only [ctxIdle, fetched_ctx_other hy]

end

/-! ### A context that is to stop -/

theorem landAll_keeps (c : Ctx) : (landAll c).pcx = c.pcx ∧ (landAll c).a = c.a ∧ (landAll c).d = c.d := by
  obtain ⟨hpcx, -, -, ha, hd, -⟩ := landFold_keeps c.products { c with products := [] }
  unfold landAll
  dsimp only
  split <;> exact ⟨hpcx, ha, hd⟩

/-- A context as CTXSTOP leaves it once nothing is outstanding. -/
def stoppedCtx (c : Ctx) : Ctx := { landAll c with stopDue := false, stepping := false, state := .stopped }

theorem stopIfDone_ctx (s : State) (x : CtxId) : (s.stopIfDone x).ctx x =
    if (s.ctx x).stopDue && (s.ctx x).loads.isEmpty && (s.ctx x).looks.isEmpty then stoppedCtx (s.ctx x) else s.ctx x := by
  unfold stopIfDone
  dsimp only
  split
  · simp [stoppedCtx]
  · rfl

/-! ### A context instruction of context 0 -/

section
variable {reads : List Reg} {ok acts : State → Bool} {f : State → State}

/-- What a CTX instruction does. -/
def ctxEffect (i : Issue) (ok acts : State → Bool) (f : State → State) (s : State) : Effect :=
  if i.id.x ≠ 0 || !ok s then s.illegal i.id
  else .done ((s.onlyIf (acts s) f).updCtx i.id (fun c => { c with sr := setZ c.sr (acts s) }))

theorem ctxCmd_eq : s.ctxCmd i reads ok acts f = s.issue i true reads (ctxEffect i ok acts f) := rfl

theorem ctxEffect_master (hx : i.id.x = 0) (hok : ok s = true) :
    ctxEffect i ok acts f s = .done ((s.onlyIf (acts s) f).updCtx i.id (fun c => { c with sr := setZ c.sr (acts s) })) :=
  if_neg (by simp [hx, hok])

theorem ctxEffect_illegal (hok : ok s = false) : ctxEffect i ok acts f s = s.illegal i.id := if_pos (by simp [hok])

/-- A ready CTX instruction sets Z by whether it acts, beside what it does then. -/
theorem ctxCmd_done {z : Bool} {g : Ctx → Ctx} {y : CtxId} (hx : i.id.x = 0) (hy : y ≠ i.id) (hready : s.Ready i reads 4)
    (hok : ok (s.fetched i) = true) (hacts : acts (s.fetched i) = z) (hctx : ((s.fetched i).onlyIf z f).ctx i.id = g (s.settled i))
    (hg : ∀ c, (g c).state = c.state ∧ (g c).sr = c.sr) :
    Advanced s (s.ctxCmd i reads ok acts f) i 4 (fun c => { g c with sr := setZ c.sr z }) ∧
      (s.ctxCmd i reads ok acts f).ctx y = ((s.fetched i).onlyIf z f).ctx y := by
  have heffect := ctxEffect_master (acts := acts) (f := f) hx hok
  rw [hacts] at heffect
  obtain ⟨hadvanced, hquiet⟩ := issue_completes (long := true) (g := fun c => { g c with sr := setZ c.sr z }) hready heffect
    (by rw [ctx_updCtx_same, hctx, (hg _).2]) (hg _).1
  exact ⟨hadvanced, (hquiet.ctx y hy).trans (ctx_updCtx_ne _ _ hy)⟩

/-- One that does not act clears Z and leaves the context that it names. -/
theorem ctxCmd_idle {y : CtxId} (hx : i.id.x = 0) (hy : y ≠ i.id) (hready : s.Ready i reads 4) (hok : ok (s.fetched i) = true)
    (hacts : acts (s.fetched i) = false) :
    Advanced s (s.ctxCmd i reads ok acts f) i 4 (fun c => { id c with sr := setZ c.sr false }) ∧
      (s.ctxCmd i reads ok acts f).ctx y = s.ctx y :=
  have ⟨hadvanced, hother⟩ := ctxCmd_done (f := f) (g := id) hx hy hready hok hacts (fetched_ctx s i none) fun _ => ⟨rfl, rfl⟩
  ⟨hadvanced, hother.trans (fetched_ctx_other hy none)⟩

/-- One that acts on the context it names alone sets Z. -/
theorem ctxCmd_acts {y : CtxId} (hx : i.id.x = 0) (hy : y ≠ i.id) (hready : s.Ready i reads 4) (hok : ok (s.fetched i) = true)
    (hacts : acts (s.fetched i) = true) (hctx : (f (s.fetched i)).ctx i.id = (s.fetched i).ctx i.id) :
    Advanced s (s.ctxCmd i reads ok acts f) i 4 (fun c => { id c with sr := setZ c.sr true }) ∧
      (s.ctxCmd i reads ok acts f).ctx y = (f (s.fetched i)).ctx y :=
  ctxCmd_done hx hy hready hok hacts (hctx.trans (fetched_ctx s i none)) fun _ => ⟨rfl, rfl⟩

end

/-! ### The four of them -/

section
variable {c : CtxIx} {n m : Fin 16} {y : CtxId}

theorem sib_ne (hx : i.id.x = 0) (hc : c ≠ 0) : CtxId.sib i.id c ≠ i.id := fun h => hc ((congrArg CtxId.x h).trans hx)

/-- The operands that CTXSET may have. -/
def ctxsetOk (i : Issue) (c : CtxIx) (r : Reg) (m : Fin 16) : Bool := sibRegOk c r && !Reg.readOnly r && regOk i.id (.d m) false false

/-- What CTXSET does to the context that it names. -/
def ctxsetDoes (i : Issue) (c : CtxIx) (r : Reg) (m : Fin 16) (s : State) : State :=
  (s.settleOne (CtxId.sib i.id c)).writeReg (CtxId.sib i.id c) r false (.d (s.ctx i.id).d[m.val])

variable (hx : i.id.x = 0) (hc : c ≠ 0)
include hx hc

theorem ctxset_writes (hready : s.Ready i [.d m] 4) (hidle : s.ctxIdle (CtxId.sib i.id c) = true) :
    Completes (.ctxset i c (.d n) (.d m)) s (fun t => Advanced s t i 4 (fun c => { id c with sr := setZ c.sr true }) ∧
      (t.ctx (CtxId.sib i.id c)).d[n.val] = (s.ctx i.id).d[m.val] ∧ (t.ctx (CtxId.sib i.id c)).a = (s.ctx (CtxId.sib i.id c)).a ∧
      (t.ctx (CtxId.sib i.id c)).pcx = (s.ctx (CtxId.sib i.id c)).pcx) := by
  have hy := sib_ne hx hc
  have hown : ∀ u : State, (ctxsetDoes i c (.d n) m u).ctx i.id = u.ctx i.id :=
    fun u => (ctx_updCtx_ne _ _ hy.symm).trans (ctx_updCtx_ne _ _ hy.symm)
  refine ⟨_, rfl, ?_⟩
  obtain ⟨hadvanced, hsib⟩ := ctxCmd_acts (ok := fun _ => ctxsetOk i c (.d n) m) (acts := fun s => s.ctxIdle (CtxId.sib i.id c))
    (f := ctxsetDoes i c (.d n) m) hx hy hready rfl ((ctxIdle_fetched hy).trans hidle) (hown _)
  obtain ⟨hpcx, -, -, ha, -⟩ := settleCtx_keeps ((s.fetched i).core i.id.w i.id.core.ix).cycle (s.ctx (CtxId.sib i.id c))
  have hwritten := hsib.trans (ctx_updCtx_same _ _ _)
  rw [settleOne, ctx_updCtx_same, fetched_ctx_other hy] at hwritten
  exact ⟨hadvanced, (congrArg (·.d[n.val]) hwritten).trans (by simp [Ctx.setD, RVal.to16]), (congrArg Ctx.a hwritten).trans ha,
    (congrArg Ctx.pcx hwritten).trans hpcx⟩

theorem ctxset_idle (hready : s.Ready i [.d m] 4) (hidle : s.ctxIdle (CtxId.sib i.id c) = false) :
    Completes (.ctxset i c (.d n) (.d m)) s (fun t => Advanced s t i 4 (fun c => { id c with sr := setZ c.sr false }) ∧
      t.ctx (CtxId.sib i.id c) = s.ctx (CtxId.sib i.id c)) :=
  have hy := sib_ne hx hc
  ⟨_, rfl, ctxCmd_idle hx hy hready rfl ((ctxIdle_fetched hy).trans hidle)⟩

theorem ctxset_pcx_faults (hready : s.Ready i [.d m] 4) (hs : s.Canon) (honce : s.FaultsOnce i.id) :
    Completes (.ctxset i c .pcx (.d m)) s (fun t => Faulted s t i 0x04 (s.ctx i.id).pcx.toNat ∧
      t.ctx (CtxId.sib i.id c) = s.ctx (CtxId.sib i.id c)) := by
  have hy := sib_ne hx hc
  refine ⟨_, rfl, ?_⟩
  have heffect : ctxEffect i (fun _ => ctxsetOk i c .pcx m) (fun s => s.ctxIdle (CtxId.sib i.id c)) (ctxsetDoes i c .pcx m) (s.fetched i) =
      .fault 0x04 (s.ctx i.id).pcx.toNat (s.fetched i) := (ctxEffect_illegal rfl).trans (by rw [illegal, fetched_ctx, settled_pcx]; rfl)
  obtain ⟨hfaulted, hquiet⟩ := issue_faulted (long := true) hready heffect hs honce
  exact ⟨hfaulted, hquiet.ctx _ hy⟩

theorem ctxget_reads (hready : s.Ready i [] 4) (hidle : s.ctxIdle (CtxId.sib i.id c) = true) :
    Completes (.ctxget i (.d n) c (.d m)) s (fun t =>
      Advanced s t i 4 (fun k => { k.setD n (s.ctx (CtxId.sib i.id c)).d[m.val] with sr := setZ k.sr true })) := by
  have hy := sib_ne hx hc
  refine ⟨_, rfl, (ctxCmd_done (g := fun k => k.setD n (s.ctx (CtxId.sib i.id c)).d[m.val]) hx hy hready rfl ((ctxIdle_fetched hy).trans hidle)
    ?_ fun _ => ⟨rfl, rfl⟩).1⟩
  obtain ⟨-, -, -, -, hd, -⟩ := settleCtx_keeps ((s.fetched i).core i.id.w i.id.core.ix).cycle (s.ctx (CtxId.sib i.id c))
  have hread : (((s.fetched i).settleOne (CtxId.sib i.id c)).ctx (CtxId.sib i.id c)).d = (s.ctx (CtxId.sib i.id c)).d := by
    rw [settleOne, ctx_updCtx_same, fetched_ctx_other hy]
    exact hd
  have hown : ((s.fetched i).settleOne (CtxId.sib i.id c)).ctx i.id = s.settled i := (ctx_updCtx_ne _ _ hy.symm).trans (fetched_ctx s i none)
  refine (updCore_ctx _ _ _ _ _).trans ((ctx_updCtx_same _ _ _).trans ?_)
  exact congrArg₂ (fun (k : Ctx) (d : Vector W16 16) => k.setD n d[m.val]) hown hread

theorem ctxgo_starts (hready : s.Ready i [] 4) (hidle : s.ctxIdle (CtxId.sib i.id c) = true) :
    Completes (.ctxgo i c) s (fun t => Advanced s t i 4 (fun c => { id c with sr := setZ c.sr true }) ∧
      t.ctx (CtxId.sib i.id c) = { s.ctx (CtxId.sib i.id c) with state := .running }) := by
  have hy := sib_ne hx hc
  refine ⟨_, rfl, ?_⟩
  obtain ⟨hadvanced, hsib⟩ := ctxCmd_acts (ok := fun _ => true) (acts := fun s => s.ctxIdle (CtxId.sib i.id c))
    (f := fun s => s.setCtxState (CtxId.sib i.id c) .running) hx hy hready rfl ((ctxIdle_fetched hy).trans hidle)
    ((quiet_setCtxState _ _ _).ctx _ hy.symm)
  exact ⟨hadvanced, hsib.trans (by rw [setCtxState_ctx, fetched_ctx_other hy])⟩

theorem ctxgo_idle (hready : s.Ready i [] 4) (hidle : s.ctxIdle (CtxId.sib i.id c) = false) :
    Completes (.ctxgo i c) s (fun t => Advanced s t i 4 (fun c => { id c with sr := setZ c.sr false }) ∧
      t.ctx (CtxId.sib i.id c) = s.ctx (CtxId.sib i.id c)) :=
  have hy := sib_ne hx hc
  ⟨_, rfl, ctxCmd_idle hx hy hready rfl ((ctxIdle_fetched hy).trans hidle)⟩

theorem ctxstop_stops (hready : s.Ready i [] 4) (hmaster : s.chaseOwned (CtxId.sib i.id c) = false)
    (hat : (s.ctx (CtxId.sib i.id c)).state = .running ∨ (s.ctx (CtxId.sib i.id c)).state = .waiting) :
    Completes (.ctxstop i c) s (fun t => Advanced s t i 4 (fun c => { id c with sr := setZ c.sr true }) ∧
      (if (s.ctx (CtxId.sib i.id c)).loads = [] ∧ (s.ctx (CtxId.sib i.id c)).looks = [] then (t.ctx (CtxId.sib i.id c)).state = .stopped
        else (t.ctx (CtxId.sib i.id c)).state = (s.ctx (CtxId.sib i.id c)).state ∧ (t.ctx (CtxId.sib i.id c)).stopDue = true) ∧
      (t.ctx (CtxId.sib i.id c)).pcx = (s.ctx (CtxId.sib i.id c)).pcx ∧ (t.ctx (CtxId.sib i.id c)).d = (s.ctx (CtxId.sib i.id c)).d ∧
      (t.ctx (CtxId.sib i.id c)).a = (s.ctx (CtxId.sib i.id c)).a) := by
  have hy := sib_ne hx hc
  have hacts : (!(s.fetched i).chaseOwned (CtxId.sib i.id c) && (((s.fetched i).ctx (CtxId.sib i.id c)).state == .running ||
      ((s.fetched i).ctx (CtxId.sib i.id c)).state == .waiting)) = true := by
    rw [chaseOwned_fetched, hmaster, fetched_ctx_other hy]
    simpa using hat
  refine ⟨_, rfl, ?_⟩
  obtain ⟨hadvanced, hsib⟩ := ctxCmd_acts (ok := fun _ => true) (acts := fun s => !s.chaseOwned (CtxId.sib i.id c) &&
      ((s.ctx (CtxId.sib i.id c)).state == .running || (s.ctx (CtxId.sib i.id c)).state == .waiting))
    (f := fun s => (s.updCtx (CtxId.sib i.id c) (fun c => { c with stopDue := true })).stopIfDone (CtxId.sib i.id c)) hx hy hready rfl hacts
    (((quiet_stopIfDone _ _).ctx _ hy.symm).trans (ctx_updCtx_ne _ _ hy.symm))
  rw [stopIfDone_ctx, ctx_updCtx_same, fetched_ctx_other hy] at hsib
  refine ⟨hadvanced, ?_⟩
  by_cases hdone : (s.ctx (CtxId.sib i.id c)).loads = [] ∧ (s.ctx (CtxId.sib i.id c)).looks = []
  · obtain ⟨hpcx, ha, hd⟩ := landAll_keeps { s.ctx (CtxId.sib i.id c) with stopDue := true }
    replace hsib := hsib.trans (if_pos (by simp [hdone]))
    rw [if_pos hdone]
    exact ⟨congrArg Ctx.state hsib, (congrArg Ctx.pcx hsib).trans hpcx, (congrArg Ctx.d hsib).trans hd, (congrArg Ctx.a hsib).trans ha⟩
  · replace hsib := hsib.trans (if_neg (by simpa using hdone))
    rw [if_neg hdone]
    exact ⟨⟨(congrArg Ctx.state hsib :), (congrArg Ctx.stopDue hsib :)⟩, (congrArg Ctx.pcx hsib :), (congrArg Ctx.d hsib :),
      (congrArg Ctx.a hsib :)⟩

theorem ctxstop_owned (hready : s.Ready i [] 4) (howned : s.chaseOwned (CtxId.sib i.id c) = true) :
    Completes (.ctxstop i c) s (fun t => Advanced s t i 4 (fun c => { id c with sr := setZ c.sr false }) ∧
      t.ctx (CtxId.sib i.id c) = s.ctx (CtxId.sib i.id c)) :=
  ⟨_, rfl, ctxCmd_idle hx (sib_ne hx hc) hready rfl (by rw [ctxTarget, chaseOwned_fetched, howned]; rfl)⟩

end

end Sys2Proof.Machine.State

namespace Sys2Proof.Machine
open State

/-- Settles O7: each clause is the lemma of its instruction. -/
theorem systemAndContexts : Obligations.SystemAndContexts := by
  unfold Obligations.SystemAndContexts
  refine ⟨fun s i => ⟨fun hready => ⟨icinv_empties hready, tdisarm_disarms hready, fun hno => bkpt_passes hready (by rw [hno]; rfl),
    fun hbkpt hno => bkpt_passes hready (by rw [hbkpt, hno]; rfl), bkpt_halts hready⟩, fun n disp => icinvMem_drops⟩,
    fun s i c n m hx hc => ⟨ctxset_writes hx hc, ctxset_pcx_faults hx hc, ctxset_idle hx hc, ctxget_reads hx hc, ctxgo_starts hx hc,
      ctxgo_idle hx hc, ctxstop_stops hx hc, ctxstop_owned hx hc⟩⟩

end Sys2Proof.Machine

end

/-!
# The books that an issue keeps

Between a context's issue and its instruction's effect the core counts, samples and fetches. `Books x R` says that a relation
of states holds over each step of that; it then holds over all of them but the count of the issue itself (`Books.fetched`).
-/

section

namespace Sys2Proof.Machine.State

variable {s t : State} {i : Issue} {x : CtxId} {R : State → State → Prop}

theorem CtxId.core_ix_lt (x : CtxId) : x.core.ix < 48 := by
  have hc := x.c.isLt
  have hk := x.k.isLt
  simp only [CtxId.core, CoreId.ix, coreIx]
  omega

/-- The counters of the issues of a core, alone and in a pair (R155, R173). -/
def issueCtrs (x : CtxId) : List Nat := [pgCore x.w x.core.ix + 0x40, pgCore x.w x.core.ix + 0x48]

/-- `R` holds over each change that keeps the books of a core's issues, the two counters of the issues aside. -/
structure Books (x : CtxId) (R : State → State → Prop) : Prop where
  refl : ∀ s, R s s
  trans : ∀ {s t u}, R s t → R t u → R s u
  core : ∀ s f, R s (s.updCore x.w x.core.ix f)
  task : ∀ s n f, R s (s.updTcb x.w n f)
  own : ∀ s f, R s (s.updCtx x f)
  count : ∀ s {a} n, a ∉ issueCtrs x → R s (s.count a n)
  raise : ∀ s n, R s (s.raiseBit (pgPerf x.w x.core.ix) n)

namespace Books
variable (h : Books x R)
include h

theorem onlyIf (s : State) (b : Bool) {f : State → State} (hf : ∀ s, R s (f s)) : R s (s.onlyIf b f) := by
  unfold State.onlyIf
  split
  · exact hf s
  · exact h.refl s

theorem each {α : Type} {f : State → α → State} (l : List α) (s : State) (hf : ∀ s, ∀ e ∈ l, R s (f s e)) : R s (s.each l f) := by
  induction l generalizing s with
  | nil => exact h.refl s
  | cons e l ih => exact h.trans (hf s e (by simp)) (ih (f s e) fun s x hx => hf s x (by simp [hx]))

/-- The counters of the core's other pages are not those of its issues. -/
theorem countPerf (s : State) {o : Nat} (ho : o < 0x1000) (n : Nat) : R s (s.count (pgPerf x.w x.core.ix + o) n) := by
  refine h.count s n ?_
  have hix := CtxId.core_ix_lt x
  simp only [issueCtrs, List.mem_cons, List.not_mem_nil, or_false, pgPerf, pgCore]
  omega

theorem pmcOne (s : State) {n : Nat} (hn : n < 8) (c : Option CtxIx) (k : Nat) : R s (s.pmcOne x.w x.core.ix n c k) := by
  have hcount : R s (s.count (pmcCtr x.w x.core.ix n) k) := by
    rw [pmcCtr, Nat.add_assoc]
    exact h.countPerf s (by omega) k
  unfold State.pmcOne
  extract_lets a s1 s2 left
  have h2 : R s s2 := by
    unfold s2
    split
    · exact h.trans hcount (h.raise _ 0)
    · exact hcount
  split
  · exact h2
  · split
    · exact h.trans h2 (h.core s2 _)
    · exact h.trans h2 (h.core s2 _)

theorem pmc (s : State) (code : Nat) (c : Option CtxIx) (k : Nat) : R s (s.pmc x.w x.core.ix code c k) :=
  h.each _ s fun s n hn => h.onlyIf s _ (f := fun s => s.pmcOne x.w x.core.ix n c k) fun s => h.pmcOne s (List.mem_range.mp hn) c k

theorem nameSample (s : State) (d : SampleDue) (n : CtxIx) (pc : W24) (task : Option TcbIx) (next : Bool) :
    R s (s.nameSample x.w x.core.ix d n pc task next) := by
  unfold State.nameSample
  extract_lets s1 w0 w2 first s2
  have h1 : R s s1 := h.core s _
  have h2 : R s s2 := h.trans h1 (h.trans (h.core s1 _) (h.countPerf _ (by decide) 1))
  split
  · exact h.trans h1 (h.countPerf s1 (by decide) 1)
  · split
    · exact h.trans h2 (h.raise s2 1)
    · exact h2

theorem nameSamples (s : State) (n : CtxIx) (c : Ctx) (own : Bool) : R s (s.nameSamples x.w x.core.ix n c own) := by
  unfold State.nameSamples
  extract_lets s1
  have h1 : R s s1 := by
    unfold s1
    split
    · exact h.core s _
    · exact h.refl s
  exact h.trans h1 (h.each _ s1 fun s _ _ => h.each _ s fun s d _ => h.nameSample s d n _ _ _)

theorem takeCycle (s : State) (t gap : Nat) : R s (s.takeCycle x t gap) := by
  have hgap : pgCore x.w x.core.ix + 0x50 ∉ issueCtrs x := by simp [issueCtrs]
  unfold State.takeCycle
  refine h.trans (h.trans (h.trans (h.core s _) (h.core _ _)) (h.onlyIf _ _ fun s => ?_)) (h.pmc _ _ _ _)
  exact h.trans (h.count s gap hgap) (h.pmc _ _ _ _)

theorem waitingEnds (s : State) (t : Nat) : R s (s.waitingEnds x t) := by
  unfold State.waitingEnds
  split
  · exact h.refl s
  · exact h.task s _ _

theorem cacheLine (s : State) (pc : Nat) : R s (s.cacheLine x pc) := by
  unfold State.cacheLine
  extract_lets i l k set keep
  split
  · exact h.refl s
  · exact h.trans (h.core s _) (h.pmc _ _ _ _)

end Books

/-- The counter of an issue: PAIRS for the second of a pair (R155). -/
def issueCtr (i : Issue) : Nat := pgCore i.id.w i.id.core.ix + if i.pair then 0x48 else 0x40

namespace Books
variable (h : Books i.id R)
include h

theorem fetchCheck (s : State) (pc : Nat) (hecc : i.fetchEcc ≠ .uncorrectable) : R s (s.fetchCheck i pc) := by
  have hbank : pgBanks i.id.w i.id.c.val + 0x50 ∉ issueCtrs i.id := by
    have hc := i.id.c.isLt
    simp only [issueCtrs, List.mem_cons, List.not_mem_nil, or_false, pgBanks, pgCore]
    omega
  unfold State.fetchCheck
  split
  · exact h.refl s
  · split
    · exact h.refl s
    · exact h.count s 1 hbank
    · next hun => exact absurd hun hecc

theorem countPair (s : State) : ∃ u, R s u ∧ R (u.count (pgCore i.id.w i.id.core.ix + 0x48) 1) (s.countPair i) := by
  unfold State.countPair
  refine ⟨_, ?_, h.trans (h.pmc _ _ _ _) (h.pmc _ _ _ _)⟩
  exact h.trans (h.nameSamples s i.id.x (s.ctx i.id) false) (h.core _ _)

theorem countAlone (s : State) (half : Option Half) :
    ∃ u, R s u ∧ R (u.count (pgCore i.id.w i.id.core.ix + 0x40) 1) (s.countAlone i half) := by
  unfold State.countAlone
  refine ⟨_, ?_, h.trans (h.pmc _ _ _ _) (h.pmc _ _ _ _)⟩
  exact h.trans (h.trans (h.takeCycle s (s.issueCycle i) i.gap) (h.nameSamples _ i.id.x (s.ctx i.id) true)) (h.core _ _)

/-- An issue counts once in its own counter, and keeps the books before and after. -/
theorem countIssue (s : State) (half : Option Half) : ∃ u, R s u ∧ R (u.count (issueCtr i) 1) (s.countIssue i half) := by
  unfold State.countIssue issueCtr
  by_cases hpair : i.pair = true
  · simpa only [if_pos hpair] using h.countPair s
  · simpa only [if_neg hpair] using h.countAlone s half

theorem fetched (s : State) (half : Option Half) (hecc : i.fetchEcc ≠ .uncorrectable) :
    ∃ u, R s u ∧ R (u.count (issueCtr i) 1) (s.fetched i half) := by
  obtain ⟨u, hbefore, hafter⟩ := h.countIssue s half
  refine ⟨u, hbefore, h.trans hafter ?_⟩
  exact h.trans (h.trans (h.trans (h.waitingEnds _ _) (h.own _ _)) (h.fetchCheck _ _ hecc)) (h.cacheLine _ _)

end Books

end Sys2Proof.Machine.State

end

/-!
# Accesses that fault

Why a load or a store faults is read off the state before its issue (`accessFault_unmapped`, `accessFault_unaligned`,
`accessFault_byteWindow`); the fault leaves its context's registers and, but for the cores, contexts and tasks, its wythe.
-/

section

namespace Sys2Proof.Machine.State

variable {s t u : State} {x : CtxId} {i : Issue}

/-! ### Which accesses fault -/

theorem touchesDevice_of_device {a size d : Nat} (h : areaOf x (s.ctx x).sr a = .device d) : s.touchesDevice x a size = true := by
  simp [touchesDevice, h]

/-- A 16-bit or 32-bit access to a device window that is not aligned (R169). -/
theorem accessFault_unaligned {a size d : Nat} (h : areaOf x (s.ctx x).sr a = .device d)
    (halign : (if size = 4 then a % 4 != 0 else size == 2 && a % 2 != 0) = true) : s.accessFault x a size = some (0x03, a) := by
  rw [accessFault, touchesDevice_of_device h, halign]
  rfl

/-- A byte access to a device window (R190). -/
theorem accessFault_byteWindow {a d : Nat} (h : areaOf x (s.ctx x).sr a = .device d) : s.accessFault x a 1 = some (0x03, a) := by
  simp [accessFault, accessParts, partFault, h]

/-- A 16-bit access where nothing is mapped (R187). -/
theorem accessFault_unmapped {a : Nat} (h : areaOf x (s.ctx x).sr a = .unmapped)
    (heven : areaOf x (s.ctx x).sr (a - a % 2) = .unmapped) : s.accessFault x a 2 = some (0x07, a - a % 2) := by
  simp [accessFault, touchesDevice, accessParts, partFault, h, heven, fUNMAPPED]

/-- An effective address is made of the address and data registers (R185). -/
theorem effAddr_congr {c c' : Ctx} (ha : c'.a = c.a) (hd : c'.d = c.d) (m : MemOp) (size : Nat) : effAddr c' m size = effAddr c m size := by
  simp only [effAddr, ha, hd]

theorem effAddr_fetched (s : State) (i : Issue) (half : Option Half) (m : MemOp) (size : Nat) :
    effAddr ((s.fetched i half).ctx i.id) m size = effAddr (s.ctx i.id) m size := effAddr_congr (by simp) (by simp) m size

/-! ### What a fault leaves -/

/-- A wythe but for its cores, contexts and tasks. -/
def sansMason (y : Wythe) : Wythe := { y with cores := [], ctxs := [], tcbs := [] }

/-- A context that has faulted (R170). -/
def faultedCtx (c : Ctx) : Ctx := { c with stepping := false, stopDue := false, state := .faulted }

theorem books_only (x : CtxId) : Books x (fun s t => Only s t (·.updWy x.w sansMason)) where
  refl s := .refl s _
  trans h₁ h₂ := h₁.trans h₂
  core s _ := (Only.refl s _).change fun _ => rfl
  task s _ _ := (Only.refl s _).change fun _ => rfl
  own s _ := (Only.refl s _).change fun _ => rfl
  count s a n _ := only_count s a n x.w sansMason
  raise s n := (Only.refl s _).same (essence_raiseBit s _ n)

theorem only_fetched (s : State) {i : Issue} (half : Option Half) (hecc : i.fetchEcc ≠ .uncorrectable) :
    Only s (s.fetched i half) (·.updWy i.id.w sansMason) := by
  obtain ⟨u, hbefore, hafter⟩ := (books_only i.id).fetched s half hecc
  exact (hbefore.trans (only_count u (issueCtr i) 1 i.id.w sansMason)).trans hafter

theorem only_faultOnce (s : State) (x : CtxId) (code addr : Nat) : Only s (s.faultOnce x code addr) (·.updWy x.w sansMason) := by
  have hb := books_only x
  have hrecord : Only s (s.recordFault x code addr) (·.updWy x.w sansMason) := by
    unfold recordFault
    refine Only.trans ?_ (hb.pmc _ _ _ _)
    exact (Only.refl s _).same (essence_count _ _ _)
  have hstate : ∀ s : State, Only s (s.setCtxState x .faulted) (·.updWy x.w sansMason) := fun s => by
    unfold setCtxState
    extract_lets s1 s2 s3 s4
    have h2 : Only s s2 (·.updWy x.w sansMason) := by
      unfold s2
      split
      · exact (hb.own s _).trans (hb.task _ _ _)
      · exact hb.own s _
    have h3 : Only s2 s3 (·.updWy x.w sansMason) := hb.onlyIf s2 _ (f := fun s => s.interrupt x.w x.core.ix 4) fun s => hb.core s _
    have h4 : s4 = s3 := by
      simp [s4, onlyIf]
    rw [h4]
    exact h2.trans h3
  exact ((hrecord.trans (hb.own _ _)).trans (hstate _)).trans (hb.core _ _)

/-- A fault of a context: recorded, with the context's registers and, but for cores, contexts and tasks, its wythe as they were. -/
def TurnedDown (s t : State) (i : Issue) (code addr : Nat) : Prop :=
  Faulted s t i code addr ∧ t.ctx i.id = faultedCtx (s.settled i) ∧ Only s t (·.updWy i.id.w sansMason)

/-- A ready instruction whose effect is a fault is turned down. -/
theorem issue_turnedDown {long : Bool} {reads addrs : List Reg} {f : State → Effect} {half : Option Half} {code addr : Nat}
    (hready : s.Ready i reads (if long then 4 else 2) half addrs) (hs : s.Canon) (honce : s.FaultsOnce i.id)
    (hf : f (s.fetched i half) = .fault code addr (s.fetched i half)) : TurnedDown s (s.issue i long reads f half addrs) i code addr := by
  have hhandlers : ((s.fetched i half).core i.id.w i.id.core.ix).handlers = (s.core i.id.w i.id.core.ix).handlers :=
    congrArg (·.2.2) (kept_fetched s i half)
  have honce' : (s.fetched i half).FaultsOnce i.id := by
    simpa only [FaultsOnce, Core.inFault, hhandlers] using honce
  have hissue : s.issue i long reads f half addrs = (s.fetched i half).faultOnce i.id code addr := by
    rw [issue_ready s hready, hf]
    exact fault_once honce'
  refine ⟨(issue_faulted hready hf hs honce).1, ?_, ?_⟩
  · rw [hissue, faultOnce_ctx, fetched_ctx]
    rfl
  · rw [hissue]
    exact (only_fetched s half hready.2.2).trans (only_faultOnce _ _ _ _)

/-! ### Loads and stores -/

section
variable {r : Reg} {m : MemOp} {size code p : Nat} {e : EffAddr} (hs : s.Canon) (honce : s.FaultsOnce i.id)
include hs honce

/-- An operand that the encoding reserves is ILLEGAL (R202). -/
theorem load_reserved (hr : memRegOk r size = true) (he : effAddr (s.ctx i.id) m size = none)
    (hready : s.Ready i (memReads m) (if m.long then 4 else 2) (s.accessHalf i.id (dataRegs r size) m size) [.a m.an]) :
    TurnedDown s (s.load i r m size) i 0x04 (s.ctx i.id).pcx.toNat := by
  unfold State.load
  refine issue_turnedDown hready hs honce ?_
  simp only [hr, effAddr_fetched, he, Bool.not_true, Bool.false_eq_true, if_false]
  rw [illegal, fetched_ctx, settled_pcx, fILLEGAL]

variable (hr : memRegOk r size = true) (he : effAddr (s.ctx i.id) m size = some e)
  (hfault : s.accessFault i.id e.addr.toNat size = some (code, p)) (hcode : code ≠ 1)
include hr he hfault hcode

theorem load_faults (hready : s.Ready i (memReads m) (if m.long then 4 else 2) (s.accessHalf i.id (dataRegs r size) m size) [.a m.an]) :
    TurnedDown s (s.load i r m size) i code p := by
  unfold State.load
  refine issue_turnedDown hready hs honce ?_
  simp only [hr, effAddr_fetched, he, accessFault_fetched, hfault, accessCheck, hcode, Option.isNone_some, Bool.false_and, Bool.not_true,
    Bool.false_eq_true, if_false]

theorem store_faults (hready : s.Ready i (dataRegs r size ++ memReads m) (if m.long then 4 else 2) (s.accessHalf i.id [] m size) [.a m.an]) :
    TurnedDown s (s.store i r m size) i code p := by
  unfold State.store
  refine issue_turnedDown hready hs honce ?_
  simp only [hr, effAddr_fetched, he, accessFault_fetched, hfault, hcode, Bool.not_true, Bool.false_eq_true, if_false]

end

/-! ### What the statements ask of a fault -/

theorem TurnedDown.registers {code addr : Nat} (h : TurnedDown s t i code addr) :
    Faulted s t i code addr ∧ (t.ctx i.id).a = (s.ctx i.id).a ∧ (t.ctx i.id).d = (s.ctx i.id).d := by
  obtain ⟨hfaulted, hctx, -⟩ := h
  exact ⟨hfaulted, by rw [hctx]; exact settled_a s i, by rw [hctx]; exact settled_d s i⟩

theorem TurnedDown.unmade {code addr : Nat} (h : TurnedDown s t i code addr) :
    Faulted s t i code addr ∧ (t.ctx i.id).loads = (s.settled i).loads ∧ (t.ctx i.id).d = (s.settled i).d ∧
      (t.ctx i.id).a = (s.settled i).a ∧ Only s t (·.updWy i.id.w (fun y => { y with cores := [], ctxs := [], tcbs := [] })) := by
  obtain ⟨hfaulted, hctx, honly⟩ := h
  exact ⟨hfaulted, by rw [hctx]; rfl, by rw [hctx]; rfl, by rw [hctx]; rfl, honly⟩

end Sys2Proof.Machine.State

namespace Sys2Proof.Machine
open State

/-- Settles O10: each clause is a load that faults, by why it does. -/
theorem accessFaults : Obligations.AccessFaults := by
  unfold Obligations.AccessFaults
  intro s i r m e hs honce
  refine ⟨fun he hr hready => ⟨fun heven hat => ?_, ?_⟩, fun he hr hready => ?_, fun hready hr => ?_⟩
  · exact ⟨_, rfl, (load_faults hs honce hr he (accessFault_unmapped hat heven) (by decide) hready).registers⟩
  · rintro hodd ⟨d, hd⟩
    exact ⟨_, rfl, (load_faults hs honce hr he (accessFault_unaligned hd (by simp [hodd])) (by decide) hready).registers⟩
  · rintro ⟨d, hd⟩
    exact ⟨_, rfl, (load_faults hs honce hr he (accessFault_byteWindow hd) (by decide) hready).registers⟩
  · exact ⟨_, rfl, (load_reserved hs honce hr rfl hready).1⟩

/-- Settles O58: each clause is a load or a store that faults as it is not aligned; a context but 0 faults once. -/
theorem unalignedWindows : Obligations.UnalignedWindows := by
  unfold Obligations.UnalignedWindows
  rintro s i r m size e he hr ⟨d, hd⟩ hx hs
  have honce : s.FaultsOnce i.id := fun h0 => absurd h0 hx
  refine ⟨?_, ?_⟩
  · rintro rfl halign
    have hfault := accessFault_unaligned (size := 4) hd (by simpa using halign)
    exact ⟨fun hready => ⟨_, rfl, (load_faults hs honce hr he hfault (by decide) hready).unmade⟩,
      fun hready => ⟨_, rfl, (store_faults hs honce hr he hfault (by decide) hready).unmade⟩⟩
  · rintro rfl hodd
    have hfault := accessFault_unaligned (size := 2) hd (by simp [hodd])
    exact ⟨fun hready => ⟨_, rfl, (load_faults hs honce hr he hfault (by decide) hready).unmade⟩,
      fun hready => ⟨_, rfl, (store_faults hs honce hr he hfault (by decide) hready).unmade⟩⟩

end Sys2Proof.Machine

end

/-!
# Issues alone and in pairs

What lets a second instruction issue with the first is read off `pairOk`; the counters of the issues are followed by `Spares`
through all that an issue counts besides (`issue_counts`).
-/

section

namespace Sys2Proof.Machine.State

variable {s t u : State} {i : Issue}

/-! ### The second of a pair -/

/-- The first of a pair, that an instruction of class `cls` with these operands may issue with (R155). -/
def PairsWith (s : State) (i : Issue) (cls : PairClass) (reads writes : List Reg) : Prop :=
  s.plumb i.id.w i.id.core.ix = false ∧ i.gap = 0 ∧ s.coreCfg i.id.w (8 * i.id.c.val) 0x124 &&& 8 = 8 ∧
    ∃ l, (s.core i.id.w i.id.core.ix).last = some l ∧ l.ctx = i.id.x ∧ l.cycle = (s.core i.id.w i.id.core.ix).cycle ∧ l.cls ≠ cls ∧
      (∀ q ∈ reads, q ∉ l.writes) ∧ ∀ q ∈ writes, q ∉ l.writes

theorem and_eight_of_flag {v : W32} (h : flag v 3 = true) : v &&& 8 = 8 := by
  rw [flag_eq_getLsbD] at h
  exact (BitVec.and_twoPow v 3).trans (if_pos h)

theorem pairsWith_of_pairOk {reads writes : List Reg} {cls : PairClass} (h : s.pairOk i reads (some (cls, writes)) = true)
    (hpair : i.pair = true) : PairsWith s i cls reads writes := by
  unfold pairOk at h
  cases hlast : (s.core i.id.w i.id.core.ix).last with
  | none => simp [hpair, hlast] at h
  | some l =>
    simp only [hpair, hlast, Bool.not_true, Bool.false_or, Bool.and_eq_true, beq_iff_eq, bne_iff_ne, Bool.not_eq_true', List.any_eq_false,
      List.contains_iff_mem] at h
    obtain ⟨⟨⟨⟨⟨⟨⟨hgap, hplumb⟩, hflag⟩, hctx⟩, hcycle⟩, hcls⟩, hreads⟩, hwrites⟩ := h
    exact ⟨hplumb, hgap, and_eight_of_flag hflag, l, hlast, hctx, hcycle, hcls, hreads, hwrites⟩

theorem pairOk_of_ready {reads addrs : List Reg} {len : Nat} {half : Option Half} (h : s.Ready i reads len half addrs) :
    s.pairOk i reads half = true := by
  have hmay := h.1
  simp only [mayIssue, Bool.and_eq_true] at hmay
  obtain ⟨⟨⟨⟨-, hpair⟩, -⟩, -⟩, -⟩ := hmay
  exact hpair

theorem alone_of_pairOk {reads : List Reg} (h : s.pairOk i reads none = true) : i.pair = false := by
  simpa [pairOk] using h

/-! ### The counters of the issues -/

theorem pageBase_issueCtr {x : CtxId} {a : Nat} (ha : a ∈ issueCtrs x) : pageBase a = pgCore x.w x.core.ix := by
  have hpage : pgCore x.w x.core.ix % 0x1000 = 0 := by unfold pgCore wyBase; omega
  simp only [issueCtrs, List.mem_cons, List.not_mem_nil, or_false] at ha
  rcases ha with rfl | rfl
  · exact pageBase_page_add hpage (by decide)
  · exact pageBase_page_add hpage (by decide)

theorem issueCtr_mem (i : Issue) : issueCtr i ∈ issueCtrs i.id := by
  unfold issueCtr issueCtrs
  split <;> simp

theorem books_spares (x : CtxId) {a : Nat} (ha : a ∈ issueCtrs x) : Books x (fun s t => Spares a s t ∧ (s.Canon → t.Canon)) where
  refl s := ⟨.refl a s, id⟩
  trans h₁ h₂ := ⟨h₁.1.trans h₂.1, h₂.2 ∘ h₁.2⟩
  core s _ := ⟨.updWy s _ _, ((Keeps.refl s).updCore).2⟩
  task s _ _ := ⟨.updWy s _ _, ((Keeps.refl s).updTcb).2⟩
  own s _ := ⟨.updWy s _ _, ((Keeps.refl s).updCtx).2⟩
  count s b n hb := ⟨.count s n fun hab => hb (hab ▸ ha), ((Keeps.refl s).count).2⟩
  raise s n := by
    refine ⟨.raiseBit s n ?_, ((Keeps.refl s).raiseBit).2⟩
    have hix := CtxId.core_ix_lt x
    rw [pageBase_page_add (by unfold pgPerf wyBase; omega) (by decide), pageBase_issueCtr ha]
    unfold pgPerf pgCore
    omega

theorem spares_updCtx {a : Nat} (s : State) (x : CtxId) (f : Ctx → Ctx) : Spares a s (s.updCtx x f) := .updWy s x.w _

theorem spares_addrResult {a : Nat} (s : State) (x : CtxId) (n : Fin 8) : Spares a s (s.addrResult x n) := .updWy s x.w _

theorem spares_setCtxState {a : Nat} (s : State) (x : CtxId) (st : CtxState) (ha : pageBase a ≠ pgDebug) :
    Spares a s (s.setCtxState x st) := by
  unfold setCtxState
  extract_lets s1 s2 s3 s4
  have h2 : Spares a s s2 := by
    unfold s2
    split
    · exact (Spares.updWy s x.w _).trans (.updWy _ x.w _)
    · exact .updWy s x.w _
  have h3 : Spares a s2 s3 := .onlyIf s2 _ (f := fun s => s.interrupt x.w x.core.ix 4) (.updWy s2 x.w _)
  have h4 : Spares a s3 s4 := .onlyIf s3 _ (f := fun s => s.unquiet x.w x.c.val) (.updWy s3 x.w _)
  exact h2.trans (h3.trans (h4.trans (.onlyIf s4 _ (f := fun s => s.raiseBit pgDebug 0) (.raiseBit s4 0 fun h => ha h.symm))))

theorem spares_stepEnds {a : Nat} (s : State) (x : CtxId) (ha : pageBase a ≠ pgDebug) : Spares a s (s.stepEnds x) := by
  unfold stepEnds
  split
  · refine Spares.trans ?_ (.count _ 1 ?_)
    · exact (spares_updCtx s x _).trans (spares_setCtxState _ x _ ha)
    · rintro rfl
      exact ha rfl
  · exact .refl a s

/-- An issue counts in its own counter of the two and not in the other; its core is then at the issue's cycle. -/
def IssueCounted (s t : State) (i : Issue) : Prop :=
  (t.core i.id.w i.id.core.ix).cycle = s.issueCycle i ∧ Counted s t (issueCtr i) ∧
    ∀ a ∈ issueCtrs i.id, a ≠ issueCtr i → t.ctr a = s.ctr a

theorem issue_counts {long : Bool} {reads addrs : List Reg} {f : State → Effect} {half : Option Half}
    (hready : s.Ready i reads (if long then 4 else 2) half addrs) (hs : s.Canon) (hf : f (s.fetched i half) = .done u)
    (hspares : ∀ a, Spares a (s.fetched i half) u)
    (hcycle : (u.core i.id.w i.id.core.ix).cycle = ((s.fetched i half).core i.id.w i.id.core.ix).cycle) :
    IssueCounted s (s.issue i long reads f half addrs) i := by
  have hend : ∀ a ∈ issueCtrs i.id, Spares a (s.fetched i half) (s.issue i long reads f half addrs) := fun a ha => by
    rw [issue_done s hready hf]
    refine (hspares a).trans (Spares.trans ?_ (spares_stepEnds _ _ ?_))
    · exact spares_updCtx u i.id _
    · rw [pageBase_issueCtr ha]
      unfold pgCore wyBase pgDebug
      omega
  refine ⟨?_, ?_, fun a ha hne => ?_⟩
  · rw [issue_done_core (v := Core.cycle) hready hf fun _ _ => rfl, hcycle]
    exact congrArg (·.2.1) (kept_fetched s i half)
  · obtain ⟨v, hbefore, hafter⟩ := (books_spares i.id (issueCtr_mem i)).fetched s half hready.2.2
    exact .of_spares hbefore.1 (hbefore.2 hs) ((hafter.1.trans (hend _ (issueCtr_mem i))).1)
  · obtain ⟨v, hbefore, hafter⟩ := (books_spares i.id ha).fetched s half hready.2.2
    exact ((hbefore.1.trans (.count v 1 hne)).trans (hafter.1.trans (hend a ha))).1

theorem IssueCounted.by_pair (h : IssueCounted s t i) :
    (t.core i.id.w i.id.core.ix).cycle = (if i.pair then (s.core i.id.w i.id.core.ix).cycle
      else (s.core i.id.w i.id.core.ix).cycle + i.gap + 1) ∧
    (if i.pair then Counted s t (pgCore i.id.w i.id.core.ix + 0x48) ∧
        t.ctr (pgCore i.id.w i.id.core.ix + 0x40) = s.ctr (pgCore i.id.w i.id.core.ix + 0x40)
      else Counted s t (pgCore i.id.w i.id.core.ix + 0x40) ∧
        t.ctr (pgCore i.id.w i.id.core.ix + 0x48) = s.ctr (pgCore i.id.w i.id.core.ix + 0x48)) := by
  obtain ⟨hcycle, hcounted, hother⟩ := h
  refine ⟨hcycle, ?_⟩
  unfold issueCtr at hcounted hother
  by_cases hpair : i.pair = true
  · simp only [if_pos hpair] at hcounted hother ⊢
    exact ⟨hcounted, hother _ (by simp [issueCtrs]) (by omega)⟩
  · simp only [if_neg hpair] at hcounted hother ⊢
    exact ⟨hcounted, hother _ (by simp [issueCtrs]) (by omega)⟩

end Sys2Proof.Machine.State

namespace Sys2Proof.Machine
open State

/-- Settles O60: the condition is `pairOk`'s, and what MOV, ADD and NOP do counts no issue. -/
theorem pairIssue : Obligations.PairIssue := by
  unfold Obligations.PairIssue
  intro s i d r n m hs
  refine ⟨fun hready => ⟨pairsWith_of_pairOk (pairOk_of_ready hready), _, rfl, IssueCounted.by_pair ?_⟩,
    fun hready => ⟨pairsWith_of_pairOk (pairOk_of_ready hready), _, rfl, IssueCounted.by_pair ?_⟩,
    fun hready => ⟨alone_of_pairOk (pairOk_of_ready hready), _, rfl, IssueCounted.by_pair ?_⟩⟩
  · exact issue_counts (long := false) hready hs (by rfl) (fun a => spares_updCtx _ _ _) (congrArg Core.cycle (updCtx_core _ _ _ _ _))
  · refine issue_counts (long := false) hready hs (by rfl) (fun a => (spares_updCtx _ _ _).trans (spares_addrResult _ _ _)) ?_
    simp [addrResult, resultAt]
  · exact issue_counts (long := false) hready hs (by rfl) (fun a => .refl a _) rfl

end Sys2Proof.Machine

end

/-!
# Interrupts

INT_SOFT is one change of its core's pending sources (`softInts_core`). A step of an entry does its work in the state that the
core's grant of the cycle leaves (`onEntry`), where the entry stands as it did.
-/

section

namespace Sys2Proof.Machine.State

variable {s : State} {k : CoreId}

/-! ### Software interrupts -/

/-- The sources among `l` that a mask names are pending. -/
def softPend (mask : BitVec 4) (l : List Nat) (p : W16) : W16 :=
  l.foldl (fun p n => if mask.getLsbD n then p ||| BitVec.ofNat 16 (2 ^ n) else p) p

theorem softPend_all (mask : BitVec 4) (p : W16) : softPend mask (List.range 4) p = p ||| mask.setWidth 16 := by
  have hbits : ∀ m : BitVec 4, m.setWidth 16 = (if m.getLsbD 0 then 1#16 else 0#16) ||| ((if m.getLsbD 1 then 2#16 else 0#16) |||
      ((if m.getLsbD 2 then 4#16 else 0#16) ||| (if m.getLsbD 3 then 8#16 else 0#16))) := by decide
  have hstep : ∀ (b : Bool) (q v : W16), (if b then q ||| v else q) = q ||| (if b then v else 0#16) := fun b q v => by cases b <;> simp
  simp only [softPend, show List.range 4 = [0, 1, 2, 3] from rfl, List.foldl_cons, List.foldl_nil, hstep, BitVec.or_assoc]
  rw [hbits mask]
  rfl

/-- The sources of a core that software makes pending (R161). -/
def softInts (s : State) (k : CoreId) (mask : BitVec 4) (l : List Nat) : State :=
  s.each l (fun s n => s.onlyIf (mask.getLsbD n) (fun s => s.interrupt k.w k.ix n))

theorem softInts_core (mask : BitVec 4) (l : List Nat) (s : State) :
    (s.softInts k mask l).core k.w k.ix = { s.core k.w k.ix with intPend := softPend mask l (s.core k.w k.ix).intPend } := by
  induction l generalizing s with
  | nil => rfl
  | cons n l ih =>
    refine (ih (s.onlyIf (mask.getLsbD n) (fun s => s.interrupt k.w k.ix n))).trans ?_
    unfold onlyIf
    cases hn : mask.getLsbD n <;> simp [softPend, interrupt, hn]

theorem softInts_leaves (s : State) (k : CoreId) (mask : BitVec 4) (l : List Nat) :
    (∀ j, j ≠ k.ix → (s.softInts k mask l).core k.w j = s.core k.w j) ∧
      Only s (s.softInts k mask l) (·.updWy k.w (fun y => { y with cores := [] })) := by
  constructor
  · intro j hj
    refine each_induct (fun t => t.core k.w j = s.core k.w j) _ (fun t n ht => ?_) l s rfl
    unfold onlyIf
    split
    · exact (core_updCore t k.w k.ix _ k.w j).trans ((if_neg fun h => hj h.2.symm).trans ht)
    · exact ht
  · refine .each (fun s n => .onlyIf _ (f := fun s => s.interrupt k.w k.ix n) ?_) l s
    unfold interrupt updCore
    exact (Only.refl s _).change fun _ => rfl

theorem intSoft_pends (a : Agent) (mask : BitVec 4) (hreach : s.reach a k.w = true) :
    Completes (.intSoft a k mask) s (fun t =>
      (t.core k.w k.ix).intPend = (s.core k.w k.ix).intPend ||| mask.setWidth 16 ∧
      t.core k.w k.ix = { s.core k.w k.ix with intPend := (t.core k.w k.ix).intPend } ∧ (∀ j, j ≠ k.ix → t.core k.w j = s.core k.w j) ∧
      Only s t (·.updWy k.w (fun y => { y with cores := [] }))) := by
  have hcore := softInts_core (k := k) mask (List.range 4) s
  rw [softPend_all] at hcore
  have hpend := congrArg Core.intPend hcore
  exact ⟨s.softInts k mask (List.range 4), congrArg Host.Outcome.next (if_pos hreach), hpend, hcore.trans (by rw [hpend]),
    softInts_leaves s k mask (List.range 4)⟩

/-! ### The state in which a step of an entry does its work -/

/-- A core that forgets the instruction it issued last. -/
def unpaired (c : Core) : Core := { c with last := none }

/-- The core has granted context 0 the cycle of the step. -/
def onEntry (s : State) (k : CoreId) (gap : Nat) : State :=
  (s.takeCycle (master k) ((s.core k.w k.ix).cycle + gap + 1) gap).updCore k.w k.ix unpaired

theorem entryStep_may {gap : Nat} {ready : BitVec 8} (h : s.entryMay k gap ready = true) :
    s.entryStep k gap ready = (s.onEntry k gap).entryWork k := if_pos h

/-- The entry that a core is in. -/
def entryView (c : Core) := (c.entryStep, c.entrySource, c.handlers, c.spcx, c.ssr)

theorem onEntry_core (s : State) (k : CoreId) (gap : Nat) : entryView ((s.onEntry k gap).core k.w k.ix) = entryView (s.core k.w k.ix) ∧
    ((s.onEntry k gap).core k.w k.ix).cycle = (s.core k.w k.ix).cycle + gap + 1 := by
  have hgrant := alike_coresBy_takeCycle (v := fun c => (entryView c, c.cycle)) (fun _ _ _ => rfl) s (master k)
    ((s.core k.w k.ix).cycle + gap + 1) gap fun _ _ => rfl
  have hcore := hgrant.core_by k.w k.ix
  simp only [onEntry, core_updCore_same]
  have hrun : (s.runTo (master k).core ((s.core k.w k.ix).cycle + gap + 1)).core k.w k.ix = _ := core_updCore_same _ _ _ _
  rw [hrun] at hcore
  exact ⟨congrArg Prod.fst hcore, congrArg Prod.snd hcore⟩

theorem onEntry_ctx (s : State) (k : CoreId) (gap : Nat) (y : CtxId) : (s.onEntry k gap).ctx y = s.ctx y := by
  refine Quiet.ctx_all (fun x => ?_) y
  exact (quiet_takeCycle s x _ _ _).trans (quiet_updCore _ x _ _ _ fun _ => rfl)

theorem takeable_unpaired (u : State) (k : CoreId) : (u.updCore k.w k.ix unpaired).takeable k = u.takeable k := by
  have hwords : ∀ a, (u.updCore k.w k.ix unpaired).rd a = u.rd a := fun a => by simp [rd]
  have hctr : ∀ a, (u.updCore k.w k.ix unpaired).ctr a = u.ctr a := fun a => by simp [ctr]
  have hpend : ((u.updCore k.w k.ix unpaired).core k.w k.ix).intPend = (u.core k.w k.ix).intPend := by
    rw [core_updCore_same]
    rfl
  have hsamples : ((u.updCore k.w k.ix unpaired).core k.w k.ix).samples = (u.core k.w k.ix).samples := by
    rw [core_updCore_same]
    rfl
  simp only [takeable, pendingInts, perfPending, pmcSel, hwords, hctr, hpend, hsamples, updCore_ctx]
  rfl

theorem srWord_unpaired (u : State) (x : CtxId) (sr : W16) : (u.updCore x.w x.core.ix unpaired).srWord x sr = u.srWord x sr := by
  have hmode : ((u.updCore x.w x.core.ix unpaired).wy x.w).mode = (u.wy x.w).mode := by simp [updCore]
  have hcycle : ((u.updCore x.w x.core.ix unpaired).core x.w x.core.ix).cycle = (u.core x.w x.core.ix).cycle := by
    rw [core_updCore_same]
    rfl
  have hwas : ((u.updCore x.w x.core.ix unpaired).core x.w x.core.ix).plumbWas = (u.core x.w x.core.ix).plumbWas := by
    rw [core_updCore_same]
    rfl
  simp only [srWord, plumb, plumbAt, plumbSet, coreCfg, hmode, hcycle, hwas, updCore_course, stActive, stPrevious, updCore_active,
    updCore_previous]

/-! ### The steps -/

theorem arbitrate_leaves {α : Type} {v : Core → α} (hv : ∀ c m b l, v { c with entrySource := m, entryTook := b, handlers := l } = v c)
    (s : State) (k : CoreId) : v ((s.arbitrate k).core k.w k.ix) = v (s.core k.w k.ix) ∧ ∀ y, (s.arbitrate k).ctx y = s.ctx y := by
  unfold arbitrate
  split
  · exact ⟨rfl, fun _ => rfl⟩
  · simp [hv]

/-- E2 saves A0 and D0 and clears IE (R162). -/
def shadowed (s : State) (k : CoreId) : State :=
  (s.updCore k.w k.ix (fun c => { c with sa0 := (s.ctx (master k)).a[0], sd0 := (s.ctx (master k)).d[0], entryStep := 2 })).updCtx (master k)
    (fun c => { c with sr := c.sr &&& 0x7FFF#16 })

/-- E6 goes on at the vector of the entry's source (R162), before it counts. -/
def vectored (s : State) (k : CoreId) (vec : W24) : State :=
  (s.updCore k.w k.ix (fun c => { c with
    entryStep := 0, lastEntry := w32 (at' (b2n (s.core k.w k.ix).entryTook) 5 + 0x10 + (s.core k.w k.ix).entrySource) })).updCtx (master k)
    (fun c => { c with pcx := vec })

/-- The counts and samples at the end of an entry (R162, R173). -/
def entryCounts (s : State) (k : CoreId) (took : Bool) : State :=
  ((s.count (pgCore k.w k.ix + 0x60) 1).onlyIf took (fun s => s.count (pgCore k.w k.ix + 0x68) 1)).pmc k.w k.ix 0x17 none 1

theorem entryCounts_leaves (s : State) (k : CoreId) (took : Bool) :
    entryView ((s.entryCounts k took).core k.w k.ix) = entryView (s.core k.w k.ix) ∧ ∀ y, (s.entryCounts k took).ctx y = s.ctx y := by
  unfold entryCounts
  constructor
  · refine Alike.core_by ?_ k.w k.ix
    refine Alike.trans ?_ (alike_coresBy_pmc (fun _ _ _ => rfl) _ _ _ _ _ _)
    exact (Alike.of_wy (by simp)).trans (.onlyIf _ _ (f := fun s => s.count _ 1) (.of_wy (by simp)))
  · simp

/-- The vectors' block is a word of the core's page, which the books of a cycle leave. -/
theorem onEntry_vectors (s : State) (k : CoreId) (gap : Nat) : (s.onEntry k gap).rd (pgCore k.w k.ix + 0x11C) = s.rd (pgCore k.w k.ix + 0x11C) := by
  have hmem : pgCore k.w k.ix + 0x40 ∈ issueCtrs (master k) := List.mem_cons_self
  have hpage : pageBase (pgCore k.w k.ix + 0x11C) = pageBase (pgCore k.w k.ix + 0x40) := by
    rw [pageBase_issueCtr hmem]
    exact pageBase_page_add (by unfold pgCore wyBase; omega) (by decide)
  have hspares := ((books_spares (master k) hmem).takeCycle s ((s.core k.w k.ix).cycle + gap + 1) gap).1
  exact (updCore_rd _ _ _ _ _).trans (hspares.2 _ hpage)

section
variable {gap : Nat} {ready : BitVec 8} (hmay : s.entryMay k gap ready = true)
include hmay

theorem entry_first {n : Nat} (hstep : (s.core k.w k.ix).entryStep = 0)
    (htop : topSource ((s.takeCycle (master k) ((s.core k.w k.ix).cycle + gap + 1) gap).takeable k) = some n) :
    Completes (.interruptEntry k gap ready) s (fun t =>
      (t.core k.w k.ix).spcx = (s.ctx (master k)).pcx ∧
      (t.core k.w k.ix).ssr = (s.takeCycle (master k) ((s.core k.w k.ix).cycle + gap + 1) gap).srWord (master k) (s.ctx (master k)).sr ∧
      (t.core k.w k.ix).cycle = (s.core k.w k.ix).cycle + gap + 1 ∧ (t.core k.w k.ix).entrySource = n ∧ (t.core k.w k.ix).entryStep = 1 ∧
      (t.core k.w k.ix).handlers = n :: (s.core k.w k.ix).handlers ∧ (t.ctx (master k)).state = .entry ∧
      (t.ctx (master k)).pcx = (s.ctx (master k)).pcx ∧ (t.ctx (master k)).a = (s.ctx (master k)).a ∧
      (t.ctx (master k)).d = (s.ctx (master k)).d ∧ ∀ y, y ≠ master k → t.ctx y = s.ctx y) := by
  refine ⟨_, congrArg Host.Outcome.next (entryStep_may hmay), ?_⟩
  obtain ⟨hview, hcycle⟩ := onEntry_core s k gap
  have hsources : (s.onEntry k gap).takeable k = _ := takeable_unpaired _ k
  have hsr : ∀ sr, (s.onEntry k gap).srWord (master k) sr = _ := srWord_unpaired _ (master k)
  have hctx := onEntry_ctx s k gap
  generalize s.onEntry k gap = u at *
  simp only [entryView, Prod.mk.injEq] at hview
  obtain ⟨hat, -, hhandlers, -, -⟩ := hview
  rw [hstep] at hat
  simp only [entryWork, hat, hsources, htop, hsr, hctx, core_updCore_same, updCtx_core, updCore_ctx, ctx_updCtx_same, Option.getD_some, hcycle,
    hhandlers, true_and]
  obtain ⟨hpcx, hstate, -, ha, hd, -⟩ := settleCtx_keeps ((s.core k.w k.ix).cycle + gap + 1) { s.ctx (master k) with state := .entry }
  refine ⟨hstate, hpcx, ha, hd, fun y hy => ?_⟩
  rw [ctx_updCtx_ne _ _ hy, hctx]

theorem entry_second (hstep : (s.core k.w k.ix).entryStep = 1) :
    Completes (.interruptEntry k gap ready) s (fun t =>
      (t.core k.w k.ix).sa0 = (s.ctx (master k)).a[0] ∧ (t.core k.w k.ix).sd0 = (s.ctx (master k)).d[0] ∧ (t.core k.w k.ix).entryStep = 2 ∧
      (t.core k.w k.ix).spcx = (s.core k.w k.ix).spcx ∧ (t.core k.w k.ix).ssr = (s.core k.w k.ix).ssr ∧
      (t.ctx (master k)).sr = (s.ctx (master k)).sr &&& 0x7FFF#16 ∧ (t.ctx (master k)).a = (s.ctx (master k)).a ∧
      (t.ctx (master k)).d = (s.ctx (master k)).d ∧ ∀ y, y ≠ master k → t.ctx y = s.ctx y) := by
  refine ⟨_, congrArg Host.Outcome.next (entryStep_may hmay), ?_⟩
  have hview := (onEntry_core s k gap).1
  have hctx := onEntry_ctx s k gap
  generalize s.onEntry k gap = u at *
  simp only [entryView, Prod.mk.injEq] at hview
  obtain ⟨hat, -, -, hspcx, hssr⟩ := hview
  have hwork : u.entryWork k = (u.shadowed k).arbitrate k := by simp only [entryWork, hat, hstep, shadowed]
  obtain ⟨hviews, hctxs⟩ := arbitrate_leaves (v := fun c => (c.sa0, c.sd0, c.entryStep, c.spcx, c.ssr)) (fun _ _ _ _ => rfl) (u.shadowed k) k
  have hcore : (u.shadowed k).core k.w k.ix =
      { u.core k.w k.ix with sa0 := (s.ctx (master k)).a[0], sd0 := (s.ctx (master k)).d[0], entryStep := 2 } := by simp [shadowed, hctx]
  simp only [hcore, hspcx, hssr, Prod.mk.injEq] at hviews
  obtain ⟨hsa0, hsd0, hentry, hpcx, hsr⟩ := hviews
  have hown : (u.shadowed k).ctx (master k) = { s.ctx (master k) with sr := (s.ctx (master k)).sr &&& 0x7FFF#16 } := by simp [shadowed, hctx]
  simp only [hwork, hctxs, hown]
  refine ⟨hsa0, hsd0, hentry, hpcx, hsr, trivial, trivial, trivial, fun y hy => ?_⟩
  simp [shadowed, hctx, ctx_updCtx_ne _ _ hy]

theorem entry_last (hstep : (s.core k.w k.ix).entryStep = 5) (hhalt : (s.ctx (master k)).haltDue = false)
    (hstepping : (s.ctx (master k)).stepping = false) :
    Completes (.interruptEntry k gap ready) s (fun t =>
      (t.ctx (master k)).pcx = BitVec.ofNat 24 (16 * fld (s.rd (pgCore k.w k.ix + 0x11C)) 15 4 + 16 * (s.core k.w k.ix).entrySource) ∧
      (t.ctx (master k)).state = .running ∧ (t.ctx (master k)).a = (s.ctx (master k)).a ∧ (t.ctx (master k)).d = (s.ctx (master k)).d ∧
      (t.ctx (master k)).sr = (s.ctx (master k)).sr ∧ (t.core k.w k.ix).entryStep = 0 ∧ (t.core k.w k.ix).spcx = (s.core k.w k.ix).spcx ∧
      (t.core k.w k.ix).ssr = (s.core k.w k.ix).ssr ∧ ∀ y, y ≠ master k → t.ctx y = s.ctx y) := by
  refine ⟨_, congrArg Host.Outcome.next (entryStep_may hmay), ?_⟩
  have hview := (onEntry_core s k gap).1
  have hctx := onEntry_ctx s k gap
  have hvec := onEntry_vectors s k gap
  generalize s.onEntry k gap = u at *
  simp only [entryView, Prod.mk.injEq] at hview
  obtain ⟨hat, hsource, -, hspcx, hssr⟩ := hview
  let vec := BitVec.ofNat 24 (16 * fld (s.rd (pgCore k.w k.ix + 0x11C)) 15 4 + 16 * (s.core k.w k.ix).entrySource)
  have hwork : u.entryWork k = ((u.vectored k vec).entryCounts k (u.core k.w k.ix).entryTook).updCtx (master k)
      (fun c => { c with state := .running, haltDue := false, stepping := false }) := by
    simp [entryWork, hat, hstep, hctx, hhalt, hstepping, hvec, hsource, Nat.mul_comm _ 16, vectored, entryCounts, vec]
  obtain ⟨hviews, hctxs⟩ := entryCounts_leaves (u.vectored k vec) k (u.core k.w k.ix).entryTook
  have hcore : entryView ((u.vectored k vec).core k.w k.ix) = (0, entryView (u.core k.w k.ix) |>.2) := by simp [vectored, entryView]
  rw [hcore] at hviews
  simp only [entryView, hspcx, hssr, Prod.mk.injEq] at hviews
  obtain ⟨hentry, -, -, hpcx, hsr⟩ := hviews
  have hown : (u.vectored k vec).ctx (master k) = { s.ctx (master k) with pcx := vec } := by simp [vectored, hctx]
  rw [hwork]
  simp only [updCtx_core, ctx_updCtx_same, hctxs, hown]
  refine ⟨rfl, trivial, trivial, trivial, trivial, hentry, hpcx, hsr, fun y hy => ?_⟩
  rw [ctx_updCtx_ne _ _ hy, hctxs, vectored, ctx_updCtx_ne _ _ hy, updCore_ctx, hctx]

end

end Sys2Proof.Machine.State

namespace Sys2Proof.Machine
open State

/-- Settles O31: the fold of INT_SOFT's sources, and each step of an entry in the state that the granted cycle leaves. -/
theorem interrupts : Obligations.Interrupts := by
  unfold Obligations.Interrupts
  intro s k x c c'
  refine ⟨fun a mask hreach => intSoft_pends a mask hreach, fun gap ready => ⟨?_, ?_, ?_, ?_⟩⟩
  · exact fun n hmay hstep htop => entry_first hmay hstep htop
  · exact fun hmay => ⟨s, congrArg Host.Outcome.next (if_neg (by simp [hmay])), rfl⟩
  · exact fun hmay hstep => entry_second hmay hstep
  · exact fun hmay hstep hhalt hstepping => entry_last hmay hstep hhalt hstepping

end Sys2Proof.Machine

end

/-!
# Calls while a window retires

The window of a context whose VERD has retired stays readable until its cycle ends (R144, R242). An instruction issued in that cycle or
later finds it empty, whatever the instruction does.
-/

section

namespace Sys2Proof.Machine

/-- Context 0 of core 0 of course 0 of wythe 0. -/
def retiringId : CtxId := ⟨0, 0, 0, 0⟩

/-- That context runs from address 0x100, its stack in the data scratchpad, and reads the window of a slug until cycle 1. -/
def retiringCtx : Ctx :=
  { pcx := 0x100, a := #v[0, 0, 0, 0, 0, 0, 0, 0x504], state := .running, slug := some ⟨[0xAB], 0, 0⟩, slugEnds := some 1 }

/-- Wythe 0 in RUN, all else at reset. -/
def runningState : State := State.reset.updWy 0 (fun y => { y with mode := .run })

/-- Wythe 0 in RUN, with that context. -/
def retiringState : State := runningState.updCtx retiringId (fun _ => retiringCtx)

/-- The context issues in the core's cycle 1. -/
def retiringIssue : Issue := ⟨retiringId, 0, .good, .good, false, 0⟩

theorem retiringState_ready : retiringState.Ready retiringIssue [.a 7] 4 none [.a 7] :=
  ⟨by decide +kernel, by decide +kernel, by decide⟩

theorem retiringState_sound : retiringState.Sound retiringIssue 0x500 4 :=
  ⟨by decide +kernel, by decide +kernel, by decide +kernel, rfl⟩

theorem State.MemCanon.of_same_memory {s t : State} (h : s.MemCanon) (hcore : ∀ w k, t.core w k = s.core w k)
    (hcourse : ∀ w c, t.course w c = s.course w c) (hareas : ∀ x, (t.ctx x).areas = (s.ctx x).areas) : t.MemCanon := by
  simpa only [State.MemCanon, hcore, hcourse, hareas] using h

theorem runningState_memCanon : runningState.MemCanon := by
  refine State.reset_memCanon.of_same_memory (fun w k => ?_) (fun w c => ?_) (fun x => ?_)
  · rcases wythe_cases w with rfl | rfl <;> rfl
  · rcases wythe_cases w with rfl | rfl <;> rfl
  · obtain ⟨w, c, k, y⟩ := x
    rcases wythe_cases w with rfl | rfl <;> rfl

theorem retiringState_memCanon : retiringState.MemCanon := by
  refine runningState_memCanon.of_same_memory (fun w k => State.updCtx_core _ _ _ w k) (fun w c => State.updCtx_course _ _ _ w c) fun x => ?_
  by_cases hx : x = retiringId
  · subst hx
    rfl
  · exact congrArg Ctx.areas (State.ctx_updCtx_ne _ _ hx)

/-- The window's first byte is not among the bytes of the stack that CALL writes. -/
theorem retiringState_cell : ∀ c ∈ State.accessBytes 0x500 4, retiringState.cell retiringId 0x30000 ≠ retiringState.cell retiringId c := by
  decide +kernel

theorem retiringState_window : retiringState.memByte retiringId 0x30000 = 0xAB := by decide +kernel

/-- What CALL of address 0 makes of that state. -/
def retiringCall : State :=
  retiringState.issue retiringIssue true [.a 7] (addrs := [.a 7]) (fun s => s.call retiringId 4 (State.absTarget 0) 3 .good)

theorem retiringCall_window : retiringCall.memByte retiringId 0x30000 = 0 := by decide +kernel

/-- Refutes O6: a CALL that issues once the context's window has run out finds the window empty (R144, R242), and the clause of CALL,
which assumes no window that retires, asks that every byte but the four pushed read as before. -/
theorem not_controlFlow : ¬ Obligations.ControlFlow := by
  unfold Obligations.ControlFlow
  rintro ⟨-, stack, -⟩
  obtain ⟨call, -⟩ := stack retiringState retiringIssue retiringState_memCanon
  obtain ⟨t, ht, -, -, hframe⟩ := call 0 retiringState_ready (by decide +kernel) (by decide +kernel) retiringState_sound
  have ht : retiringCall = t := Host.Outcome.next.inj ht
  subst ht
  have hkept := hframe retiringId 0x30000 retiringState_cell
  rw [retiringState_window, retiringCall_window] at hkept
  exact absurd hkept (by decide)

end Sys2Proof.Machine

end
